-- ==== Sys2Proof/Word.lean ====
section
/-! DEFINITION. The machine's words (00_scope.md R8, R9) and their plainest arithmetic. -/

namespace Sys2Proof

/-- A byte (R9). -/
abbrev Byte := BitVec 8

/-- A dword: the width of g and xe registers, of the pc and of every named state (R9, R115). -/
abbrev Word := BitVec 64

/-- A vector register (R115). -/
abbrev VWord := BitVec 512

/-- The number of a g register. -/
abbrev Reg := BitVec 5

/-- The number of a v, k or xe register. -/
abbrev VReg := BitVec 3

/-- Bits `lo + n - 1` down to `lo` of a number. -/
def field (w lo n : Nat) : Nat := w / 2 ^ lo % 2 ^ n

/-- A decidable fact as a dword: 1 or 0. -/
def ofBool (b : Bool) : Word := if b then 1#64 else 0#64

end Sys2Proof
end

