-- ==== Sys2Proof/Machine/Flags.lean ====
section
/-! DEFINITION. The rounding state `rmode` (03_number_formats.md R85): its mode, and the sticky flags as a dword that
is ORed into it. -/

namespace Sys2Proof.Machine

/-- Rounding modes, MODE of `rmode` (R85). -/
inductive RMode where
  | rne | rtz | rdn | rup
  deriving DecidableEq, Repr

/-- What a conversion gives on overflow (R90). -/
inductive Ovf where
  | inf | sat | nan
  deriving DecidableEq, Repr

/-- The sticky flags at their places in `rmode` (R85). -/
def flagNX : Word := 0x10#64
def flagUF : Word := 0x20#64
def flagOF : Word := 0x40#64
def flagDZ : Word := 0x80#64
def flagNV : Word := 0x100#64

/-- A flag if a condition holds. -/
def flagIf (b : Bool) (f : Word) : Word := if b then f else 0#64

/-- MODE of an `rmode` (R85). -/
def rmodeMode (r : Word) : RMode :=
  match r.toNat % 4 with
  | 0 => .rne
  | 1 => .rtz
  | 2 => .rdn
  | _ => .rup

end Sys2Proof.Machine
end

