-- ==== Sys2Proof/Machine/Numfmt.lean ====
section
/-! DEFINITION. Number formats, rounding and conversion (03_number_formats.md R72-R95), in exact arithmetic: a finite
value is a sign, a natural mantissa and an integer exponent. Quotients and roots carry a low bit that says whether more
nonzero bits follow, far below every rounding point. -/

namespace Sys2Proof.Machine

/-- An exact value (R12): m times 2^e when finite and not zero. -/
inductive FVal where
  | nan (signalling : Bool)
  | inf (neg : Bool)
  | zero (neg : Bool)
  | fin (neg : Bool) (m : Nat) (e : Int)
  deriving DecidableEq, Repr

/-- How a format uses its top exponent field (R74). -/
inductive Special where
  | ieee | oneNan | none
  deriving DecidableEq, Repr

/-- A floating-point format (R73). -/
structure Fmt where
  ebits : Nat
  mbits : Nat
  bias : Nat
  special : Special
  deriving DecidableEq, Repr

def fp64 : Fmt := ⟨11, 52, 1023, .ieee⟩
def fp32 : Fmt := ⟨8, 23, 127, .ieee⟩
def bf16 : Fmt := ⟨8, 7, 127, .ieee⟩
def fp16 : Fmt := ⟨5, 10, 15, .ieee⟩
def e5m2 : Fmt := ⟨5, 2, 15, .ieee⟩
def e4m3 : Fmt := ⟨4, 3, 7, .oneNan⟩
def e3m2 : Fmt := ⟨3, 2, 3, .none⟩
def e2m3 : Fmt := ⟨2, 3, 1, .none⟩
def e2m1 : Fmt := ⟨2, 1, 1, .none⟩

/-- Width in bits. -/
def Fmt.width (f : Fmt) : Nat := 1 + f.ebits + f.mbits

/-- Smallest normal exponent (R90). -/
def Fmt.emin (f : Fmt) : Int := 1 - f.bias

/-- Largest exponent of a finite value, and the largest mantissa there, of `mbits` + 1 bits (R73). -/
def Fmt.emax (f : Fmt) : Int :=
  match f.special with
  | .ieee => (2 ^ f.ebits - 2 : Int) - f.bias
  | _ => (2 ^ f.ebits - 1 : Int) - f.bias
def Fmt.nmax (f : Fmt) : Nat :=
  match f.special with
  | .oneNan => 2 ^ (f.mbits + 1) - 2
  | _ => 2 ^ (f.mbits + 1) - 1

/-- Sign bit of an encoding. -/
def Fmt.sign (f : Fmt) (neg : Bool) : Nat := if neg then 2 ^ (f.ebits + f.mbits) else 0

/-- Canonical NaN (R74); +0 for a format without one (R90). -/
def Fmt.canonNan (f : Fmt) : Nat :=
  match f.special with
  | .ieee => (2 ^ f.ebits - 1) * 2 ^ f.mbits + 2 ^ (f.mbits - 1)
  | .oneNan => 2 ^ (f.ebits + f.mbits) - 1
  | .none => 0

/-- Encoding of infinity, or of the largest finite value where the format has none. -/
def Fmt.maxFinite (f : Fmt) (neg : Bool) : Nat :=
  f.sign neg + ((f.emax - f.emin).toNat * 2 ^ f.mbits + f.nmax)
def Fmt.infinity (f : Fmt) (neg : Bool) : Nat := f.sign neg + (2 ^ f.ebits - 1) * 2 ^ f.mbits

/-- The value of an encoding (R73, R74). -/
def Fmt.decode (f : Fmt) (bits : Nat) : FVal :=
  let man := bits % 2 ^ f.mbits
  let ex := bits / 2 ^ f.mbits % 2 ^ f.ebits
  let neg := bits / 2 ^ (f.ebits + f.mbits) % 2 = 1
  if ex = 2 ^ f.ebits - 1 && f.special = .ieee then
    if man = 0 then .inf neg else .nan (man < 2 ^ (f.mbits - 1))
  else if ex = 2 ^ f.ebits - 1 && f.special = .oneNan && man = 2 ^ f.mbits - 1 then .nan false
  else if ex = 0 then
    if man = 0 then .zero neg else .fin neg man (f.emin - f.mbits)
  else .fin neg (2 ^ f.mbits + man) ((ex : Int) - f.bias - f.mbits)

/-- Exp of R89: floor of the base-2 logarithm of a finite value. -/
def expOf (m : Nat) (e : Int) : Int := (Nat.log2 m : Int) + e

/-- An integer quotient by a power of two rounded by a mode, with whether anything was lost; `neg` gives the sign for
the directed modes (R90). -/
def roundShift (neg : Bool) (m sh : Nat) (mode : RMode) : Nat × Bool :=
  let q := m / 2 ^ sh
  let r := m % 2 ^ sh
  if r = 0 then (q, false)
  else
    let up : Bool := match mode with
      | .rne => if 2 * r = 2 ^ sh then q % 2 == 1 else decide (2 ^ sh < 2 * r)
      | .rtz => false
      | .rdn => neg
      | .rup => !neg
    (if up then q + 1 else q, true)

/-- A value m times 2^ex as an integer multiple of 2^quantum, rounded. -/
def roundAt (neg : Bool) (m : Nat) (ex quantum : Int) (mode : RMode) : Nat × Bool :=
  if quantum ≤ ex then (m * 2 ^ (ex - quantum).toNat, false)
  else roundShift neg m (quantum - ex).toNat mode

/-- Overflow of R90. -/
def overflow (f : Fmt) (neg : Bool) (mode : RMode) (ovf : Ovf) : Nat :=
  match f.special with
  | .ieee =>
    match ovf with
    | .sat => f.maxFinite neg
    | _ =>
      match mode with
      | .rne => f.infinity neg
      | .rtz => f.maxFinite neg
      | .rdn => if neg then f.infinity neg else f.maxFinite neg
      | .rup => if neg then f.maxFinite neg else f.infinity neg
  | .oneNan => if ovf = .nan then f.sign neg + f.canonNan else f.maxFinite neg
  | .none => f.maxFinite neg

/-- `RoundToFormat` (R90): the encoding and the flags. -/
def roundToFormat (x : FVal) (f : Fmt) (mode : RMode) (ovf : Ovf) (ftz : Bool) : Nat × Word :=
  match x with
  | .nan sig =>
    if f.special = .none then (0, flagNV) else (f.canonNan, flagIf sig flagNV)
  | .inf neg =>
    match f.special with
    | .ieee => (f.infinity neg, 0#64)
    | .oneNan => (if ovf = .nan then f.sign neg + f.canonNan else f.maxFinite neg, 0#64)
    | .none => (f.maxFinite neg, flagNV)
  | .zero neg => (f.sign neg, 0#64)
  | .fin neg m ex =>
    let e := max (expOf m ex) f.emin
    let (n, lost) := roundAt neg m ex (e - f.mbits) mode
    if e > f.emax || (e = f.emax && n > f.nmax) then (overflow f neg mode ovf, flagOF ||| flagNX)
    else
      let tiny := n < 2 ^ f.mbits
      let flags := flagIf lost flagNX ||| flagIf (lost && tiny) flagUF
      if ftz && tiny && n ≠ 0 then (f.sign neg, flags ||| flagUF ||| flagNX)
      else (f.sign neg + ((e - f.emin).toNat * 2 ^ f.mbits + n), flags)

/-- An operand that reads as zero of its sign when its exponent field is zero (R88). -/
def FVal.flushIn (f : Fmt) : FVal → FVal
  | .fin neg m e => if expOf m e < f.emin then .zero neg else .fin neg m e
  | x => x

/-- Flags and value with the sign changed. -/
def FVal.neg : FVal → FVal
  | .nan s => .nan s
  | .inf n => .inf !n
  | .zero n => .zero !n
  | .fin n m e => .fin (!n) m e

/-- A finite value from a signed mantissa. -/
def FVal.ofInt (v : Int) (e : Int) (zeroNeg : Bool) : FVal :=
  if v = 0 then .zero zeroNeg else .fin (v < 0) v.natAbs e

/-- Signed mantissa. -/
def signed (neg : Bool) (m : Nat) : Int := if neg then -(m : Int) else m

/-- NV for signalling operands (R86). -/
def FVal.sigNV : FVal → Word
  | .nan true => flagNV
  | _ => 0#64

/-- Exact sum (R86). An exact zero of unlike signs is +0, −0 toward −∞. -/
def FVal.add (x y : FVal) (mode : RMode) : FVal × Word :=
  let nv := x.sigNV ||| y.sigNV
  match x, y with
  | .nan _, _ => (.nan false, nv)
  | _, .nan _ => (.nan false, nv)
  | .inf a, .inf b => if a = b then (.inf a, nv) else (.nan false, flagNV)
  | .inf a, _ => (.inf a, nv)
  | _, .inf b => (.inf b, nv)
  | .zero a, .zero b => (.zero (if a = b then a else mode = .rdn), nv)
  | .zero _, y => (y, nv)
  | x, .zero _ => (x, nv)
  | .fin a m e, .fin b n k =>
    let lo := min e k
    (FVal.ofInt (signed a m * 2 ^ (e - lo).toNat + signed b n * 2 ^ (k - lo).toNat) lo (mode = .rdn), nv)

/-- Exact product (R86). -/
def FVal.mul (x y : FVal) : FVal × Word :=
  let nv := x.sigNV ||| y.sigNV
  match x, y with
  | .nan _, _ => (.nan false, nv)
  | _, .nan _ => (.nan false, nv)
  | .inf a, .inf b => (.inf (a != b), nv)
  | .inf _, .zero _ => (.nan false, flagNV)
  | .zero _, .inf _ => (.nan false, flagNV)
  | .inf a, .fin b _ _ => (.inf (a != b), nv)
  | .fin a _ _, .inf b => (.inf (a != b), nv)
  | .zero a, .zero b => (.zero (a != b), nv)
  | .zero a, .fin b _ _ => (.zero (a != b), nv)
  | .fin a _ _, .zero b => (.zero (a != b), nv)
  | .fin a m e, .fin b n k => (.fin (a != b) (m * n) (e + k), nv)

/-- Quotient with a low bit for what follows (R86). -/
def FVal.div (x y : FVal) : FVal × Word :=
  let nv := x.sigNV ||| y.sigNV
  match x, y with
  | .nan _, _ => (.nan false, nv)
  | _, .nan _ => (.nan false, nv)
  | .inf _, .inf _ => (.nan false, flagNV)
  | .zero _, .zero _ => (.nan false, flagNV)
  | .inf a, .zero b => (.inf (a != b), nv)
  | .inf a, .fin b _ _ => (.inf (a != b), nv)
  | .zero a, .inf b => (.zero (a != b), nv)
  | .fin a _ _, .inf b => (.zero (a != b), nv)
  | .zero a, .fin b _ _ => (.zero (a != b), nv)
  | .fin a _ _, .zero b => (.inf (a != b), flagDZ)
  | .fin a m e, .fin b n k =>
    let sh := Nat.log2 n + 72 - Nat.log2 m
    let q := m * 2 ^ sh / n
    let r := m * 2 ^ sh % n
    (.fin (a != b) (2 * q + (if r = 0 then 0 else 1)) (e - k - sh - 1), nv)

/-- Integer square root, one bit at a time from bit `fuel` - 1 down. -/
def isqrt (n : Nat) : Nat → Nat → Nat
  | 0, acc => acc
  | fuel + 1, acc =>
    let t := acc + 2 ^ fuel
    isqrt n fuel (if t * t ≤ n then t else acc)

/-- Square root with a low bit for what follows (R86). -/
def FVal.sqrt (x : FVal) : FVal × Word :=
  match x with
  | .nan s => (.nan false, flagIf s flagNV)
  | .zero a => (.zero a, 0#64)
  | .inf false => (.inf false, 0#64)
  | .inf true => (.nan false, flagNV)
  | .fin true _ _ => (.nan false, flagNV)
  | .fin false m e =>
    let odd : Nat := if e % 2 = 0 then 0 else 1
    let n := m * 2 ^ (160 + odd)
    let k := (e - odd - 160) / 2
    let r := isqrt n (Nat.log2 n / 2 + 1) 0
    (.fin false (2 * r + (if r * r = n then 0 else 1)) (k - 1), 0#64)

/-- Comparison of values that are not NaN: less, equal, greater. Zeros are equal. -/
def FVal.key : FVal → Int × Nat × Int
  | .nan _ => (0, 0, 0)
  | .inf true => (-2, 0, 0)
  | .inf false => (2, 0, 0)
  | .zero _ => (0, 0, 0)
  | .fin true m e => (-1, m, e)
  | .fin false m e => (1, m, e)

/-- x < y for values that are not NaN. -/
def FVal.lt (x y : FVal) : Bool :=
  let a := x.key
  let b := y.key
  let lo := min a.2.2 b.2.2
  let p := a.2.1 * 2 ^ (a.2.2 - lo).toNat
  let q := b.2.1 * 2 ^ (b.2.2 - lo).toNat
  if a.1 ≠ b.1 then decide (a.1 < b.1)
  else if a.1 = 1 then decide (p < q) else if a.1 = -1 then decide (q < p) else false

/-- x = y for values that are not NaN. -/
def FVal.eqv (x y : FVal) : Bool := !x.lt y && !y.lt x

/-- Whether a value is a NaN. -/
def FVal.isNan : FVal → Bool
  | .nan _ => true
  | _ => false

/-- Conversion to an integer range (R91). -/
def toInteger (x : FVal) (lo hi : Int) (mode : RMode) : Int × Word :=
  match x with
  | .nan _ => (0, flagNV)
  | .inf true => (lo, flagNV)
  | .inf false => (hi, flagNV)
  | .zero _ => (0, 0#64)
  | .fin neg m e =>
    let (n, lost) := roundAt neg m e 0 mode
    let v := signed neg n
    if v < lo then (lo, flagNV) else if hi < v then (hi, flagNV) else (v, flagIf lost flagNX)

/-- An integer as an exact value (R91). -/
def FVal.int (v : Int) : FVal := FVal.ofInt v 0 false

/-- Two's-complement value of the low `w` bits (R89 `SignExtend`). -/
def sx (v w : Nat) : Int :=
  let x := v % 2 ^ w
  if x < 2 ^ (w - 1) then x else (x : Int) - 2 ^ w

/-- `SatS` (R89). -/
def satS (v : Int) (w : Nat) : Int := max (-(2 ^ (w - 1))) (min v (2 ^ (w - 1) - 1))

/-- Low `w` bits of an integer. -/
def low (v : Int) (w : Nat) : Nat := (v % 2 ^ w).toNat

/-- `AlignShift` (R89): `rne` false is floor. -/
def alignShift (m : Int) (s : Int) (rne : Bool) : Int :=
  if 0 ≤ s then m * 2 ^ s.toNat
  else if rne then
    let n := (roundShift (m < 0) m.natAbs (-s).toNat .rne).1
    signed (m < 0) n
  else m / 2 ^ (-s).toNat

/-- `BitLength` (R89). -/
def bitLength (x : Nat) : Nat := if x = 0 then 0 else Nat.log2 x + 1

/-- A value times 2^k. -/
def FVal.scale (x : FVal) (k : Int) : FVal :=
  match x with
  | .fin n m e => .fin n m (e + k)
  | y => y

/-- Largest Exp of the finite nonzero values. -/
def maxExp : List FVal → Option Int
  | [] => none
  | .fin _ m e :: t =>
    match maxExp t with
    | none => some (expOf m e)
    | some x => some (max (expOf m e) x)
  | _ :: t => maxExp t

/-- `ToBK` (R92): exponent byte, mantissas, and whether any saturated. -/
def toBK (v : List FVal) (w : Nat) : Nat × List Int × Bool :=
  if v.any (fun x => match x with | .nan _ | .inf _ => true | _ => false) then (0xFF, v.map (fun _ => 0), false)
  else
    match maxExp v with
    | none => (0, v.map (fun _ => 0), false)
    | some emax =>
      let e := max (-127) (min 127 (emax - (w - 2)))
      let lim : Int := 2 ^ (w - 1) - 1
      let q := v.map (fun x => match x with
        | .fin neg m ex => signed neg (roundAt neg m ex e .rne).1
        | _ => 0)
      ((e + 127).toNat, q.map (fun x => max (-lim) (min x lim)), q.any (fun x => lim < x || x < -lim))

/-- A BK mantissa as read (R77): the most negative encoding stands for the next. -/
def bkMantissa (bits w : Nat) : Int := max (-(2 ^ (w - 1) - 1)) (sx bits w)

/-- Element of a BK block as an exact value (R77, R94). -/
def bkValue (q : Int) (x : Nat) : FVal :=
  if x = 0xFF then .nan false else FVal.ofInt q ((x : Int) - 127) false

/-- Element of a microscaled block (R76). -/
def mxValue (f : Fmt) (bits scale : Nat) : FVal :=
  if scale = 0xFF then .nan false else (f.decode bits).scale ((scale : Int) - 127)

/-- Element k of an array of 4-bit elements packed by R79, and of 6-bit elements packed by R80, from a little-endian
number of the bytes. -/
def nibble (bytes k : Nat) : Nat := bytes / 2 ^ (4 * k) % 16
def six (bytes k : Nat) : Nat := bytes / 2 ^ (6 * k) % 64

/-- Numbers laid side by side, `w` bits each, from bit 0. -/
def packBits (w : Nat) : List Nat → Nat
  | [] => 0
  | x :: t => x % 2 ^ w + 2 ^ w * packBits w t

/-- The `n` fields of `w` bits of a number. -/
def unpackBits (w : Nat) : Nat → Nat → List Nat
  | 0, _ => []
  | n + 1, x => x % 2 ^ w :: unpackBits w n (x / 2 ^ w)

/-- The 32 values of an LQ2 block (R81-R83): four codewords, a shell table lookup, a scale byte. -/
def lq2Block (bytes scale : Nat) (shell : Nat → Nat) : List FVal :=
  (unpackBits 16 4 bytes).flatMap (fun cw =>
    let row := shell (cw % 256)
    let signs := cw / 256 % 128
    let last := foldParity 7 signs
    let coset := cw / 2 ^ 15
    (List.range 8).map (fun i =>
      let neg := if i < 7 then signs / 2 ^ i % 2 = 1 else last
      let mag := 2 * (row / 2 ^ (4 * i) % 16) + coset
      if scale = 0xFF then .nan false
      else if mag = 0 then .zero neg else .fin neg mag ((scale : Int) - 127 - 2)))
where
  foldParity : Nat → Nat → Bool
    | 0, _ => false
    | n + 1, x => (x % 2 = 1) != foldParity n (x / 2)

/-- The fixed reduction tree (R95), one level. -/
def treeLevel {α : Type} (node : α → α → α) : List α → List α
  | x :: y :: t => node x y :: treeLevel node t
  | l => l

/-- The fixed reduction tree (R95), `n` levels. -/
def treeFold {α : Type} (node : α → α → α) : Nat → List α → List α
  | 0, l => l
  | n + 1, l => treeFold node n (treeLevel node l)

/-- FP32 sum rounded to nearest even (R217, R236, R249). -/
def add32 (x y : Nat) : Nat × Word :=
  let (v, f) := (fp32.decode x).add (fp32.decode y) .rne
  let (r, g) := roundToFormat v fp32 .rne .inf false
  (r, f ||| g)

end Sys2Proof.Machine
end

