-- ==== Sys2Proof/Config.lean ====
section
/-! DEFINITION. What one part fixes and the manual leaves open: opaque constants, so that nothing proved of the
machine rests on their values. -/

namespace Sys2Proof.Config

/-- A value the manual leaves open, one for every use, told apart by State's counter. -/
opaque freeValue : Nat → Word

/-- Populated capacity-tier size of G-die `g` in units of 64 KiB (R2: 0 to 1 TiB, chosen by the builder). The manual gives a
size no granularity: a whole number of pages is taken. DESIGN CHOICE: log entry 93. -/
opaque captierUnits : Nat → Nat

/-- Populated capacity-tier bytes of G-die `g`, at most 1 TiB (R2). -/
def captierBytes (g : Nat) : Nat := min (captierUnits g * 2 ^ 16) (2 ^ 40)

/-- The 64-bit die id of physical C-die `d`, from its unclonable identity circuit (R377). -/
opaque dieId : Nat → Word

/-- Whether the repair and trim records of the flash hold a record keyed to a die id (R377). -/
opaque hasRepairRecord : Word → Bool

/-- The module key of the configuration flash, a point of P-384 (R373). -/
opaque moduleKey : Nat × Nat

end Sys2Proof.Config
end

