-- ==== Sys2Proof/Syntax.lean ====
section
/-! DEFINITION. The syntax: one constructor for every row of spec/opcode_table.json, the encoded instructions of
05_encoding_registers_assembly.md (R122-R128) first, then the steps of the machine that no word encodes
(95_what_each_step_holds.md). Register fields name g, v, k and xe registers by their number (R123); a step's
operands name the die, core, agent, list, handle or link it happens at. An agent is named by its number in the
layout of `slotid` (R119): bit 15 MASTER, 14:11 virtual die, 10:4 core (or master 0, 1), 3:0 slot. -/

namespace Sys2Proof

/-- Scalar floating-point format of a `.s` or `.d` form (R127, R147). -/
inductive FSize where
  | s
  | d
  deriving DecidableEq, Repr

/-- The eighteen conversions of `fcvt`, destination first (R127). -/
inductive FCvt where
  | sd | ds | sw | swu | sl | slu | dw | dwu | dl | dlu
  | ws | wus | ls | lus | wd | wud | ld | lud
  deriving DecidableEq, Repr

/-- Lane types of a vector instruction, codes 0 to 5 (R116). -/
inductive LaneTy where
  | i32 | i16 | i8 | f32 | bf16 | f16
  deriving DecidableEq, Repr

/-- Variants 0 (wrap, or the only one), 1 (`.sat`) and 2 (`.u`) of vector arithmetic (R187). -/
inductive VVar where
  | wrap | sat | uns
  deriving DecidableEq, Repr

/-- Conditions of `vcmp`, variants 0 to 4 (R190). -/
inductive VCond where
  | eq | lt | le | ltu | leu
  deriving DecidableEq, Repr

/-- The other formats of `vcvt`, codes 0 to 13 (R192). -/
inductive VFmt where
  | fp32 | bf16 | fp16 | int32 | int16 | int8 | e4m3 | e5m2 | e3m2 | e2m3 | e2m1 | int4 | bk8 | bk4
  deriving DecidableEq, Repr

/-- Access kinds, which choose the class-1 cause (R323). -/
inductive AccessKind where
  | load | store | fetch | engine
  deriving DecidableEq, Repr

/-- The host's answer to one ATS Translation Request (R314): the host page and its permissions, or the status
that refuses for good. -/
inductive AtsAnswer where
  | grant (hostPage : Nat) (r w : Bool)
  | abort
  deriving DecidableEq, Repr

/-- The host's Page Request Group Response (R315). -/
inductive PriAnswer where
  | success | invalid | failure
  deriving DecidableEq, Repr

/-- What the patrol scrubber finds in a codeword (R343, R344). -/
inductive ScrubFinding where
  | clean | corrected | uncorrectable
  deriving DecidableEq, Repr

/-- The blocks that lower their rate at a local limit (R355). -/
inductive PowerBlock where
  | tileEngine (die engine : Nat)
  | copyEngine (die cluster : Nat)
  | memorySide (stack : Nat)
  | dramChannel (stack channel : Nat)
  | lpddrChannel (gdie channel : Nat)
  | linkLane (link lane : Nat)
  deriving DecidableEq, Repr

/-- One rank's post of a collective instance as it reaches this package (R242-R244): the eight dwords of its
record, the entries' indices and whether each index dword is poisoned, and the bytes of its send buffer with the
dwords of it that are poisoned, and whether an engine access of the instance at that rank was refused (R248). -/
structure PeerPost where
  rank : Nat
  record : List Word
  indices : List (Nat × Bool)
  bytes : List Byte
  badDwords : List Nat
  refused : Bool
  deriving DecidableEq, Repr

/-- A die's acknowledgement of an image: which, and the SHA-384 hash it computed (R375). -/
structure ImageAck where
  image : Nat
  hash : Nat
  deriving DecidableEq, Repr

/-- One row of the opcode table. -/
inductive Instr where
  /-- ADD (R135). Adds ga and gb modulo 2^64 into gd. -/
  | add (d a b : Reg)
  /-- SUB (R135). Subtracts gb from ga modulo 2^64 into gd. -/
  | sub (d a b : Reg)
  /-- AND (R135). Bitwise AND of ga and gb into gd. -/
  | and (d a b : Reg)
  /-- OR (R135). Bitwise OR of ga and gb into gd. -/
  | or (d a b : Reg)
  /-- XOR (R135). Bitwise XOR of ga and gb into gd. -/
  | xor (d a b : Reg)
  /-- ANDN (R135). ga AND NOT gb into gd. -/
  | andn (d a b : Reg)
  /-- ORN (R135). ga OR NOT gb into gd. -/
  | orn (d a b : Reg)
  /-- SLL (R135). Logical left shift of ga by gb[5:0]. -/
  | sll (d a b : Reg)
  /-- SRL (R135). Logical right shift of ga by gb[5:0]. -/
  | srl (d a b : Reg)
  /-- SRA (R135). Arithmetic right shift of ga by gb[5:0]. -/
  | sra (d a b : Reg)
  /-- ROL (R135). Rotates ga left by gb[5:0]. -/
  | rol (d a b : Reg)
  /-- ROR (R135). Rotates ga right by gb[5:0]. -/
  | ror (d a b : Reg)
  /-- SLT (R135). Sets gd to 1 if ga < gb signed. -/
  | slt (d a b : Reg)
  /-- SLTU (R135). Sets gd to 1 if ga < gb unsigned. -/
  | sltu (d a b : Reg)
  /-- MIN (R135). Signed minimum of ga and gb. -/
  | min (d a b : Reg)
  /-- MAX (R135). Signed maximum of ga and gb. -/
  | max (d a b : Reg)
  /-- MINU (R135). Unsigned minimum of ga and gb. -/
  | minu (d a b : Reg)
  /-- MAXU (R135). Unsigned maximum of ga and gb. -/
  | maxu (d a b : Reg)
  /-- SEL (R135). gd becomes ga if gd is nonzero, else gb. -/
  | sel (d a b : Reg)
  /-- MUL (R136). Low 64 bits of the product. -/
  | mul (d a b : Reg)
  /-- MULXS (R136). High half of the signed product. -/
  | mulxs (d a b : Reg)
  /-- MULXU (R136). High half of the unsigned product. -/
  | mulxu (d a b : Reg)
  /-- MULXM (R136). High half of signed ga times unsigned gb. -/
  | mulxm (d a b : Reg)
  /-- DIV (R136). Signed division truncated toward zero, long latency. -/
  | div (d a b : Reg)
  /-- DIVU (R136). Unsigned division, long latency. -/
  | divu (d a b : Reg)
  /-- REM (R136). Signed remainder, long latency. -/
  | rem (d a b : Reg)
  /-- REMU (R136). Unsigned remainder, long latency. -/
  | remu (d a b : Reg)
  /-- CLZ (R137). Counts leading zeros of ga. -/
  | clz (d a : Reg)
  /-- CTZ (R137). Counts trailing zeros of ga. -/
  | ctz (d a : Reg)
  /-- POPC (R137). Counts one bits of ga. -/
  | popc (d a : Reg)
  /-- BSWAP (R137). Reverses the bytes of ga. -/
  | bswap (d a : Reg)
  /-- SEXTB (R137). Sign-extends the low byte of ga. -/
  | sextb (d a : Reg)
  /-- SEXTH (R137). Sign-extends the low half of ga. -/
  | sexth (d a : Reg)
  /-- SEXTW (R137). Sign-extends the low word of ga. -/
  | sextw (d a : Reg)
  /-- ZEXTB (R137). Zero-extends the low byte of ga. -/
  | zextb (d a : Reg)
  /-- ZEXTH (R137). Zero-extends the low half of ga. -/
  | zexth (d a : Reg)
  /-- ZEXTW (R137). Zero-extends the low word of ga. -/
  | zextw (d a : Reg)
  /-- BFX (R138). Extracts a signed bit field of ga. -/
  | bfx (d a : Reg) (lsb lenm1 : BitVec 6)
  /-- BFXU (R138). Extracts an unsigned bit field of ga. -/
  | bfxu (d a : Reg) (lsb lenm1 : BitVec 6)
  /-- BFI (R138). Inserts ga's low bits into a field of gd. -/
  | bfi (d a : Reg) (lsb lenm1 : BitVec 6)
  /-- ADDI (R139). Adds a sign-extended immediate to ga. -/
  | addi (d a : Reg) (imm : BitVec 15)
  /-- ANDI (R139). ANDs ga with a sign-extended immediate. -/
  | andi (d a : Reg) (imm : BitVec 15)
  /-- ORI (R139). ORs ga with a sign-extended immediate. -/
  | ori (d a : Reg) (imm : BitVec 15)
  /-- XORI (R139). XORs ga with a sign-extended immediate. -/
  | xori (d a : Reg) (imm : BitVec 15)
  /-- SLTI (R139). Signed compare of ga with an immediate. -/
  | slti (d a : Reg) (imm : BitVec 15)
  /-- SLTIU (R139). Unsigned compare of ga with an immediate. -/
  | sltiu (d a : Reg) (imm : BitVec 15)
  /-- SLLI (R140). Logical left shift by an immediate amount. -/
  | slli (d a : Reg) (sh : BitVec 6)
  /-- SRLI (R140). Logical right shift by an immediate amount. -/
  | srli (d a : Reg) (sh : BitVec 6)
  /-- SRAI (R140). Arithmetic right shift by an immediate amount. -/
  | srai (d a : Reg) (sh : BitVec 6)
  /-- LUI (R141). Loads a sign-extended 20-bit immediate shifted left by 12. -/
  | lui (d : Reg) (imm : BitVec 20)
  /-- LPC (R141). Forms a pc-relative address in gd. -/
  | lpc (d : Reg) (imm : BitVec 20)
  /-- XSET (R142). Copies ga into xeN. -/
  | xset (n : VReg) (a : Reg)
  /-- XGET (R142). Copies xeN into gd. -/
  | xget (d : Reg) (n : VReg)
  /-- XLI (R142). Writes a 16-bit chunk c of xeN. -/
  | xli (n : VReg) (c : BitVec 2) (imm : BitVec 16)
  /-- LDB (R158). Ordinary SC load of a sign-extended byte. -/
  | ldb (d a : Reg) (imm : BitVec 15)
  /-- LDBU (R158). Ordinary SC load of a zero-extended byte. -/
  | ldbu (d a : Reg) (imm : BitVec 15)
  /-- LDH (R158). Ordinary SC load of a sign-extended half. -/
  | ldh (d a : Reg) (imm : BitVec 15)
  /-- LDHU (R158). Ordinary SC load of a zero-extended half. -/
  | ldhu (d a : Reg) (imm : BitVec 15)
  /-- LDW (R158). Ordinary SC load of a sign-extended word. -/
  | ldw (d a : Reg) (imm : BitVec 15)
  /-- LDWU (R158). Ordinary SC load of a zero-extended word. -/
  | ldwu (d a : Reg) (imm : BitVec 15)
  /-- LDD (R158). Ordinary SC load of a dword. -/
  | ldd (d a : Reg) (imm : BitVec 15)
  /-- STB (R158). Ordinary SC store of a byte. -/
  | stb (s a : Reg) (imm : BitVec 15)
  /-- STH (R158). Ordinary SC store of a half. -/
  | sth (s a : Reg) (imm : BitVec 15)
  /-- STW (R158). Ordinary SC store of a word. -/
  | stw (s a : Reg) (imm : BitVec 15)
  /-- STD (R158). Ordinary SC store of a dword. -/
  | std (s a : Reg) (imm : BitVec 15)
  /-- LDW_NB (R160). Issues a streaming word load. -/
  | ldwNb (d a b : Reg) (off : BitVec 6)
  /-- LDD_NB (R160). Issues a streaming dword load. -/
  | lddNb (d a b : Reg) (off : BitVec 6)
  /-- STW_NB (R160). Issues a streaming word store. -/
  | stwNb (d a b : Reg) (off : BitVec 6)
  /-- STD_NB (R160). Issues a streaming dword store. -/
  | stdNb (d a b : Reg) (off : BitVec 6)
  /-- LDFE (R163). Loads a full dword and sets it empty, parking while empty. -/
  | ldfe (d a b : Reg) (off : BitVec 6)
  /-- LDFF (R163). Loads a full dword and leaves it full, parking while empty. -/
  | ldff (d a b : Reg) (off : BitVec 6)
  /-- STFE (R163). Stores into an empty dword and sets it full, parking while full. -/
  | stfe (d a b : Reg) (off : BitVec 6)
  /-- STFF (R163). Stores a dword and sets it full unconditionally. -/
  | stff (d a b : Reg) (off : BitVec 6)
  /-- FECLR (R163). Sets a dword's full/empty bit empty. -/
  | feclr (a b : Reg) (off : BitVec 6)
  /-- FESET (R163). Sets a dword's full/empty bit full. -/
  | feset (a b : Reg) (off : BitVec 6)
  /-- FETST (R163). Returns a dword's full/empty bit. -/
  | fetst (d a b : Reg) (off : BitVec 6)
  /-- PSM (R166). Combinable fetch-and-add on a dword. -/
  | psm (d a b : Reg)
  /-- AMOADD (R165). Atomic fetch-and-add, never combined. -/
  | amoadd (d a b : Reg)
  /-- AMOSWAP (R165). Atomic swap. -/
  | amoswap (d a b : Reg)
  /-- AMOCAS (R165). Atomic compare-and-swap against gd. -/
  | amocas (d a b : Reg)
  /-- AMOMIN (R165). Atomic signed minimum. -/
  | amomin (d a b : Reg)
  /-- AMOMAX (R165). Atomic signed maximum. -/
  | amomax (d a b : Reg)
  /-- AMOMINU (R165). Atomic unsigned minimum. -/
  | amominu (d a b : Reg)
  /-- AMOMAXU (R165). Atomic unsigned maximum. -/
  | amomaxu (d a b : Reg)
  /-- AMOAND (R165). Atomic AND. -/
  | amoand (d a b : Reg)
  /-- AMOOR (R165). Atomic OR. -/
  | amoor (d a b : Reg)
  /-- AMOXOR (R165). Atomic XOR. -/
  | amoxor (d a b : Reg)
  /-- AMOFADD (R165). Atomic FP64 add rounded RNE. -/
  | amofadd (d a b : Reg)
  /-- WAITC (R168). Waits until the streaming and engine counts fall to the given limits. -/
  | waitc (nl ns nc nt : BitVec 5)
  /-- FENCE (R169). Waits until every earlier streaming access has performed. -/
  | fence
  /-- MWAIT_EQ (R170). Arms a watch until the dword equals gb. -/
  | mwaitEq (a b : Reg)
  /-- MWAIT_GE (R170). Arms a watch until the dword is at least gb unsigned. -/
  | mwaitGe (a b : Reg)
  /-- MWAIT_NE (R170). Arms a watch until the dword differs from gb. -/
  | mwaitNe (a b : Reg)
  /-- SLEEP (R171). Waits until cycle reaches ga. -/
  | sleep (a : Reg)
  /-- BEQ (R143). Branches when ga equals gb. -/
  | beq (a b : Reg) (off : BitVec 15)
  /-- BNE (R143). Branches when ga differs from gb. -/
  | bne (a b : Reg) (off : BitVec 15)
  /-- BLT (R143). Branches when ga < gb signed. -/
  | blt (a b : Reg) (off : BitVec 15)
  /-- BGE (R143). Branches when ga >= gb signed. -/
  | bge (a b : Reg) (off : BitVec 15)
  /-- BLTU (R143). Branches when ga < gb unsigned. -/
  | bltu (a b : Reg) (off : BitVec 15)
  /-- BGEU (R143). Branches when ga >= gb unsigned. -/
  | bgeu (a b : Reg) (off : BitVec 15)
  /-- JAL (R144). Jumps pc-relative and links pc + 4. -/
  | jal (d : Reg) (off : BitVec 20)
  /-- JALR (R144). Jumps to ga plus immediate and links pc + 4. -/
  | jalr (d a : Reg) (imm : BitVec 15)
  /-- SPAWN (R16). Master launches a top-level spawn over a range of unit numbers. -/
  | spawn (t a b : Reg)
  /-- JOIN (R25). Master waits for its outstanding spawn to complete. -/
  | join
  /-- SPAWNN (R30). Unit creates a child spawn record in its die's basin. -/
  | spawnn (t a b : Reg)
  /-- NEXT (R176). Ends the unit or runtime and draws again for the slot. -/
  | next
  /-- PS (R177). Sends a prefix-sum add request to the spawn's home die. -/
  | ps (d : Reg) (n : VReg)
  /-- PSSET (R29). Master sets a prefix-sum register's initial or live value. -/
  | psset (n : VReg) (a : Reg)
  /-- PSGET (R29). Master reads a prefix-sum register. -/
  | psget (d : Reg) (n : VReg)
  /-- CANCEL (R178). Cancels the agent's spawn. -/
  | cancel
  /-- FBSAVE (R180). Suspends the running unit as a held fibre and enters the upcall runtime. -/
  | fbsave
  /-- FBLOAD (R181). Restores a held or ready fibre into this slot. -/
  | fbload (a : Reg)
  /-- FBRET (R182). Makes a held fibre ready on its home core's list. -/
  | fbret (a : Reg)
  /-- CPPOST (R206). Posts a copy record through a conduit mailbox, parking while it is full. -/
  | cppost (n : BitVec 2) (a : Reg)
  /-- CPPROM (R209). Takes the promise from a reply word as ldfe does. -/
  | cpprom (d : Reg) (n : BitVec 2)
  /-- CPWAIT (R210). Waits to the promise and checks the copy's stamp. -/
  | cpwait (p s q : Reg)
  /-- TKPOST (R222). Posts a tile task record to a task list and returns its ticket. -/
  | tkpost (t l : Reg)
  /-- TKSTAT (R232). Queries accumulator or timeline state. -/
  | tkstat (d a b : Reg)
  /-- MSPOST (R234). Posts a memory-side parameter block to a base-die queue. -/
  | mspost (d a : Reg)
  /-- COLPOST (R241). Posts a collective record on a communicator. -/
  | colpost (d a b : Reg)
  /-- FADD (R148). Scalar FP32 or FP64 addition. -/
  | fadd (p : FSize) (d a b : Reg)
  /-- FSUB (R148). Scalar FP subtraction. -/
  | fsub (p : FSize) (d a b : Reg)
  /-- FMUL (R148). Scalar FP multiplication. -/
  | fmul (p : FSize) (d a b : Reg)
  /-- FDIV (R148). Scalar FP division, long latency. -/
  | fdiv (p : FSize) (d a b : Reg)
  /-- FSQRT (R148). Scalar FP square root, long latency. -/
  | fsqrt (p : FSize) (d a : Reg)
  /-- FMIN (R149). Scalar FP minimum. -/
  | fmin (p : FSize) (d a b : Reg)
  /-- FMAX (R149). Scalar FP maximum. -/
  | fmax (p : FSize) (d a b : Reg)
  /-- FMA (R148). Fused multiply-add with gd as addend. -/
  | fma (p : FSize) (d a b : Reg)
  /-- FCMPEQ (R150). FP equality compare into gd. -/
  | fcmpeq (p : FSize) (d a b : Reg)
  /-- FCMPLT (R150). FP less-than compare into gd. -/
  | fcmplt (p : FSize) (d a b : Reg)
  /-- FCMPLE (R150). FP less-or-equal compare into gd. -/
  | fcmple (p : FSize) (d a b : Reg)
  /-- FKIND (R151). Classifies an FP operand. -/
  | fkind (p : FSize) (d a : Reg)
  /-- FCVT (R152). Converts between FP and integer types. -/
  | fcvt (c : FCvt) (d a : Reg)
  /-- VADD (R187). Lane-wise vector addition. -/
  | vadd (v : VVar) (t : LaneTy) (k d a b : VReg)
  /-- VSUB (R187). Lane-wise vector subtraction. -/
  | vsub (v : VVar) (t : LaneTy) (k d a b : VReg)
  /-- VMUL (R187). Lane-wise vector multiplication. -/
  | vmul (v : VVar) (t : LaneTy) (k d a b : VReg)
  /-- VFMA (R187). Lane-wise fused multiply-add. -/
  | vfma (v : VVar) (t : LaneTy) (k d a b : VReg)
  /-- VMIN (R187). Lane-wise minimum. -/
  | vmin (v : VVar) (t : LaneTy) (k d a b : VReg)
  /-- VMAX (R187). Lane-wise maximum. -/
  | vmax (v : VVar) (t : LaneTy) (k d a b : VReg)
  /-- VABS (R187). Lane-wise absolute value. -/
  | vabs (v : VVar) (t : LaneTy) (k d a : VReg)
  /-- VNEG (R187). Lane-wise negation. -/
  | vneg (v : VVar) (t : LaneTy) (k d a : VReg)
  /-- VAND (R189). Lane-wise AND. -/
  | vand (t : LaneTy) (k d a b : VReg)
  /-- VOR (R189). Lane-wise OR. -/
  | vor (t : LaneTy) (k d a b : VReg)
  /-- VXOR (R189). Lane-wise XOR. -/
  | vxor (t : LaneTy) (k d a b : VReg)
  /-- VSLL (R189). Lane-wise left shift. -/
  | vsll (t : LaneTy) (k d a b : VReg)
  /-- VSRL (R189). Lane-wise logical right shift. -/
  | vsrl (t : LaneTy) (k d a b : VReg)
  /-- VSRA (R189). Lane-wise arithmetic right shift. -/
  | vsra (t : LaneTy) (k d a b : VReg)
  /-- VCMP (R190). Lane-wise compare into a mask register. -/
  | vcmp (c : VCond) (t : LaneTy) (k d a b : VReg)
  /-- VSEL (R191). Selects lanes of va or vb by a mask. -/
  | vsel (t : LaneTy) (k d a b : VReg)
  /-- VCVT (R192). Converts lanes to or from another format, including BK blocks. -/
  | vcvt (toLane : Bool) (f : VFmt) (t : LaneTy) (k d a p : VReg)
  /-- VPACK4 (R196). Packs low nibbles of 64 bytes into 32 bytes. -/
  | vpack4 (d a p : VReg)
  /-- VUNPACK4 (R196). Unpacks 64 nibbles into bytes, zero- or sign-extended. -/
  | vunpack4 (signed : Bool) (d a p : VReg)
  /-- VPACK6 (R196). Packs 6-bit elements into a 48-byte stream. -/
  | vpack6 (d a : VReg)
  /-- VUNPACK6 (R196). Unpacks a 48-byte stream into 64 bytes. -/
  | vunpack6 (d a : VReg)
  /-- VREDSUM (R197). Sums active lanes by the fixed tree into lane 0. -/
  | vredsum (v : VVar) (t : LaneTy) (k d a : VReg)
  /-- VREDMAX (R197). Maximum of active lanes into lane 0. -/
  | vredmax (v : VVar) (t : LaneTy) (k d a : VReg)
  /-- VEXP2 (R198). Lane-wise 2^a, long latency. -/
  | vexp2 (t : LaneTy) (k d a : VReg)
  /-- VRCP (R198). Lane-wise reciprocal, long latency. -/
  | vrcp (t : LaneTy) (k d a : VReg)
  /-- VRSQRT (R198). Lane-wise reciprocal square root, long latency. -/
  | vrsqrt (t : LaneTy) (k d a : VReg)
  /-- VBCAST (R200). Broadcasts ga into active lanes. -/
  | vbcast (t : LaneTy) (g : Reg) (k d : VReg)
  /-- VMOVG (R200). Moves one lane into gd. -/
  | vmovg (t : LaneTy) (g : Reg) (lane : BitVec 6) (a : VReg)
  /-- VINS (R200). Inserts ga into one lane. -/
  | vins (t : LaneTy) (g : Reg) (lane : BitVec 6) (d : VReg)
  /-- VPERM (R200). Permutes lanes of va by vb's indices. -/
  | vperm (t : LaneTy) (k d a b : VReg)
  /-- VLD (R201). Loads 64 aligned bytes into active lanes. -/
  | vld (t : LaneTy) (g : Reg) (k d : VReg)
  /-- VST (R201). Stores active lanes to 64 aligned bytes. -/
  | vst (t : LaneTy) (g : Reg) (k d : VReg)
  /-- VLDX (R202). Gathers 4-byte lanes from the slot's own local store. -/
  | vldx (t : LaneTy) (g : Reg) (k d b : VReg)
  /-- VSTX (R202). Scatters 4-byte lanes to the slot's own local store. -/
  | vstx (t : LaneTy) (g : Reg) (k d b : VReg)
  /-- KAND (R203). ANDs two masks. -/
  | kand (d a b : VReg)
  /-- KOR (R203). ORs two masks. -/
  | kor (d a b : VReg)
  /-- KXOR (R203). XORs two masks. -/
  | kxor (d a b : VReg)
  /-- KNOT (R203). Inverts a mask. -/
  | knot (d a : VReg)
  /-- KPOP (R203). Counts set bits of a mask into gd. -/
  | kpop (g : Reg) (a : VReg)
  /-- KMOV_TO_MASK (R203). Moves ga[15:0] into a mask. -/
  | kmovToMask (d : VReg) (g : Reg)
  /-- KMOV_FROM_MASK (R203). Moves a mask into gd zero-extended. -/
  | kmovFromMask (g : Reg) (a : VReg)
  /-- MFS (R153). Reads a named state into gd. -/
  | mfs (d : Reg) (n : BitVec 12)
  /-- MTS (R153). Writes ga to a named state. -/
  | mts (n : BitVec 12) (a : Reg)
  /-- SYS (R155). Node exit or supervisor call. -/
  | sys (n : BitVec 12)
  /-- BRK (R156). Raises a breakpoint. -/
  | brk (n : BitVec 12)
  /-- SRET (R332). Performs the disposition of the trap record at HEAD and advances HEAD. -/
  | sret
  /-- TLBINV (R333). Removes the job's translations in the selected scope. -/
  | tlbinv (a b : Reg)
  /-- SLSPILL (R334). Spills a slot into a supervisor fibre entry. -/
  | slspill (a b : Reg)
  /-- SLLOAD (R334). Loads, pushes or discards a saved entry. -/
  | slload (a b : Reg)
  /-- SLSTOP (R334). Stops a slot at its next boundary. -/
  | slstop (a : Reg)
  /-- SLGO (R334). Returns a stopped slot to rotation. -/
  | slgo (a : Reg)
  /-- HALT (R331). Asks firmware to suspend the job. -/
  | halt
  /-- IDLE (R330). Waits until the supervisor queue holds a record. -/
  | idle
  /-- C_MV (R128). Compact register move. -/
  | cMv (d a : Reg)
  /-- C_ADD (R128). Compact add into gd. -/
  | cAdd (d a : Reg)
  /-- C_SUB (R128). Compact subtract from gd. -/
  | cSub (d a : Reg)
  /-- C_AND (R128). Compact AND into gd. -/
  | cAnd (d a : Reg)
  /-- C_OR (R128). Compact OR into gd. -/
  | cOr (d a : Reg)
  /-- C_XOR (R128). Compact XOR into gd. -/
  | cXor (d a : Reg)
  /-- C_ADDI (R128). Compact add of a 5-bit immediate. -/
  | cAddi (d : Reg) (imm : BitVec 5)
  /-- C_LI (R128). Compact load of a 5-bit immediate. -/
  | cLi (d : Reg) (imm : BitVec 5)
  /-- C_SLLI (R128). Compact left shift. -/
  | cSlli (d : Reg) (sh : BitVec 5)
  /-- C_SRLI (R128). Compact logical right shift. -/
  | cSrli (d : Reg) (sh : BitVec 5)
  /-- C_SRAI (R128). Compact arithmetic right shift. -/
  | cSrai (d : Reg) (sh : BitVec 5)
  /-- C_LDD (R128). Compact dword load on g24-g31. -/
  | cLdd (d b : BitVec 3) (off : BitVec 4)
  /-- C_STD (R128). Compact dword store on g24-g31. -/
  | cStd (s b : BitVec 3) (off : BitVec 4)
  /-- C_BZ (R128). Compact branch if zero. -/
  | cBz (a : BitVec 3) (off : BitVec 7)
  /-- C_BNZ (R128). Compact branch if nonzero. -/
  | cBnz (a : BitVec 3) (off : BitVec 7)
  /-- C_J (R128). Compact jump. -/
  | cJ (off : BitVec 10)
  /-- C_JR (R128). Compact jump to register. -/
  | cJr (a : Reg)
  /-- C_NEXT (R128). Compact next. -/
  | cNext
  /-- C_PS (R128). Compact prefix-sum request. -/
  | cPs (d n : BitVec 3)
  /-- C_NOP (R128). Compact no-op. -/
  | cNop
  /-- ILLEGAL_ENCODING (R129). A fetched word that is not an instruction raises its class-0 cause with no effect. -/
  | illegalEncoding (cause : Byte)
  /-- ROTATION_TURN (R34). A barrel core offers its turn to the next slot, which issues or loses the turn in one class. -/
  | rotationTurn (die core : Nat)
  /-- SLOT_DRAW (R43). A vacant slot draws a ready fibre, a basin child or a top-level unit number. -/
  | slotDraw (agent : Nat)
  /-- SPAWN_BROADCAST (R19). Cascade delivers a spawn's broadcast state to a die's spawn table, waking a gated die. -/
  | spawnBroadcast (die master : Nat)
  /-- CHUNK_REQUEST (R20). A die's prefix-sum unit obtains the next chunk of 64 unit numbers from the home die. -/
  | chunkRequest (die master : Nat)
  /-- PS_WINDOW (R28). A 16-cycle combining window ends and its requests apply in global slot order. -/
  | psWindow (spawn : Nat)
  /-- PS_RESULT (R28). A prefix-sum result lands in the requesting slot's gd. -/
  | psResult (agent : Nat)
  /-- BASIN_REFILL (R31). Spilled child records return to hardware newest first as space frees. -/
  | basinRefill (die : Nat)
  /-- JOIN_RETIRE (R25). A blocked join retires once its spawn is complete and sets joinst. -/
  | joinRetire (agent : Nat)
  /-- NEXT_DRAIN_COMPLETE (R176). A next waiting on streaming accesses retires the unit once they perform. -/
  | nextDrainComplete (agent : Nat)
  /-- LONG_LATENCY_RESULT (R145). A divide, square root or transcendental writes its result at t + L. -/
  | longLatencyResult (agent : Nat)
  /-- MEMORY_REQUEST_AT_HOME (R64). An access request reaches the dword's home and performs at one instant. -/
  | memoryRequestAtHome (agent : Nat)
  /-- LOAD_REPLY (R158). A load's or atomic's reply lands and the slot becomes ready. -/
  | loadReply (agent : Nat)
  /-- STREAMING_ACCESS_PERFORM (R66). An outstanding streaming access performs and leaves its counter in issue order. -/
  | streamingAccessPerform (agent index : Nat)
  /-- IDLE_WAKE (R164). A parked operation idle for 65,536 cycles is retried once. -/
  | idleWake (agent : Nat)
  /-- MWAIT_POLL (R70). A degraded mwait loads its dword every 1,024 cycles. -/
  | mwaitPoll (agent : Nat)
  /-- WATCH_LIMIT (R170). An mwait not complete after 2^32 cycles raises watch limit. -/
  | watchLimit (agent : Nat)
  /-- SLEEP_WAKE (R171). A sleeping slot completes at its first turn with cycle at or above the target. -/
  | sleepWake (agent : Nat)
  /-- WAITC_COMPLETE (R168). A waitc completes at the first turn its four counts are met. -/
  | waitcComplete (agent : Nat)
  /-- FENCE_COMPLETE (R67). A fence completes once every earlier streaming access has performed. -/
  | fenceComplete (agent : Nat)
  /-- LEASE_EXPIRY (R350). A master L1 lease expires and the line must be reloaded. -/
  | leaseExpiry (master line : Nat)
  /-- TRAP_RECORD_POST (R320). A record waiting for queue room is written and TAIL incremented. -/
  | trapRecordPost
  /-- DEFERRED_SUPERVISOR_SAVE (R318). A stopped agent is saved when an sfibarea entry frees. -/
  | deferredSupervisorSave (agent : Nat)
  /-- CONDUIT_TAKE (R207). The conduit takes a full mailbox, numbers the copy and writes SEQ and the promise. -/
  | conduitTake (die core : Nat)
  /-- PROMISE_REVISION (R208). At a missed promise the conduit writes a revised promise to the reply word. -/
  | promiseRevision (die core seq : Nat)
  /-- DENSE_COPY (R215). Copies a matrix between two layouts chunk by chunk. -/
  | denseCopy (die core seq : Nat)
  /-- GATHER (R216). Gathers indexed rows into packed rows. -/
  | gather (die core seq : Nat)
  /-- SCATTER (R216). Scatters packed rows to indexed rows. -/
  | scatter (die core seq : Nat)
  /-- POOLED_GATHER (R217). Sums or averages bags of indexed rows. -/
  | pooledGather (die core seq : Nat)
  /-- ROW_REPLACE (R218). Replaces one row under the versioned writer protocol. -/
  | rowReplace (die core seq : Nat)
  /-- VERSION_WAIT_WAKE (R218). A versioned reader or writer waiting on an odd version resumes. -/
  | versionWaitWake (die core seq : Nat)
  /-- COPY_RESUME (R221). A copy suspended on a serviced page fault resumes at its chunk. -/
  | copyResume (die core seq : Nat)
  /-- COPY_COMPLETION (R220). The conduit writes the stamp in sequence order, then the timeline, and cpout falls. -/
  | copyCompletion (die core : Nat)
  /-- TASK_DISPATCH (R229). A die's scheduler dispatches the highest-priority eligible head. -/
  | taskDispatch (die : Nat)
  /-- ACLR (R109). Allocates a group of engines and an empty accumulator. -/
  | aclr (die list : Nat)
  /-- MMA (R110). Applies an A by B product to an accumulator block by block. -/
  | mma (die handle : Nat)
  /-- APPLY_BLOCK (R101). An engine group applies one K-block to a tile row. -/
  | applyBlock (die handle row : Nat)
  /-- EXPONENT_MESSAGE (R104). Peer engines exchange per-row exponent and carry messages. -/
  | exponentMessage (die handle row : Nat)
  /-- RDOUT (R114). Reads an accumulator out in FP32, BF16, E4M3 or raw. -/
  | rdout (die handle : Nat)
  /-- ASAVE (R112). Writes a raw image of an accumulator. -/
  | asave (die handle : Nat)
  /-- ALOAD (R112). Allocates an accumulator from a checked image. -/
  | aload (die list : Nat)
  /-- AFREE (R113). Releases an accumulator's engines and handle. -/
  | afree (die handle : Nat)
  /-- GROUP_WATCHDOG (R105). The group watchdog reaches 2^24 and ends the waiting task. -/
  | groupWatchdog (die handle : Nat)
  /-- TASK_RESUME (R231). A suspended task resumes after fault service. -/
  | taskResume (die handle : Nat)
  /-- TASK_COMPLETION (R230). A task reaches a final state and the list timeline advances. -/
  | taskCompletion (die list : Nat)
  /-- MS_REQUEST_START (R298). A stack's queue arbiter starts the next memory-side request. -/
  | msRequestStart (die stack : Nat)
  /-- MS_REDUCE (R236). Sums up to eight source lines per destination line by the fixed tree. -/
  | msReduce (die stack : Nat)
  /-- MS_FILL (R236). Fills destination lines with a pattern. -/
  | msFill (die stack : Nat)
  /-- MS_COPY (R236). Copies lines within a stack. -/
  | msCopy (die stack : Nat)
  /-- MS_FE_INIT (R236). Sets full/empty bits of destination lines. -/
  | msFeInit (die stack : Nat)
  /-- MS_RESUME (R308). A memory-side request suspended on a page fault resumes. -/
  | msResume (die stack : Nat)
  /-- MS_COMPLETION (R237). Writes the status dword, the flag and the queue timeline. -/
  | msCompletion (die stack : Nat)
  /-- COLLECTIVE_INSTANCE_START (R244). Once every rank has posted, the instance's records are checked and compared. -/
  | collectiveInstanceStart (handle : Nat) (peers : List PeerPost)
  /-- COL_DENSE_ALLREDUCE (R250). Sums equal-length buffers in port order up the tree. -/
  | colDenseAllreduce (handle : Nat)
  /-- COL_SPARSE_ALLREDUCE (R253). Merges sorted index-row streams by the Accord rules. -/
  | colSparseAllreduce (handle : Nat)
  /-- COL_BROADCAST (R251). Writes the root's bytes to every rank. -/
  | colBroadcast (handle : Nat)
  /-- COL_ALL_GATHER (R251). Writes every rank's bytes to every rank. -/
  | colAllGather (handle : Nat)
  /-- COL_RESUME (R248). An instance resumes after a serviced page fault. -/
  | colResume (handle : Nat)
  /-- COL_COMPLETION (R245). A rank's results, COLSTAT, dword 1 and timeline are written in order. -/
  | colCompletion (handle : Nat)
  /-- COL_ABORT (R248). Ending a communicator or losing a member aborts pending instances. -/
  | colAbort (handle : Nat)
  /-- GRAPH_UPLOAD (R287). A GUPLOAD write copies or removes a graph image. -/
  | graphUpload (value : Word)
  /-- RUN_TRIGGER (R288). A TRIGGER write queues a run or is refused. -/
  | runTrigger (value : Word)
  /-- RUN_CANCEL (R295). A RUNCANCEL write cancels a queued or in-flight run. -/
  | runCancel (value : Word)
  /-- RUN_START (R289). A queued run starts and resolves its first nodes. -/
  | runStart
  /-- NODE_START (R298). A ready node is assigned to the lowest free node master. -/
  | nodeStart
  /-- NODE_COMPLETION (R292). A node completes after sys 0 and its requests. -/
  | nodeCompletion (run node : Nat)
  /-- LVLCMD_CANCEL (R296). Writing 1 to lvlcmd cancels the selected live level. -/
  | lvlcmdCancel
  /-- COMM_CREATE (R297). comctl OP 1 creates a communicator and writes its block. -/
  | commCreate (addr : Word)
  /-- COMM_END (R297). comctl OP 2 aborts pending instances and frees the handle. -/
  | commEnd (addr : Word)
  /-- PAGE_WALK (R306). A walker probes the hashed table, updates A and D, and installs or faults. -/
  | pageWalk (va : Word) (kind : AccessKind)
  /-- ATS_TRANSLATION_RESPONSE (R314). An ATS response fills the ATC or starts a page request. -/
  | atsTranslationResponse (port pasid page : Nat) (answer : AtsAnswer)
  /-- PRI_RESPONSE (R315). A page request group response leads to a retry or host page refused. -/
  | priResponse (port pasid page : Nat) (answer : PriAnswer)
  /-- PRI_TIMEOUT (R315). No PRI response within 2^32 cycles raises host page refused. -/
  | priTimeout (port pasid page : Nat)
  /-- ATS_INVALIDATION (R316). An invalidation request removes matching ATC entries. -/
  | atsInvalidation (port : Nat) (pasid : Option Nat) (page pages : Nat)
  /-- INVALIDATION_COMPLETION (R316). The completion is sent once accesses through removed entries have performed. -/
  | invalidationCompletion (port : Nat)
  /-- HOST_READ_COMPLETION (R58). A host read completion returns data to the waiting access. -/
  | hostReadCompletion (agent : Nat) (bad : Bool)
  /-- FORMAT_WINDOW_ARM (R310). FWCTL ARM 1 discards view lines and arms the window. -/
  | formatWindowArm (stack window : Nat)
  /-- FORMAT_WINDOW_DISARM (R310). FWCTL ARM 0 disarms the window and discards its lines. -/
  | formatWindowDisarm (stack window : Nat)
  /-- DIRTY_LOG_EPOCH_FLIP (R340). Changing dlbase EPOCH drains old-buffer logging. -/
  | dirtyLogEpochFlip (epoch : Bool)
  /-- JOB_SUSPEND (R335). Firmware stops a job's work and writes its context image. -/
  | jobSuspend
  /-- VIRTUAL_DIE_REMAP (R338). Firmware moves a suspended job's virtual die to another physical die. -/
  | virtualDieRemap (vdie pdie : Nat)
  /-- JOB_RESTORE (R336). A job's context image is restored and a KIND 9 record posted. -/
  | jobRestore
  /-- PATROL_SCRUB (R344). The base die reads, corrects or poisons codewords. -/
  | patrolScrub (codeword : Nat) (finding : ScrubFinding)
  /-- AGENT_STATE_UE (R346). An uncorrectable error in agent state raises 0xA5. -/
  | agentStateUe (agent : Nat)
  /-- FLIT_RECEIVE (R347). A link receiver checks and accepts, holds or NACKs a flit. -/
  | flitReceive (link seq : Nat) (crcOk isVoid : Bool) (payload : List Byte)
  /-- NACK_RECEIVE (R347). A sender resends only the named flit. -/
  | nackReceive (link seq : Nat) (copyOk : Bool)
  /-- LINK_WINDOW_REBUILD (R348). A corrupted window state is rebuilt from the replay buffer. -/
  | linkWindowRebuild (link : Nat)
  /-- TRANSACTION_RETRY (R349). A request with no reply after 2^18 cycles is retried or fails with 0xA6. -/
  | transactionRetry (agent : Nat)
  /-- DEDUP_EXPIRY (R349). A deduplication record is dropped 2^21 cycles after performing. -/
  | dedupExpiry (ident : Nat)
  /-- HOST_PORT_DOWN (R352). A host port failure ends its host accesses in flight. -/
  | hostPortDown (port : Nat)
  /-- SCALE_UP_PORT_LANE_LOSS (R353). A scale-up port loses lanes or goes down. -/
  | scaleUpPortLaneLoss (port lost : Nat)
  /-- MEMBER_PACKAGE_LOST (R353). An unreachable member package is reported and aborts its instances. -/
  | memberPackageLost (handle rank : Nat)
  /-- SEGMENT_DELIVERY_FAILURE (R354). An undelivered scale-out segment ends its instance with STATUS 7. -/
  | segmentDeliveryFailure (handle : Nat)
  /-- BLOCK_RATE_LIMIT (R355). A block at its current or thermal limit lowers its rate. -/
  | blockRateLimit (block : PowerBlock)
  /-- DIE_GATE (R356). An idle die gates after 2^22 cycles, handing homes to its base dies. -/
  | dieGate (pdie : Nat)
  /-- DIE_WAKE (R356). A gated die wakes and takes its slices back as homes. -/
  | dieWake (pdie : Nat)
  /-- PSEUDO_CHANNEL_RETIRE (R357). Firmware retires a pseudo-channel to a spare or removes it. -/
  | pseudoChannelRetire (stack channel : Nat)
  /-- LINK_LANE_RECALIBRATE (R357). Firmware recalibrates one lane of a link. -/
  | linkLaneRecalibrate (link lane : Nat)
  /-- BLOCK_FIRMWARE_UPDATE (R357). A block drains, loads signed firmware and resumes. -/
  | blockFirmwareUpdate (block image : Nat) (signed : Bool)
  /-- DIE_OUT_OF_SERVICE (R357). Firmware takes a die out of service. -/
  | dieOutOfService (pdie : Nat)
  /-- OBS_COUNTER_CLEAR (R359). OBSCTL CLR zeroes a core's counters and bins. -/
  | obsCounterClear (pdie core : Nat)
  /-- DEBUG_STOP (R362). DSTOP 1 stops an owned slot and raises 0xA4. -/
  | debugStop (agent : Nat)
  /-- DEBUG_RESUME (R362). DSTOP 0 resumes a debug-stopped slot. -/
  | debugResume (agent : Nat)
  /-- DEBUG_STEP (R362). STEP runs one instruction, then stops with 0xA3. -/
  | debugStep (agent : Nat)
  /-- DEBUG_RELEASE (R362). OWN 0 ends debugger ownership. -/
  | debugRelease (agent : Nat)
  /-- WATCH_PASS (R366). PASS skips the next watch check once. -/
  | watchPass (agent : Nat)
  /-- SNAPSHOT_REQUEST (R367). A SNAPTRIG write schedules or refuses a snapshot. -/
  | snapshotRequest (cycle : Nat)
  /-- SNAPSHOT_LATCH (R367). At cycle T every block copies its counters. -/
  | snapshotLatch
  /-- SILLAGE_HOLD_RELEASE (R371). A replay-held write performs after 2^24 cycles and sets DIVERGE. -/
  | sillageHoldRelease (agent : Nat)
  /-- PACKAGE_RESET (R376). Reset brings up G-dies, C-dies, memory and firmware in order. -/
  | packageReset
  /-- BOOT_IMAGE_ACK (R375). A die acknowledges an image hash or receives it again. -/
  | bootImageAck (die : Nat) (ack : ImageAck)
  /-- GXO_LOAD (R373). Firmware checks and loads a GXO file or refuses it. -/
  | gxoLoad (file : List Byte)
  /-- I3C_DYNAMIC_ADDRESS (R378). The management port accepts a dynamic address. -/
  | i3cDynamicAddress (addr : BitVec 7)
  /-- I3C_GETSTATUS (R378). The management port answers GETSTATUS. -/
  | i3cGetstatus
  /-- MGMT_MAILBOX_COMMAND (R378). A management mailbox command runs, held until running. -/
  | mgmtMailboxCommand (command : List Byte)
  /-- REGISTER_WRITE (R10). A write to a device register with no behaviour of its own. -/
  | registerWrite (pa : Nat) (value : Word)
  /-- CPWAIT_PROMISE_REACHED (R210). A cpwait sleeping until its promise reaches cycle gp and loads the stamp, completing or raising promise missed. -/
  | cpwaitPromiseReached (agent : Nat)
  /-- ACKNOWLEDGEMENT_RECEIVE (R347). A link sender receives a cumulative acknowledgement, frees replay-buffer entries and reopens its window. -/
  | acknowledgementReceive (link seq : Nat)
  /-- BLOCK_RATE_RESTORE (R355). A block that lowered its rate at a current or thermal limit returns to full rate once below the limit. -/
  | blockRateRestore (block : PowerBlock)
  /-- JOB_SAVE_ABANDON (R335). Firmware abandons a job save before step 5 and the job continues as if the save had not begun. -/
  | jobSaveAbandon
  /-- JOB_START (R282). Firmware places dies in a partition, empties their mailbox and reply bits, resets arbiters and starts the job's supervisor on the steward, at an entry and with named states that firmware gives. -/
  | jobStart (number : Nat) (dies : List Nat) (entry : Word) (states : List (Nat × Word))
  /-- JOB_END (R293). Firmware ends a job, cancelling the job level and freeing its partition. -/
  | jobEnd
  deriving DecidableEq, Repr

end Sys2Proof
end

