-- ==== Sys2Proof/WellFormed.lean ====
section
/-! DEFINITION. Well-formed instructions: the operand combinations that 05_encoding_registers_assembly.md and
08_vector_instructions.md admit, and the ranges of the places a step of the machine may name. -/

namespace Sys2Proof

/-- Width in bits of a lane (R116). -/
def LaneTy.width : LaneTy → Nat
  | .i32 | .f32 => 32
  | .i16 | .bf16 | .f16 => 16
  | .i8 => 8

/-- Number of lanes of a type (R116). -/
def LaneTy.lanes (t : LaneTy) : Nat := 512 / t.width

/-- Whether lanes of a type are floating point (R116). -/
def LaneTy.isFloat : LaneTy → Bool
  | .f32 | .bf16 | .f16 => true
  | .i32 | .i16 | .i8 => false

/-- Variants that `vadd`, `vsub`, `vmul`, `vfma`, `vabs`, `vneg` and `vredsum` admit (R187, R197). -/
def VVar.okArith (v : VVar) (t : LaneTy) : Bool :=
  match v with
  | .wrap => true
  | .sat => !t.isFloat
  | .uns => false

/-- Variants that `vmin`, `vmax` and `vredmax` admit (R187, R197). -/
def VVar.okMinMax (v : VVar) (t : LaneTy) : Bool :=
  match v with
  | .wrap => true
  | .sat => false
  | .uns => !t.isFloat

/-- Conditions that `vcmp` admits (R190). -/
def VCond.ok (c : VCond) (t : LaneTy) : Bool :=
  match c with
  | .eq | .lt | .le => true
  | .ltu | .leu => !t.isFloat

/-- Container width of a `vcvt` format; block formats have none (R192). -/
def VFmt.container : VFmt → Nat
  | .fp32 | .int32 => 32
  | .bf16 | .fp16 | .int16 => 16
  | .int8 | .e4m3 | .e5m2 | .e3m2 | .e2m3 | .e2m1 | .int4 => 8
  | .bk8 | .bk4 => 0

/-- The lane type's own format (R192). -/
def LaneTy.fmt : LaneTy → VFmt
  | .i32 => .int32
  | .i16 => .int16
  | .i8 => .int8
  | .f32 => .fp32
  | .bf16 => .bf16
  | .f16 => .fp16

/-- Whether a format is a block format (R195). -/
def VFmt.isBlock : VFmt → Bool
  | .bk8 | .bk4 => true
  | _ => false

/-- The pairs `vcvt` admits (R192). -/
def VFmt.ok (f : VFmt) (t : LaneTy) : Bool :=
  if f.isBlock then t.isFloat else f.container ≤ t.width && f ≠ t.fmt

/-- How many values field vb of `vcvt` may take: the parts of R193, and for blocks what R195 gives. -/
def vcvtParts (toLane : Bool) (f : VFmt) (t : LaneTy) : Nat :=
  if f.isBlock then
    match toLane, t with
    | true, .f32 => 2
    | true, _ => 1
    | false, .f32 => 8
    | false, _ => 1
  else t.width / f.container

/-- An agent's number: a master's has SLOT 0 and CORE 0 or 1; a unit slot's has SLOT 0 to 14 (R119). -/
def agentOk (n : Nat) : Bool :=
  n < 2 ^ 16 && (if n < 2 ^ 15 then n % 16 < 15 else n % 2 ^ 11 = 0 || n % 2 ^ 11 = 16)

/-- Well-formed rows: what the encoding admits, and for a step of the machine the ranges of its operands. -/
def Instr.wf : Instr → Bool
  | .bfx _ _ lsb l | .bfxu _ _ lsb l | .bfi _ _ lsb l => lsb.toNat + l.toNat + 1 ≤ 64
  | .vadd v t _ _ _ _ | .vsub v t _ _ _ _ | .vmul v t _ _ _ _ | .vfma v t _ _ _ _ => v.okArith t
  | .vabs v t _ _ _ | .vneg v t _ _ _ | .vredsum v t _ _ _ => v.okArith t
  | .vmin v t _ _ _ _ | .vmax v t _ _ _ _ | .vredmax v t _ _ _ => v.okMinMax t
  | .vsll t _ _ _ _ | .vsrl t _ _ _ _ | .vsra t _ _ _ _ => !t.isFloat
  | .vcmp c t _ _ _ _ => c.ok t
  | .vcvt toLane f t _ _ _ p => f.ok t && p.toNat < vcvtParts toLane f t
  | .vpack4 _ _ p | .vunpack4 _ _ _ p => p.toNat < 2
  | .vexp2 t _ _ _ | .vrcp t _ _ _ | .vrsqrt t _ _ _ => t.isFloat
  | .vmovg t _ lane _ | .vins t _ lane _ => lane.toNat < t.lanes
  | .vldx t _ _ _ _ | .vstx t _ _ _ _ => t = .i32 || t = .f32
  | .rotationTurn die core | .conduitTake die core | .copyCompletion die core => die < 16 && core < 128
  | .promiseRevision die core _ | .denseCopy die core _ | .gather die core _ | .scatter die core _
  | .pooledGather die core _ | .rowReplace die core _ | .versionWaitWake die core _ | .copyResume die core _ =>
    die < 16 && core < 128
  | .slotDraw a => agentOk a && a < 2 ^ 15
  | .psResult a | .nextDrainComplete a | .longLatencyResult a | .joinRetire a | .memoryRequestAtHome a
  | .loadReply a | .streamingAccessPerform a _ | .idleWake a | .mwaitPoll a | .watchLimit a | .sleepWake a
  | .waitcComplete a | .fenceComplete a | .deferredSupervisorSave a | .hostReadCompletion a _ | .agentStateUe a
  | .transactionRetry a | .debugStop a | .debugResume a | .debugStep a | .debugRelease a | .watchPass a
  | .sillageHoldRelease a | .cpwaitPromiseReached a => agentOk a
  | .spawnBroadcast die m | .chunkRequest die m => die < 16 && m < 32
  | .basinRefill die | .taskDispatch die => die < 16
  | .aclr die list | .aload die list | .taskCompletion die list => die < 16 && list < 64
  | .mma die h | .rdout die h | .asave die h | .afree die h | .groupWatchdog die h | .taskResume die h
  | .applyBlock die h _ | .exponentMessage die h _ => die < 16 && h < 256
  | .msRequestStart die k | .msReduce die k | .msFill die k | .msCopy die k | .msFeInit die k | .msResume die k
  | .msCompletion die k => die < 16 && k < 2
  | .collectiveInstanceStart h _ | .colDenseAllreduce h | .colSparseAllreduce h | .colBroadcast h
  | .colAllGather h | .colResume h | .colCompletion h | .colAbort h | .segmentDeliveryFailure h
  | .memberPackageLost h _ => h < 256
  | .atsTranslationResponse port pasid _ _ | .priResponse port pasid _ _ | .priTimeout port pasid _ =>
    port < 4 && pasid < 2 ^ 20
  | .atsInvalidation port _ _ _ | .invalidationCompletion port | .hostPortDown port => port < 4
  | .formatWindowArm stack w | .formatWindowDisarm stack w => stack < 32 && w < 8
  | .virtualDieRemap v p => v < 16 && p < 16
  | .scaleUpPortLaneLoss port _ => port < 64
  | .dieGate d | .dieWake d | .dieOutOfService d => d < 16
  | .pseudoChannelRetire stack c => stack < 32 && c < 128
  | .obsCounterClear d c => d < 16 && c < 128
  | .jobStart j dies _ _ => j < 16 && [1, 2, 4, 8, 16].contains dies.length && dies.all (· < 16)
  | .illegalEncoding c => c.toNat < 8
  | .bootImageAck die ack => die < 20 && ack.hash < 2 ^ 384
  | _ => true

end Sys2Proof
end

