-- ==== Sys2Proof/Decode.lean ====
section
/-! DEFINITION. Decoding (R122-R130) and encoding. A word is a number, bit 0 its least significant bit. A word that
is not an instruction is answered with the class-0 cause of R129, the first of R130's tests that fails. Tests 7
(privilege) and 8 (context) depend on the executing agent and belong to the meanings. -/

namespace Sys2Proof

/-- Class-0 causes the decoder raises (R129). -/
def causeIllegalParcel : Byte := 0x00#8
def causeIllegalWord : Byte := 0x01#8
def causeMajor3F : Byte := 0x02#8
def causeReservedMajor : Byte := 0x03#8
def causeSelector : Byte := 0x04#8
def causeCompactOp : Byte := 0x05#8
def causeReservedField : Byte := 0x06#8
def causeFieldRange : Byte := 0x07#8

/-- What decoding answers: an instruction, or the class-0 cause. -/
abbrev Decoded := Except Byte Instr

/-- A 5-bit register field at bit `lo`. -/
def regAt (w lo : Nat) : Reg := BitVec.ofNat 5 (field w lo 5)

/-- A 3-bit register field at bit `lo`. -/
def vregAt (w lo : Nat) : VReg := BitVec.ofNat 3 (field w lo 3)

/-- Test 4 of R130 failed. -/
def unassigned : Decoded := .error causeSelector

/-- Test 5 of R130: fields that must be zero, given as one number. -/
def needZero (z : Nat) (r : Decoded) : Decoded := if z = 0 then r else .error causeReservedField

/-- Test 6 of R130. -/
def needRange (ok : Bool) (r : Decoded) : Decoded := if ok then r else .error causeFieldRange

/-- A selector that may be unassigned (test 4). -/
def select {α : Type} (x : Option α) (k : α → Decoded) : Decoded :=
  match x with
  | some a => k a
  | none => unassigned

/-- Lane type of a type code (R116); codes 6 and 7 are admitted by no instruction (R185). -/
def LaneTy.ofCode : Nat → Option LaneTy
  | 0 => some .i32
  | 1 => some .i16
  | 2 => some .i8
  | 3 => some .f32
  | 4 => some .bf16
  | 5 => some .f16
  | _ => none

/-- The code of a lane type (R116). -/
def LaneTy.code : LaneTy → Nat
  | .i32 => 0
  | .i16 => 1
  | .i8 => 2
  | .f32 => 3
  | .bf16 => 4
  | .f16 => 5

def VVar.ofCode : Nat → Option VVar
  | 0 => some .wrap
  | 1 => some .sat
  | 2 => some .uns
  | _ => none

def VVar.code : VVar → Nat
  | .wrap => 0
  | .sat => 1
  | .uns => 2

def VCond.ofCode : Nat → Option VCond
  | 0 => some .eq
  | 1 => some .lt
  | 2 => some .le
  | 3 => some .ltu
  | 4 => some .leu
  | _ => none

def VCond.code : VCond → Nat
  | .eq => 0
  | .lt => 1
  | .le => 2
  | .ltu => 3
  | .leu => 4

def VFmt.ofCode : Nat → Option VFmt
  | 0 => some .fp32
  | 1 => some .bf16
  | 2 => some .fp16
  | 3 => some .int32
  | 4 => some .int16
  | 5 => some .int8
  | 6 => some .e4m3
  | 7 => some .e5m2
  | 8 => some .e3m2
  | 9 => some .e2m3
  | 10 => some .e2m1
  | 11 => some .int4
  | 12 => some .bk8
  | 13 => some .bk4
  | _ => none

def VFmt.code : VFmt → Nat
  | .fp32 => 0
  | .bf16 => 1
  | .fp16 => 2
  | .int32 => 3
  | .int16 => 4
  | .int8 => 5
  | .e4m3 => 6
  | .e5m2 => 7
  | .e3m2 => 8
  | .e2m3 => 9
  | .e2m1 => 10
  | .int4 => 11
  | .bk8 => 12
  | .bk4 => 13

def FSize.ofCode : Nat → Option FSize
  | 0 => some .s
  | 1 => some .d
  | _ => none

def FSize.code : FSize → Nat
  | .s => 0
  | .d => 1

def FCvt.ofCode : Nat → Option FCvt
  | 0 => some .sd
  | 1 => some .ds
  | 2 => some .sw
  | 3 => some .swu
  | 4 => some .sl
  | 5 => some .slu
  | 6 => some .dw
  | 7 => some .dwu
  | 8 => some .dl
  | 9 => some .dlu
  | 10 => some .ws
  | 11 => some .wus
  | 12 => some .ls
  | 13 => some .lus
  | 14 => some .wd
  | 15 => some .wud
  | 16 => some .ld
  | 17 => some .lud
  | _ => none

def FCvt.code : FCvt → Nat
  | .sd => 0
  | .ds => 1
  | .sw => 2
  | .swu => 3
  | .sl => 4
  | .slu => 5
  | .dw => 6
  | .dwu => 7
  | .dl => 8
  | .dlu => 9
  | .ws => 10
  | .wus => 11
  | .ls => 12
  | .lus => 13
  | .wd => 14
  | .wud => 15
  | .ld => 16
  | .lud => 17

/-- Majors 0x00 to 0x02 (R135-R137), format A. -/
def decodeInteger (major w : Nat) : Decoded :=
  let d := regAt w 7
  let a := regAt w 12
  let b := regAt w 17
  let z := field w 17 5
  match major, field w 22 10 with
  | 0x00, 0 => .ok (.add d a b)
  | 0x00, 1 => .ok (.sub d a b)
  | 0x00, 2 => .ok (.and d a b)
  | 0x00, 3 => .ok (.or d a b)
  | 0x00, 4 => .ok (.xor d a b)
  | 0x00, 5 => .ok (.andn d a b)
  | 0x00, 6 => .ok (.orn d a b)
  | 0x00, 7 => .ok (.sll d a b)
  | 0x00, 8 => .ok (.srl d a b)
  | 0x00, 9 => .ok (.sra d a b)
  | 0x00, 10 => .ok (.rol d a b)
  | 0x00, 11 => .ok (.ror d a b)
  | 0x00, 12 => .ok (.slt d a b)
  | 0x00, 13 => .ok (.sltu d a b)
  | 0x00, 14 => .ok (.min d a b)
  | 0x00, 15 => .ok (.max d a b)
  | 0x00, 16 => .ok (.minu d a b)
  | 0x00, 17 => .ok (.maxu d a b)
  | 0x00, 18 => .ok (.sel d a b)
  | 0x01, 0 => .ok (.mul d a b)
  | 0x01, 1 => .ok (.mulxs d a b)
  | 0x01, 2 => .ok (.mulxu d a b)
  | 0x01, 3 => .ok (.mulxm d a b)
  | 0x01, 4 => .ok (.div d a b)
  | 0x01, 5 => .ok (.divu d a b)
  | 0x01, 6 => .ok (.rem d a b)
  | 0x01, 7 => .ok (.remu d a b)
  | 0x02, 0 => needZero z (.ok (.clz d a))
  | 0x02, 1 => needZero z (.ok (.ctz d a))
  | 0x02, 2 => needZero z (.ok (.popc d a))
  | 0x02, 3 => needZero z (.ok (.bswap d a))
  | 0x02, 4 => needZero z (.ok (.sextb d a))
  | 0x02, 5 => needZero z (.ok (.sexth d a))
  | 0x02, 6 => needZero z (.ok (.sextw d a))
  | 0x02, 7 => needZero z (.ok (.zextb d a))
  | 0x02, 8 => needZero z (.ok (.zexth d a))
  | 0x02, 9 => needZero z (.ok (.zextw d a))
  | _, _ => unassigned

/-- Major 0x03 (R138), format F. -/
def decodeBitField (w : Nat) : Decoded :=
  let d := regAt w 7
  let a := regAt w 12
  let lsb := field w 17 6
  let l := field w 23 6
  let ok : Bool := lsb + l + 1 ≤ 64
  match field w 29 3 with
  | 0 => needRange ok (.ok (.bfx d a (BitVec.ofNat 6 lsb) (BitVec.ofNat 6 l)))
  | 1 => needRange ok (.ok (.bfxu d a (BitVec.ofNat 6 lsb) (BitVec.ofNat 6 l)))
  | 2 => needRange ok (.ok (.bfi d a (BitVec.ofNat 6 lsb) (BitVec.ofNat 6 l)))
  | _ => unassigned

/-- Majors 0x04 to 0x0E (R139-R142). -/
def decodeImmediate (major w : Nat) : Decoded :=
  let d := regAt w 7
  let a := regAt w 12
  let i15 := BitVec.ofNat 15 (field w 17 15)
  let i20 := BitVec.ofNat 20 (field w 12 20)
  let sh := BitVec.ofNat 6 (field w 17 6)
  match major with
  | 0x04 => .ok (.addi d a i15)
  | 0x05 => .ok (.andi d a i15)
  | 0x06 => .ok (.ori d a i15)
  | 0x07 => .ok (.xori d a i15)
  | 0x08 => .ok (.slti d a i15)
  | 0x09 => .ok (.sltiu d a i15)
  | 0x0A =>
    match field w 23 9 with
    | 0 => .ok (.slli d a sh)
    | 1 => .ok (.srli d a sh)
    | 2 => .ok (.srai d a sh)
    | _ => unassigned
  | 0x0B => .ok (.lui d i20)
  | 0x0C => .ok (.lpc d i20)
  | 0x0D =>
    if field w 20 1 = 0 then needZero (field w 21 11 + field w 7 5) (.ok (.xset (vregAt w 17) a))
    else needZero (field w 21 11 + field w 12 5) (.ok (.xget d (vregAt w 17)))
  | 0x0E => needZero (field w 28 4) (.ok (.xli (vregAt w 7) (BitVec.ofNat 2 (field w 10 2)) (BitVec.ofNat 16 (field w 12 16))))
  | _ => unassigned

/-- Majors 0x10 to 0x1A (R158). -/
def decodeLoadStore (major w : Nat) : Decoded :=
  let d := regAt w 7
  let a := regAt w 12
  let i := BitVec.ofNat 15 (field w 17 15)
  match major with
  | 0x10 => .ok (.ldb d a i)
  | 0x11 => .ok (.ldbu d a i)
  | 0x12 => .ok (.ldh d a i)
  | 0x13 => .ok (.ldhu d a i)
  | 0x14 => .ok (.ldw d a i)
  | 0x15 => .ok (.ldwu d a i)
  | 0x16 => .ok (.ldd d a i)
  | 0x17 => .ok (.stb d a i)
  | 0x18 => .ok (.sth d a i)
  | 0x19 => .ok (.stw d a i)
  | 0x1A => .ok (.std d a i)
  | _ => unassigned

/-- Majors 0x1B to 0x1E (R160, R163, R165, R167). -/
def decodeMemorySync (major w : Nat) : Decoded :=
  let d := regAt w 7
  let a := regAt w 12
  let b := regAt w 17
  let o := BitVec.ofNat 6 (field w 22 6)
  let z := field w 7 5
  match major with
  | 0x1B =>
    match field w 28 4 with
    | 0 => .ok (.ldwNb d a b o)
    | 1 => .ok (.lddNb d a b o)
    | 2 => .ok (.stwNb d a b o)
    | 3 => .ok (.stdNb d a b o)
    | _ => unassigned
  | 0x1C =>
    match field w 28 4 with
    | 0 => .ok (.ldfe d a b o)
    | 1 => .ok (.ldff d a b o)
    | 2 => .ok (.stfe d a b o)
    | 3 => .ok (.stff d a b o)
    | 4 => needZero z (.ok (.feclr a b o))
    | 5 => needZero z (.ok (.feset a b o))
    | 6 => .ok (.fetst d a b o)
    | _ => unassigned
  | 0x1D =>
    match field w 22 10 with
    | 0 => .ok (.psm d a b)
    | 1 => .ok (.amoadd d a b)
    | 2 => .ok (.amoswap d a b)
    | 3 => .ok (.amocas d a b)
    | 4 => .ok (.amomin d a b)
    | 5 => .ok (.amomax d a b)
    | 6 => .ok (.amominu d a b)
    | 7 => .ok (.amomaxu d a b)
    | 8 => .ok (.amoand d a b)
    | 9 => .ok (.amoor d a b)
    | 10 => .ok (.amoxor d a b)
    | 11 => .ok (.amofadd d a b)
    | _ => unassigned
  | 0x1E =>
    match field w 7 5 with
    | 0 => .ok (.waitc (regAt w 27) (regAt w 22) (regAt w 17) (regAt w 12))
    | 1 => needZero (field w 12 20) (.ok .fence)
    | 2 => needZero (field w 22 10) (.ok (.mwaitEq a b))
    | 3 => needZero (field w 22 10) (.ok (.mwaitGe a b))
    | 4 => needZero (field w 22 10) (.ok (.mwaitNe a b))
    | 5 => needZero (field w 17 15) (.ok (.sleep a))
    | _ => unassigned
  | _ => unassigned

/-- Majors 0x20 to 0x27 (R143, R144). In format B field a is bits 11:7 and field b bits 16:12 (R123). -/
def decodeControl (major w : Nat) : Decoded :=
  let a := regAt w 7
  let b := regAt w 12
  let o := BitVec.ofNat 15 (field w 17 15)
  match major with
  | 0x20 => .ok (.beq a b o)
  | 0x21 => .ok (.bne a b o)
  | 0x22 => .ok (.blt a b o)
  | 0x23 => .ok (.bge a b o)
  | 0x24 => .ok (.bltu a b o)
  | 0x25 => .ok (.bgeu a b o)
  | 0x26 => .ok (.jal a (BitVec.ofNat 20 (field w 12 20)))
  | 0x27 => .ok (.jalr a b o)
  | _ => unassigned

/-- Majors 0x28 to 0x2A (R173, R179, R204). -/
def decodeSwarm (major w : Nat) : Decoded :=
  let d := regAt w 7
  let a := regAt w 12
  let b := regAt w 17
  let zd := field w 7 5
  let za := field w 12 5
  let zb := field w 17 5
  let n3 := vregAt w 17
  let z3 := field w 20 2
  let n2 := BitVec.ofNat 2 (field w 17 2)
  let z2 := field w 19 3
  match major, field w 22 10 with
  | 0x28, 0 => .ok (.spawn d a b)
  | 0x28, 1 => needZero (zd + za + zb) (.ok .join)
  | 0x28, 2 => .ok (.spawnn d a b)
  | 0x28, 3 => needZero (zd + za + zb) (.ok .next)
  | 0x28, 4 => needZero (za + z3) (.ok (.ps d n3))
  | 0x28, 5 => needZero (zd + z3) (.ok (.psset n3 a))
  | 0x28, 6 => needZero (za + z3) (.ok (.psget d n3))
  | 0x28, 7 => needZero (zd + za + zb) (.ok .cancel)
  | 0x29, 0 => needZero (zd + za + zb) (.ok .fbsave)
  | 0x29, 1 => needZero (zd + zb) (.ok (.fbload a))
  | 0x29, 2 => needZero (zd + zb) (.ok (.fbret a))
  | 0x2A, 0 => needZero (zd + z2) (.ok (.cppost n2 a))
  | 0x2A, 1 => needZero (za + z2) (.ok (.cpprom d n2))
  | 0x2A, 2 => .ok (.cpwait d a b)
  | 0x2A, 3 => needZero za (.ok (.tkpost d b))
  | 0x2A, 4 => .ok (.tkstat d a b)
  | 0x2A, 5 => needZero zb (.ok (.mspost d a))
  | 0x2A, 6 => .ok (.colpost d a b)
  | _, _ => unassigned

/-- Major 0x2B (R127): fn = op × 32 + variant. -/
def decodeFloat (w : Nat) : Decoded :=
  let d := regAt w 7
  let a := regAt w 12
  let b := regAt w 17
  let zb := field w 17 5
  let v := field w 22 5
  let p := FSize.ofCode v
  match field w 27 5 with
  | 0 => select p fun p => .ok (.fadd p d a b)
  | 1 => select p fun p => .ok (.fsub p d a b)
  | 2 => select p fun p => .ok (.fmul p d a b)
  | 3 => select p fun p => .ok (.fdiv p d a b)
  | 4 => select p fun p => needZero zb (.ok (.fsqrt p d a))
  | 5 => select p fun p => .ok (.fmin p d a b)
  | 6 => select p fun p => .ok (.fmax p d a b)
  | 7 => select p fun p => .ok (.fma p d a b)
  | 8 => select p fun p => .ok (.fcmpeq p d a b)
  | 9 => select p fun p => .ok (.fcmplt p d a b)
  | 10 => select p fun p => .ok (.fcmple p d a b)
  | 11 => select p fun p => needZero zb (.ok (.fkind p d a))
  | 12 => select (FCvt.ofCode v) fun c => needZero zb (.ok (.fcvt c d a))
  | _ => unassigned

/-- A variant and a type code that an instruction admits together (test 4 of R130). -/
def selectVar (w : Nat) (ok : VVar → LaneTy → Bool) (k : VVar → LaneTy → Decoded) : Decoded :=
  select (VVar.ofCode (field w 22 5)) fun v =>
    select (LaneTy.ofCode (field w 19 3)) fun t => if ok v t then k v t else unassigned

/-- Variant 0 and a type code that an instruction admits. -/
def selectTy (w : Nat) (ok : LaneTy → Bool) (k : LaneTy → Decoded) : Decoded :=
  if field w 22 5 = 0 then
    select (LaneTy.ofCode (field w 19 3)) fun t => if ok t then k t else unassigned
  else unassigned

/-- A type code where fn[4:0] names a g register (R126). -/
def selectTyG (w : Nat) (ok : LaneTy → Bool) (k : LaneTy → Decoded) : Decoded :=
  select (LaneTy.ofCode (field w 19 3)) fun t => if ok t then k t else unassigned

/-- Majors 0x30 and 0x31 (R187, R189). -/
def decodeVectorArith (major w : Nat) : Decoded :=
  let k := vregAt w 16
  let d := vregAt w 7
  let a := vregAt w 10
  let b := vregAt w 13
  let zb := field w 13 3
  match major, field w 27 5 with
  | 0x30, 0 => selectVar w VVar.okArith fun v t => .ok (.vadd v t k d a b)
  | 0x30, 1 => selectVar w VVar.okArith fun v t => .ok (.vsub v t k d a b)
  | 0x30, 2 => selectVar w VVar.okArith fun v t => .ok (.vmul v t k d a b)
  | 0x30, 3 => selectVar w VVar.okArith fun v t => .ok (.vfma v t k d a b)
  | 0x30, 4 => selectVar w VVar.okMinMax fun v t => .ok (.vmin v t k d a b)
  | 0x30, 5 => selectVar w VVar.okMinMax fun v t => .ok (.vmax v t k d a b)
  | 0x30, 6 => selectVar w VVar.okArith fun v t => needZero zb (.ok (.vabs v t k d a))
  | 0x30, 7 => selectVar w VVar.okArith fun v t => needZero zb (.ok (.vneg v t k d a))
  | 0x31, 0 => selectTy w (fun _ => true) fun t => .ok (.vand t k d a b)
  | 0x31, 1 => selectTy w (fun _ => true) fun t => .ok (.vor t k d a b)
  | 0x31, 2 => selectTy w (fun _ => true) fun t => .ok (.vxor t k d a b)
  | 0x31, 3 => selectTy w (fun t => !t.isFloat) fun t => .ok (.vsll t k d a b)
  | 0x31, 4 => selectTy w (fun t => !t.isFloat) fun t => .ok (.vsrl t k d a b)
  | 0x31, 5 => selectTy w (fun t => !t.isFloat) fun t => .ok (.vsra t k d a b)
  | _, _ => unassigned

/-- Majors 0x32 to 0x34 (R190-R198). -/
def decodeVectorOther (major w : Nat) : Decoded :=
  let k := vregAt w 16
  let d := vregAt w 7
  let a := vregAt w 10
  let b := vregAt w 13
  let zk := field w 16 3
  let zb := field w 13 3
  let isI8 := fun t : LaneTy => t == .i8
  match major, field w 27 5 with
  | 0x32, 0 =>
    select (VCond.ofCode (field w 22 5)) fun c =>
      select (LaneTy.ofCode (field w 19 3)) fun t => if c.ok t then .ok (.vcmp c t k d a b) else unassigned
  | 0x32, 1 => selectTy w (fun _ => true) fun t => .ok (.vsel t k d a b)
  | 0x33, 0 =>
    let toLane : Bool := field w 26 1 = 1
    select (VFmt.ofCode (field w 22 4)) fun f =>
      select (LaneTy.ofCode (field w 19 3)) fun t =>
        if f.ok t then
          if f.isBlock && !toLane && t != .f32 then needZero zb (.ok (.vcvt toLane f t k d a b))
          else needRange (zb < vcvtParts toLane f t) (.ok (.vcvt toLane f t k d a b))
        else unassigned
  | 0x33, 1 => selectTy w isI8 fun _ => needZero zk (needRange (zb < 2) (.ok (.vpack4 d a b)))
  | 0x33, 2 =>
    if field w 22 5 < 2 then
      selectTyG w isI8 fun _ => needZero zk (needRange (zb < 2) (.ok (.vunpack4 (field w 22 5 = 1) d a b)))
    else unassigned
  | 0x33, 3 => selectTy w isI8 fun _ => needZero (zk + zb) (.ok (.vpack6 d a))
  | 0x33, 4 => selectTy w isI8 fun _ => needZero (zk + zb) (.ok (.vunpack6 d a))
  | 0x34, 0 => selectVar w VVar.okArith fun v t => needZero zb (.ok (.vredsum v t k d a))
  | 0x34, 1 => selectVar w VVar.okMinMax fun v t => needZero zb (.ok (.vredmax v t k d a))
  | 0x34, 2 => selectTy w LaneTy.isFloat fun t => needZero zb (.ok (.vexp2 t k d a))
  | 0x34, 3 => selectTy w LaneTy.isFloat fun t => needZero zb (.ok (.vrcp t k d a))
  | 0x34, 4 => selectTy w LaneTy.isFloat fun t => needZero zb (.ok (.vrsqrt t k d a))
  | _, _ => unassigned

/-- Majors 0x35 to 0x37 (R200-R203). -/
def decodeVectorMove (major w : Nat) : Decoded :=
  let k := vregAt w 16
  let d := vregAt w 7
  let a := vregAt w 10
  let b := vregAt w 13
  let g := regAt w 22
  let zg := field w 22 5
  let zd := field w 7 3
  let za := field w 10 3
  let zb := field w 13 3
  let zk := field w 16 3
  let zt := field w 19 3
  let lane := BitVec.ofNat 6 (field w 13 6)
  let all := fun _ : LaneTy => true
  let is32 := fun t : LaneTy => t == .i32 || t == .f32
  match major, field w 27 5 with
  | 0x35, 0 => selectTyG w all fun t => needZero (za + zb) (.ok (.vbcast t g k d))
  | 0x35, 1 => selectTyG w all fun t => needZero zd (needRange (field w 13 6 < t.lanes) (.ok (.vmovg t g lane a)))
  | 0x35, 2 => selectTyG w all fun t => needZero za (needRange (field w 13 6 < t.lanes) (.ok (.vins t g lane d)))
  | 0x35, 3 => selectTyG w all fun t => needZero zg (.ok (.vperm t k d a b))
  | 0x36, 0 => selectTyG w all fun t => needZero (za + zb) (.ok (.vld t g k d))
  | 0x36, 1 => selectTyG w all fun t => needZero (za + zb) (.ok (.vst t g k d))
  | 0x36, 2 => selectTyG w is32 fun t => needZero za (.ok (.vldx t g k d b))
  | 0x36, 3 => selectTyG w is32 fun t => needZero za (.ok (.vstx t g k d b))
  | 0x37, 0 => needZero (zt + zk + zg) (.ok (.kand d a b))
  | 0x37, 1 => needZero (zt + zk + zg) (.ok (.kor d a b))
  | 0x37, 2 => needZero (zt + zk + zg) (.ok (.kxor d a b))
  | 0x37, 3 => needZero (zt + zk + zg + zb) (.ok (.knot d a))
  | 0x37, 4 => needZero (zt + zk + zd + zb) (.ok (.kpop g a))
  | 0x37, 5 =>
    match zt with
    | 0 => needZero (zk + za + zb) (.ok (.kmovToMask d g))
    | 1 => needZero (zk + zd + zb) (.ok (.kmovFromMask g a))
    | _ => unassigned
  | _, _ => unassigned

/-- Majors 0x38 and 0x39 (R153-R156, R328). -/
def decodeSystem (major w : Nat) : Decoded :=
  let d := regAt w 7
  let a := regAt w 12
  let b := regAt w 17
  let zd := field w 7 5
  let za := field w 12 5
  let zb := field w 17 5
  let n := BitVec.ofNat 12 (field w 17 12)
  match major with
  | 0x38 =>
    match field w 29 3 with
    | 0 => needZero za (.ok (.mfs d n))
    | 1 => needZero zd (.ok (.mts n a))
    | 2 => needZero (za + zd) (.ok (.sys n))
    | 3 => needZero (za + zd) (.ok (.brk n))
    | _ => unassigned
  | 0x39 =>
    match field w 22 10 with
    | 0 => needZero (zd + za + zb) (.ok .sret)
    | 1 => needZero zd (.ok (.tlbinv a b))
    | 2 => needZero zd (.ok (.slspill a b))
    | 3 => needZero zd (.ok (.slload a b))
    | 4 => needZero (zd + zb) (.ok (.slstop a))
    | 5 => needZero (zd + zb) (.ok (.slgo a))
    | 6 => needZero (zd + za + zb) (.ok .halt)
    | 7 => needZero (zd + za + zb) (.ok .idle)
    | _ => unassigned
  | _ => unassigned

/-- Majors with no instruction other than 0x3F (R125). -/
def reservedMajor (m : Nat) : Bool := [0x0F, 0x1F, 0x2C, 0x2D, 0x2E, 0x2F, 0x3A, 0x3B, 0x3C, 0x3D, 0x3E].contains m

/-- A 32-bit instruction word, bit 0 of it being 1 (R123, R125, R130). -/
def decodeWord (w : Nat) : Decoded :=
  let m := field w 1 6
  if w = 0xFFFFFFFF then .error causeIllegalWord
  else if m = 0x3F then .error causeMajor3F
  else if reservedMajor m then .error causeReservedMajor
  else if m ≤ 0x02 then decodeInteger m w
  else if m = 0x03 then decodeBitField w
  else if m ≤ 0x0E then decodeImmediate m w
  else if m ≤ 0x1A then decodeLoadStore m w
  else if m ≤ 0x1E then decodeMemorySync m w
  else if m ≤ 0x27 then decodeControl m w
  else if m ≤ 0x2A then decodeSwarm m w
  else if m = 0x2B then decodeFloat w
  else if m ≤ 0x31 then decodeVectorArith m w
  else if m ≤ 0x34 then decodeVectorOther m w
  else if m ≤ 0x37 then decodeVectorMove m w
  else decodeSystem m w

/-- A compact parcel, bit 0 of it being 0 (R128, R130). -/
def decodeParcel (w : Nat) : Decoded :=
  let d := regAt w 6
  let a := regAt w 1
  let i5 := BitVec.ofNat 5 (field w 1 5)
  let d3 := BitVec.ofNat 3 (field w 8 3)
  let b3 := BitVec.ofNat 3 (field w 5 3)
  let o4 := BitVec.ofNat 4 (field w 1 4)
  let o7 := BitVec.ofNat 7 (field w 1 7)
  if w = 0 then .error causeIllegalParcel else
  match field w 11 5 with
  | 1 => .ok (.cMv d a)
  | 2 => .ok (.cAdd d a)
  | 3 => .ok (.cSub d a)
  | 4 => .ok (.cAnd d a)
  | 5 => .ok (.cOr d a)
  | 6 => .ok (.cXor d a)
  | 7 => .ok (.cAddi d i5)
  | 8 => .ok (.cLi d i5)
  | 9 => .ok (.cSlli d i5)
  | 10 => .ok (.cSrli d i5)
  | 11 => .ok (.cSrai d i5)
  | 12 => .ok (.cLdd d3 b3 o4)
  | 13 => .ok (.cStd d3 b3 o4)
  | 14 => .ok (.cBz d3 o7)
  | 15 => .ok (.cBnz d3 o7)
  | 16 => .ok (.cJ (BitVec.ofNat 10 (field w 1 10)))
  | 17 => needZero (field w 1 5) (.ok (.cJr d))
  | 18 => needZero (field w 1 10) (.ok .cNext)
  | 19 => needZero (field w 1 4) (.ok (.cPs d3 b3))
  | 20 => needZero (field w 1 10) (.ok .cNop)
  | _ => .error causeCompactOp

/-- An instruction from its one or two parcels: bit 0 of the first tells which (R122). -/
def decodeParcels (first second : Nat) : Decoded :=
  if first % 2 = 0 then decodeParcel first else decodeWord (first + second * 2 ^ 16)

/-- A little-endian byte list as a number (R8). -/
def natOfBytes : List Byte → Nat
  | [] => 0
  | b :: bs => b.toNat + 256 * natOfBytes bs

/-- The `n` low bytes of a number, lowest first (R8). -/
def bytesOfNat : Nat → Nat → List Byte
  | 0, _ => []
  | n + 1, w => BitVec.ofNat 8 w :: bytesOfNat n (w / 256)

/-- Decoding a byte list from its front: the instruction and the bytes after it, or the cause. A list too short for
the instruction reads as if zero bytes followed. -/
def decodeBytes (bs : List Byte) : Except Byte (Instr × List Byte) :=
  let first := natOfBytes (bs.take 2)
  let second := natOfBytes ((bs.drop 2).take 2)
  match decodeParcels first second with
  | .ok i => .ok (i, bs.drop (if first % 2 = 0 then 2 else 4))
  | .error c => .error c

/-- The instruction the decoder reads from the opcode table's bits `w` of a row `nbits` wide. -/
def decodeTableWord (nbits w : Nat) : Option Instr :=
  match decodeBytes (bytesOfNat (nbits / 8) w) with
  | .ok (i, _) => some i
  | .error _ => none

/-- A word of fixed bits and fields, each at its place. -/
def place1 (w x l : Nat) : Nat := w + x * 2 ^ l
def place2 (w x l y m : Nat) : Nat := place1 w x l + y * 2 ^ m
def place3 (w x l y m z n : Nat) : Nat := place2 w x l y m + z * 2 ^ n
def place4 (w x l y m z n u o : Nat) : Nat := place3 w x l y m z n + u * 2 ^ o
def place5 (w x l y m z n u o v p : Nat) : Nat := place4 w x l y m z n u o + v * 2 ^ p
def place6 (w x l y m z n u o v p t q : Nat) : Nat := place5 w x l y m z n u o v p + t * 2 ^ q

/-- The encoding tables of the spec (R123-R128) as a number: fixed bits plus each field at its place. A step of the
machine has no word and answers 0. -/
def encodeNat : Instr → Nat
  | .add d a b => place3 0x1 d.toNat 7 a.toNat 12 b.toNat 17
  | .sub d a b => place3 0x400001 d.toNat 7 a.toNat 12 b.toNat 17
  | .and d a b => place3 0x800001 d.toNat 7 a.toNat 12 b.toNat 17
  | .or d a b => place3 0xC00001 d.toNat 7 a.toNat 12 b.toNat 17
  | .xor d a b => place3 0x1000001 d.toNat 7 a.toNat 12 b.toNat 17
  | .andn d a b => place3 0x1400001 d.toNat 7 a.toNat 12 b.toNat 17
  | .orn d a b => place3 0x1800001 d.toNat 7 a.toNat 12 b.toNat 17
  | .sll d a b => place3 0x1C00001 d.toNat 7 a.toNat 12 b.toNat 17
  | .srl d a b => place3 0x2000001 d.toNat 7 a.toNat 12 b.toNat 17
  | .sra d a b => place3 0x2400001 d.toNat 7 a.toNat 12 b.toNat 17
  | .rol d a b => place3 0x2800001 d.toNat 7 a.toNat 12 b.toNat 17
  | .ror d a b => place3 0x2C00001 d.toNat 7 a.toNat 12 b.toNat 17
  | .slt d a b => place3 0x3000001 d.toNat 7 a.toNat 12 b.toNat 17
  | .sltu d a b => place3 0x3400001 d.toNat 7 a.toNat 12 b.toNat 17
  | .min d a b => place3 0x3800001 d.toNat 7 a.toNat 12 b.toNat 17
  | .max d a b => place3 0x3C00001 d.toNat 7 a.toNat 12 b.toNat 17
  | .minu d a b => place3 0x4000001 d.toNat 7 a.toNat 12 b.toNat 17
  | .maxu d a b => place3 0x4400001 d.toNat 7 a.toNat 12 b.toNat 17
  | .sel d a b => place3 0x4800001 d.toNat 7 a.toNat 12 b.toNat 17
  | .mul d a b => place3 0x3 d.toNat 7 a.toNat 12 b.toNat 17
  | .mulxs d a b => place3 0x400003 d.toNat 7 a.toNat 12 b.toNat 17
  | .mulxu d a b => place3 0x800003 d.toNat 7 a.toNat 12 b.toNat 17
  | .mulxm d a b => place3 0xC00003 d.toNat 7 a.toNat 12 b.toNat 17
  | .div d a b => place3 0x1000003 d.toNat 7 a.toNat 12 b.toNat 17
  | .divu d a b => place3 0x1400003 d.toNat 7 a.toNat 12 b.toNat 17
  | .rem d a b => place3 0x1800003 d.toNat 7 a.toNat 12 b.toNat 17
  | .remu d a b => place3 0x1C00003 d.toNat 7 a.toNat 12 b.toNat 17
  | .clz d a => place2 0x5 d.toNat 7 a.toNat 12
  | .ctz d a => place2 0x400005 d.toNat 7 a.toNat 12
  | .popc d a => place2 0x800005 d.toNat 7 a.toNat 12
  | .bswap d a => place2 0xC00005 d.toNat 7 a.toNat 12
  | .sextb d a => place2 0x1000005 d.toNat 7 a.toNat 12
  | .sexth d a => place2 0x1400005 d.toNat 7 a.toNat 12
  | .sextw d a => place2 0x1800005 d.toNat 7 a.toNat 12
  | .zextb d a => place2 0x1C00005 d.toNat 7 a.toNat 12
  | .zexth d a => place2 0x2000005 d.toNat 7 a.toNat 12
  | .zextw d a => place2 0x2400005 d.toNat 7 a.toNat 12
  | .bfx d a lsb lenm1 => place4 0x7 d.toNat 7 a.toNat 12 lsb.toNat 17 lenm1.toNat 23
  | .bfxu d a lsb lenm1 => place4 0x20000007 d.toNat 7 a.toNat 12 lsb.toNat 17 lenm1.toNat 23
  | .bfi d a lsb lenm1 => place4 0x40000007 d.toNat 7 a.toNat 12 lsb.toNat 17 lenm1.toNat 23
  | .addi d a imm => place3 0x9 d.toNat 7 a.toNat 12 imm.toNat 17
  | .andi d a imm => place3 0xB d.toNat 7 a.toNat 12 imm.toNat 17
  | .ori d a imm => place3 0xD d.toNat 7 a.toNat 12 imm.toNat 17
  | .xori d a imm => place3 0xF d.toNat 7 a.toNat 12 imm.toNat 17
  | .slti d a imm => place3 0x11 d.toNat 7 a.toNat 12 imm.toNat 17
  | .sltiu d a imm => place3 0x13 d.toNat 7 a.toNat 12 imm.toNat 17
  | .slli d a sh => place3 0x15 d.toNat 7 a.toNat 12 sh.toNat 17
  | .srli d a sh => place3 0x800015 d.toNat 7 a.toNat 12 sh.toNat 17
  | .srai d a sh => place3 0x1000015 d.toNat 7 a.toNat 12 sh.toNat 17
  | .lui d imm => place2 0x17 d.toNat 7 imm.toNat 12
  | .lpc d imm => place2 0x19 d.toNat 7 imm.toNat 12
  | .xset n a => place2 0x1B n.toNat 17 a.toNat 12
  | .xget d n => place2 0x10001B d.toNat 7 n.toNat 17
  | .xli n c imm => place3 0x1D n.toNat 7 c.toNat 10 imm.toNat 12
  | .ldb d a imm => place3 0x21 d.toNat 7 a.toNat 12 imm.toNat 17
  | .ldbu d a imm => place3 0x23 d.toNat 7 a.toNat 12 imm.toNat 17
  | .ldh d a imm => place3 0x25 d.toNat 7 a.toNat 12 imm.toNat 17
  | .ldhu d a imm => place3 0x27 d.toNat 7 a.toNat 12 imm.toNat 17
  | .ldw d a imm => place3 0x29 d.toNat 7 a.toNat 12 imm.toNat 17
  | .ldwu d a imm => place3 0x2B d.toNat 7 a.toNat 12 imm.toNat 17
  | .ldd d a imm => place3 0x2D d.toNat 7 a.toNat 12 imm.toNat 17
  | .stb s a imm => place3 0x2F s.toNat 7 a.toNat 12 imm.toNat 17
  | .sth s a imm => place3 0x31 s.toNat 7 a.toNat 12 imm.toNat 17
  | .stw s a imm => place3 0x33 s.toNat 7 a.toNat 12 imm.toNat 17
  | .std s a imm => place3 0x35 s.toNat 7 a.toNat 12 imm.toNat 17
  | .ldwNb d a b off => place4 0x37 d.toNat 7 a.toNat 12 b.toNat 17 off.toNat 22
  | .lddNb d a b off => place4 0x10000037 d.toNat 7 a.toNat 12 b.toNat 17 off.toNat 22
  | .stwNb d a b off => place4 0x20000037 d.toNat 7 a.toNat 12 b.toNat 17 off.toNat 22
  | .stdNb d a b off => place4 0x30000037 d.toNat 7 a.toNat 12 b.toNat 17 off.toNat 22
  | .ldfe d a b off => place4 0x39 d.toNat 7 a.toNat 12 b.toNat 17 off.toNat 22
  | .ldff d a b off => place4 0x10000039 d.toNat 7 a.toNat 12 b.toNat 17 off.toNat 22
  | .stfe d a b off => place4 0x20000039 d.toNat 7 a.toNat 12 b.toNat 17 off.toNat 22
  | .stff d a b off => place4 0x30000039 d.toNat 7 a.toNat 12 b.toNat 17 off.toNat 22
  | .feclr a b off => place3 0x40000039 a.toNat 12 b.toNat 17 off.toNat 22
  | .feset a b off => place3 0x50000039 a.toNat 12 b.toNat 17 off.toNat 22
  | .fetst d a b off => place4 0x60000039 d.toNat 7 a.toNat 12 b.toNat 17 off.toNat 22
  | .psm d a b => place3 0x3B d.toNat 7 a.toNat 12 b.toNat 17
  | .amoadd d a b => place3 0x40003B d.toNat 7 a.toNat 12 b.toNat 17
  | .amoswap d a b => place3 0x80003B d.toNat 7 a.toNat 12 b.toNat 17
  | .amocas d a b => place3 0xC0003B d.toNat 7 a.toNat 12 b.toNat 17
  | .amomin d a b => place3 0x100003B d.toNat 7 a.toNat 12 b.toNat 17
  | .amomax d a b => place3 0x140003B d.toNat 7 a.toNat 12 b.toNat 17
  | .amominu d a b => place3 0x180003B d.toNat 7 a.toNat 12 b.toNat 17
  | .amomaxu d a b => place3 0x1C0003B d.toNat 7 a.toNat 12 b.toNat 17
  | .amoand d a b => place3 0x200003B d.toNat 7 a.toNat 12 b.toNat 17
  | .amoor d a b => place3 0x240003B d.toNat 7 a.toNat 12 b.toNat 17
  | .amoxor d a b => place3 0x280003B d.toNat 7 a.toNat 12 b.toNat 17
  | .amofadd d a b => place3 0x2C0003B d.toNat 7 a.toNat 12 b.toNat 17
  | .waitc nl ns nc nt => place4 0x3D nl.toNat 27 ns.toNat 22 nc.toNat 17 nt.toNat 12
  | .fence => 0xBD
  | .mwaitEq a b => place2 0x13D a.toNat 12 b.toNat 17
  | .mwaitGe a b => place2 0x1BD a.toNat 12 b.toNat 17
  | .mwaitNe a b => place2 0x23D a.toNat 12 b.toNat 17
  | .sleep a => place1 0x2BD a.toNat 12
  | .beq a b off => place3 0x41 a.toNat 7 b.toNat 12 off.toNat 17
  | .bne a b off => place3 0x43 a.toNat 7 b.toNat 12 off.toNat 17
  | .blt a b off => place3 0x45 a.toNat 7 b.toNat 12 off.toNat 17
  | .bge a b off => place3 0x47 a.toNat 7 b.toNat 12 off.toNat 17
  | .bltu a b off => place3 0x49 a.toNat 7 b.toNat 12 off.toNat 17
  | .bgeu a b off => place3 0x4B a.toNat 7 b.toNat 12 off.toNat 17
  | .jal d off => place2 0x4D d.toNat 7 off.toNat 12
  | .jalr d a imm => place3 0x4F d.toNat 7 a.toNat 12 imm.toNat 17
  | .spawn t a b => place3 0x51 t.toNat 7 a.toNat 12 b.toNat 17
  | .join => 0x400051
  | .spawnn t a b => place3 0x800051 t.toNat 7 a.toNat 12 b.toNat 17
  | .next => 0xC00051
  | .ps d n => place2 0x1000051 d.toNat 7 n.toNat 17
  | .psset n a => place2 0x1400051 n.toNat 17 a.toNat 12
  | .psget d n => place2 0x1800051 d.toNat 7 n.toNat 17
  | .cancel => 0x1C00051
  | .fbsave => 0x53
  | .fbload a => place1 0x400053 a.toNat 12
  | .fbret a => place1 0x800053 a.toNat 12
  | .cppost n a => place2 0x55 n.toNat 17 a.toNat 12
  | .cpprom d n => place2 0x400055 d.toNat 7 n.toNat 17
  | .cpwait p s q => place3 0x800055 p.toNat 7 s.toNat 12 q.toNat 17
  | .tkpost t l => place2 0xC00055 t.toNat 7 l.toNat 17
  | .tkstat d a b => place3 0x1000055 d.toNat 7 a.toNat 12 b.toNat 17
  | .mspost d a => place2 0x1400055 d.toNat 7 a.toNat 12
  | .colpost d a b => place3 0x1800055 d.toNat 7 a.toNat 12 b.toNat 17
  | .fadd p d a b => place4 0x57 p.code 22 d.toNat 7 a.toNat 12 b.toNat 17
  | .fsub p d a b => place4 0x8000057 p.code 22 d.toNat 7 a.toNat 12 b.toNat 17
  | .fmul p d a b => place4 0x10000057 p.code 22 d.toNat 7 a.toNat 12 b.toNat 17
  | .fdiv p d a b => place4 0x18000057 p.code 22 d.toNat 7 a.toNat 12 b.toNat 17
  | .fsqrt p d a => place3 0x20000057 p.code 22 d.toNat 7 a.toNat 12
  | .fmin p d a b => place4 0x28000057 p.code 22 d.toNat 7 a.toNat 12 b.toNat 17
  | .fmax p d a b => place4 0x30000057 p.code 22 d.toNat 7 a.toNat 12 b.toNat 17
  | .fma p d a b => place4 0x38000057 p.code 22 d.toNat 7 a.toNat 12 b.toNat 17
  | .fcmpeq p d a b => place4 0x40000057 p.code 22 d.toNat 7 a.toNat 12 b.toNat 17
  | .fcmplt p d a b => place4 0x48000057 p.code 22 d.toNat 7 a.toNat 12 b.toNat 17
  | .fcmple p d a b => place4 0x50000057 p.code 22 d.toNat 7 a.toNat 12 b.toNat 17
  | .fkind p d a => place3 0x58000057 p.code 22 d.toNat 7 a.toNat 12
  | .fcvt c d a => place3 0x60000057 c.code 22 d.toNat 7 a.toNat 12
  | .vadd v t k d a b => place6 0x61 v.code 22 t.code 19 k.toNat 16 d.toNat 7 a.toNat 10 b.toNat 13
  | .vsub v t k d a b => place6 0x8000061 v.code 22 t.code 19 k.toNat 16 d.toNat 7 a.toNat 10 b.toNat 13
  | .vmul v t k d a b => place6 0x10000061 v.code 22 t.code 19 k.toNat 16 d.toNat 7 a.toNat 10 b.toNat 13
  | .vfma v t k d a b => place6 0x18000061 v.code 22 t.code 19 k.toNat 16 d.toNat 7 a.toNat 10 b.toNat 13
  | .vmin v t k d a b => place6 0x20000061 v.code 22 t.code 19 k.toNat 16 d.toNat 7 a.toNat 10 b.toNat 13
  | .vmax v t k d a b => place6 0x28000061 v.code 22 t.code 19 k.toNat 16 d.toNat 7 a.toNat 10 b.toNat 13
  | .vabs v t k d a => place5 0x30000061 v.code 22 t.code 19 k.toNat 16 d.toNat 7 a.toNat 10
  | .vneg v t k d a => place5 0x38000061 v.code 22 t.code 19 k.toNat 16 d.toNat 7 a.toNat 10
  | .vand t k d a b => place5 0x63 t.code 19 k.toNat 16 d.toNat 7 a.toNat 10 b.toNat 13
  | .vor t k d a b => place5 0x8000063 t.code 19 k.toNat 16 d.toNat 7 a.toNat 10 b.toNat 13
  | .vxor t k d a b => place5 0x10000063 t.code 19 k.toNat 16 d.toNat 7 a.toNat 10 b.toNat 13
  | .vsll t k d a b => place5 0x18000063 t.code 19 k.toNat 16 d.toNat 7 a.toNat 10 b.toNat 13
  | .vsrl t k d a b => place5 0x20000063 t.code 19 k.toNat 16 d.toNat 7 a.toNat 10 b.toNat 13
  | .vsra t k d a b => place5 0x28000063 t.code 19 k.toNat 16 d.toNat 7 a.toNat 10 b.toNat 13
  | .vcmp c t k d a b => place6 0x65 c.code 22 t.code 19 k.toNat 16 d.toNat 7 a.toNat 10 b.toNat 13
  | .vsel t k d a b => place5 0x8000065 t.code 19 k.toNat 16 d.toNat 7 a.toNat 10 b.toNat 13
  | .vcvt toLane f t k d a p => place6 0x67 ((bif toLane then 16 else 0).add f.code) 22 t.code 19 k.toNat 16 p.toNat 13 a.toNat 10 d.toNat 7
  | .vpack4 d a p => place3 0x8100067 d.toNat 7 a.toNat 10 p.toNat 13
  | .vunpack4 signed d a p => place4 0x10100067 signed.toNat 22 d.toNat 7 a.toNat 10 p.toNat 13
  | .vpack6 d a => place2 0x18100067 d.toNat 7 a.toNat 10
  | .vunpack6 d a => place2 0x20100067 d.toNat 7 a.toNat 10
  | .vredsum v t k d a => place5 0x69 v.code 22 t.code 19 k.toNat 16 d.toNat 7 a.toNat 10
  | .vredmax v t k d a => place5 0x8000069 v.code 22 t.code 19 k.toNat 16 d.toNat 7 a.toNat 10
  | .vexp2 t k d a => place4 0x10000069 t.code 19 k.toNat 16 d.toNat 7 a.toNat 10
  | .vrcp t k d a => place4 0x18000069 t.code 19 k.toNat 16 d.toNat 7 a.toNat 10
  | .vrsqrt t k d a => place4 0x20000069 t.code 19 k.toNat 16 d.toNat 7 a.toNat 10
  | .vbcast t g k d => place4 0x6B t.code 19 g.toNat 22 k.toNat 16 d.toNat 7
  | .vmovg t g lane a => place4 0x800006B t.code 19 g.toNat 22 lane.toNat 13 a.toNat 10
  | .vins t g lane d => place4 0x1000006B t.code 19 g.toNat 22 lane.toNat 13 d.toNat 7
  | .vperm t k d a b => place5 0x1800006B t.code 19 k.toNat 16 d.toNat 7 a.toNat 10 b.toNat 13
  | .vld t g k d => place4 0x6D t.code 19 g.toNat 22 k.toNat 16 d.toNat 7
  | .vst t g k d => place4 0x800006D t.code 19 g.toNat 22 k.toNat 16 d.toNat 7
  | .vldx t g k d b => place5 0x1000006D t.code 19 g.toNat 22 k.toNat 16 d.toNat 7 b.toNat 13
  | .vstx t g k d b => place5 0x1800006D t.code 19 g.toNat 22 k.toNat 16 d.toNat 7 b.toNat 13
  | .kand d a b => place3 0x6F d.toNat 7 a.toNat 10 b.toNat 13
  | .kor d a b => place3 0x800006F d.toNat 7 a.toNat 10 b.toNat 13
  | .kxor d a b => place3 0x1000006F d.toNat 7 a.toNat 10 b.toNat 13
  | .knot d a => place2 0x1800006F d.toNat 7 a.toNat 10
  | .kpop g a => place2 0x2000006F g.toNat 22 a.toNat 10
  | .kmovToMask d g => place2 0x2800006F d.toNat 7 g.toNat 22
  | .kmovFromMask g a => place2 0x2808006F g.toNat 22 a.toNat 10
  | .mfs d n => place2 0x71 d.toNat 7 n.toNat 17
  | .mts n a => place2 0x20000071 n.toNat 17 a.toNat 12
  | .sys n => place1 0x40000071 n.toNat 17
  | .brk n => place1 0x60000071 n.toNat 17
  | .sret => 0x73
  | .tlbinv a b => place2 0x400073 a.toNat 12 b.toNat 17
  | .slspill a b => place2 0x800073 a.toNat 12 b.toNat 17
  | .slload a b => place2 0xC00073 a.toNat 12 b.toNat 17
  | .slstop a => place1 0x1000073 a.toNat 12
  | .slgo a => place1 0x1400073 a.toNat 12
  | .halt => 0x1800073
  | .idle => 0x1C00073
  | .cMv d a => place2 0x800 d.toNat 6 a.toNat 1
  | .cAdd d a => place2 0x1000 d.toNat 6 a.toNat 1
  | .cSub d a => place2 0x1800 d.toNat 6 a.toNat 1
  | .cAnd d a => place2 0x2000 d.toNat 6 a.toNat 1
  | .cOr d a => place2 0x2800 d.toNat 6 a.toNat 1
  | .cXor d a => place2 0x3000 d.toNat 6 a.toNat 1
  | .cAddi d imm => place2 0x3800 d.toNat 6 imm.toNat 1
  | .cLi d imm => place2 0x4000 d.toNat 6 imm.toNat 1
  | .cSlli d sh => place2 0x4800 d.toNat 6 sh.toNat 1
  | .cSrli d sh => place2 0x5000 d.toNat 6 sh.toNat 1
  | .cSrai d sh => place2 0x5800 d.toNat 6 sh.toNat 1
  | .cLdd d b off => place3 0x6000 d.toNat 8 b.toNat 5 off.toNat 1
  | .cStd s b off => place3 0x6800 s.toNat 8 b.toNat 5 off.toNat 1
  | .cBz a off => place2 0x7000 a.toNat 8 off.toNat 1
  | .cBnz a off => place2 0x7800 a.toNat 8 off.toNat 1
  | .cJ off => place1 0x8000 off.toNat 1
  | .cJr a => place1 0x8800 a.toNat 6
  | .cNext => 0x9000
  | .cPs d n => place2 0x9800 d.toNat 8 n.toNat 5
  | .cNop => 0xA000
  | _ => 0

/-- Bytes of an instruction's encoding: 2 for a compact form, 4 for a word, 0 for a step of the machine (R122). -/
def Instr.size : Instr → Nat
  | .cMv _ _ => 2
  | .cAdd _ _ => 2
  | .cSub _ _ => 2
  | .cAnd _ _ => 2
  | .cOr _ _ => 2
  | .cXor _ _ => 2
  | .cAddi _ _ => 2
  | .cLi _ _ => 2
  | .cSlli _ _ => 2
  | .cSrli _ _ => 2
  | .cSrai _ _ => 2
  | .cLdd _ _ _ => 2
  | .cStd _ _ _ => 2
  | .cBz _ _ => 2
  | .cBnz _ _ => 2
  | .cJ _ => 2
  | .cJr _ => 2
  | .cNext => 2
  | .cPs _ _ => 2
  | .cNop => 2
  | .illegalEncoding _ => 0
  | .rotationTurn _ _ => 0
  | .slotDraw _ => 0
  | .spawnBroadcast _ _ => 0
  | .chunkRequest _ _ => 0
  | .psWindow _ => 0
  | .psResult _ => 0
  | .basinRefill _ => 0
  | .joinRetire _ => 0
  | .nextDrainComplete _ => 0
  | .longLatencyResult _ => 0
  | .memoryRequestAtHome _ => 0
  | .loadReply _ => 0
  | .streamingAccessPerform _ _ => 0
  | .idleWake _ => 0
  | .mwaitPoll _ => 0
  | .watchLimit _ => 0
  | .sleepWake _ => 0
  | .waitcComplete _ => 0
  | .fenceComplete _ => 0
  | .leaseExpiry _ _ => 0
  | .trapRecordPost => 0
  | .deferredSupervisorSave _ => 0
  | .conduitTake _ _ => 0
  | .promiseRevision _ _ _ => 0
  | .denseCopy _ _ _ => 0
  | .gather _ _ _ => 0
  | .scatter _ _ _ => 0
  | .pooledGather _ _ _ => 0
  | .rowReplace _ _ _ => 0
  | .versionWaitWake _ _ _ => 0
  | .copyResume _ _ _ => 0
  | .copyCompletion _ _ => 0
  | .taskDispatch _ => 0
  | .aclr _ _ => 0
  | .mma _ _ => 0
  | .applyBlock _ _ _ => 0
  | .exponentMessage _ _ _ => 0
  | .rdout _ _ => 0
  | .asave _ _ => 0
  | .aload _ _ => 0
  | .afree _ _ => 0
  | .groupWatchdog _ _ => 0
  | .taskResume _ _ => 0
  | .taskCompletion _ _ => 0
  | .msRequestStart _ _ => 0
  | .msReduce _ _ => 0
  | .msFill _ _ => 0
  | .msCopy _ _ => 0
  | .msFeInit _ _ => 0
  | .msResume _ _ => 0
  | .msCompletion _ _ => 0
  | .collectiveInstanceStart _ _ => 0
  | .colDenseAllreduce _ => 0
  | .colSparseAllreduce _ => 0
  | .colBroadcast _ => 0
  | .colAllGather _ => 0
  | .colResume _ => 0
  | .colCompletion _ => 0
  | .colAbort _ => 0
  | .graphUpload _ => 0
  | .runTrigger _ => 0
  | .runCancel _ => 0
  | .runStart => 0
  | .nodeStart => 0
  | .nodeCompletion _ _ => 0
  | .lvlcmdCancel => 0
  | .commCreate _ => 0
  | .commEnd _ => 0
  | .pageWalk _ _ => 0
  | .atsTranslationResponse _ _ _ _ => 0
  | .priResponse _ _ _ _ => 0
  | .priTimeout _ _ _ => 0
  | .atsInvalidation _ _ _ _ => 0
  | .invalidationCompletion _ => 0
  | .hostReadCompletion _ _ => 0
  | .formatWindowArm _ _ => 0
  | .formatWindowDisarm _ _ => 0
  | .dirtyLogEpochFlip _ => 0
  | .jobSuspend => 0
  | .virtualDieRemap _ _ => 0
  | .jobRestore => 0
  | .patrolScrub _ _ => 0
  | .agentStateUe _ => 0
  | .flitReceive _ _ _ _ _ => 0
  | .nackReceive _ _ _ => 0
  | .linkWindowRebuild _ => 0
  | .transactionRetry _ => 0
  | .dedupExpiry _ => 0
  | .hostPortDown _ => 0
  | .scaleUpPortLaneLoss _ _ => 0
  | .memberPackageLost _ _ => 0
  | .segmentDeliveryFailure _ => 0
  | .blockRateLimit _ => 0
  | .dieGate _ => 0
  | .dieWake _ => 0
  | .pseudoChannelRetire _ _ => 0
  | .linkLaneRecalibrate _ _ => 0
  | .blockFirmwareUpdate _ _ _ => 0
  | .dieOutOfService _ => 0
  | .obsCounterClear _ _ => 0
  | .debugStop _ => 0
  | .debugResume _ => 0
  | .debugStep _ => 0
  | .debugRelease _ => 0
  | .watchPass _ => 0
  | .snapshotRequest _ => 0
  | .snapshotLatch => 0
  | .sillageHoldRelease _ => 0
  | .packageReset => 0
  | .bootImageAck _ _ => 0
  | .gxoLoad _ => 0
  | .i3cDynamicAddress _ => 0
  | .i3cGetstatus => 0
  | .mgmtMailboxCommand _ => 0
  | .registerWrite _ _ => 0
  | .cpwaitPromiseReached _ => 0
  | .acknowledgementReceive _ _ => 0
  | .blockRateRestore _ => 0
  | .jobSaveAbandon => 0
  | .jobStart _ _ _ _ => 0
  | .jobEnd => 0
  | _ => 4

/-- The bytes of a well-formed instruction in memory order; none for a step of the machine. -/
def encode (i : Instr) : List Byte := bytesOfNat i.size (encodeNat i)

end Sys2Proof
end

