-- ==== Sys2Proof/Machine/State.lean ====
section
/-! DEFINITION. The state of the machine as plain data, the reasons a step can stop, and the state after reset. Every
piece of state the manual names has a field here; INVENTORY.md lists them with their rules. Tables keyed by a number
are lists of pairs in rising order of the key, so equal tables are equal lists. -/

namespace Sys2Proof.Machine

/-- Why a step can stop. -/
inductive Fault where
  /-- Raised by `step` when the schedule names a term that is no step of the machine: an encoded instruction, or a row whose operands
  are out of range (`Instr.wf`). Safe. -/
  | illFormed
  deriving DecidableEq, Repr

/-- Why a step can be refused. -/
inductive Refusal where
  /-- An instruction with no meaning yet. Safe. -/
  | notModelled (mnemonic : String)
  deriving DecidableEq, Repr

/-- A table keyed by numbers, keys strictly rising. -/
abbrev Table (α : Type) := List (Nat × α)

/-- Where a checked address leads (R50, R52, R55): a byte of a local store, a stack or the capacity tier in the
model's one numbering of cells, with the slice that is its home, (virtual die << 7) | slice (R56), if it has one; a
byte of a format-window view; a device register; an IOVA of a host port. -/
inductive Loc where
  | cell (addr : Nat) (home : Option Nat)
  | view (pa : Nat)
  | dev (pa : Nat)
  | host (port pasid iova : Nat)
  deriving DecidableEq, Repr

/-- A cause on its way to be delivered (R317): its code, the sub-reason of R323, the faulting address, INFO, and the slot
that raised it, where containment may absorb it (R320). -/
structure Trap where
  cause : Byte
  subr : Nat := 0
  addr : Word := 0#64
  info : Word := 0#64
  slot : Option Nat := none
  /-- `cycle` when it was raised, for a cause whose delivery had to wait, and whether what it waits for is a free entry of
  `sfibarea` (R318). -/
  since : Option Nat := none
  toArea : Bool := false
  deriving DecidableEq, Repr

/-- The seven full/empty operations, by sub value (R163). -/
inductive FeOp where
  | ldfe | ldff | stfe | stff | feclr | feset | fetst
  deriving DecidableEq, Repr

/-- The twelve atomics, by fn (R165). -/
inductive AmoOp where
  | psm | add | swap | cas | min | max | minu | maxu | and | or | xor | fadd
  deriving DecidableEq, Repr

/-- The tests of `mwait` (R170). -/
inductive WatchTest where
  | eq | ge | ne
  deriving DecidableEq, Repr

/-- One data access of an instruction, with its operands read at issue. -/
inductive MemOp where
  /-- Ordinary load (R158). -/
  | load (size : Nat) (signed : Bool) (d : Reg)
  /-- Ordinary store (R158). -/
  | store (size : Nat) (v : Word)
  /-- Full/empty operation (R163). -/
  | fe (op : FeOp) (d : Reg) (v : Word)
  /-- Atomic (R165): operand and, for `amocas`, the value compared. -/
  | amo (op : AmoOp) (d : Reg) (v e : Word)
  /-- `mwait` (R170). -/
  | watch (t : WatchTest) (v : Word)
  /-- `vld` and `vst` (R201), with the dwords already loaded in ascending order and the number already stored. -/
  | vload (t : LaneTy) (k d : VReg) (got : List Nat)
  | vstore (t : LaneTy) (k d : VReg) (put : Nat)
  /-- `vldx` and `vstx` (R202), with the lanes already loaded in ascending order and the number already stored. -/
  | gather (b k d : VReg) (got : List Nat)
  | scatter (b k d : VReg) (put : Nat)
  /-- The load that ends a `cpwait` (R210), with the low 40 bits of its sequence number. -/
  | stamp (seq : Nat)
  /-- `cppost` to mailbox n (R206). -/
  | post (n : Nat) (v : Word)
  deriving DecidableEq, Repr

/-- What a long-latency operation will write (R145, R199). -/
inductive LongResult where
  | gpr (d : Reg) (v flags : Word)
  | vec (d : VReg) (v : BitVec 512) (flags : Word)
  deriving DecidableEq, Repr

/-- A post whose queue is full, with the block it has read (R234, R241): to a memory-side queue of a stack, numbered
virtual die * 2 + stack, or to a communicator. -/
inductive Post where
  | memSide (d : Reg) (block : List Word) (key : Nat)
  | collective (d : Reg) (record : List Word) (handle : Nat)
  deriving DecidableEq, Repr

/-- What an agent that is not ready waits in (R34, R172). `len` is the size of the instruction at pc, which has not
retired unless the constructor says so. -/
inductive Wait where
  | ready
  /-- An access sent to its home and not performed (R35). -/
  | request (op : MemOp) (va : Word) (loc : Loc) (len since : Nat)
  /-- Performed and retired; its value has yet to land (R158). -/
  | reply (d : Reg) (v : Word)
  /-- A parked full/empty operation (R63). -/
  | park (op : MemOp) (va : Word) (len : Nat)
  /-- An armed `mwait` (R170); its entry is in the job's watch list. -/
  | watch (op : MemOp) (va : Word) (len : Nat)
  /-- Retired; its result is written at `due` (R145). -/
  | long (due : Nat) (res : LongResult)
  /-- Retired; a prefix-sum result is awaited (R28). -/
  | ps
  | sleep (target : Word)
  | cpwait (op : MemOp) (va : Word) (target : Word)
  | waitc (nl ns nc nt : Nat)
  | fence
  | join
  | next (len : Nat)
  | fbsave
  | sysExit
  /-- A post that waits for room in its queue (R234, R241). -/
  | room (p : Post) (len : Nat)
  | idle
  | halt
  /-- The instruction at pc did not issue at its turn and is issued again at the next; the class of the turn lost (R34). -/
  | again (cls : Nat)
  /-- The same, not ready on memory, of a block read whose dword at an address lies on a host page with no translation, or whose
  completion dword does (R314, R315): a refusal of that page ends it. -/
  | page (va : Word) (loc : Loc) (write : Bool)
  /-- The post that the instruction at pc makes has had no reply, and is sent again (R349). -/
  | lost
  deriving DecidableEq, Repr

/-- Who writes, as a sillage record names it (R368): KIND, pc, agent and unit number. -/
structure Writer where
  kind : Nat
  pc : Word
  agent : Nat
  tid : Word
  deriving DecidableEq, Repr

/-- A streaming access from its issue until it leaves its counter (R66, R161, R162); `by_` is the instruction that issued
it, as a sillage record names it (R368). -/
structure Streaming where
  by_ : Writer
  isStore : Bool
  size : Nat
  va : Word
  loc : Loc
  dest : Reg
  data : Word
  /-- `cycle` at its issue. -/
  since : Nat
  performed : Bool
  failed : Option Byte
  deriving DecidableEq, Repr

/-- Kinds of agent (R13, R22, R42). -/
inductive Role where
  | unit | runtime | master
  deriving DecidableEq, Repr

/-- Privilege levels (R280): U, S and F. -/
inductive Priv where
  | user | supervisor | firmware
  deriving DecidableEq, Repr

/-- One unit slot or master: its register files and named states (R115, R119) and what it is doing. -/
structure Agent where
  role : Role
  priv : Priv
  /-- A unit, fibre, runtime, node or supervisor occupies it (R34). -/
  occupied : Bool
  pc : Word
  g : Vector Word 32
  v : Vector (BitVec 512) 8
  k : Vector (BitVec 16) 8
  xe : Vector Word 8
  rmode : Word
  tid : Word
  spawnid : Word
  joinst : Word
  upentry : Word
  fibpool : Word
  upcause : Word
  upaddr : Word
  /-- Streaming accesses counted, in issue order (R161). -/
  nb : List Streaming
  wait : Wait
  /-- Full/empty wakes counted (R63, R164) and cycles an `mwait` has waited (R172). -/
  wakes : Nat
  waited : Nat
  /-- The instruction at pc is a full/empty operation (its sub value) or an `mwait` (none) that was begun and given up
  (R172, R326). -/
  aborted : Option (Option Nat)
  /-- Stopped by `slstop` (R334), by a debugger (R362), or as a trapped master reserved for its node (R318). -/
  slStopped : Bool
  dbgStopped : Bool
  reserved : Bool
  /-- Its spawn or node was cancelled: it ends at its next turn (R45, R295). -/
  ending : Bool
  /-- A debugger's STEP lets one instruction issue (R362). -/
  stepping : Bool
  /-- The cause that waits for a free entry of `sfibarea` (R318). -/
  deferred : Option Trap
  /-- Pool entry of the fibre a runtime serves (R42). -/
  serving : Word
  /-- First cycle at which a unit that was drawn may issue (R22), and when the position was last left vacant (R356). -/
  notBefore : Nat
  leftAt : Nat
  /-- Consecutive turns its access to its own local store has lost to bank arbitration (R54). -/
  forfeits : Nat
  /-- Identity of the unit or runtime its posts are counted for (R386); for a master its node's run and index. -/
  uid : Nat
  run : Nat
  node : Nat
  /-- `psset` values since the last `join` and the final values of the last spawn (R29, R177). -/
  psInit : Table Word
  psLast : Vector Word 8
  deriving DecidableEq, Repr

/-- How a spawn was ended early (R25). -/
inductive EndKind where
  | cancelled | contained
  deriving DecidableEq, Repr

/-- A live spawn with its broadcast state (R18, R30) and counters (R293). -/
structure Spawn where
  /-- The unit numbers of its range (R16), and the first of the next chunk to hand out (R20). -/
  lo : Nat
  hi : Nat
  nextChunk : Nat
  args : List Word
  target : Word
  rmode : Word
  upentry : Word
  fibpool : Word
  /-- ps0-ps7, held by a top-level spawn (R27). -/
  ps : Vector Word 8
  homeDie : Nat
  /-- The top-level spawn and the parent; its own id for a top-level spawn. -/
  root : Nat
  parent : Nat
  /-- Agent number of the master that launched the top-level spawn, with its run and node. -/
  master : Nat
  run : Nat
  node : Nat
  spol : Nat
  upol : Nat
  /-- Units drawn and not retired (fibres included), and incomplete requests of its units (R293). -/
  units : Nat
  requests : Nat
  ended : Option EndKind
  /-- A level at or below it has absorbed a cause (R25, R279). -/
  contained : Bool
  /-- `cycle` when its `spawn` performed (R19). -/
  since : Nat
  /-- Retries used by unit number, and unit numbers to draw again (R44). -/
  retries : Table Nat
  redraw : List Nat
  deriving DecidableEq, Repr

/-- A die's entry for a top-level spawn in its spawn table: the numbers of a chunk it still holds, and a further chunk
it has obtained (R19, R20). -/
structure TableEntry where
  spawn : Nat
  next : Nat
  last : Nat
  further : Option (Nat × Nat)
  deriving DecidableEq, Repr

/-- A virtual die's spawn table by master index, basin (hardware records and spilled ones, newest first), with the
chunk each child record is drawing from, the master of rule 3's last draw (R19, R31, R32, R43), and when it was last
changed (R356). -/
structure DieState where
  entries : Table TableEntry
  basin : List Nat
  spilled : List Nat
  lastMaster : Nat
  busyAt : Nat
  deriving DecidableEq, Repr

/-- A fibre on a ready-fibre list (R43). -/
structure ReadyFibre where
  core : Nat
  entry : Word
  deriving DecidableEq, Repr

/-- A streaming access issued by a unit that has been ended (R45): it still performs, and counts under its spawn until it
has. -/
structure Loose where
  agent : Nat
  spawn : Nat
  access : Streaming
  deriving DecidableEq, Repr

/-- What the hardware knows of a saved agent by its entry's address: its spawn, its identity, for a runtime the fibre
it serves (R40, R386), the dwords of the entry as they were when software last could write them (R182, R327), its
`upcause`, which no field of a record holds (R42, R326), and a cause it had yet to deliver. -/
structure FibreInfo where
  spawn : Nat
  uid : Nat
  runtime : Bool
  serving : Word
  run : Nat
  node : Nat
  image : List Word
  upcause : Word
  deferred : Option Trap
  deriving DecidableEq, Repr

/-- The level of the work hierarchy under which a request counts (R205). -/
inductive Level where
  | job
  | node (run node : Nat)
  | spawn (id : Nat)
  deriving DecidableEq, Repr

/-- Who posted a request: the identity its count belongs to (R386), 0 for none, its level, the privilege its engine
accesses have, and the agent, whose core a sillage record names (R368). -/
structure Poster where
  uid : Nat
  level : Level
  priv : Priv
  agent : Nat
  deriving DecidableEq, Repr

/-- An entry of a park table (R63, R164): the agent, its operation, the dword, when it parked and was last tried, its wakes, and
what it ended with: the value of a success, or a cause. An ended entry no longer occupies the table; it holds the reply
until it reaches the agent. `post` is the core, mailbox and poster of a `cppost`. -/
structure Parked where
  agent : Nat
  op : FeOp
  v : Word
  cell : Nat
  home : Option Nat
  since : Nat
  tried : Nat
  wakes : Nat
  ended : Option (Except Byte Word)
  post : Option (Nat × Nat × Poster)
  deriving DecidableEq, Repr

/-- An armed `mwait` (R70, R170): the agent, its test, the dword, when it armed with the cycles waited before, whether
it polls and when it last did or when it ended, and how it ended: `some none` when the test passed, else a cause. -/
structure Armed where
  agent : Nat
  test : WatchTest
  v : Word
  loc : Loc
  since : Nat
  before : Nat
  polling : Bool
  polled : Nat
  ended : Option (Option Byte)
  deriving DecidableEq, Repr

/-- What of a prefix sum a link has lost (R350). -/
inductive PsLoss where
  | request | result
  deriving DecidableEq, Repr

/-- A prefix-sum request in flight (R28), with the cycles it was sent and reaches the home die, and what of it has been lost (R350): the request before it
reached the home die, or its result. -/
structure PsRequest where
  agent : Nat
  spawn : Nat
  n : Nat
  amount : Nat
  window : Nat
  due : Nat
  d : Reg
  value : Option Word
  sent : Nat
  arrives : Nat
  lost : Option PsLoss
  deriving DecidableEq, Repr

/-- Whether an engine request goes on, waits suspended on a page fault for the supervisor, or has been resumed by it
(R308, R332). -/
inductive Hold where
  | going | suspended | serviced
  deriving DecidableEq, Repr

/-- What a write of an engine does to a dword: bytes by offset, the dword written poisoned, or its full/empty bit set (R236). -/
inductive LateData where
  | bytes (l : List (Nat × Nat))
  | bad
  | bit (full : Bool)
  deriving DecidableEq, Repr

/-- A write of an engine to one dword, which its step may leave to perform later (R69): the request, the writer, the dword's
cell and home, what is written, and the cycle of its step. -/
structure LateWrite where
  request : Nat
  writer : Writer
  cell : Nat
  home : Option Nat
  data : LateData
  since : Nat
  deriving DecidableEq, Repr

/-- A versioned write between its `amocas` and its final store (R218): the version dword with its home, the even version it
began from, and the writes of the row still to be made. -/
structure VersionWrite where
  cell : Nat
  home : Option Nat
  version : Nat
  row : List LateWrite
  deriving DecidableEq, Repr

/-- A copy a conduit has taken and not completed (R207-R221). -/
structure Copy where
  seq : Nat
  box : Nat
  recAddr : Word
  record : List Word
  src : List Word
  dst : List Word
  poster : Poster
  promise : Nat
  /-- Reads at the take still to be made after a serviced fault (R212). -/
  unread : Bool
  progress : Nat
  /-- Attempts of a versioned reader, and the address of the version dword it or a writer waits on (R218). -/
  attempts : Nat
  waitVersion : Option Word
  /-- A versioned write in progress (R218), and the bags already read and pooled, as their output bytes (R69, R217). -/
  writing : Option VersionWrite
  bags : Table (List Nat)
  /-- Suspended on a page fault (R221). -/
  hold : Hold
  /-- Cost of the whole copy and of what is complete (R208). -/
  cost : Nat
  spent : Nat
  /-- STATUS of the stamp once its movement has ended (R219), with the cause its failure raises. -/
  status : Option Nat
  cause : Option Trap
  /-- The record's address failed its checks, so there is no stamp address (R207). -/
  noStamp : Bool
  deriving DecidableEq, Repr

/-- The conduit of one core (R207): the last sequence number, the last mailbox taken, who filled each mailbox with
`cppost`, its incomplete copies in sequence order, the cycle of its last take, and when it last changed (R356). -/
structure Conduit where
  seq : Nat
  lastBox : Nat
  takenAt : Option Nat
  busyAt : Nat
  posters : Table Poster
  copies : List Copy
  deriving DecidableEq, Repr

/-- One tile row of an accumulator (R98): X = -32768 when empty. `block` is the next block to apply of the operation
in hand, `told` whether its exponent message for that block has been exchanged (R104). -/
structure AccRow where
  x : Int
  h : Nat
  nan : Bool
  lost : Bool
  m : List Int
  block : Nat
  told : Bool
  deriving DecidableEq, Repr

/-- A tile task that is posted and not complete (R222-R231). -/
structure Task where
  list : Nat
  ticket : Nat
  /-- Cell of the record. -/
  recAddr : Nat
  record : List Word
  poster : Poster
  /-- STATE of R227. -/
  state : Nat
  cause : Nat
  blocks : Nat
  /-- Rows of a readout or image already written; for an `MMA` 1 once its B panel is in place. -/
  row : Nat
  /-- The tile state an `ALOAD` has read, and its rows so far (R231). -/
  header : List Word
  loaded : List AccRow
  /-- The cause its completion raises (R205, R231). -/
  trap : Option Trap
  dispatched : Bool
  hold : Hold
  deriving DecidableEq, Repr

/-- An accumulator (R96-R99, R105, R106): its engines, shape, tile state, rows, the operation being applied and the
operations held early, as (list, ticket). -/
structure Acc where
  engines : List Nat
  gr : Nat
  gc : Nat
  aln : Bool
  nextKey : Nat
  incoming : Nat
  carry : Nat
  sat : Bool
  rovf : Bool
  rows : List AccRow
  current : Option (Nat × Nat)
  held : List (Nat × Nat × Nat)
  /-- Keys whose operations were cancelled while held (R107). -/
  skipped : List Nat
  /-- The group watchdog's count, and the cycle up to which it has counted (R105). -/
  watchdog : Nat
  counted : Nat
  deriving DecidableEq, Repr

/-- One K-block of a B panel column (R225): exponent byte, mantissas, and whether an operand byte of it was poisoned. -/
structure PanelBlock where
  x : Nat
  q : List Int
  bad : Bool
  deriving DecidableEq, Repr

/-- A B panel resident in a tile engine (R226): its tag, the group column whose 128 columns it holds (R96), whether its
conversion saturated, and those columns. -/
structure Panel where
  col : Nat
  addr : Word
  fmt : Nat
  aux : Word
  sat : Bool
  cols : List (List PanelBlock)
  deriving DecidableEq, Repr

/-- A die's tile task scheduler (R222, R229, R230): tickets, timelines, tasks, the list last dispatched at each PRIO,
accumulators by handle, the B panel of each engine (R226), the cycle of its last dispatch, and when it last changed
(R356). -/
structure Tile where
  tickets : Table Nat
  timelines : Table Nat
  tasks : List Task
  lastList : Table Nat
  accs : Table Acc
  panels : Table Panel
  dispatchedAt : Option Nat
  busyAt : Nat
  deriving DecidableEq, Repr

/-- A memory-side request (R234-R237). -/
structure MsRequest where
  queue : Nat
  seq : Nat
  block : List Word
  /-- Source addresses of a reduce, once its table has been read (R235). -/
  sources : List Word
  poster : Poster
  started : Bool
  progress : Nat
  isat : Bool
  hold : Hold
  status : Option Nat
  cause : Option Trap
  /-- Completion writes already made or skipped (R237). -/
  written : Nat
  deriving DecidableEq, Repr

/-- A stack's memory-side engine: sequence numbers and timelines by queue, requests, the queue last served, and when it last
changed (R356). -/
structure MsEngine where
  seqs : Table Nat
  timelines : Table Nat
  requests : List MsRequest
  lastQueue : Nat
  busyAt : Nat
  deriving DecidableEq, Repr

/-- A collective instance posted at this rank (R241-R248), with what the peers' posts were once it has started, the
result stream or buffer as bytes with its poisoned dwords, and its completion. -/
structure Instance where
  seq : Nat
  record : List Word
  poster : Poster
  started : Bool
  peers : List PeerPost
  status : Nat
  causes : List Trap
  flags : Nat
  bandnw : Nat
  words : Nat
  /-- Bytes of the result with its poisoned dwords. -/
  result : List Nat
  bad : List Nat
  hold : Hold
  /-- Steps of R245 already made or skipped. -/
  completed : Nat
  deriving DecidableEq, Repr

/-- A communicator (R238-R240): its block's fields, its own copy of the tree descriptor, and its instances. -/
structure Comm where
  rank : Nat
  size : Nat
  threshold : Nat
  nnode : Nat
  tree : List Word
  seq : Nat
  instances : List Instance
  /-- Being ended (R297), and members reported lost (R353). -/
  ending : Bool
  lost : List Nat
  deriving DecidableEq, Repr

/-- A node entry of an uploaded graph (R285), its dwords. -/
structure GraphNode where
  dword0 : Word
  entry : Word
  args : Word
  pred : Word
  deriving DecidableEq, Repr

/-- An uploaded graph (R285, R287). -/
structure Graph where
  rpol : Nat
  donea : Word
  nodes : List GraphNode
  edges : List Word
  deriving DecidableEq, Repr

/-- Where a node of a run stands (R291, R292). -/
inductive NodeState where
  | waiting
  | ready (since : Nat)
  | running (master : Nat)
  | exited (master : Nat)
  | complete
  | skipped
  | ended
  deriving DecidableEq, Repr

/-- A node of a run in flight: state, the predicate it read, requests counted under it, retries used, whether it is
being cancelled, and whether it restarts then (R291-R295). -/
structure RunNode where
  st : NodeState
  pred : Bool
  requests : Nat
  retries : Nat
  ending : Bool
  restart : Bool
  deriving DecidableEq, Repr

/-- A run, queued or in flight (R288-R292). -/
structure Run where
  id : Nat
  prio : Nat
  graph : Nat
  plist : Word
  started : Bool
  nodes : List RunNode
  cancelled : Bool
  /-- Entries of its patch list already written, while it is being patched (R290). -/
  patched : Option Nat
  rejected : Bool
  /-- Address of the page fault the supervisor was last told of (R290, R292). -/
  faulted : Option Word
  deriving DecidableEq, Repr

/-- What a host range's entry caches (R304, R313): the port and PASID of its descriptor, and its IOVA base. -/
structure HostRange where
  port : Nat
  pasid : Nat
  base : Word
  deriving DecidableEq, Repr

/-- A cached translation (R304): the virtual page by size, dword 1 of its entry, and a host range's descriptor as the walk
read it. -/
structure TlbEntry where
  size : Nat
  vpn : Nat
  pte : Word
  host : Option HostRange
  deriving DecidableEq, Repr

/-- Whether a job runs, asks for a suspension, is being saved, or is suspended (R331, R335). -/
inductive JobStatus where
  | absent | running | halting | suspended
  deriving DecidableEq, Repr

/-- What a `tlbinv` waits for (R333), with its pc and operands: the accesses in flight by a translation it removed, of agents and of
ended units, by agent and the cycle they began; engines' late writes; versioned writers by core and sequence number. -/
structure Drain where
  pc : Word
  a : Word
  b : Word
  accesses : List (Nat × Nat)
  late : List LateWrite
  writers : List (Nat × Nat)
  deriving DecidableEq, Repr

/-- A message of the spawn broadcast that a link has lost (R349, R351): its spawn and die, when it was last sent, the retries used,
and whether the last one sent is lost too. -/
structure Cast where
  spawn : Nat
  die : Nat
  sent : Nat
  retries : Nat
  lost : Bool
  deriving DecidableEq, Repr

/-- An agent that was at work when a request ended with a cause, as its number and who it was, and the instructions it may still
issue before that cause enters containment. -/
structure Waiter where
  agent : Nat
  uid : Nat
  run : Nat
  node : Nat
  left : Nat
  deriving DecidableEq, Repr

/-- A cause that a request has yet to raise (R205, R318): KIND, handle and number of its record, the run and node its level lies
under, whether the request has left its engine, when it ended, and the agents that act on that first. -/
structure Owed where
  trap : Trap
  kind : Nat
  handle : Nat
  number : Nat
  poster : Poster
  run : Nat
  node : Nat
  left : Bool
  since : Nat
  waiters : List Waiter
  deriving DecidableEq, Repr

/-- What an engine has read of a source dword ahead of the step that takes the whole of a chunk (R69): the request, the chunk,
the dword, its value, and whether it was poisoned. -/
structure EarlyRead where
  request : Nat
  chunk : Nat
  dword : Nat
  value : Nat
  bad : Bool
  deriving DecidableEq, Repr

/-- What a job's context image holds of one agent (R336): its fibre record with its stack image, the dwords of those that are
poisoned (R345), and what the hardware knows of it. -/
structure AgentImage where
  record : List Word
  bad : List Nat
  info : FibreInfo
  agent : Agent
  deriving DecidableEq, Repr

/-- A job: its named states (R283), its agents, and the work and tables its partition holds. -/
structure Job where
  status : JobStatus
  /-- The cause firmware reports when a firmware cause suspended the job (R317). -/
  fwCause : Option Trap
  jobid : Word
  vdcount : Word
  sqbase : Word
  sqhead : Word
  sqtail : Word
  basinov : Word
  sfibarea : Word
  tlarea : Word
  ptroot : Word
  dlbase : Word
  jobpol : Word
  lvlsel : Word
  vdmap : Word
  ferlimit : Word
  /-- Every agent but the one in focus; an agent that is not listed is vacant. -/
  agents : Table Agent
  spawns : Table Spawn
  nextSpawn : Nat
  nextUid : Nat
  dies : Table DieState
  ready : List ReadyFibre
  fibres : Table FibreInfo
  parked : List Parked
  armed : List Armed
  psRequests : List PsRequest
  loose : List Loose
  casts : List Cast
  conduits : Table Conduit
  tiles : Table Tile
  msEngines : Table MsEngine
  comms : Table Comm
  /-- Communicator blocks whose commands, given by firmware, have yet to complete (R297). -/
  commands : List Word
  graphs : Table Graph
  runs : List Run
  nextRun : Nat
  runDone : Nat
  runRefused : Nat
  lastRun : Nat
  gstat : Word
  /-- An upload whose image met a page fault, with the faulting address (R287). -/
  upload : Option (Word × Word)
  /-- Requests the supervisor posted and not complete (R293). -/
  requests : Nat
  /-- Records waiting for queue room, oldest first (R320). -/
  records : List (List Word)
  owing : List Owed
  early : List EarlyRead
  late : List LateWrite
  /-- Requests that records in the queue name, by KIND, handle and number, with the level where each counts (R332). -/
  recorded : List (Nat × Nat × Nat × Level)
  tlb : List TlbEntry
  drain : Option Drain
  /-- `vdmap` and `cycle` when it was suspended (R337), and the agents of its context image (R336). -/
  saved : Option (Word × Nat)
  image : Table AgentImage
  deriving DecidableEq, Repr

/-- One entry of a G-die's address translation cache (R314), a 4 KiB page. -/
structure AtcEntry where
  port : Nat
  pasid : Nat
  page : Nat
  hostPage : Nat
  r : Bool
  w : Bool
  deriving DecidableEq, Repr

/-- An outstanding ATS or PRI request (R314, R315): the page, the need, when it was sent, whether a page request has been
answered with success and the retry is out, and the engine requests that wait for it, by number, each with whether it writes. -/
structure HostRequest where
  port : Nat
  pasid : Nat
  page : Nat
  write : Bool
  since : Nat
  retry : Bool
  engines : List (Nat × Bool)
  deriving DecidableEq, Repr

/-- One direction of a Kenor link (R347, R348): next number to send, oldest unacknowledged, replay buffer of
(number, payload, void), next number expected, flits held at the receiver, and numbers NACKed. -/
structure Link where
  nextSend : Nat
  acked : Nat
  replay : List (Nat × List Byte)
  resend : List (Nat × Bool)
  expected : Nat
  held : List (Nat × List Byte × Bool)
  nacks : List Nat
  delivered : List (List Byte)
  deriving DecidableEq, Repr

/-- A request that waits for its reply across a link (R349): the agent, when it was last sent, retries used. -/
structure Transaction where
  agent : Nat
  sent : Nat
  retries : Nat
  deriving DecidableEq, Repr

/-- Boot and housekeeping (R372-R378): the step of R376, the status of the management port, dies in service, the images each
die has acknowledged (die, image), its I3C address, what it last answered, the mailbox, commands held and run, the images loaded
(role, image, address, bytes), the placement table and boot tree in force, the firmware image of each block, the loads whose hash
differed (die, image), and the copies of flash sections (section, copy) that fail. -/
structure Boot where
  step : Nat
  bootst : Nat
  diemap : Nat
  acked : List (Nat × Nat)
  address : Option (BitVec 7)
  answer : List Byte
  mailbox : List Byte
  heldCommands : List (List Byte)
  ranCommands : List (List Byte)
  images : List (Nat × Nat × Nat × List Byte)
  placement : List Word
  tree : List Word
  blocks : Table Nat
  attempts : List (Nat × Nat)
  flashBad : List (Nat × Nat)
  deriving DecidableEq, Repr

/-- What firmware has reported to a supervisor: the populated capacity-tier size of each G-die at bring-up (R2, R376), a
1 GiB of a stack that is gone (R357), a debug stop or step (R362); and to the host: a port that is down (R352). -/
inductive Report where
  | capacity (sizes : List Nat)
  | channelLost (stack channel : Nat)
  | stopped (agent : Nat) (cause : Byte)
  | portDown (port : Nat)
  deriving DecidableEq, Repr

/-- A core's trace buffer (R364): its records, oldest first, and how many were dropped since one was last written. -/
structure TraceBuffer where
  records : List (List Word)
  dropped : Nat
  deriving DecidableEq, Repr

/-- What the package holds beside its jobs and memory. -/
structure Pkg where
  cycle : Nat
  /-- Device registers that differ from their reset value (R309, R358-R369), by physical address. -/
  dev : Table Word
  /-- Cached view lines of format windows by view line (R60): bytes and poisoned dwords. -/
  viewLines : Table (List Byte × List Nat)
  /-- Logged epoch of each line a slice has logged (R340). -/
  epochs : Table Bool
  atc : List AtcEntry
  ats : List HostRequest
  pri : List HostRequest
  /-- Pages refused for good, whose refusal the engine that waits for it has yet to meet (R315). -/
  refused : List HostRequest
  /-- Invalidations whose completion is due, by port, each with the writes of engines that were already translated (R316). -/
  invalidating : List (Nat × List LateWrite)
  portsDown : List Nat
  links : Table Link
  transactions : List Transaction
  /-- Deduplication records kept, by the agent that wrote, with the cycle each performed (R349). -/
  dedup : List (Nat × Nat)
  /-- Sillage records a replay has consumed, by slice control block and index (R371). -/
  consumed : List (Nat × Nat)
  /-- Rates lowered at a local limit (R355). -/
  slowed : List PowerBlock
  gated : List Nat
  /-- When a gated die was first called for (R356). -/
  calls : Table Nat
  /-- When each gated die gated, and the spans (die, from, to) dies have spent gated (R356, R360). -/
  gatedAt : Table Nat
  spans : List (Nat × Nat × Nat)
  /-- By core block, the current rotation and the unit slots that issued in it (R360). -/
  rotations : Table (Nat × Nat)
  /-- The cycles below which every turn has been accounted for (R34, R360), by slot or master in the layout of `slotid`
  with the physical die. -/
  turnAt : Table Nat
  retired : List (Nat × Nat)
  /-- Scale-up ports that run on fewer lanes or are down (R353), by port: lanes left. -/
  lanes : Table Nat
  /-- Cycle a snapshot is due (R367). -/
  snapshot : Option Nat
  /-- Trace buffers by core block (R364). -/
  traces : Table TraceBuffer
  /-- Firmware's own state that a rule names: `fjob` (R283), the value its last load of a device register or a named state
  returned (R358), and its reports, oldest first. -/
  fjob : Nat
  fwValue : Word
  reports : List Report
  /-- When a job last left each physical die (R356). -/
  leftAt : Table Nat
  boot : Boot
  deriving DecidableEq, Repr

/-- What comes to a job or the package from outside it, beside the event rows: an access or an error at one instant. -/
inductive Input where
  /-- Firmware writes or reads a named state (R283). -/
  | stateWrite (n : Nat) (v : Word)
  | stateRead (n : Nat)
  /-- Firmware loads a device register (R358). -/
  | deviceLoad (pa : Nat)
  /-- Firmware reads or writes dword i of the record of a debug-stopped agent (R362). -/
  | recordRead (agent i : Nat)
  | recordWrite (agent i : Nat) (v : Word)
  /-- Firmware loads or stores memory of the job `fjob` names, or does there what the supervisor's instructions do (R280). -/
  | memoryLoad (va : Word) (size : Nat)
  | memoryStore (va : Word) (size : Nat) (v : Word)
  | slotSpill (entry slot : Word)
  | slotLoad (entry sel : Word)
  | slotStop (slot : Word)
  | slotGo (slot : Word)
  | invalidate (a b : Word)
  /-- The link of a `ps` request or its result is repaired: it comes so many cycles later (R351); or it is lost (R350). -/
  | psDelayed (agent cycles : Nat)
  | psLost (agent : Nat)
  /-- The message of a spawn's broadcast to a die is lost (R351). -/
  | castLost (spawn die : Nat)
  /-- A write of `size` bytes to the job page (R286). -/
  | jobPage (off size : Nat) (v : Word)
  /-- An error in a word that an access reads: corrected, or uncorrectable, which marks it (R343). -/
  | wordError (cell : Nat) (home : Option Nat) (uncorrectable : Bool)
  /-- An error in the B panel of an engine, or in a tile row (R345). -/
  | panelError (die engine : Nat)
  | rowError (die handle row : Nat)
  /-- An uncorrectable spawn-table entry or basin record of a spawn (R346). -/
  | spawnError (id : Nat)
  /-- Host memory from now on answers reads of a dword with EP set or Completer Abort, or no longer (R345). -/
  | hostDword (cell : Nat) (bad : Bool)
  /-- No reply after the third retry of a streaming access, or of an engine's write for the request of a record's KIND, handle and
  number; no reply to the post the instruction at pc makes (R349). -/
  | streamingLost (agent i : Nat)
  | postLost (agent : Nat)
  | requestLost (kind handle number : Nat)
  /-- A copy of a section of the configuration flash fails (R376). -/
  | flashError (section_ copy : Nat)
  /-- Firmware places a die's copy of an image in the stacks of that die, for the job `fjob` names (R374). -/
  | placeImage (vdie role : Nat)
  /-- A private transfer of the management port reads or writes at an offset; firmware reports in the mailbox (R378). -/
  | portRead (off n : Nat)
  | portWrite (off : Nat) (bytes : List Byte)
  | mailboxReport (bytes : List Byte)
  /-- An error in a versioned writer's own data once the version is odd (R218). -/
  | writerError (die core seq : Nat)
  deriving DecidableEq, Repr

/-- What the schedule may name: an event row, whole or with only its first accesses performing (R64, R69); a turn offered
to an agent, likewise, or forfeited to a bank conflict (R36); a post that finds room; the cause a request owes; a trace
record written to its ring (R364); what an engine reads early or writes late (R69); an upload that goes on (R287); the next step of
a bring-up (R376); an input. -/
inductive Move where
  | row (i : Instr)
  | part (i : Instr) (n : Nat)
  | turn (agent : Nat)
  | share (agent n : Nat)
  | forfeit (agent : Nat)
  | room (agent : Nat)
  | owed (i : Nat)
  | traceOut (core : Nat)
  | earlyRead (request chunk cell : Nat)
  | earlyBag (die core seq bag : Nat)
  | lateWrite (i : Nat)
  | upload
  | boot
  | input (x : Input)
  deriving DecidableEq, Repr

/-- One entry of the schedule: the cycle it comes, the job it concerns, and the move. -/
structure Pending where
  at_ : Nat
  job : Nat
  move : Move
  deriving DecidableEq, Repr

/-- The machine. `ag` is the agent in focus, the one that executes next, and `agId` its number in the layout of
`slotid`; `job` is its job and `jobNo` that job's number. -/
structure State where
  ag : Agent
  agId : Nat
  job : Job
  jobNo : Nat
  jobs : Table Job
  /-- Bytes of local stores, stacks, capacity tier and host memory that differ from `Memory.unlisted`, by cell. -/
  mem : List Host.Cell
  /-- Dwords (cell / 8) whose full/empty bit differs from its reset value (R61). -/
  fe : List Nat
  /-- Poisoned dwords (R343). -/
  poison : List Nat
  pkg : Pkg
  /-- The schedule: steps and outside inputs in the order they come. -/
  agenda : List Pending
  /-- A turn has been offered to the agent in focus (R34). -/
  offered : Bool
  /-- How many of the accesses of the instruction that issues perform at its issue (R64); none: every one. -/
  share : Option Nat
  /-- Counter of free values used. -/
  free : Nat
  deriving DecidableEq, Repr

/-- An agent nobody occupies, every register 0. -/
def Agent.vacant : Agent where
  role := .unit
  priv := .user
  occupied := false
  pc := 0#64
  g := Vector.replicate 32 0#64
  v := Vector.replicate 8 0#512
  k := Vector.replicate 8 0#16
  xe := Vector.replicate 8 0#64
  rmode := 0#64
  tid := 0#64
  spawnid := 0#64
  joinst := 0#64
  upentry := 0#64
  fibpool := 0#64
  upcause := 0#64
  upaddr := 0#64
  nb := []
  wait := .ready
  wakes := 0
  waited := 0
  aborted := none
  slStopped := false
  dbgStopped := false
  reserved := false
  ending := false
  stepping := false
  deferred := none
  serving := 0#64
  notBefore := 0
  leftAt := 0
  forfeits := 0
  uid := 0
  run := 0
  node := 0
  psInit := []
  psLast := Vector.replicate 8 0#64

/-- A job number that holds no job. -/
def Job.absent : Job where
  status := .absent
  fwCause := none
  jobid := 0#64
  vdcount := 0#64
  sqbase := 0#64
  sqhead := 0#64
  sqtail := 0#64
  basinov := 0#64
  sfibarea := 0#64
  tlarea := 0#64
  ptroot := 0#64
  dlbase := 0#64
  jobpol := 0#64
  lvlsel := 0#64
  vdmap := 0#64
  ferlimit := 4096#64
  agents := []
  spawns := []
  nextSpawn := 1
  nextUid := 1
  dies := []
  ready := []
  fibres := []
  parked := []
  armed := []
  psRequests := []
  loose := []
  casts := []
  conduits := []
  tiles := []
  msEngines := []
  comms := []
  commands := []
  graphs := []
  runs := []
  nextRun := 1
  runDone := 0
  runRefused := 0
  lastRun := 0
  gstat := 0#64
  upload := none
  requests := 0
  records := []
  owing := []
  early := []
  late := []
  recorded := []
  tlb := []
  drain := none
  saved := none
  image := []

/-- The package after step 6 of R376. -/
def Boot.running : Boot where
  step := 6
  bootst := 3
  diemap := 0xFFFF
  acked := []
  address := none
  answer := []
  mailbox := List.replicate 256 0#8
  heldCommands := []
  ranCommands := []
  images := []
  placement := []
  tree := []
  blocks := []
  attempts := []
  flashBad := []

/-- The package after reset, the report of step 6 (R376) handed over. The manual gives shell tables and a few other registers of
the stacks no reset value (R82, R309): like every register they hold 0. DESIGN CHOICE: log entry 95. -/
def Pkg.reset : Pkg where
  cycle := 0
  dev := []
  viewLines := []
  epochs := []
  atc := []
  ats := []
  pri := []
  refused := []
  invalidating := []
  portsDown := []
  links := []
  transactions := []
  dedup := []
  consumed := []
  slowed := []
  gated := []
  calls := []
  gatedAt := []
  spans := []
  rotations := []
  turnAt := []
  retired := []
  lanes := []
  snapshot := none
  traces := []
  fjob := 0
  fwValue := 0#64
  reports := []
  leftAt := []
  boot := Boot.running

/-- The machine right after reset (R376): no job, every slot vacant, `cycle` 0, nothing written in memory. -/
def State.reset : State where
  ag := Agent.vacant
  agId := 0
  job := Job.absent
  jobNo := 0
  jobs := []
  mem := []
  fe := []
  poison := []
  pkg := Pkg.reset
  agenda := []
  offered := false
  share := none
  free := 0

end Sys2Proof.Machine
end

