-- ==== Sys2Proof/Machine/Memory.lean ====
section
/-! DEFINITION. Tables, sets of numbers, and the memory in its canonical form: bytes by cell, full/empty bits and
poison marks by dword (02_memory_and_ordering.md R50, R52, R61; 18_reliability_fabric_power.md R343). Cells are numbered
once for the model: a physical address below 2^52 is its own cell, byte o of the local store of core c of physical die
d is cell 2^52 + d * 2^25 + c * 2^18 + o, and host byte h is cell 2^60 + h. -/

namespace Sys2Proof.Machine

/-- The entry of a table at a key. -/
def lookup {α : Type} (k : Nat) : Table α → Option α
  | [] => none
  | (i, a) :: t => if i = k then some a else lookup k t

/-- The table with an entry set. -/
def assign {α : Type} (k : Nat) (v : α) : Table α → Table α
  | [] => [(k, v)]
  | (i, a) :: t =>
    if k < i then (k, v) :: (i, a) :: t else if i = k then (k, v) :: t else (i, a) :: assign k v t

/-- The table without an entry. -/
def remove {α : Type} (k : Nat) : Table α → Table α
  | [] => []
  | (i, a) :: t => if i = k then t else (i, a) :: remove k t

/-- The table with an entry changed, if it is there. -/
def modify {α : Type} (k : Nat) (f : α → α) : Table α → Table α
  | [] => []
  | (i, a) :: t => if i = k then (i, f a) :: t else (i, a) :: modify k f t

/-- A rising list of numbers with one put in. -/
def insertNat (k : Nat) : List Nat → List Nat
  | [] => [k]
  | i :: t => if k < i then k :: i :: t else if i = k then i :: t else i :: insertNat k t

/-- A list of numbers with one taken out. -/
def eraseNat (k : Nat) : List Nat → List Nat
  | [] => []
  | i :: t => if i = k then t else i :: eraseNat k t

/-- Strictly rising numbers above a bound. -/
def rising (lo : Nat) : List Nat → Bool
  | [] => true
  | i :: t => lo ≤ i && rising (i + 1) t

/-- What a byte that nothing has written reads as. DESIGN CHOICE, unsafe: log entry 1. -/
def Memory.unlisted : Byte := 0#8

/-- The canonical form: cells strictly rising from a bound, none equal to what an unlisted cell reads as. -/
def Memory.wfFrom (lo : Nat) : List Host.Cell → Bool
  | [] => true
  | (a, b) :: m => lo ≤ a && (b != Memory.unlisted) && Memory.wfFrom (a + 1) m

/-- The canonical form of a memory. -/
def Memory.wf (m : List Host.Cell) : Bool := Memory.wfFrom 0 m

/-- One byte. -/
def Memory.read (m : List Host.Cell) (a : Nat) : Byte := (lookup a m).getD Memory.unlisted

/-- One byte written. -/
def Memory.write (a : Nat) (b : Byte) (m : List Host.Cell) : List Host.Cell :=
  if b = Memory.unlisted then remove a m else assign a b m

/-- `n` bytes from a cell up. -/
def Memory.readBytes (m : List Host.Cell) : Nat → Nat → List Byte
  | _, 0 => []
  | a, n + 1 => Memory.read m a :: Memory.readBytes m (a + 1) n

/-- Bytes written from a cell up. -/
def Memory.writeBytes : Nat → List Byte → List Host.Cell → List Host.Cell
  | _, [], m => m
  | a, b :: bs, m => Memory.writeBytes (a + 1) bs (Memory.write a b m)

/-- A little-endian number of `n` bytes (R8). -/
def Memory.readNat (m : List Host.Cell) (a n : Nat) : Nat := natOfBytes (Memory.readBytes m a n)

/-- The low `n` bytes of a number written little-endian (R8). -/
def Memory.writeNat (a n v : Nat) (m : List Host.Cell) : List Host.Cell := Memory.writeBytes a (bytesOfNat n v) m

/-- A dword. -/
def Memory.readWord (m : List Host.Cell) (a : Nat) : Word := BitVec.ofNat 64 (Memory.readNat m a 8)

/-- First cell of the local stores, and of host memory. -/
def lsBase : Nat := 2 ^ 52
def hostBase : Nat := 2 ^ 60

/-- A cell of no memory, for what the manual says reads as 0 (R284): no access writes it. -/
def zeroCell : Nat := 2 ^ 59

/-- Cell of a byte of a local store (R52). -/
def lsCell (pdie core off : Nat) : Nat := lsBase + pdie * 2 ^ 25 + core * 2 ^ 18 + off

/-- Whether a cell lies in a local store. -/
def isLocal (a : Nat) : Bool := lsBase ≤ a && a < lsBase + 2 ^ 29

/-- Reset default of the full/empty bit of a dword: full, but for mailboxes and reply words (R61). -/
def feDefault (dw : Nat) : Bool :=
  !(isLocal (dw * 8) && 0x3E000 ≤ dw * 8 % 2 ^ 18 && dw * 8 % 2 ^ 18 < 0x3E040)

/-- The full/empty bit of the dword a cell lies in. -/
def State.feBit (s : State) (a : Nat) : Bool :=
  if s.fe.contains (a / 8) then !feDefault (a / 8) else feDefault (a / 8)

/-- That bit set. -/
def State.setFe (s : State) (a : Nat) (full : Bool) : State :=
  { s with fe := if full = feDefault (a / 8) then eraseNat (a / 8) s.fe else insertNat (a / 8) s.fe }

/-- Whether the dword a cell lies in is poisoned (R343). -/
def State.poisoned (s : State) (a : Nat) : Bool := s.poison.contains (a / 8)

/-- A dword's mark set or cleared. -/
def State.setPoison (s : State) (a : Nat) (bad : Bool) : State :=
  { s with poison := if bad then insertNat (a / 8) s.poison else eraseNat (a / 8) s.poison }

/-- One byte of memory. -/
def State.readByte (s : State) (a : Nat) : Byte := Memory.read s.mem a

/-- `n` bytes of memory as a number. -/
def State.readNat (s : State) (a n : Nat) : Nat := Memory.readNat s.mem a n

/-- A dword of memory. -/
def State.readWord (s : State) (a : Nat) : Word := Memory.readWord s.mem a

/-- Number of virtual dies of the job's partition (R283). -/
def Job.dies_n (j : Job) : Nat := j.vdcount.toNat % 32

/-- Physical die of a virtual die (R283). -/
def Job.pdie (j : Job) (v : Nat) : Nat := field j.vdmap.toNat (4 * v) 4

/-- Physical dies of the partition. -/
def Job.pdies (j : Job) : List Nat := (List.range (j.dies_n)).map j.pdie

/-- Virtual die that a physical die serves. -/
def Job.vdie (j : Job) (p : Nat) : Option Nat := (List.range j.dies_n).find? (fun v => j.pdie v == p)

/-- XOR of the successive `n`-bit fields of a number, `fuel` fields (R56, R365). -/
def foldBits (n : Nat) : Nat → Nat → Nat
  | 0, _ => 0
  | fuel + 1, x => Nat.xor (x % 2 ^ n) (foldBits n fuel (x / 2 ^ n))

/-- The partition hash of R56: (virtual die << 7) | slice of a line's home. -/
def Job.partitionHash (j : Job) (pa : Nat) : Nat := foldBits (7 + Nat.log2 j.dies_n) 7 (pa / 64)

/-- The die hash of R56. -/
def dieHash (pa : Nat) : Nat := foldBits 7 7 (pa / 64)

/-- The slice that serves a line as its home while its die is awake (R56, R356). -/
def State.awakeHome (s : State) (home : Option Nat) : Option Nat :=
  home.filter (fun h => !s.pkg.gated.contains (s.job.pdie (h / 128)))

/-- A gated die is called for (R356): it wakes within 18,000 cycles of the first call. -/
def State.callDie (s : State) (pdie : Nat) : State :=
  if s.pkg.gated.contains pdie && (lookup pdie s.pkg.calls).isNone then
    { s with pkg := { s.pkg with calls := assign pdie s.pkg.cycle s.pkg.calls } }
  else s

/-- Whether a line's home, while its die is awake, is a slice of a die, or the line lies in that die's stacks. -/
def State.homeOn (s : State) (pdie line : Nat) : Bool :=
  line * 64 / 2 ^ 38 = pdie || s.job.vdie pdie = some (s.job.partitionHash (line * 64) / 128)

/-- A gated die wakes (R356): its slices are homes again, empty. -/
def State.wakeDie (s : State) (pdie : Nat) : State :=
  if s.pkg.gated.contains pdie then
    { s with pkg := { s.pkg with
        viewLines := s.pkg.viewLines.filter (fun x => !s.homeOn pdie x.1)
        epochs := s.pkg.epochs.filter (fun x => !s.homeOn pdie x.1)
        gated := s.pkg.gated.filter (fun d => !(d == pdie))
        calls := remove pdie s.pkg.calls
        gatedAt := remove pdie s.pkg.gatedAt
        spans := s.pkg.spans ++ [(pdie, (lookup pdie s.pkg.gatedAt).getD s.pkg.cycle, s.pkg.cycle)] } }
  else s

/-- The owner of a dword's park and watch tables, as a number: the local store, the home slice, or the base die of the
stack for memory-side lines and lines of a gated die (R63, R356). -/
def State.owner (s : State) (a : Nat) (home : Option Nat) : Nat :=
  if isLocal a then a / 2 ^ 18
  else
    match s.awakeHome home with
    | some h => 2 ^ 50 + h
    | none => 2 ^ 51 + a / 2 ^ 37

/-- Entries of an owner's park table: 32 in a local store, 64 elsewhere (R63). -/
def parkRoom (a : Nat) : Nat := if isLocal a then 32 else 64

/-- A device register (R10, R11): reset value 0, but EN of each core's OBSCTL is 1 (R359). -/
def devReset (pa : Nat) : Word :=
  if 0xF10_0000_0000 ≤ pa && pa < 0xF20_0000_0000 && pa % 0x100_0000 < 0x8_0000 && pa % 0x1000 = 0 then 0x8000_0000_0000_0000#64
  else 0#64

/-- Reading a device register. -/
def Pkg.reg (p : Pkg) (pa : Nat) : Word := (lookup pa p.dev).getD (devReset pa)

/-- Writing a device register; a register at its reset value is not listed. -/
def Pkg.setReg (p : Pkg) (pa : Nat) (v : Word) : Pkg :=
  { p with dev := if v = devReset pa then remove pa p.dev else assign pa v p.dev }

/-- A counter of a device block rises by one, modulo 2^64 (R361). -/
def Pkg.bump (p : Pkg) (pa : Nat) : Pkg := p.setReg pa (p.reg pa + 1#64)

/-- Observation block of a physical die (R358). -/
def obsBase (pdie : Nat) : Nat := 0xF10_0000_0000 + pdie * 0x100_0000

/-- Counter at an offset of the block of the slice or base die that owns a dword (R361); none for a local store, nor for a dword
of the capacity tier that no awake slice caches: a G-die has no such block (R358, R361). -/
def State.bumpOwner (s : State) (a : Nat) (home : Option Nat) (off : Nat) : State :=
  if isLocal a then s
  else
    match s.awakeHome home with
    | some h =>
      { s with pkg := s.pkg.bump (obsBase (s.job.pdie (h / 128)) + 0x9_0000 + 0x40 * (h % 128) + off) }
    | none =>
      let stack := a / 2 ^ 37
      if 32 ≤ stack then s else
      { s with pkg := s.pkg.bump (obsBase (stack / 2) + 0xB_0000 + 0x40 * (stack % 2) + off) }

/-- A free value, and the state that has used it. -/
def State.fresh (s : State) : Word × State := (Config.freeValue s.free, { s with free := s.free + 1 })

/-- The entry of a list changed at an index. -/
def updateAt {α : Type} (f : α → α) : Nat → List α → List α
  | _, [] => []
  | 0, x :: t => f x :: t
  | n + 1, x :: t => x :: updateAt f n t

/-- A spawn of the job changed. -/
def State.onSpawn (s : State) (id : Nat) (f : Spawn → Spawn) : State :=
  { s with job := { s.job with spawns := modify id f s.job.spawns } }

/-- A run of the job changed. -/
def State.onRun (s : State) (id : Nat) (f : Run → Run) : State :=
  { s with job := { s.job with runs := s.job.runs.map (fun r => if r.id = id then f r else r) } }

/-- A node of a run changed. -/
def State.onNode (s : State) (run node : Nat) (f : RunNode → RunNode) : State :=
  s.onRun run (fun r => { r with nodes := updateAt f node r.nodes })

/-- A request begins to count under a level (R205, R293). -/
def State.addRequest (s : State) : Level → State
  | .job => { s with job := { s.job with requests := s.job.requests + 1 } }
  | .node r n => s.onNode r n (fun x => { x with requests := x.requests + 1 })
  | .spawn id => s.onSpawn id (fun x => { x with requests := x.requests + 1 })
/-- A conduit of the job changed. -/
def Job.conduit (j : Job) (key : Nat) : Conduit :=
  (lookup key j.conduits).getD { seq := 0, lastBox := 3, takenAt := none, busyAt := 0, posters := [], copies := [] }
def State.onConduit (s : State) (key : Nat) (f : Conduit → Conduit) : State :=
  { s with job := { s.job with conduits := assign key { f (s.job.conduit key) with busyAt := s.pkg.cycle } s.job.conduits } }

/-- A request ceases to count under a level without having left an engine. -/
def State.dropRequest (s : State) : Level → State
  | .job => { s with job := { s.job with requests := s.job.requests - 1 } }
  | .node r n => s.onNode r n (fun x => { x with requests := x.requests - 1 })
  | .spawn id => s.onSpawn id (fun x => { x with requests := x.requests - 1 })

/-- The mailbox a cell is, as its conduit's key and its number (R53). -/
def State.mailboxAt (s : State) (a : Nat) : Option (Nat × Nat) :=
  if isLocal a && 0x3_E000 ≤ a % 2 ^ 18 && a % 2 ^ 18 < 0x3_E020 then
    (s.job.vdie ((a - lsBase) / 2 ^ 25)).map (fun v => (v * 128 + (a - lsBase) / 2 ^ 18 % 128, (a % 2 ^ 18 - 0x3_E000) / 8))
  else none

/-- Software has emptied a mailbox that a `cppost` filled. The manual does not say what becomes of that post's count: here it
counts no longer, and a later fill is another's. DESIGN CHOICE: log entry 87. -/
def State.withdraw (s : State) (a : Nat) : State :=
  match s.mailboxAt a with
  | none => s
  | some (key, box) =>
    match lookup box (s.job.conduit key).posters with
    | none => s
    | some p => (s.onConduit key (fun c => { c with posters := remove box c.posters })).dropRequest p.level

/-- A `cppost` that has filled a mailbox: the copy's post (R206). -/
def State.posted (s : State) (key box : Nat) (p : Poster) : State :=
  (s.onConduit key (fun c => { c with posters := assign box p c.posters })).addRequest p.level

end Sys2Proof.Machine
end

