-- ==== Sys2Proof/Machine/Translate.lean ====
section
/-! DEFINITION. Checking and translating an address: canonical form, privilege, alignment, the local-store window, the
hashed page table with its accessed and dirty bits, placements and what they admit (02_memory_and_ordering.md R48-R58,
16_translation_host_memory.md R299-R313). What a failed check leaves
is said in Home.lean (R157, R306). -/

namespace Sys2Proof.Machine

/-- What an access does, as far as R53 and R55 tell accesses apart. `nbLoad` and `nbStore` are the
streaming forms, `engFlag` an engine write with `stff` semantics. -/
inductive Form where
  | load | store | nbLoad | nbStore | ldff | fetst | mwait | ldfe | stfe | atomic | fetch | engRead | engWrite | engFlag
  deriving DecidableEq, Repr

/-- Access kind of a form (R157, R323). -/
def Form.kind : Form → AccessKind
  | .load | .nbLoad | .ldff | .fetst | .mwait => .load
  | .store | .nbStore | .ldfe | .stfe | .atomic => .store
  | .fetch => .fetch
  | .engRead | .engWrite | .engFlag => .engine

/-- Whether a form needs W and sets D: the store kinds, and engine writes (R302, R306). -/
def Form.writes : Form → Bool
  | .store | .nbStore | .ldfe | .stfe | .atomic | .engWrite | .engFlag => true
  | _ => false

/-- Class-1 code (R323). -/
def class1 (f : Form) (reason : Nat) : Byte :=
  BitVec.ofNat 8 (0x20 + (match f.kind with | .load => 0 | .store => 1 | .fetch => 2 | .engine => 3) * 8 + reason)

/-- A class-1 trap. -/
def fault1 (f : Form) (reason subr : Nat) (va : Word) : Trap := { cause := class1 f reason, subr := subr, addr := va }

/-- Canonical form (R48). -/
def canonical (va : Word) : Bool := va.toNat / 2 ^ 56 = 0 || va.toNat / 2 ^ 56 = 0xFF

/-- Supervisor half: bit 56 of a canonical address (R48). -/
def supervisorHalf (va : Word) : Bool := va.toNat / 2 ^ 56 % 2 = 1

/-- The window region (R49). -/
def inWindow (va : Word) : Bool := va.toNat / 2 ^ 32 = 0xFFFF00

/-- Forms the timeline counter and the job's timelines admit, those that read and leave the bit (R53, R55). -/
def Form.readsOnly : Form → Bool
  | .load | .nbLoad | .ldff | .fetst | .mwait | .engRead => true
  | .store | .nbStore | .ldfe | .stfe | .atomic | .fetch | .engWrite | .engFlag => false

/-- Forms that need full/empty bits (R55). -/
def Form.needsBits : Form → Bool
  | .ldff | .fetst | .ldfe | .stfe | .engFlag => true
  | .load | .store | .nbLoad | .nbStore | .mwait | .atomic | .fetch | .engRead | .engWrite => false

/-- What a local-store offset admits (R53). -/
def systemArea (off : Nat) (f : Form) : Bool :=
  if off < 0x3C000 then true
  else if off < 0x3DE00 then f ≠ .fetch
  else if off < 0x3E000 then false
  else if off < 0x3E020 then f ≠ .atomic && f ≠ .fetch
  else if off < 0x3E040 then f.readsOnly || f = .ldfe
  else if off < 0x3E048 then f.readsOnly
  else false

/-- Decoding a window address, with the offsets the access touches at a stride of 8 (R52, R53). -/
def State.window (s : State) (f : Form) (va : Word) (size : Nat) : Except Trap Loc :=
  let a := va.toNat
  let v := field a 25 4
  let off := field a 0 18
  if field a 29 3 ≠ 0 || s.job.dies_n ≤ v then .error (fault1 f 5 0 va)
  else if (List.range ((size + 7) / 8)).all (fun i => systemArea (off + 8 * i) f) then
    .ok (.cell (lsCell (s.job.pdie v) (field a 18 7) off) none)
  else .error (fault1 f 5 1 va)

/-- Whether a physical address lies in a DCS stack of the partition (R50, R55). -/
def Job.inStacks (j : Job) (pa : Nat) : Bool := pa < 2 ^ 42 && j.pdies.contains (pa / 2 ^ 38)

/-- Whether the pseudo-channel of an address is gone: the third and later ones retired of its stack (R357). -/
def Pkg.channelLost (p : Pkg) (pa : Nat) : Bool :=
  pa < 2 ^ 42 &&
    ((p.retired.filter (fun x => x.1 == pa / 2 ^ 37)).drop 2).any (fun x => x.2 == pa / 2 ^ 30 % 128)

/-- Reserved physical ranges and unpopulated capacity tier (R50, R2). -/
def Pkg.absent (p : Pkg) (pa : Nat) : Bool :=
  if pa < 2 ^ 42 then p.channelLost pa
  else if pa < 0x800_0000_0000 then true
  else if pa < 0xC00_0000_0000 then Config.captierBytes ((pa - 0x800_0000_0000) / 2 ^ 40) ≤ pa % 2 ^ 40
  else !(0xF00_0000_0000 ≤ pa && pa < 0x1000_0000_0000)

/-- Format window w of a stack: its FWCTL address (R309). -/
def fwBase (stack w : Nat) : Nat := 0xF00_0000_0000 + stack * 0x10_0000 + 0x1000 + 0x40 * w

/-- An armed window of the stack holding a physical address whose view range covers it (R310, R84). -/
def Pkg.viewWindow (p : Pkg) (pa : Nat) : Option Nat :=
  (List.range 8).find? (fun w =>
    let b := fwBase (pa / 2 ^ 37) w
    let ctl := (p.reg b).toNat
    let n := field ctl 0 32 * 64
    let base := (p.reg (b + 8)).toNat
    ctl / 2 ^ 63 = 1 && base ≤ pa && pa < base + n * ((if field ctl 56 1 = 0 then 32 else 16) + 1))

/-- Shift of a page size (R301). -/
def pageShift (z : Nat) : Nat := if z = 0 then 16 else if z = 1 then 21 else 30

/-- What stops a walk before it has an entry (R303). -/
inductive WalkStop where
  | notPresent | tableInvalid
  deriving DecidableEq, Repr

/-- The group addresses a key probes, or none where the directory entry is bad (R301, R303). -/
def State.probeGroups (s : State) (vpn z : Nat) : Option (List Nat) :=
  let j := s.job
  let root := field j.ptroot.toNat 12 40 * 2 ^ 12
  let log2g := field j.ptroot.toNat 0 5
  let n16 := 16 * j.dies_n
  let key := z * 2 ^ 41 + vpn
  let h := Nat.xor (key % 2 ^ 32) (key / 2 ^ 32 * 2 ^ 21)
  let g := h / n16 % 2 ^ log2g
  let dir := root + 8 * (h % n16)
  let base := (s.readWord dir).toNat
  if s.poisoned dir || !j.inStacks base || base % (64 * 2 ^ log2g) ≠ 0 then none
  else some ((List.range 4).map (fun q => base + 64 * ((g + q) % 2 ^ log2g)))

/-- The first matching entry among the slots of some groups (R301, R302). -/
def State.probe (s : State) (vpn z : Nat) : List Nat → Except WalkStop (Option Nat)
  | [] => .ok none
  | a :: t =>
    if s.poisoned a || s.poisoned (a + 8) then .error .tableInvalid
    else
      let d := (s.readWord a).toNat
      if d / 2 ^ 63 = 1 && field d 61 2 = z && field d 0 41 = vpn then .ok (some a) else s.probe vpn z t

/-- One page size of a walk (R303). -/
def State.probeSize (s : State) (va : Nat) (z : Nat) : Except WalkStop (Option Nat) :=
  let vpn := field va (pageShift z) (57 - pageShift z)
  match s.probeGroups vpn z with
  | none => .error .tableInvalid
  | some gs => s.probe vpn z (gs.flatMap (fun g => (List.range 4).map (fun i => g + 16 * i)))

/-- The entry a walk uses: 1 GiB, 2 MiB, 64 KiB, skipping sizes SZEN excludes (R303). -/
def State.locate (s : State) (va : Nat) : List Nat → Except WalkStop (Nat × Nat)
  | [] => .error .notPresent
  | z :: t =>
    if field s.job.ptroot.toNat (6 + z) 1 = 0 then s.locate va t
    else
      match s.probeSize va z with
      | .error e => .error e
      | .ok (some a) => .ok (a, z)
      | .ok none => s.locate va t

/-- Address of host descriptor h of the root block (R300, R313). -/
def Job.hostDesc (j : Job) (h : Nat) : Nat := field j.ptroot.toNat 12 40 * 2 ^ 12 + 0x800 + 16 * h

/-- A malformed matching entry (R302). -/
def State.malformed (s : State) (a : Nat) (z : Nat) (va : Word) (d1 : Nat) : Bool :=
  let plc := field d1 59 3
  let home := field d1 55 4
  let hdesc := field d1 8 6
  field (s.readWord a).toNat 41 20 ≠ 0 || field d1 52 1 ≠ 0 || field d1 14 2 ≠ 0 || field d1 0 8 ≠ 0 || 6 ≤ plc ||
    (plc ≠ 1 && home ≠ 0) || s.job.dies_n ≤ home || (plc ≠ 4 && hdesc ≠ 0) ||
    field d1 16 36 % 2 ^ (pageShift z - 16) ≠ 0 || (plc = 5 && !supervisorHalf va) ||
    (plc = 4 && (s.readWord (s.job.hostDesc hdesc)).toNat / 2 ^ 63 = 0)

/-- The host range a PLC 4 entry names, from its descriptor in the root block (R313). -/
def State.hostRange (s : State) (d1 : Nat) : Option HostRange :=
  if field d1 59 3 = 4 then
    let da := s.job.hostDesc (field d1 8 6)
    let hd := (s.readWord da).toNat
    some { port := field hd 58 2, pasid := field hd 0 20, base := s.readWord (da + 8) }
  else none

/-- Whether a PLC 4 entry names a descriptor with a poisoned dword (R303). -/
def State.badHostDesc (s : State) (d1 : Nat) : Bool :=
  field d1 59 3 = 4 && (s.poisoned (s.job.hostDesc (field d1 8 6)) || s.poisoned (s.job.hostDesc (field d1 8 6) + 8))

/-- What a walk or a cached entry gives: the state, the translation, and the dword a walker wrote. -/
structure Entry where
  s : State
  t : TlbEntry
  wrote : Option Nat

/-- A walk (R306): the entry with the bits it needs in its dword 1, and the state that holds them. -/
def State.walk (s : State) (f : Form) (va : Word) : Except Trap Entry :=
  let need : Word := 0x4000_0000_0000_0000#64 ||| (if f.writes then 0x8000_0000_0000_0000#64 else 0#64)
  if field s.job.ptroot.toNat 6 3 = 0 then .error (fault1 f 7 1 va)
  else
    match s.locate va.toNat [2, 1, 0] with
    | .error .notPresent => .error (fault1 f 0 0 va)
    | .error .tableInvalid => .error (fault1 f 7 1 va)
    | .ok (a, z) =>
      let d1 := s.readWord (a + 8)
      if s.badHostDesc d1.toNat then .error (fault1 f 7 1 va)
      else if s.malformed a z va d1.toNat then .error (fault1 f 7 0 va)
      else if f.writes && field d1.toNat 54 1 = 0 then .error (fault1 f 1 0 va)
      else if f = .fetch && field d1.toNat 53 1 = 0 then .error (fault1 f 1 1 va)
      else
        let new := d1 ||| need
        let entry : TlbEntry :=
          { size := z, vpn := field va.toNat (pageShift z) (57 - pageShift z), pte := new, host := s.hostRange d1.toNat }
        .ok
          { s := { s with
              mem := if new = d1 then s.mem else Memory.writeNat (a + 8) 8 new.toNat s.mem
              job := { s.job with
                tlb := entry :: s.job.tlb.filter (fun t => !(t.size == entry.size && t.vpn == entry.vpn)) } }
            t := entry, wrote := if new = d1 then none else some (a + 8) }

/-- Whether a cached entry serves an access (R304). -/
def TlbEntry.serves (t : TlbEntry) (f : Form) (va : Nat) : Bool :=
  t.vpn = field va (pageShift t.size) (57 - pageShift t.size) &&
    (!f.writes || (field t.pte.toNat 54 1 = 1 && field t.pte.toNat 63 1 = 1)) &&
    (f ≠ .fetch || field t.pte.toNat 53 1 = 1)

/-- The entry for an access: cached, else walked for (R304). -/
def State.entryFor (s : State) (f : Form) (va : Word) : Except Trap Entry :=
  match s.job.tlb.find? (fun t => t.serves f va.toNat) with
  | some t => .ok { s := s, t := t, wrote := none }
  | none => s.walk f va

/-- Whether an address lies in the job's timeline area (R284). -/
def Job.inTimelines (j : Job) (va : Word) : Bool := va.toNat / 2 ^ 16 % 2 ^ 41 = field j.tlarea.toNat 16 41

/-- Where an entry leads, through the checks of R50 and R55, then the attribute restrictions (R51, R55, R233, R312). -/
def State.place (s : State) (p : Priv) (f : Form) (va : Word) (size : Nat) (t : TlbEntry) : Except Trap Loc :=
  let d := t.pte.toNat
  let plc := field d 59 3
  let off := va.toNat % 2 ^ pageShift t.size
  let frame := field d 16 36 * 2 ^ 16
  let pa := frame + off
  let denied : Except Trap Loc := .error (fault1 f 6 0 va)
  let mismatch : Except Trap Loc := .error (fault1 f 6 1 va)
  let missing : Except Trap Loc := .error (fault1 f 6 2 va)
  let full := f.needsBits
  if plc = 4 then
    match t.host with
    | some h =>
      if f = .load || f = .store || f = .nbLoad || f = .nbStore || f = .engRead || f = .engWrite then
        .ok (.host h.port h.pasid ((h.base.toNat + pa) % 2 ^ 64))
      else denied
    | none => denied
  else if s.pkg.absent pa then missing
  else if plc = 5 then
    if !(0xF00_0000_0000 ≤ pa && pa < 0xF00_0000_0000 + 32 * 0x10_0000
        && s.job.pdies.contains ((pa - 0xF00_0000_0000) / 0x10_0000 / 2)) then mismatch
    else if (f = .load || f = .store) && size = 8 then .ok (.dev pa) else denied
  else if plc = 0 then
    if s.job.inStacks pa then .ok (.cell pa (some (s.job.partitionHash pa)))
    else if 0x800_0000_0000 ≤ pa && pa < 0xC00_0000_0000 then
      if full then denied else .ok (.cell pa (some (s.job.partitionHash pa)))
    else mismatch
  else if plc = 1 then
    if pa < 2 ^ 42 && pa / 2 ^ 38 = s.job.pdie (field d 55 4) then
      .ok (.cell pa (some (field d 55 4 * 128 + dieHash pa)))
    else mismatch
  else if plc = 2 then
    if !s.job.inStacks pa then mismatch
    else if p = .user && s.job.inTimelines va && !f.readsOnly then denied
    else if s.job.inTimelines va && 0x8000 ≤ va.toNat % 2 ^ 16 && f.readsOnly then .ok (.cell zeroCell none)
    else .ok (.cell pa none)
  else
    if !s.job.inStacks pa then mismatch
    else if f.writes then .error { cause := 0x63#8, addr := va }
    else if (s.pkg.viewWindow pa).isNone then missing
    else if f = .load || f = .nbLoad || f = .mwait || f = .engRead then .ok (.view pa)
    else denied

end Sys2Proof.Machine
end

