-- ==== Sys2Proof/Machine/Views.lean ====
section
/-! DEFINITION. Format windows (16_translation_host_memory.md R309-R312, 03_number_formats.md R84,
02_memory_and_ordering.md R60): their registers, arming, and the decode of a view line. -/

namespace Sys2Proof.Machine

/-- The fields of a window, from its four registers (R309). -/
structure Window where
  armed : Bool
  sfmt : Nat
  wide : Bool
  blocks : Nat
  view : Nat
  stored : Nat
  scale : Nat
  shell : Nat
  deriving DecidableEq, Repr

/-- A window's fields by stack and number. -/
def Pkg.window (p : Pkg) (stack w : Nat) : Window :=
  let b := fwBase stack w
  let ctl := (p.reg b).toNat
  { armed := ctl / 2 ^ 63 = 1, sfmt := field ctl 57 3, wide := field ctl 56 1 = 0, blocks := field ctl 0 32 * 64
    view := (p.reg (b + 8)).toNat, stored := (p.reg (b + 0x10)).toNat, scale := (p.reg (b + 0x18)).toNat
    shell := 0xF00_0000_0000 + stack * 0x10_0000 + 0x2000 + 0x400 * w }

/-- Bytes of a stored block and of a view block's mantissas (R84). -/
def Window.storedBytes (w : Window) : Nat := if w.sfmt = 0 then 8 else if w.sfmt ≤ 2 then 24 else 16
def Window.viewBytes (w : Window) : Nat := if w.wide then 32 else 16

/-- The 32 stored values of a block (R84 step 1). -/
def State.storedBlock (s : State) (w : Window) (b : Nat) : List FVal :=
  let bytes := s.readNat (w.stored + b * w.storedBytes) w.storedBytes
  let scale := s.readNat (w.scale + b) 1
  let elem (f : Nat → FVal) : List FVal := (List.range 32).map f
  match w.sfmt with
  | 0 => lq2Block bytes scale (fun row => (s.pkg.reg (w.shell + 8 * (row / 2))).toNat / 2 ^ (32 * (row % 2)) % 2 ^ 32)
  | 1 => elem (fun i => mxValue e3m2 (six bytes i) scale)
  | 2 => elem (fun i => mxValue e2m3 (six bytes i) scale)
  | 3 => elem (fun i => mxValue e2m1 (nibble bytes i) scale)
  | _ => elem (fun i => if scale = 0xFF then .nan false else (FVal.int (sx (nibble bytes i) 4)).scale ((scale : Int) - 127))

/-- A block converted to the view format (R84 step 2). -/
def State.viewBlock (s : State) (w : Window) (b : Nat) : Nat × List Int × Bool :=
  toBK (s.storedBlock w b) (if w.wide then 8 else 4)

/-- Block that byte o of a view comes from. -/
def Window.blockOf (w : Window) (o : Nat) : Nat :=
  if o < w.blocks * w.viewBytes then o / w.viewBytes else o - w.blocks * w.viewBytes

/-- Byte o of a view (R84). -/
def State.viewByte (s : State) (w : Window) (o : Nat) : Byte :=
  let b := s.viewBlock w (w.blockOf o)
  let q (i : Nat) : Int := b.2.1.getD i 0
  BitVec.ofNat 8 (
    if w.blocks * w.viewBytes ≤ o then b.1
    else if w.wide then low (q (o % 32)) 8
    else low (q (2 * (o % 16))) 4 + 16 * low (q (2 * (o % 16) + 1)) 4)

/-- Whether a block holds a poisoned stored byte or scale byte (R345). -/
def State.badBlock (s : State) (w : Window) (b : Nat) : Bool :=
  s.poisoned (w.scale + b) || (List.range w.storedBytes).any (fun i => s.poisoned (w.stored + b * w.storedBytes + i))

/-- A view line filled into its slice if it is not cached (R60), its slice counting saturated blocks (R361). The manual
allows any instant between the last arming and the load for the decode: here it is that of the line's first load. DESIGN
CHOICE: log entry 80. -/
def State.fillView (s : State) (pa : Nat) : State :=
  match lookup (pa / 64) s.pkg.viewLines, s.pkg.viewWindow pa with
  | none, some n =>
    let w := s.pkg.window (pa / 2 ^ 37) n
    let line := pa / 64 * 64
    let offs := (List.range 64).map (fun i => line + i - w.view)
    let blocks := (offs.map w.blockOf).dedup
    let bytes := offs.map (s.viewByte w)
    let bad := (List.range 8).filter (fun d =>
      (List.range 8).any (fun i => s.badBlock w (w.blockOf (line + 8 * d + i - w.view))))
    let home := some (s.job.partitionHash pa)
    let s1 := if (s.awakeHome home).isNone then s
      else (blocks.filter (fun b => (s.viewBlock w b).2.2)).foldl (fun t _ => t.bumpOwner pa home 0x08) s
    { s1 with pkg := { s1.pkg with viewLines := assign (pa / 64) (bytes, bad) s1.pkg.viewLines } }
  | _, _ => s

/-- `n` bytes of a view as a number, from the cached line. The manual does not say what a load still outstanding returns when its
window has been disarmed: there is no line to decode, and it returns 0. DESIGN CHOICE: log entry 103. -/
def State.viewNat (s : State) (pa n : Nat) : Nat :=
  match lookup (pa / 64) s.pkg.viewLines with
  | some (bytes, _) => natOfBytes ((bytes.drop (pa % 64)).take n)
  | none => 0

/-- Whether the cached dword of a view is poisoned. -/
def State.viewBad (s : State) (pa : Nat) : Bool :=
  match lookup (pa / 64) s.pkg.viewLines with
  | some (_, bad) => bad.contains (pa % 64 / 8)
  | none => false

/-- The cached lines of a window discarded from every slice (R60, R310). -/
def Pkg.discardView (p : Pkg) (w : Window) : Pkg :=
  { p with viewLines := p.viewLines.filter (fun l =>
      !(w.view / 64 ≤ l.1 && l.1 * 64 < w.view + w.blocks * (w.viewBytes + 1))) }

/-- Whether a range lies in the partition's stacks (R310). -/
def Job.rangeInStacks (j : Job) (lo n : Nat) : Bool :=
  lo + n ≤ 2 ^ 42 && (List.range (((lo + n - 1) / 2 ^ 38) - lo / 2 ^ 38 + 1)).all
    (fun i => j.pdies.contains (lo / 2 ^ 38 + i))

/-- Two ranges overlap. -/
def overlaps (a n b m : Nat) : Bool := a < b + m && b < a + n

/-- Whether a window may be armed (R310). -/
def Job.mayArm (j : Job) (w : Window) : Bool :=
  let n := w.blocks
  let v := n * (w.viewBytes + 1)
  let t := n * w.storedBytes
  w.sfmt < 5 && n ≠ 0 && j.rangeInStacks w.view v && j.rangeInStacks w.stored t && j.rangeInStacks w.scale n &&
    !overlaps w.view v w.stored t && !overlaps w.view v w.scale n && !overlaps w.stored t w.scale n

/-- FWCTL bits that hold state (R309). -/
def fwctlMask : Word := 0x8F00_0000_FFFF_FFFF#64

/-- A write of FWCTL (R310): arming, refused arming, disarming, and plain fields while disarmed. -/
def State.writeFwctl (s : State) (stack w : Nat) (v : Word) : State :=
  let b := fwBase stack w
  let old := s.pkg.window stack w
  let p := s.pkg
  if v.toNat / 2 ^ 63 = 1 then
    let p1 := if old.armed then p else p.setReg b (v &&& fwctlMask)
    if s.job.mayArm (p1.window stack w) then { s with pkg := p1.discardView (p1.window stack w) } else s
  else if old.armed then
    { s with pkg := (p.setReg b (p.reg b &&& 0x7FFF_FFFF_FFFF_FFFF#64)).discardView old }
  else { s with pkg := p.setReg b (v &&& fwctlMask) }

/-- A dword store to a stack controller's register block (R309, R310, R312): none where it is refused with the cause
"reserved value in state write". -/
def State.writeStackReg (s : State) (pa : Nat) (v : Word) : Except Byte State :=
  let off := (pa - 0xF00_0000_0000) % 0x10_0000
  let stack := (pa - 0xF00_0000_0000) / 0x10_0000
  let put (w : Nat) (mask : Word) : State :=
    if (s.pkg.window stack w).armed then s else { s with pkg := s.pkg.setReg pa (v &&& mask) }
  if 0x1000 ≤ off && off < 0x1200 then
    let w := (off - 0x1000) / 0x40
    match off % 0x40 with
    | 0 =>
      if !(s.pkg.window stack w).armed && 5 ≤ field v.toNat 57 3 then .error 0x0D#8
      else .ok (s.writeFwctl stack w v)
    | 8 => .ok (put w 0x000F_FFFF_FFFF_FFC0#64)
    | 0x10 => .ok (put w 0x000F_FFFF_FFFF_FFF8#64)
    | 0x18 => .ok (put w 0x000F_FFFF_FFFF_FFFF#64)
    | _ => .ok s
  else if 0x2000 ≤ off && off < 0x4000 then .ok (put ((off - 0x2000) / 0x400) 0xFFFF_FFFF_FFFF_FFFF#64)
  else .ok s

end Sys2Proof.Machine
end

