-- ==== Sys2Proof/Machine/Home.lean ====
section
/-! DEFINITION. What happens at a dword's home when an access performs there: watches (02_memory_and_ordering.md R70),
full/empty bits and parked operations (R62, R63), the dirty log (17_traps_preemption_context.md R340), and the sillage
rings (19_observation_debug.md R368-R371). -/

namespace Sys2Proof.Machine

/-- The writer for an instruction of the agent in focus, and for an engine that a core's post drives. -/
def State.writer (s : State) (kind : Nat) : Writer :=
  { kind := kind, pc := s.ag.pc, agent := s.agId, tid := if s.ag.role = .master then 0#64 else s.ag.tid }
def engineWriter (core : Nat) : Writer := { kind := 3, pc := 0#64, agent := core * 16 + 15, tid := 0#64 }

/-- The test of an `mwait` (R170). -/
def WatchTest.holds (t : WatchTest) (x v : Word) : Bool :=
  match t with
  | .eq => x = v
  | .ge => v.toNat ≤ x.toNat
  | .ne => x ≠ v

/-- A watch that has ended, its reply on its way. -/
def Armed.ends (w : Armed) (now : Nat) (c : Option Byte) : Armed := { w with ended := some c, polled := now }

/-- One watch of a home at its load of the dword (R70, R170): passed, failed by poison, or still armed. -/
def State.tryWatch (s : State) (w : Armed) : Armed :=
  match w.loc with
  | .cell a _ =>
    if s.poisoned a then w.ends s.pkg.cycle (some 0x60#8)
    else if w.test.holds (s.readWord (a / 8 * 8)) w.v then w.ends s.pkg.cycle none else w
  | .view pa =>
    if s.viewBad pa then w.ends s.pkg.cycle (some 0x60#8)
    else if w.test.holds (BitVec.ofNat 64 (s.viewNat (pa / 8 * 8) 8)) w.v then w.ends s.pkg.cycle none else w
  | _ => w

/-- Whether a watch's entry stands at the dword a cell lies in. -/
def Armed.at_ (w : Armed) (a : Nat) : Bool :=
  match w.loc with
  | .cell b _ => w.ended.isNone && !w.polling && b / 8 = a / 8
  | _ => false

/-- The watches of a dword are tried after a write to it (R70). -/
def State.watchWrite (s : State) (a : Nat) : State :=
  if s.job.armed.any (fun w => w.at_ a) then
    { s with job := { s.job with armed := s.job.armed.map (fun w => if w.at_ a then s.tryWatch w else w) } }
  else s

/-- Page index of a physical address in a dirty-log buffer (R339). -/
def Job.dirtyIndex (j : Job) (pa : Nat) : Option Nat :=
  if pa < 2 ^ 42 then
    (j.vdie (pa / 2 ^ 38)).map (fun v => v * 2 ^ 22 + pa / 2 ^ 37 % 2 * 2 ^ 21 + pa % 2 ^ 37 / 2 ^ 16)
  else if 0x800_0000_0000 ≤ pa && pa < 0xC00_0000_0000 then
    some (j.dies_n * 2 ^ 22 + (pa - 0x800_0000_0000) / 2 ^ 16)
  else none

/-- Base of the buffer an epoch names (R339). -/
def Job.dirtyBuffer (j : Job) (epoch : Bool) : Nat :=
  field j.dlbase.toNat 12 40 * 2 ^ 12 + (if epoch then j.dies_n * 2 ^ 19 + 2 ^ 23 else 0)

/-- Logging a write at its home (R340): a slice sets the bit when the line's logged epoch differs, a base die on every
write; the bit's own dword may be watched (R70). A buffer outside the partition's stacks breaches R339, and no bit outside them is
set (R5). -/
def State.logDirty (s : State) (a : Nat) (home : Option Nat) : State :=
  if field s.job.dlbase.toNat 63 1 = 0 then s
  else
    let epoch : Bool := field s.job.dlbase.toNat 62 1 = 1
    match s.job.dirtyIndex a with
    | none => s
    | some i =>
      let dw := s.job.dirtyBuffer epoch + 8 * (i / 64)
      let bit : State :=
        if !s.job.inStacks dw then s
        else ({ s with mem := Memory.writeNat dw 8 (Nat.lor (s.readNat dw 8) (2 ^ (i % 64))) s.mem } : State).watchWrite dw
      match s.awakeHome home with
      | none => bit
      | some _ =>
        if lookup (a / 64) s.pkg.epochs = some epoch then s
        else { bit with pkg := { bit.pkg with epochs := assign (a / 64) epoch bit.pkg.epochs } }

/-- Sillage control block of a home slice (R369). -/
def Job.sillage (j : Job) (h : Nat) : Nat := obsBase (j.pdie (h / 128)) + 0xA_0000 + 0x40 * (h % 128)

/-- Whether a dword lies in a recorded range of its slice's die (R369). -/
def State.recorded (s : State) (a h : Nat) : Bool :=
  (List.range 8).any (fun r =>
    let b := obsBase (s.job.pdie (h / 128)) + 0x8_0400 + 16 * r
    (s.pkg.reg b).toNat ≤ a / 8 * 8 && a / 8 * 8 < (s.pkg.reg (b + 8)).toNat)

/-- BYTES of a write of `n` bytes within a dword (R368). -/
def byteMask (a n : Nat) : Nat := (2 ^ n - 1) * 2 ^ (a % 8)

/-- Dword 0 of a sillage record, with BYTES a mask (R368, R371). -/
def sillageDword0 (w : Writer) (a mask : Nat) : Nat :=
  mask * 2 ^ 56 + w.kind * 2 ^ 52 + a % 2 ^ 52 / 8 * 8

/-- One record of a write of the bytes of a dword in a mask (R368, R370). -/
def State.recordSillage (s : State) (w : Writer) (a mask : Nat) (home : Option Nat) : State :=
  match home with
  | none => s
  | some h =>
    let c := s.job.sillage h
    let ctl := (s.pkg.reg c).toNat
    if field ctl 62 2 = 1 && s.recorded a h then
      let head := (s.pkg.reg (c + 0x10)).toNat
      let at_ := (s.pkg.reg (c + 8)).toNat + 32 * (head % 2 ^ field ctl 0 5)
      { s with
        mem := Memory.writeNat (at_ + 24) 8 w.tid.toNat
          (Memory.writeNat (at_ + 16) 8 (s.pkg.cycle % 2 ^ 48 * 2 ^ 16 + w.agent)
            (Memory.writeNat (at_ + 8) 8 w.pc.toNat (Memory.writeNat at_ 8 (sillageDword0 w a mask) s.mem)))
        pkg := s.pkg.setReg (c + 0x10) (BitVec.ofNat 64 ((head + 1) % 2 ^ 32)) }
    else s

/-- Oldest unconsumed record of a dword in a replay ring, from index `i` (R371). -/
def State.nextReplay (s : State) (a ring slice : Nat) : Nat → Nat → Option Nat
  | 0, _ => none
  | n + 1, i =>
    if !s.pkg.consumed.contains (slice, i) && field (s.readNat (ring + 32 * i) 8) 3 49 = a % 2 ^ 52 / 8 then some i
    else s.nextReplay a ring slice n (i + 1)

/-- In replay mode: whether a write is held, and the state that has consumed its record (R371). -/
def State.replay (s : State) (w : Writer) (a mask : Nat) (home : Option Nat) : Option State :=
  match home with
  | none => some s
  | some h =>
    let c := s.job.sillage h
    let ctl := (s.pkg.reg c).toNat
    if field ctl 62 2 = 2 && s.recorded a h && w.kind < 3 then
      let ring := (s.pkg.reg (c + 8)).toNat
      match s.nextReplay a ring c (s.pkg.reg (c + 0x18)).toNat 0 with
      | none => some s
      | some i =>
        let r := ring + 32 * i
        if s.readNat r 8 = sillageDword0 w a mask && s.readNat (r + 8) 8 = w.pc.toNat && s.readNat (r + 24) 8 = w.tid.toNat
            && field (s.readNat (r + 16) 8) 15 1 = w.agent / 2 ^ 15 then
          some { s with pkg := { s.pkg with consumed := (c, i) :: s.pkg.consumed } }
        else none
    else some s

/-- Whether a slice in replay mode holds a write back (R371). -/
def State.held (s : State) (w : Writer) (a n : Nat) (home : Option Nat) : Bool :=
  (s.replay w a (byteMask a n) home).isNone

/-- What follows a write of the bytes of a dword in a mask: the replay record consumed, the log, the record, the watches. -/
def State.written (s : State) (w : Writer) (a mask : Nat) (home : Option Nat) : State :=
  (((((s.replay w a mask home).getD s).logDirty a home).recordSillage w a mask home).watchWrite a)

/-- A write of `n` bytes within one dword at its home (R64, R159): a whole dword clears the mark. -/
def State.store (s : State) (w : Writer) (a n v : Nat) (home : Option Nat) : State :=
  let s1 := { s with mem := Memory.writeNat a n v s.mem }
  (if n = 8 then s1.setPoison a false else s1).written w a (byteMask a n) home

/-- Bytes of one dword written together, by offset. -/
def State.storeBytes (s : State) (w : Writer) (a : Nat) (bs : List (Nat × Nat)) (home : Option Nat) : State :=
  ({ s with mem := bs.foldl (fun m (b : Nat × Nat) => Memory.write (a + b.1) (BitVec.ofNat 8 b.2) m) s.mem }).written w a
    (bs.map (fun (b : Nat × Nat) => 2 ^ b.1)).sum home

/-- A dword written poisoned: its mark stands when the watches are tried (R221, R237, R248). -/
def State.storeBad (s : State) (w : Writer) (a : Nat) (home : Option Nat) : State :=
  (s.setPoison a true).written w a 0xFF home

/-- One try of a full/empty operation against the bit as it stands (R62, R163): none when its requirement is not met,
else its result and the state. -/
def State.tryFe (s : State) (w : Writer) (op : FeOp) (v : Word) (a : Nat) (home : Option Nat) :
    Option (Except Byte Word × State) :=
  let full := s.feBit a
  match op with
  | .ldfe =>
    if !full then none
    else if s.poisoned a then some (.error 0x60#8, s)
    else some (.ok (s.readWord a), (s.setFe a false).withdraw a)
  | .ldff =>
    if !full then none
    else if s.poisoned a then some (.error 0x60#8, s)
    else some (.ok (s.readWord a), s)
  | .stfe => if full then none else some (.ok 0#64, (s.setFe a true).store w a 8 v.toNat home)
  | .stff => some (.ok 0#64, (s.setFe a true).store w a 8 v.toNat home)
  | .feclr => some (.ok 0#64, (s.setFe a false).withdraw a)
  | .feset => some (.ok 0#64, s.setFe a true)
  | .fetst => some (.ok (ofBool full), s)

/-- The writer of a parked operation: its agent, which stands at the operation. -/
def State.parkedWriter (s : State) (agent : Nat) : Writer :=
  let g := if agent = s.agId then s.ag else (lookup agent s.job.agents).getD Agent.vacant
  { kind := 1, pc := g.pc, agent := agent, tid := if g.role = .master then 0#64 else g.tid }

/-- A failed retry counts a wake; at the job's limit the operation leaves the table (R63). -/
def State.wake (s : State) (p : Parked) : Parked :=
  { p with wakes := p.wakes + 1, tried := s.pkg.cycle
           ended := if s.job.ferlimit.toNat ≤ p.wakes + 1 then some (.error 0x40#8) else none }

/-- Whether a parked `stfe` stands at an empty dword and no replay holds it (R371): one has, and lets it go. -/
def State.released (s : State) (p : Parked) : Bool :=
  p.op = .stfe && p.ended.isNone && !s.feBit p.cell && !s.held (s.parkedWriter p.agent) p.cell 8 p.home

/-- One retry of a parked operation. A write that a replay holds (R371) is not tried. -/
def State.retry (s : State) (p : Parked) : Parked × State :=
  if p.op = .stfe && s.held (s.parkedWriter p.agent) p.cell 8 p.home then (p, s)
  else match s.tryFe (s.parkedWriter p.agent) p.op p.v p.cell p.home with
  | some (r, t) =>
    ({ p with ended := some r, tried := s.pkg.cycle },
      match p.post with
      | some (key, box, who) => t.posted key box who
      | none => t)
  | none => (s.wake p, s)

/-- One retry pass over the parked operations of a dword in arrival order (R63), with whether a success changed the
bit. -/
def State.retryPass (a : Nat) : List Parked → State → List Parked × State × Bool
  | [], s => ([], s, false)
  | p :: t, s =>
    if p.ended.isNone && p.cell / 8 = a / 8 then
      let (q, s1) := s.retry p
      let (r, s2, ch) := State.retryPass a t s1
      (q :: r, s2, ch || s1.feBit a != s.feBit a)
    else
      let (r, s2, ch) := State.retryPass a t s
      (p :: r, s2, ch)

/-- Passes until one ends with no change of the bit (R63); each pass with a change removes an operation. The manual gives
a pass no duration: all of them are made at one instant, so no operation arrives during one. DESIGN CHOICE: log entry 81. -/
def State.retryPasses (a : Nat) : Nat → State → State
  | 0, s => s
  | n + 1, s =>
    let (ps, s1, ch) := State.retryPass a s.job.parked s
    let s2 := { s1 with job := { s1.job with parked := ps } }
    if ch then State.retryPasses a n s2 else s2

/-- What follows a change of a dword's bit (R63). -/
def State.bitChanged (s : State) (a : Nat) (before : Bool) : State :=
  if s.feBit a = before then s else State.retryPasses a (s.job.parked.length + 1) s

/-- A write with `stff` semantics (R62, R219, R237): written, set full, parked operations woken. -/
def State.storeFull (s : State) (w : Writer) (a v : Nat) (home : Option Nat) : State :=
  ((s.setFe a true).store w a 8 v home).bitChanged a (s.feBit a)

/-- `Op` of an atomic (R165): the value written, if any. -/
def AmoOp.apply (op : AmoOp) (old v e : Word) : Option Word :=
  match op with
  | .psm | .add => some (old + v)
  | .swap => some v
  | .cas => if old = e then some v else none
  | .min => some (if old.toInt ≤ v.toInt then old else v)
  | .max => some (if v.toInt ≤ old.toInt then old else v)
  | .minu => some (if old.toNat ≤ v.toNat then old else v)
  | .maxu => some (if v.toNat ≤ old.toNat then old else v)
  | .and => some (old &&& v)
  | .or => some (old ||| v)
  | .xor => some (old ^^^ v)
  | .fadd =>
    let x := ((fp64.decode old.toNat).add (fp64.decode v.toNat) .rne).1
    some (BitVec.ofNat 64 (roundToFormat x fp64 .rne .inf false).1)

/-- An atomic at its home (R165): the old value and the state. -/
def State.atomic (s : State) (w : Writer) (op : AmoOp) (v e : Word) (a : Nat) (home : Option Nat) : Word × State :=
  let old := s.readWord a
  match op.apply old v e with
  | some x => (old, s.store w a 8 x.toNat home)
  | none => (old, s)

/-- Host physical cell behind an IOVA through an ATC entry that grants the access (R314). -/
def Pkg.hostCell (p : Pkg) (port pasid iova : Nat) (write : Bool) : Option Nat :=
  if p.portsDown.contains port then none
  else
    (p.atc.find? (fun e => e.port == port && e.pasid == pasid && e.page == iova / 4096 && (if write then e.w else e.r))).map
      (fun e => hostBase + e.hostPage * 4096 + iova % 4096)

/-- A walker's write of a dword of the table is a write at its base die (R306, R340). -/
def State.walked (s : State) : Option Nat → State
  | none => s
  | some a => (s.logDirty a none).watchWrite a

/-- Every check of R51 in its order, and where the access goes. -/
def State.check (s : State) (p : Priv) (f : Form) (va : Word) (size : Nat) : Except Trap (State × Loc) :=
  if !canonical va then .error (fault1 f 2 0 va)
  else if p = .user && supervisorHalf va then .error (fault1 f 3 0 va)
  else if f ≠ .fetch && va.toNat % size ≠ 0 then .error (fault1 f 4 0 va)
  else if inWindow va then
    match s.window f va size with
    | .error t => .error t
    | .ok l => .ok (s, l)
  else
    match s.entryFor f va with
    | .error t => .error t
    | .ok e =>
      match e.s.place p f va size e.t with
      | .error t => .error t
      | .ok l => .ok (e.s.walked e.wrote, l)

/-- The state a failed check of a fetch or an engine access leaves: a walk that found its entry has set its bits (R306),
also where the frame's checks then fail. A data access of an instruction leaves memory unchanged (R157). -/
def State.afterDenied (s : State) (p : Priv) (f : Form) (va : Word) : State :=
  if (f.kind = .fetch || f.kind = .engine) && canonical va && !(p = .user && supervisorHalf va) && !inWindow va then
    match s.entryFor f va with
    | .ok e => e.s.walked e.wrote
    | .error _ => s
  else s

end Sys2Proof.Machine
end

