-- ==== Sys2Proof/Machine/Agents.lean ====
section
/-! DEFINITION. The agent in focus: its registers (05_encoding_registers_assembly.md R115), its pc, its streaming
accesses (02_memory_and_ordering.md R66, 07_memory_sync_swarm_instructions.md R161, R162), and moving the focus. -/

namespace Sys2Proof.Machine

/-- Outcome of a step of this machine. -/
abbrev Out := Host.Outcome State Fault Refusal

/-- A row of the table that no word encodes, where the state offers it (95_what_each_step_holds.md): what it does. Where the state does
not, nothing happens: such a step cannot come about there. DESIGN CHOICE: log entry 119. -/
def passing (s : State) (o : Option State) : Out := .next (o.getD s)

/-- A g register: g0 reads zero (R115). -/
def State.g (s : State) (r : Reg) : Word := if r = 0#5 then 0#64 else s.ag.g[r.toFin]

/-- A g register written: writes to g0 are discarded (R115). -/
def State.setG (s : State) (r : Reg) (v : Word) : State :=
  if r = 0#5 then s else { s with ag := { s.ag with g := s.ag.g.set r.toFin v } }

/-- A vector register. -/
def State.v (s : State) (r : VReg) : VWord := s.ag.v[r.toFin]
def State.setV (s : State) (r : VReg) (x : VWord) : State :=
  { s with ag := { s.ag with v := s.ag.v.set r.toFin x } }

/-- A mask register: k0 reads all ones and discards writes (R115). -/
def State.k (s : State) (r : VReg) : BitVec 16 := if r = 0#3 then 0xFFFF#16 else s.ag.k[r.toFin]
def State.setK (s : State) (r : VReg) (x : BitVec 16) : State :=
  if r = 0#3 then s else { s with ag := { s.ag with k := s.ag.k.set r.toFin x } }

/-- An xe register. -/
def State.xe (s : State) (r : VReg) : Word := s.ag.xe[r.toFin]
def State.setXe (s : State) (r : VReg) (x : Word) : State :=
  { s with ag := { s.ag with xe := s.ag.xe.set r.toFin x } }

/-- The pc. -/
def State.pc (s : State) : Word := s.ag.pc
def State.setPc (s : State) (x : Word) : State := { s with ag := { s.ag with pc := x } }

/-- The pc past an instruction of `n` bytes (R122). -/
def State.advance (s : State) (n : Nat) : State := s.setPc (s.ag.pc + BitVec.ofNat 64 n)

/-- Sticky flags ORed into `rmode` (R85). -/
def State.orFlags (s : State) (f : Word) : State := { s with ag := { s.ag with rmode := s.ag.rmode ||| f } }

/-- What the agent in focus waits in. -/
def State.setWait (s : State) (w : Wait) : State := { s with ag := { s.ag with wait := w } }

/-- Parts of an agent's number (R119). -/
def isMasterId (a : Nat) : Bool := a / 2 ^ 15 = 1
def vdieOf (a : Nat) : Nat := a / 2 ^ 11 % 16
def coreOf (a : Nat) : Nat := a / 16 % 128
def slotOf (a : Nat) : Nat := a % 16

/-- A core's key: virtual die and core. -/
def coreKey (a : Nat) : Nat := a / 16 % 2 ^ 11

/-- The steward master of a job (R281). -/
def steward : Nat := 2 ^ 15

/-- Master index of a master's number (R281), and back. -/
def masterIndex (a : Nat) : Nat := 2 * vdieOf a + coreOf a
def masterId (m : Nat) : Nat := 2 ^ 15 + m / 2 * 2 ^ 11 + m % 2 * 16

/-- Any agent of the job in focus. -/
def State.agent (s : State) (a : Nat) : Agent :=
  if a = s.agId then s.ag else (lookup a s.job.agents).getD Agent.vacant

/-- An agent replaced. -/
def State.putAgent (s : State) (a : Nat) (x : Agent) : State :=
  if a = s.agId then { s with ag := x } else { s with job := { s.job with agents := assign a x s.job.agents } }

/-- The focus moved to an agent of the job. -/
def State.focus (s : State) (a : Nat) : State :=
  if a = s.agId then s
  else
    { s with ag := s.agent a, agId := a
             job := { s.job with agents := remove a (assign s.agId s.ag s.job.agents) } }

/-- The job in focus with its agent put back. -/
def State.wholeJob (s : State) : Job := { s.job with agents := assign s.agId s.ag s.job.agents }

/-- The focus moved to a job. -/
def State.focusJob (s : State) (n : Nat) : State :=
  if n = s.jobNo then s
  else
    let j := (lookup n s.jobs).getD Job.absent
    { s with job := { j with agents := remove 0 j.agents }, jobNo := n, jobs := remove n (assign s.jobNo s.wholeJob s.jobs)
             ag := (lookup 0 j.agents).getD Agent.vacant, agId := 0 }

/-- Every agent of the job in focus with its number. -/
def State.allAgents (s : State) : Table Agent := assign s.agId s.ag s.job.agents

/-- Streaming accesses counted, by kind (R161). -/
def Agent.nbload (a : Agent) : Nat := (a.nb.filter (fun x => !x.isStore)).length
def Agent.nbstore (a : Agent) : Nat := (a.nb.filter (fun x => x.isStore)).length

/-- Copies posted by an agent's unit or runtime and not complete: taken, or waiting in a mailbox (R386). -/
def State.cpout (s : State) (a : Agent) : Nat :=
  if a.uid = 0 || a.role = .master then 0
  else (s.job.conduits.map (fun c =>
    (c.2.copies.filter (fun x => x.poster.uid == a.uid)).length +
      (c.2.posters.filter (fun x => x.2.uid == a.uid)).length)).sum

/-- Tile tasks posted by an agent's unit or runtime and not complete (R386). -/
def State.tkout (s : State) (a : Agent) : Nat :=
  if a.uid = 0 || a.role = .master then 0
  else (s.job.tiles.map (fun t => (t.2.tasks.filter (fun x => x.poster.uid == a.uid)).length)).sum

/-- Streaming accesses that leave their counters: performed, not failed, with every older one of their kind performed
or failed (R66, R162). -/
def leaveCounters : Bool → Bool → List Streaming → List Streaming
  | _, _, [] => []
  | ld, st, x :: t =>
    let blocked := if x.isStore then st else ld
    if x.failed.isSome then x :: leaveCounters ld st t
    else if x.performed then
      if blocked then x :: leaveCounters ld st t else leaveCounters ld st t
    else if x.isStore then x :: leaveCounters ld true t
    else x :: leaveCounters true st t

/-- The value a streaming or ordinary load of a located address reads, or the cause that fails it; none while a host
translation is missing. The state holds a filled view line. -/
def State.readAt (s : State) (loc : Loc) (size : Nat) : Option (Except Byte Nat × State) :=
  match loc with
  | .cell a _ => some (if s.poisoned a then .error 0x60#8 else .ok (s.readNat a size), s)
  | .view pa =>
    let t := s.fillView pa
    some (if t.viewBad pa then .error 0x60#8 else .ok (t.viewNat pa size), t)
  | .dev pa => some (.ok (s.pkg.reg pa).toNat, s)
  | .host port pasid iova =>
    if s.pkg.portsDown.contains port then some (.error 0x27#8, s)
    else (s.pkg.hostCell port pasid iova false).map
      (fun a => (if s.poisoned a then .error 0x60#8 else .ok (s.readNat a size), s))

/-- A store to a located address; none while a host translation is missing. -/
def State.writeAt (s : State) (w : Writer) (loc : Loc) (size v : Nat) : Option (Except Byte State) :=
  match loc with
  | .cell a home => some (.ok (s.store w a size v home))
  | .view _ => some (.error 0x63#8)
  | .dev pa => some (s.writeStackReg pa (BitVec.ofNat 64 v))
  | .host port pasid iova =>
    if s.pkg.portsDown.contains port then some (.error 0x2F#8)
    else (s.pkg.hostCell port pasid iova true).map
      (fun a =>
        let t := { s with mem := Memory.writeNat a size v s.mem }
        .ok (if size = 8 then t.setPoison a false else t))

/-- The value a word load lands as. -/
def landed (size : Nat) (sign : Bool) (x : Nat) : Word :=
  if sign then BitVec.ofInt 64 (sx x (8 * size)) else BitVec.ofNat 64 x

/-- A streaming access of the agent in focus marked done or failed. -/
def State.markStreaming (s : State) (i : Nat) (failed : Option Byte) : State :=
  { s with ag := { s.ag with
      nb := leaveCounters false false (updateAt (fun x => { x with performed := true, failed := failed }) i s.ag.nb) } }

/-- Whether a slice's replay holds a write (R371). -/
def State.heldBy (s : State) (w : Writer) (l : Loc) (n : Nat) : Bool :=
  match l with
  | .cell a home => s.held w a n home
  | _ => false

/-- Whether a slice's replay holds a write of the agent in focus (R371). -/
def State.heldAt (s : State) (kind : Nat) (l : Loc) (n : Nat) : Bool := s.heldBy (s.writer kind) l n

/-- Whether a streaming access touches one of the dwords from an address up (R66 exception 1). -/
def Streaming.touches (x : Streaming) (loc : Loc) (size : Nat) : Bool :=
  match x.loc, loc with
  | .cell a _, .cell b _ => b / 8 ≤ a / 8 && a / 8 < b / 8 + (size + 7) / 8
  | .view a, .view b => b / 8 ≤ a / 8 && a / 8 < b / 8 + (size + 7) / 8
  | .host p q a, .host p' q' b => p = p' && q = q' && b / 8 ≤ a / 8 && a / 8 < b / 8 + (size + 7) / 8
  | _, _ => false

/-- Index of the oldest outstanding access to the dword of one, before it in issue order (R66 exception 1). -/
def olderSame (l : List Streaming) (i : Nat) : Option Nat :=
  (l[i]?).bind (fun x => (l.take i).findIdx? (fun y => !y.performed && y.touches x.loc x.size))

/-- A streaming access performs (R66, R162): the value of a load, or the cause that fails it. None while its host
translation is missing or a replay holds it. -/
def State.doStreaming (s : State) (x : Streaming) : Option (Except Byte Nat × State) :=
  if x.isStore then
    if s.heldBy x.by_ x.loc x.size then none
    else
      (s.writeAt x.by_ x.loc x.size x.data.toNat).map (fun r =>
        match r with
        | .ok t => (.ok 0, t)
        | .error c => (.error c, s))
  else s.readAt x.loc x.size

/-- One outstanding streaming access performs (R66, R162): a load's value lands in its destination. None when there is
none at the index, while an older access to its dword is outstanding, or while it cannot perform. -/
def State.performStreaming (s : State) (i : Nat) : Option State :=
  match s.ag.nb[i]? with
  | none => none
  | some x =>
    if x.performed || (olderSame s.ag.nb i).isSome then none
    else
      (s.doStreaming x).map (fun r =>
        match r with
        | (.ok v, t) => (if x.isStore then t else t.setG x.dest (landed x.size true v)).markStreaming i none
        | (.error c, t) => t.markStreaming i (some c))

/-- Index of the first outstanding streaming access that a test picks. -/
def State.firstStreaming (s : State) (p : Streaming → Bool) : Option Nat :=
  s.ag.nb.findIdx? (fun x => !x.performed && p x)

/-- Outstanding streaming accesses that a test picks perform, oldest first and each after the older ones to its dword, as
far as host translations allow. -/
def State.settle (p : Streaming → Bool) : Nat → State → State
  | 0, s => s
  | n + 1, s =>
    match s.firstStreaming p with
    | none => s
    | some i =>
      match s.performStreaming ((olderSame s.ag.nb i).getD i) with
      | none => s
      | some t => State.settle p n t

/-- All of them (R342). -/
def State.settleAll (s : State) : State := State.settle (fun _ => true) s.ag.nb.length s

/-- Whether a streaming access of an ended unit of the agent's position is outstanding to the dwords from an address up. -/
def State.looseAt (s : State) (loc : Loc) (size : Nat) : Bool :=
  s.job.loose.any (fun l => l.agent == s.agId && l.access.touches loc size)

/-- The oldest failed streaming access a test picks, as the trap that reports it (R162). -/
def State.failedStreaming (s : State) (p : Streaming → Bool) : Option Trap :=
  (s.ag.nb.find? (fun x => x.failed.isSome && p x)).bind
    (fun x => x.failed.map (fun c => { cause := c, subr := if c.toNat < 0x40 then 2 else 0, addr := x.va }))

/-- Failed accesses leave their counters once one has been reported (R162). -/
def State.dropFailed (s : State) (p : Streaming → Bool) : State :=
  { s with ag := { s.ag with nb := leaveCounters false false (s.ag.nb.filter (fun x => !(x.failed.isSome && p x))) } }

/-- Class of a lost turn by what the agent waits in (R34). R168 names the class of `waitc`; for a `fence`, `next`, `fbsave` or
`sys 0` that waits for streaming accesses the manual names none: they are not ready on memory too. DESIGN CHOICE: log entry 101. -/
def Wait.lostClass : Wait → Nat
  | .ready | .request _ _ _ _ _ | .reply _ _ | .waitc _ _ _ _ | .fence | .next _ | .fbsave | .sysExit => 1
  | .long _ _ => 3
  | .park _ _ _ | .watch _ _ _ | .ps | .sleep _ | .cpwait _ _ _ | .join | .idle | .halt => 2
  | .again c => c
  | .page .. => 1
  | .room _ _ | .lost => 2

/-- DBGCTL of an agent (R358, R359). -/
def State.dbgctl (s : State) (a : Nat) : Nat :=
  let b := obsBase (s.job.pdie (vdieOf a))
  if isMasterId a then b + 0x8_0000 + 8 * coreOf a else b + 0x1000 * coreOf a + 0x40 + 8 * slotOf a

/-- Whether a debugger owns an agent (R362). -/
def State.owned (s : State) (a : Nat) : Bool := (s.pkg.reg (s.dbgctl a)).toNat / 2 ^ 63 = 1

/-- Core block of the agent in focus, a slot's (R359). -/
def State.coreBlock (s : State) : Nat := obsBase (s.job.pdie (vdieOf s.agId)) + 0x1000 * coreOf s.agId

/-- Turns of a slot at cycles below a bound (R34). -/
def turnsBelow (slot c : Nat) : Nat := (c + 15 - slot) / 16

/-- Turns of a slot at cycles from `lo` to below `hi`. -/
def turnsIn (slot lo hi : Nat) : Nat := turnsBelow slot hi - turnsBelow slot lo

/-- Turns of a slot in a span while its die was gated, which no counter counts (R360). -/
def Pkg.gatedTurns (p : Pkg) (die slot lo hi : Nat) : Nat :=
  let now := ((lookup die p.gatedAt).map (fun c => (die, c, hi))).toList
  ((p.spans.filter (fun x => x.1 == die) ++ now).map (fun x => turnsIn slot (max lo x.2.1) (min hi x.2.2))).sum

/-- A rotation counter rises, while OBSCTL.EN is set (R360). -/
def State.countTurns (s : State) (cls n : Nat) : State :=
  if n = 0 || (s.pkg.reg s.coreBlock).toNat / 2 ^ 63 = 0 then s
  else
    let c := s.coreBlock + 0x100 + 0x40 * slotOf s.agId + 8 * cls
    { s with pkg := s.pkg.setReg c (s.pkg.reg c + BitVec.ofNat 64 n) }

/-- A histogram bin of a core block rises by a number of rotations (R360). -/
def Pkg.bin (p : Pkg) (block k n : Nat) : Pkg :=
  if n = 0 then p else p.setReg (block + 0x500 + 8 * k) (p.reg (block + 0x500 + 8 * k) + BitVec.ofNat 64 n)

/-- The rotations of a core that have ended by a cycle entered in their bins, while OBSCTL.EN is set (R360): one ends with
each turn of slot 15, and none while the die is gated. -/
def Pkg.rollRotations (p : Pkg) (block die now : Nat) : Pkg :=
  let (rot, k) := (lookup block p.rotations).getD (0, 0)
  let ended (lo hi : Nat) : Nat := turnsIn 15 lo hi - p.gatedTurns die 15 lo hi
  if now / 16 ≤ rot then p
  else
    let q := if (p.reg block).toNat / 2 ^ 63 = 0 then p
      else (p.bin block k (ended (16 * rot) (16 * rot + 16))).bin block 0 (ended (16 * rot + 16) (now / 16 * 16))
    { q with rotations := assign block (now / 16, 0) q.rotations }

/-- A slot has issued in the current rotation of its core (R360). -/
def State.countRotation (s : State) (now : Nat) : State :=
  let p := s.pkg.rollRotations s.coreBlock (s.job.pdie (vdieOf s.agId)) now
  if (p.reg s.coreBlock).toNat / 2 ^ 63 = 0 then { s with pkg := p }
  else
    let (rot, k) := (lookup s.coreBlock p.rotations).getD (0, 0)
    { s with pkg := { p with rotations := assign s.coreBlock (rot, k + 1) p.rotations } }

/-- Class of the turns that pass for the agent in focus as it stands (R34, R360); those of the sixteenth slot, the conduit, pass
vacant unless it generates addresses (R37). A raised cause that waits for streaming accesses to perform (R172) leaves its agent in a
class the manual names only where it waits for a full `sfibarea` (R318): stopped in both. DESIGN CHOICE: log entry 102. -/
def State.turnClass (s : State) : Nat :=
  if !isMasterId s.agId && slotOf s.agId = 15 then 4
  else if s.ag.slStopped || s.ag.dbgStopped || s.ag.reserved || s.ag.deferred.isSome then 5
  else if !s.ag.occupied then 4
  else s.ag.wait.lostClass

/-- The physical place of an agent of the job: the layout of `slotid` with the physical die (R119, R283). -/
def State.slotPlace (s : State) (a : Nat) : Nat := a / 2 ^ 15 * 2 ^ 15 + s.job.pdie (vdieOf a) * 2 ^ 11 + a % 2 ^ 11

/-- The cycles of an agent's turns below this one have been accounted for. -/
def State.accounted (s : State) (a : Nat) : Nat := (lookup (s.slotPlace a) s.pkg.turnAt).getD 0
def State.setAccounted (s : State) (a n : Nat) : State :=
  { s with pkg := { s.pkg with turnAt := assign (s.slotPlace a) n s.pkg.turnAt } }

/-- Whether an agent's turn at this cycle has been taken. -/
def State.turnTaken (s : State) (a : Nat) : Bool := s.pkg.cycle < s.accounted a

/-- Turns of the slot in focus lost in a span of cycles, in one class. -/
def State.loseTurns (s : State) (cls lo hi : Nat) : State :=
  s.countTurns cls
    (turnsIn (slotOf s.agId) lo hi - s.pkg.gatedTurns (s.job.pdie (vdieOf s.agId)) (slotOf s.agId) lo hi)

/-- The turns the agent in focus has lost before a cycle are accounted for (R34, R360); a drawn unit awaits its draw until
its first turn to issue. -/
def State.account (s : State) (now : Nat) : State :=
  let lo := s.accounted s.agId
  if isMasterId s.agId || now ≤ lo then s
  else
    let mid := max lo (min now s.ag.notBefore)
    let cls := s.turnClass
    let early := if cls = 0 || cls = 4 || cls = 5 then cls else 2
    ((s.loseTurns early lo mid).loseTurns cls mid now).setAccounted s.agId now

/-- The conduit of a core generates addresses (R37, R360): its latest turn counts as issued, once. -/
def State.conduitTurn (s : State) (key : Nat) : State :=
  let a := key * 16 + 15
  let now := s.pkg.cycle
  let last := now - (now + 1) % 16
  if now < 15 || last < s.accounted a then s
  else (((((s.focus a).account last).countTurns 0 1).setAccounted a (last + 1))).focus s.agId

/-- Whether a request of the agent in focus to a location crosses a link (R349): its home is on another die, or it goes to a host
port, which a G-die holds (R58). -/
def State.crosses (s : State) (l : Loc) : Bool :=
  let mine := s.job.pdie (vdieOf s.agId)
  match l with
  | .cell a home =>
    if isLocal a then (a - lsBase) / 2 ^ 25 ≠ mine
    else match s.awakeHome home with
      | some h => s.job.pdie (h / 128) ≠ mine
      | none => a / 2 ^ 38 ≠ mine
  | .view a => s.job.pdie (s.job.partitionHash a / 128) ≠ mine
  | .dev a => (a - 0xF00_0000_0000) / 0x20_0000 ≠ mine
  | .host .. => true

/-- The request of the agent in focus that waits for its reply, if a retry or its performance has noted it (R349). -/
def State.transaction (s : State) : Option Transaction := s.pkg.transactions.find? (fun x => x.agent == s.slotPlace s.agId)

/-- That note changed or dropped. -/
def State.setTransaction (s : State) (x : Option Transaction) : State :=
  { s with pkg := { s.pkg with
      transactions := s.pkg.transactions.filter (fun y => !(y.agent == s.slotPlace s.agId)) ++ x.toList } }

/-- Trace ring registers of a die (R364). -/
def traceRing (pdie : Nat) : Nat := obsBase pdie + 0x8_0100

/-- A trace record of the agent in focus (R363, R364): a slot's, of a type that is on, while the ring is on. It enters its
core's buffer, which holds 32; one that finds the buffer full is dropped and counted. -/
def State.trace (s : State) (ty cause : Nat) (pc data : Word) : State :=
  if isMasterId s.agId then s
  else
    let ctl := (s.pkg.reg (s.coreBlock + 0x10)).toNat
    let n := field (s.pkg.reg (traceRing (s.job.pdie (vdieOf s.agId)) + 8)).toNat 0 5
    if field ctl (49 + slotOf s.agId) 1 = 0 || field ctl (40 + ty) 1 = 0 || n = 0 then s
    else
      let b := (lookup s.coreBlock s.pkg.traces).getD { records := [], dropped := 0 }
      let r : List Word := [BitVec.ofNat 64 s.pkg.cycle, pc, BitVec.ofNat 64 (ty * 2 ^ 60 + cause * 2 ^ 52 + s.agId), data]
      let c : TraceBuffer := if b.records.length < 32 then { b with records := b.records ++ [r] } else { b with dropped := b.dropped + 1 }
      { s with pkg := { s.pkg with traces := assign s.coreBlock c s.pkg.traces } }

/-- The next record of a core's buffer written to its die's ring (R364): one of TYPE 6 after records were dropped, else the
oldest. What a TYPE 6 record names beside its count the manual does not say: the cycle it is written, pc 0 and the core's
slot 15. DESIGN CHOICE: log entry 82. -/
def State.traceOut (s : State) (block : Nat) : Option State :=
  match lookup block s.pkg.traces with
  | none => none
  | some b =>
    let pdie := (block - obsBase 0) / 0x100_0000
    let agent := (s.job.vdie pdie).getD 0 * 2 ^ 11 + block % 0x100_0000 / 0x1000 * 16 + 15
    let lost : List Word := [BitVec.ofNat 64 s.pkg.cycle, 0#64, BitVec.ofNat 64 (6 * 2 ^ 60 + agent), BitVec.ofNat 64 b.dropped]
    let next : Option (List Word × TraceBuffer) :=
      if b.dropped ≠ 0 then some (lost, { b with dropped := 0 })
      else b.records.head?.map (fun r => (r, { b with records := b.records.drop 1 }))
    next.map (fun x =>
      let ring := traceRing pdie
      let n := field (s.pkg.reg (ring + 8)).toNat 0 5
      let head := (s.pkg.reg (ring + 16)).toNat
      let a := (s.pkg.reg ring).toNat + 32 * (head % 2 ^ n)
      let keep : Table TraceBuffer := if x.2.records = [] then remove block s.pkg.traces else assign block x.2 s.pkg.traces
      if n = 0 then { s with pkg := { s.pkg with traces := keep } }
      else
        { s with
          mem := (x.1.zipIdx.foldl (fun m w => Memory.writeNat (a + 8 * w.2) 8 w.1.toNat m) s.mem)
          pkg := { s.pkg.setReg (ring + 16) (BitVec.ofNat 64 ((head + 1) % 2 ^ n)) with traces := keep } })

/-- Bits of a device register changed. -/
def Pkg.setBits (p : Pkg) (pa : Nat) (clear set : Word) : Pkg := p.setReg pa ((p.reg pa &&& ~~~clear) ||| set)

/-- Whether the agent in focus is in class stopped (R34): a trapped master that is reserved and an agent whose delivery waits are
in it too (R318). -/
def Agent.stopped (a : Agent) : Bool := a.dbgStopped || a.slStopped || a.reserved || a.deferred.isSome

/-- DSTOP, SSTOP and STOPPED of DBGCTL as the agent in focus stands (R362). A DSTOP that asks for a stop still to come stays. -/
def State.showStops (s : State) : State :=
  let bit (b : Bool) (n : Nat) : Nat := if b then 2 ^ n else 0
  let now : Word := BitVec.ofNat 64 (bit s.ag.dbgStopped 62 + bit s.ag.slStopped 58 + bit s.ag.stopped 57)
  { s with pkg := s.pkg.setBits (s.dbgctl s.agId) 0x0600_0000_0000_0000#64 now }

/-- The same where STOPPED changes with a step that began in `s`. -/
def State.showSince (t s : State) : State :=
  if t.ag.stopped = s.ag.stopped || t.job.status = .absent then t else t.showStops

/-- DSTOP taken back (R362). -/
def State.clearDstop (s : State) : State :=
  { s with pkg := s.pkg.setBits (s.dbgctl s.agId) 0x4000_0000_0000_0000#64 0#64 }

/-- Whether a debugger has asked an agent to stop that has not stopped yet (R362). -/
def State.stopWanted (s : State) (a : Nat) : Bool :=
  s.owned a && field (s.pkg.reg (s.dbgctl a)).toNat 62 1 = 1 && !(s.agent a).dbgStopped

end Sys2Proof.Machine
end

