-- ==== Sys2Proof/Machine/Tasks.lean ====
section
/-! DEFINITION. Task records (09_engine_instructions_records.md R223) and what a group watchdog counts
(04_block_exponent_accumulators.md R105). -/

namespace Sys2Proof.Machine

/-- Dword i of a record as a number. -/
def dw (r : List Word) (i : Nat) : Nat := (r.getD i 0#64).toNat

/-- Fields of a task record (R223). -/
def taskOp (r : List Word) : Nat := field (dw r 0) 60 4
def taskPrio (r : List Word) : Nat := field (dw r 0) 58 2
def taskGr (r : List Word) : Nat := field (dw r 0) 56 2
def taskGc (r : List Word) : Nat := field (dw r 0) 54 2
def taskAln (r : List Word) : Bool := field (dw r 0) 53 1 = 1
def taskFresh (r : List Word) : Bool := field (dw r 0) 52 1 = 1
def taskPa (r : List Word) : Nat := 4 * (field (dw r 0) 50 2 + 1)
def taskAfmt (r : List Word) : Nat := field (dw r 0) 47 3
def taskBfmt (r : List Word) : Nat := field (dw r 0) 44 3
def taskRfmt (r : List Word) : Nat := field (dw r 0) 42 2
def taskNanOvf (r : List Word) : Bool := field (dw r 0) 41 1 = 1
def taskKey (r : List Word) : Nat := field (dw r 0) 16 16
def taskHandle (r : List Word) : Nat := field (dw r 0) 8 8
def taskNkb (r : List Word) : Nat := field (dw r 4) 32 8
def taskRows (r : List Word) : Nat := field (dw r 4) 16 16
def taskRow0 (r : List Word) : Nat := field (dw r 4) 0 16

/-- A die's tile task scheduler. -/
def Job.tile (j : Job) (die : Nat) : Tile :=
  (lookup die j.tiles).getD { tickets := [], timelines := [], tasks := [], lastList := [], accs := [], panels := [], dispatchedAt := none, busyAt := 0 }
def State.onTile (s : State) (die : Nat) (f : Tile → Tile) : State :=
  { s with job := { s.job with tiles := assign die { f (s.job.tile die) with busyAt := s.pkg.cycle } s.job.tiles } }

/-- A task by list and ticket. -/
def Job.task? (j : Job) (die list ticket : Nat) : Option Task :=
  (j.tile die).tasks.find? (fun t => t.list == list && t.ticket == ticket)

/-- An accumulator changed. -/
def State.onAcc (s : State) (die h : Nat) (f : Acc → Acc) : State := s.onTile die (fun x => { x with accs := modify h f x.accs })

/-- Blocks applied to every named row of the operation in hand (R227). -/
def Acc.applied (a : Acc) (r : List Word) : Nat :=
  ((a.rows.drop (taskRow0 r)).take (taskRows r)).foldl (fun n x => min n x.block) (taskNkb r)

/-- Whether a tile row may take its next block (R101, R104): named, blocks in step, its messages exchanged. -/
def Acc.rowReady (a : Acc) (t : Task) (i : Nat) : Bool :=
  let r := t.record
  t.row = 1 && taskRow0 r ≤ i && i < taskRow0 r + taskRows r &&
    match a.rows[i]? with
    | some x => x.block = a.applied r && x.block < taskNkb r
    | none => false

/-- Engines of the group rows a task names, with their column positions (R96). -/
def Acc.column (a : Acc) (r : List Word) : List (Nat × Nat) :=
  let lo := taskRow0 r / 64
  let hi := (taskRow0 r + taskRows r - 1) / 64
  a.engines.zipIdx.filterMap (fun x => if lo ≤ x.2 / a.gc && x.2 / a.gc ≤ hi then some (x.1, x.2 % a.gc) else none)

/-- Whether the panel of an engine, at its column of the group, is that of a task (R226). -/
def Tile.tagged (t : Tile) (r : List Word) (e c : Nat) : Bool :=
  (lookup e t.panels).any (fun p => p.col = c && p.addr = r.getD 2 0#64 && p.fmt = taskBfmt r && p.aux = r.getD 3 0#64)

/-- Whether an engine of an accumulator's group waits for a peer's message (R104, R105): its operation runs and is not suspended, its
job is not being saved, and it has its panel while a peer has not, or is at a block whose messages have not all come. -/
def State.groupWaits (s : State) (die : Nat) (a : Acc) : Bool :=
  s.job.status = .running && 1 < a.gc &&
    match a.current.bind (fun c => s.job.task? die c.1 c.2) with
    | some t =>
      let here := (a.column t.record).map (fun e => (s.job.tile die).tagged t.record e.1 e.2)
      t.state = 3 && taskOp t.record = 1 &&
        (a.rows.zipIdx.any (fun x => a.rowReady t x.2 && !x.1.told) ||
          (t.row = 0 && !taskFresh t.record && here.any (fun b => b) && here.any (fun b => !b)))
    | none => false

/-- What a group watchdog has counted by now (R105). -/
def State.watchCount (s : State) (die : Nat) (a : Acc) : Nat :=
  if s.groupWaits die a then a.watchdog + (s.pkg.cycle - a.counted) else a.watchdog

/-- Whether a group watchdog has run out (R105). -/
def State.watchExpired (s : State) (die : Nat) (a : Acc) : Bool := s.groupWaits die a && 2 ^ 24 ≤ s.watchCount die a

/-- A group watchdog counted up to now, before what its group does changes (R105). -/
def State.tick (s : State) (die h : Nat) : State :=
  match lookup h (s.job.tile die).accs with
  | some a => s.onAcc die h (fun b => { b with watchdog := s.watchCount die a, counted := s.pkg.cycle })
  | none => s

/-- Every group watchdog of the job counted up to now (R105, R335). -/
def State.tickAll (s : State) : State :=
  { s with job := { s.job with tiles := s.job.tiles.map (fun x =>
      (x.1, { x.2 with accs := x.2.accs.map (fun a =>
        (a.1, { a.2 with watchdog := s.watchCount x.1 a.2, counted := s.pkg.cycle })) })) } }

end Sys2Proof.Machine
end

