-- ==== Sys2Proof/Machine/Records.lean ====
section
/-! DEFINITION. What the hardware itself reads and writes in the job's memory: fibre records
(17_traps_preemption_context.md R326, R327), pools of them (01_execution_model.md R38, R41), and the supervisor queue
(R319-R321). -/

namespace Sys2Proof.Machine

/-- An engine access by hardware at a privilege: the cell it reaches. -/
def State.cellAs (s : State) (p : Priv) (write : Bool) (va : Word) (size : Nat) : Except Trap (State × Nat × Option Nat) :=
  match s.check p (if write then .engWrite else .engRead) va size with
  | .error t => .error t
  | .ok (t, .cell a home) => .ok (t, a, home)
  | .ok (_, _) => .error (fault1 .engWrite 6 0 va)

/-- One at an address of either half. -/
def State.hwCell (s : State) (write : Bool) (va : Word) (size : Nat) : Except Trap (State × Nat × Option Nat) :=
  s.cellAs .supervisor write va size

/-- Dwords written from a cell up, as engine writes. -/
def State.putWords (w : Writer) (home : Option Nat) : Nat → List Word → State → State
  | _, [], s => s
  | a, x :: t, s => State.putWords w home (a + 8) t (s.store w a 8 x.toNat home)

/-- Dwords read from a cell up. -/
def State.getWords (s : State) : Nat → Nat → List Word
  | _, 0 => []
  | a, n + 1 => s.readWord a :: s.getWords (a + 8) n

/-- One dword at an address, written or read by hardware. -/
def State.hwWrite (s : State) (va v : Word) : Except Trap State :=
  match s.hwCell true va 8 with
  | .error t => .error t
  | .ok (t, a, home) => .ok (t.store (engineWriter 0) a 8 v.toNat home)
def State.hwRead (s : State) (va : Word) : Except Trap (State × Word) :=
  match s.hwCell false va 8 with
  | .error t => .error t
  | .ok (t, a, _) => if t.poisoned a then .error { cause := 0x60#8, addr := va } else .ok (t, t.readWord a)

/-- A dword from fields (value, lowest bit). -/
def packFields (fs : List (Nat × Nat)) : Word := BitVec.ofNat 64 (fs.foldl (fun n f => n + f.1 * 2 ^ f.2) 0)

/-- Window address of a byte of a core's local store (R52). -/
def windowVa (key off : Nat) : Word := BitVec.ofNat 64 (0x00FF_FF00_0000_0000 + key * 2 ^ 18 + off)

/-- Exclusive top of a slot's stack (R22). -/
def stackTop (a : Nat) : Word := windowVa (coreKey a) (0x3_C000 + 512 * (slotOf a + 1))

/-- Cell of the first byte of a slot's stack area (R53). -/
def State.stackCell (s : State) (a : Nat) : Nat :=
  lsCell (s.job.pdie (vdieOf a)) (coreOf a) (0x3_C000 + 512 * slotOf a)

/-- FSTATE (R326). -/
def fstate (st origin cause a : Nat) (stopped : Bool) : Word :=
  packFields [(st, 60), (origin, 56), (cause, 48), (vdieOf a, 40), (coreOf a, 33), (slotOf a, 29),
    (if stopped then 1 else 0, 28)]

/-- Eight dwords of a vector register, lowest first. -/
def vwords (x : VWord) : List Word := (unpackBits 64 8 x.toNat).map (BitVec.ofNat 64)

/-- Sub value of a full/empty operation (R163). -/
def FeOp.sub : FeOp → Nat
  | .ldfe => 0 | .ldff => 1 | .stfe => 2 | .stff => 3 | .feclr => 4 | .feset => 5 | .fetst => 6

/-- PARK: whether pc is an aborted full/empty operation, its sub, its wakes (R326). -/
def State.parkWord (s : State) : Word :=
  match s.job.parked.find? (fun p => p.agent == s.agId) with
  | some p => packFields [(1, 63), (p.op.sub, 60), (p.wakes, 0)]
  | none =>
    match s.ag.aborted with
    | some (some sub) => packFields [(1, 63), (sub, 60), (s.ag.wakes, 0)]
    | _ => 0#64

/-- MWAIT: whether pc is an armed `mwait`, and the cycles waited (R326). -/
def State.mwaitWord (s : State) : Word :=
  match s.job.armed.find? (fun p => p.agent == s.agId) with
  | some p => packFields [(1, 63), ((s.pkg.cycle - p.since + p.before) % 2 ^ 32, 0)]
  | none => if s.ag.aborted = some none then packFields [(1, 63), (s.ag.waited % 2 ^ 32, 0)] else 0#64

/-- POISONR and POISONA: a pending failure (R326). The record has room for one, and the manual does not say what becomes of
others: the oldest is kept and the rest are lost. DESIGN CHOICE: log entry 83. -/
def State.poisonWords (s : State) : List Word :=
  match s.ag.nb.find? (fun x => x.failed.isSome) with
  | some x =>
    [packFields [(1, 63), (if x.isStore then 1 else 0, 62), ((x.failed.getD 0#8).toNat, 48),
      (if x.isStore then 0 else x.dest.toNat, 0)], x.va]
  | none => [0#64, 0#64]

/-- A fibre record of the agent in focus, 128 dwords (R326). -/
def State.fibreRecord (s : State) (fst : Word) : List Word :=
  (s.ag.v.toList.flatMap vwords) ++ (0#64 :: s.ag.g.toList.drop 1) ++ s.ag.xe.toList ++
    [packFields ((s.ag.k.toList.take 4).zipIdx.map (fun x => (if x.2 = 0 then 0 else x.1.toNat, 16 * x.2))),
     packFields ((s.ag.k.toList.drop 4).zipIdx.map (fun x => (x.1.toNat, 16 * x.2))),
     s.ag.pc, s.ag.rmode, fst, if s.ag.role = .master then 0#64 else s.ag.tid, s.ag.spawnid, s.ag.upaddr,
     s.parkWord, s.mwaitWord] ++ s.poisonWords ++
    [packFields [(s.cpout s.ag % 2 ^ 16, 48), (s.tkout s.ag % 2 ^ 16, 32)], 0#64] ++ List.replicate 10 0#64

/-- A die's hardware, and one changed. -/
def Job.die (j : Job) (v : Nat) : DieState :=
  (lookup v j.dies).getD { entries := [], basin := [], spilled := [], lastMaster := 31, busyAt := 0 }
def State.onDie (s : State) (v : Nat) (f : DieState → DieState) : State :=
  { s with job := { s.job with dies := assign v { f (s.job.die v) with busyAt := s.pkg.cycle } s.job.dies } }

/-- The virtual die whose tables hold the entry of a dword (R63, R70). -/
def Job.tableDie (j : Job) (a : Nat) (home : Option Nat) : Option Nat :=
  if isLocal a then j.vdie ((a - lsBase) / 2 ^ 25) else home.map (fun h => h / 128)

/-- A die's park or watch table changes (R356). -/
def State.touchTable (s : State) (a : Nat) (home : Option Nat) : State :=
  match s.job.tableDie a home with
  | some v => s.onDie v (fun d => d)
  | none => s

/-- The agent's waits given up at a save (R172): its park and watch entries released. -/
def State.releaseWaits (s : State) : State :=
  let t := (s.job.parked.filter (fun p => p.agent == s.agId)).foldl (fun u p => u.touchTable p.cell p.home) s
  let u := (s.job.armed.filter (fun p => p.agent == s.agId)).foldl
    (fun u p => match p.loc with
      | .cell a h => u.touchTable a h
      | .view a => u.touchTable a (some (u.job.partitionHash a))
      | _ => u) t
  { u with job := { u.job with
      parked := s.job.parked.filter (fun p => !(p.agent == s.agId))
      armed := s.job.armed.filter (fun p => !(p.agent == s.agId)) } }

/-- Which of a number of dwords from a cell up are poisoned, and marks put on dwords from a cell up (R345). -/
def State.badWords (s : State) (cell n : Nat) : List Nat := (List.range n).filter (fun i => s.poisoned (cell + 8 * i))
def State.markWords (s : State) (cell : Nat) (bad : List Nat) : State := bad.foldl (fun t i => t.setPoison (cell + 8 * i) true) s

/-- The agent in focus written to an entry (R38): record and, for a slot, stack image, whose marks go with it (R345). -/
def State.saveAt (s : State) (cell : Nat) (home : Option Nat) (fst : Word) : State :=
  let slot : Bool := s.ag.role ≠ .master
  let stack := if slot then s.getWords (s.stackCell s.agId) 64 else []
  let bad := if slot then s.badWords (s.stackCell s.agId) 64 else []
  ((State.putWords (engineWriter (coreKey s.agId)) home cell (s.fibreRecord fst ++ stack) s).markWords (cell + 1024) bad).releaseWaits

/-- STATE of an entry (R326), if hardware can read it. -/
def State.entryState (s : State) (va : Word) : Option Nat :=
  match s.hwRead (va + 0x360#64) with
  | .ok (_, f) => some (field f.toNat 60 4)
  | .error _ => none

/-- Entries of a pool or area in the layout of R120: base and count. -/
def poolBase (p : Word) : Nat := field p.toNat 11 46 * 2 ^ 11
def poolSize (p : Word) : Nat := if field p.toNat 59 5 = 0 then 0 else 2 ^ field p.toNat 59 5

/-- Whether an address is an entry of a pool. -/
def inPool (p va : Word) : Bool :=
  poolBase p ≤ va.toNat % 2 ^ 57 && va.toNat % 2 ^ 57 < poolBase p + poolSize p * 2048 && va.toNat % 2048 = 0

/-- A pool's base as an address: bit 56 extended (R48). -/
def poolVa (p : Word) : Word :=
  BitVec.ofNat 64 (if poolBase p / 2 ^ 56 % 2 = 1 then poolBase p + 0xFE00_0000_0000_0000 else poolBase p)

/-- The first free entry of a fibre pool that can be written (R41): its address, cell and the state. A pool belongs to units, so
nothing of the supervisor half is one of its entries (R5). -/
def State.freePoolEntry (s : State) (p : Word) : Nat → Nat → Option (Word × Nat × Option Nat × State)
  | 0, _ => none
  | n + 1, i =>
    let va := poolVa p + BitVec.ofNat 64 (2048 * i)
    if !supervisorHalf va && s.entryState va = some 0 then
      match s.cellAs .user true va 2048 with
      | .ok (t, a, home) => some (va, a, home, t)
      | .error _ => s.freePoolEntry p n (i + 1)
    else s.freePoolEntry p n (i + 1)

/-- A firmware cause (R317, R318, R320): the job is to be suspended as by `halt`, and firmware reports the cause. The group watchdogs
stop counting (R105). -/
def State.firmwareCause (s : State) (t : Trap) : State :=
  let u := if s.job.status = .running then s.tickAll else s
  { u with job := { u.job with
      status := if s.job.status = .running then .halting else s.job.status
      fwCause := some t } }

/-- KIND of a record (R321). -/
def recordKind (r : List Word) : Nat := field (r.getD 0 0#64).toNat 56 4

/-- Whether a record of an agent's cause waits for queue room (R320): its slot or master stays stopped. A record of an
absorption that waits holds the slot that raised its cause behind its eight dwords. -/
def Job.posting (j : Job) (a : Nat) : Bool :=
  j.records.any (fun r => (recordKind r ≤ 2 && (r.getD 3 0#64).toNat == a) || (r[8]?).any (fun x => x.toNat == a))

/-- Whether a record of an engine's request waits for queue room (R320): the engine stays at its boundary. -/
def Job.enginePosting (j : Job) (kind handle : Nat) : Bool :=
  j.records.any (fun r => recordKind r == kind && (r.getD 3 0#64).toNat == handle)

/-- Whether a record of the graph scheduler waits for queue room (R320): the scheduler stays at its boundary. -/
def Job.graphPosting (j : Job) : Bool := j.records.any (fun r => recordKind r == 8)

/-- The first free entry of `sfibarea` (R318): a fault or a mark met on the way is a firmware cause. -/
def State.freeAreaEntry (s : State) : Nat → Nat → Except Trap (Option (Word × Nat × Option Nat × State))
  | 0, _ => .ok none
  | n + 1, i =>
    let va := poolVa s.job.sfibarea + BitVec.ofNat 64 (2048 * i)
    match s.hwRead (va + 0x360#64) with
    | .error t => .error t
    | .ok (t, f) =>
      if field f.toNat 60 4 = 0 then
        match t.hwCell true va 2048 with
        | .error e => .error e
        | .ok (u, a, home) => .ok (some (va, a, home, u))
      else t.freeAreaEntry n (i + 1)

/-- FSTATE's STATE rewritten in an entry, the rest of FSTATE kept (R327, R332). -/
def State.setEntryState (s : State) (va : Word) (st : Nat) : State :=
  match s.hwRead (va + 0x360#64) with
  | .error _ => s
  | .ok (t, f) =>
    match t.hwWrite (va + 0x360#64) (packFields [(st, 60), (f.toNat % 2 ^ 60, 0)]) with
    | .ok u => u
    | .error _ => s

/-- NOTICE written in an entry (R326, R332). -/
def State.setNotice (s : State) (va : Word) (n : Nat) : State :=
  match s.hwWrite (va + 0x3A8#64) (packFields [(n, 60)]) with
  | .ok u => u
  | .error _ => s

/-- Records in the supervisor queue (R319). -/
def Job.queued (j : Job) : Nat := (j.sqtail.toNat + 2 ^ 32 - j.sqhead.toNat % 2 ^ 32) % 2 ^ 32
def Job.queueSize (j : Job) : Nat := if field j.sqbase.toNat 59 5 = 0 then 0 else 2 ^ field j.sqbase.toNat 59 5

/-- Address of record i (R319). -/
def Job.recordVa (j : Job) (i : Nat) : Word :=
  BitVec.ofNat 64 (0xFE00_0000_0000_0000 * field j.sqbase.toNat 56 1 + field j.sqbase.toNat 6 51 * 64
    + 64 * (i % j.queueSize))

/-- The oldest waiting record written and TAIL incremented, if the queue has room; a fault on the queue, or no queue,
is a firmware cause (R320). -/
def State.postOldest (s : State) : State :=
  match s.job.records with
  | [] => s
  | r :: rest =>
    if s.job.queueSize = 0 then s.firmwareCause { cause := BitVec.ofNat 8 (r.headD 0#64).toNat }
    else if s.job.queued = s.job.queueSize then s
    else
      match s.hwCell true (s.job.recordVa s.job.sqtail.toNat) 64 with
      | .error t => s.firmwareCause t
      | .ok (t, a, home) =>
        let u := State.putWords (engineWriter 0) home a (r.take 8) t
        { u with job := { u.job with records := rest, sqtail := BitVec.ofNat 64 ((u.job.sqtail.toNat + 1) % 2 ^ 32) } }

/-- A record due: posted behind those that wait (R320). -/
def State.postRecord (s : State) (r : List Word) : State :=
  ({ s with job := { s.job with records := s.job.records ++ [r] } }).postOldest

/-- A trap record (R321). -/
def trapRecord (kind subr level pol cause : Nat) (pc addr agent spawn entry info : Word) (cycle : Nat) : List Word :=
  [packFields [(kind, 56), (subr, 52), (level, 49), (pol, 47), (cause, 0)], pc, addr, agent, spawn, entry, info,
    BitVec.ofNat 64 cycle]

end Sys2Proof.Machine
end

