-- ==== Sys2Proof/Machine/Levels.lean ====
section
/-! DEFINITION. The work hierarchy: completion counters, retiring, cancelling and containment
(01_execution_model.md R24, R44, R45; 15_work_hierarchy_scheduling.md R293-R295). -/

namespace Sys2Proof.Machine

/-- A run and a node. -/
def Job.run? (j : Job) (id : Nat) : Option Run := j.runs.find? (fun r => r.id == id)
def Job.node? (j : Job) (run node : Nat) : Option RunNode := (j.run? run).bind (fun r => r.nodes[node]?)

/-- What a die holds of spawns that a test picks, dropped at a cycle. -/
def DieState.drop (d : DieState) (now : Nat) (p : Nat → Bool) : DieState :=
  { d with
    entries := d.entries.filter (fun e => !p e.2.spawn)
    basin := d.basin.filter (fun i => !p i)
    spilled := d.spilled.filter (fun i => !p i)
    busyAt := if (d.basin ++ d.spilled).any p then now else d.busyAt }

/-- Whether a spawn is a top-level one. -/
def Job.topLevel (j : Job) (id : Nat) : Bool :=
  match lookup id j.spawns with
  | some sp => sp.root == id
  | none => false

/-- Whether every number of a spawn's range has been drawn (R24, R293). -/
def Job.exhausted (j : Job) (id : Nat) (sp : Spawn) : Bool :=
  sp.hi < sp.nextChunk && sp.redraw.isEmpty &&
    j.dies.all (fun d => d.2.entries.all (fun e => !(e.2.spawn == id && (e.2.next ≤ e.2.last || e.2.further.isSome))))

/-- Requests of a cancelled spawn that have left their engines and only owe a cause: its completion no longer waits for them
(R267). DESIGN CHOICE: log entry 86. -/
def Job.owedOnly (j : Job) (id : Nat) (sp : Spawn) : Nat :=
  if sp.ended = some .cancelled then
    ((j.owing.filter (fun o => o.left && o.poster.level == .spawn id)).map (fun o => (o.kind, o.handle, o.number))).dedup.length
  else 0

/-- Streaming accesses of ended units that count under a spawn (R45). -/
def Job.looseUnder (j : Job) (id : Nat) : Nat := (j.loose.filter (fun l => l.spawn == id)).length

/-- Whether a spawn is complete (R24): an ended one need not be exhausted. -/
def Job.complete (j : Job) (id : Nat) (sp : Spawn) : Bool :=
  (sp.ended.isSome || j.exhausted id sp) && sp.units = 0 && sp.requests ≤ j.owedOnly id sp && j.looseUnder id = 0 &&
    j.spawns.all (fun c => !(c.2.parent == id) || c.1 == id)

/-- Whether nobody will join a top-level spawn: its node was abandoned (R295). -/
def Job.orphan (j : Job) (sp : Spawn) : Bool :=
  match j.node? sp.run sp.node with
  | some n => n.ending
  | none => sp.run ≠ 0

/-- Complete nested spawns, and complete top-level ones nobody joins, leave the tables: newest first, so a parent
follows its children. -/
def State.reap (s : State) : State :=
  s.job.spawns.reverse.foldl (fun t x =>
    match lookup x.1 t.job.spawns with
    | none => t
    | some sp =>
      if t.job.complete x.1 sp && (sp.root ≠ x.1 || t.job.orphan sp) then
        { t with job := { t.job with
            spawns := remove x.1 t.job.spawns
            dies := t.job.dies.map (fun d => (d.1, d.2.drop t.pkg.cycle (fun i => i == x.1))) } }
      else t) s

/-- A request ceases to count under a level (R205, R293). -/
def State.endRequest (s : State) : Level → State
  | .job => { s with job := { s.job with requests := s.job.requests - 1 } }
  | .node r n => s.onNode r n (fun x => { x with requests := x.requests - 1 })
  | .spawn id => (s.onSpawn id (fun x => { x with requests := x.requests - 1 })).reap

/-- The level and identity the agent in focus posts under (R205, R386). -/
def State.poster (s : State) : Poster :=
  if s.ag.role = .master then
    { uid := 0, level := if s.ag.priv = .supervisor then .job else .node s.ag.run s.ag.node, priv := s.ag.priv
      agent := s.agId }
  else { uid := s.ag.uid, level := .spawn s.ag.spawnid.toNat, priv := .user, agent := s.agId }

/-- The agent in focus leaves its slot or master vacant; stops of the position stay (R362). -/
def State.vacate (s : State) : State :=
  { s.setTransaction none with ag := { Agent.vacant with
      role := s.ag.role, slStopped := s.ag.slStopped, dbgStopped := s.ag.dbgStopped
      stepping := s.ag.stepping, leftAt := s.pkg.cycle } }

/-- A unit of a spawn retires (R40). -/
def State.retireOne (s : State) (id : Nat) : State := (s.onSpawn id (fun x => { x with units := x.units - 1 })).reap

/-- Entries that hold the saved master of a node (R318, R327). -/
def State.savedMaster (s : State) (run node : Nat) : List Nat :=
  (s.job.fibres.filter (fun f => f.2.spawn == 0 && !f.2.runtime && f.2.run == run && f.2.node == node)).map (fun f => f.1)

/-- Such an entry freed with its node's end (R295, R327). -/
def State.freeMaster (s : State) (entry : Nat) : State :=
  let t := s.setEntryState (BitVec.ofNat 64 entry) 0
  { t with job := { t.job with fibres := remove entry t.job.fibres } }

/-- The agent in focus ends where it stands: parks and watches given up, streaming accesses left to perform by
themselves and its failures dropped, the unit counted as retired, a master's node without it (R45, R295). -/
def State.endAgent (s : State) : State :=
  let id := if s.ag.role = .master then 0 else s.ag.spawnid.toNat
  let rest := (s.ag.nb.filter (fun x => !x.performed)).map (fun x => ({ agent := s.agId, spawn := id, access := x } : Loose))
  let t := { s.releaseWaits with job := { s.releaseWaits.job with loose := s.job.loose ++ rest } }
  let u := t.vacate
  match t.ag.role with
  | .unit => u.retireOne t.ag.spawnid.toNat
  | .runtime => u
  | .master =>
    if t.ag.priv = .user then
      ((u.savedMaster t.ag.run t.ag.node).foldl State.freeMaster u).onNode t.ag.run t.ag.node
        (fun n => { n with st := .exited t.agId })
    else u

/-- A saved agent discarded: its entry freed, the unit counted as retired (R40, R45). -/
def State.discardFibre (s : State) (entry : Nat) : State :=
  match lookup entry s.job.fibres with
  | none => s
  | some f =>
    let t := s.setEntryState (BitVec.ofNat 64 entry) 0
    let u := { t with job := { t.job with
      fibres := remove entry t.job.fibres
      ready := t.job.ready.filter (fun r => !(r.entry.toNat == entry)) } }
    if f.runtime || f.spawn = 0 then u else u.retireOne f.spawn

/-- A spawn and its descendants, by the parents of a table in rising order. -/
def descendants (id : Nat) : Table Spawn → List Nat → List Nat
  | [], acc => acc
  | (i, sp) :: t, acc => descendants id t (if i = id || acc.contains sp.parent then i :: acc else acc)

/-- Cancelling a spawn (R45): no more draws, basin records and fibres gone, running units and runtimes ending at their
next turn. -/
def State.cancelSpawn (s : State) (id : Nat) (kind : EndKind) : State :=
  let ds := descendants id s.job.spawns []
  let mark (a : Agent) : Agent :=
    if a.occupied && a.role ≠ .master && ds.contains a.spawnid.toNat then { a with ending := true } else a
  let t := { s with
    ag := mark s.ag
    job := { s.job with
      agents := s.job.agents.map (fun x => (x.1, mark x.2))
      spawns := s.job.spawns.map (fun x =>
        if ds.contains x.1 && x.2.ended.isNone then (x.1, { x.2 with ended := some kind, redraw := [] }) else x)
      dies := s.job.dies.map (fun d => (d.1, d.2.drop s.pkg.cycle ds.contains)) } }
  (((s.job.fibres.filter (fun f => ds.contains f.2.spawn)).map (fun f => f.1)).foldl State.discardFibre t).reap

/-- Cancelling a node (R295): its spawns cancelled, its master abandoned at the next boundary. -/
def State.cancelNode (s : State) (run node : Nat) (restart : Bool) : State :=
  let roots := (s.job.spawns.filter (fun x => x.2.root == x.1 && x.2.run == run && x.2.node == node)).map (fun x => x.1)
  let mark (a : Agent) : Agent :=
    if a.occupied && a.role = .master && a.priv = .user && a.run = run && a.node = node then { a with ending := true } else a
  let t := s.onNode run node (fun n => { n with ending := true, restart := restart })
  let u := roots.foldl (fun x id => x.cancelSpawn id .cancelled) t
  { u with ag := mark u.ag, job := { u.job with agents := u.job.agents.map (fun x => (x.1, mark x.2)) } }

/-- Whether a node has started and not ended. -/
def RunNode.live (n : RunNode) : Bool :=
  match n.st with
  | .running _ | .exited _ => true
  | _ => false

/-- Cancelling a run (R295): running nodes cancelled, the rest skipped. -/
def State.cancelRun (s : State) (run : Nat) : State :=
  match s.job.run? run with
  | none => s
  | some r =>
    let t := (r.nodes.zipIdx.filter (fun x => x.1.live)).foldl (fun u x => u.cancelNode run x.2 false) s
    t.onRun run (fun q => { q with
      cancelled := true
      patched := none
      nodes := q.nodes.map (fun n =>
        match n.st with
        | .waiting | .ready _ => { n with st := .skipped }
        | _ => { n with restart := false }) })

/-- The turns every agent of the job has lost so far are accounted for (R360). -/
def State.accountAll (s : State) : State :=
  ((s.allAgents.map (fun x => x.1)).foldl (fun t a => (t.focus a).account t.pkg.cycle) s).focus s.agId

/-- The physical die and the agent, but for its die, whose DBGCTL a register is (R358, R359). -/
def dbgctlOf (pa : Nat) : Option (Nat × Nat) :=
  let off := (pa - obsBase 0) % 0x100_0000
  let pdie := (pa - obsBase 0) / 0x100_0000
  if pa < obsBase 0 || obsBase 16 ≤ pa then none
  else if off < 0x8_0000 && 0x40 ≤ off % 0x1000 && off % 0x1000 < 0xB8 then
    some (pdie, off / 0x1000 * 16 + (off % 0x1000 - 0x40) / 8)
  else if off = 0x8_0000 || off = 0x8_0008 then some (pdie, 2 ^ 15 + (off - 0x8_0000) / 8 * 16)
  else none

/-- DBGCTL of the positions of some dies once no job owns them (R362): `slstop` stops none of them, and one that a debugger stops
stays stopped. -/
def Pkg.freeStops (p : Pkg) (dies : List Nat) : Pkg :=
  p.dev.foldl (fun q x =>
    match dbgctlOf x.1 with
    | some (d, _) =>
      if dies.contains d then
        q.setBits x.1 0x0600_0000_0000_0000#64 (if field x.2.toNat 62 1 = 1 then 0x0200_0000_0000_0000#64 else 0#64)
      else q
    | none => q) p

/-- Ending a job (R293): everything it holds goes, its partition is free; debug stops belong to the positions and stay (R362). -/
def State.endJob (s : State) : State :=
  let t := s.accountAll
  { t with
    job := Job.absent, ag := Agent.vacant, agId := 0, offered := false
    pkg := { t.pkg.freeStops t.job.pdies with leftAt := t.job.pdies.foldl (fun l d => assign d t.pkg.cycle l) t.pkg.leftAt } }

/-- Value of `lvlsel` for a level instance (R296). -/
def lvlselValue (kind id : Nat) : Word := packFields [(kind, 61), (id, 0)]

/-- The record of an absorption (R44, R321). -/
def State.absorbed (s : State) (t : Trap) (kind id pol spawn : Nat) : State :=
  s.postRecord ((trapRecord 7 t.subr kind pol t.cause.toNat 0#64 t.addr (lvlselValue kind id) (BitVec.ofNat 64 spawn) 0#64 0#64
    (t.since.getD s.pkg.cycle)) ++ t.slot.toList.map (BitVec.ofNat 64))

/-- Containment at the job (R44, R294): every policy kills the job, which leaves its record in the queue's memory. -/
def State.containJob (s : State) (t : Trap) : State := (s.absorbed t 0 0 2 0).endJob

/-- Containment at a run (R294). -/
def State.containRun (s : State) (t : Trap) (run : Nat) : State :=
  match (s.job.run? run).bind (fun r => lookup r.graph s.job.graphs) with
  | none => s.containJob t
  | some g =>
    match g.rpol with
    | 0 => s.containJob t
    | 3 => (s.absorbed t 1 run 3 0).endJob
    | p => (s.cancelRun run).absorbed t 1 run p 0

/-- Policies of a graph node: NPOL, SPOL, UPOL (R285). -/
def GraphNode.npol (n : GraphNode) : Nat := field n.dword0.toNat 60 2
def GraphNode.spol (n : GraphNode) : Nat := field n.dword0.toNat 58 2
def GraphNode.upol (n : GraphNode) : Nat := field n.dword0.toNat 56 2

/-- The graph node a run's node is. -/
def Job.graphNode (j : Job) (run node : Nat) : Option GraphNode :=
  ((j.run? run).bind (fun r => lookup r.graph j.graphs)).bind (fun g => g.nodes[node]?)

/-- Containment at a node (R294). A node that is being ended already is not ended or restarted again. -/
def State.containNode (s : State) (t : Trap) (run node : Nat) : State :=
  match s.job.graphNode run node, s.job.node? run node with
  | some g, some n =>
    let who := match n.st with | .running m | .exited m => m | _ => 0
    match g.npol with
    | 0 => s.containRun t run
    | 1 =>
      if n.retries < 3 then
        (if n.ending then s
         else (s.cancelNode run node true).onNode run node (fun x => { x with retries := x.retries + 1 })).absorbed t 2
          (masterIndex who) 1 0
      else s.containRun t run
    | 2 => (s.cancelNode run node false).absorbed t 2 (masterIndex who) 2 0
    | _ => (s.cancelRun run).absorbed t 2 (masterIndex who) 3 0
  | _, _ => s.containRun t run

/-- A unit's number is to be drawn again (R44). The manual does not say where it stands among what a die may draw: it
stands with its spawn, outside the basin, and is drawn before the next number of that spawn's record. DESIGN CHOICE: log
entry 78. -/
def State.redrawNumber (s : State) (id n : Nat) : State :=
  s.onSpawn id (fun x => { x with redraw := x.redraw ++ [n], retries := assign n ((lookup n x.retries).getD 0 + 1) x.retries })

/-- Whether a unit of the job has a retry left (R44): at most three per number of its spawn. -/
def Job.mayRetry (j : Job) (unit : Nat × Nat) : Bool :=
  match lookup unit.1 j.spawns with
  | some sp => sp.ended.isNone && (lookup unit.2 sp.retries).getD 0 < 3
  | none => false

/-- A spawn and the spawns above it, whose `join` reports a containment decision at or below them (R25, R279). -/
def State.noteContained : Nat → Nat → State → State
  | 0, _, s => s
  | fuel + 1, id, s =>
    match lookup id s.job.spawns with
    | none => s
    | some sp =>
      let t := s.onSpawn id (fun x => { x with contained := true })
      if sp.root = id then t else State.noteContained fuel sp.parent t

/-- Containment at a spawn and the levels above (R44). `unit` is the unit that raised the cause, as its spawn and number,
if a unit did, and `stop` ends that unit; a retry draws its number again in its own spawn. -/
def State.containSpawn (t : Trap) (unit : Option (Nat × Nat)) (stop : State → State) : Nat → Nat → State → State
  | 0, _, s => s.containJob t
  | fuel + 1, id, s =>
    match lookup id s.job.spawns with
    | none => s.containJob t
    | some sp =>
      let up (u : State) : State :=
        if sp.root = id then u.containNode t sp.run sp.node else State.containSpawn t unit stop fuel sp.parent u
      match sp.spol with
      | 0 => up s
      | 1 =>
        match unit with
        | some u => if s.job.mayRetry u then (stop ((State.noteContained fuel id s).redrawNumber u.1 u.2)).absorbed t 3 id 1 id else up s
        | none => up s
      | 2 => ((State.noteContained fuel id s).cancelSpawn id .contained).absorbed t 3 id 2 id
      | _ =>
        (if sp.root = id then s.cancelNode sp.run sp.node false
         else (State.noteContained fuel id s).cancelSpawn sp.parent .contained).absorbed t 3 id 3 id

/-- Containment of a cause of unit `n` of a spawn, from the unit's level up (R44). -/
def State.containUnitOf (s : State) (t : Trap) (id n slot : Nat) (stop : State → State) : State :=
  let fuel := s.job.spawns.length + 1
  match lookup id s.job.spawns with
  | none => s.containJob t
  | some sp =>
    match sp.upol with
    | 0 => State.containSpawn t (some (id, n)) stop fuel id s
    | 1 =>
      if s.job.mayRetry (id, n) then (stop ((State.noteContained fuel id s).redrawNumber id n)).absorbed t 4 slot 1 id
      else State.containSpawn t (some (id, n)) stop fuel id s
    | 2 => (stop (State.noteContained fuel id s)).absorbed t 4 slot 2 id
    | _ => ((State.noteContained fuel id s).cancelSpawn id .contained).absorbed t 4 slot 3 id

/-- Unit number of a saved agent, in its record (R326). -/
def FibreInfo.tid (f : FibreInfo) : Nat := (f.image.getD 109 0#64).toNat

/-- Containment of a cause of a saved agent, which ends (R44, R332, R346): a master's at its node, a runtime's at the unit it
serves. `slot` is where the cause arose. -/
def State.containSaved (s : State) (t : Trap) (entry : Nat) (f : FibreInfo) (slot : Nat) : State :=
  if f.spawn = 0 then
    let u := s.containNode t f.run f.node
    if u.job.status = .absent then u else u.discardFibre entry
  else if f.runtime then
    let u := s.discardFibre entry
    match lookup f.serving.toNat u.job.fibres with
    | none => u.containUnitOf t f.spawn f.tid slot (fun x => x)
    | some g => u.containUnitOf t g.spawn g.tid slot (fun x => x.discardFibre f.serving.toNat)
  else (s.containUnitOf t f.spawn f.tid slot (fun x => x.discardFibre entry)).discardFibre entry

/-- Containment of a cause of the unit in focus. A unit whose level is cancelled ends at once. -/
def State.containUnit (s : State) (t : Trap) : State :=
  let u := s.containUnitOf { t with slot := some s.agId } s.ag.spawnid.toNat s.ag.tid.toNat s.agId State.endAgent
  if u.ag.ending then u.endAgent else u

/-- Containment of a cause of a request, at the level where it counts (R44, R205). -/
def State.containAt (s : State) (t : Trap) : Level → State
  | .job => s.containJob t
  | .node r n => s.containNode t r n
  | .spawn id => State.containSpawn t none (fun u => u) (s.job.spawns.length + 1) id s

end Sys2Proof.Machine
end

