-- ==== Sys2Proof/Machine/Ops.lean ====
section
/-! DEFINITION. Named operations: taking an exception (17_traps_preemption_context.md R317, R318; 01_execution_model.md
R40-R42) and returning from one (R39, R181, R332), drawing (R22, R43), and performing a data access from its checks to
its effect (02_memory_and_ordering.md R51, R63, R64; 07_memory_sync_swarm_instructions.md R157-R170). -/

namespace Sys2Proof.Machine

/-- Page faults (R323). -/
def pageFault (c : Byte) : Bool := c.toNat / 32 = 1 && c.toNat % 8 < 2

/-- Causes of a unit that go by upcall (R40, R317). -/
def Trap.upcalls (t : Trap) (owned : Bool) : Bool :=
  pageFault t.cause || t.cause = 0x40#8 || t.cause = 0x41#8 || (t.cause = 0xA1#8 && !owned) || t.cause = 0x42#8

/-- Causes that enter containment by themselves (R44, R317). -/
def Trap.contains (t : Trap) : Bool :=
  t.cause.toNat / 32 = 3 || t.cause.toNat / 32 = 4 || t.cause = 0xA5#8 || t.cause = 0xA6#8

/-- The first cycle after `c` at which a slot has a turn (R34); a master's next cycle. -/
def turnAfter (a c : Nat) : Nat := if isMasterId a then c + 1 else c + 1 + (slotOf a + 15 - c % 16) % 16

/-- The upcall runtime in the slot in focus (R42). -/
def State.enterRuntime (s : State) (sp : Spawn) (entry : Word) (t : Trap) : State :=
  let cause : Word := BitVec.ofNat 64 t.cause.toNat
  let regs : Vector Word 32 := Vector.ofFn (fun i =>
    if i.val = 0 then 0#64 else if i.val < 24 then sp.args.getD (i.val - 1) 0#64
    else if i.val = 24 then entry else if i.val = 25 then cause else if i.val = 26 then t.addr
    else if i.val = 30 then stackTop s.agId else 0#64)
  { s with
    ag := { Agent.vacant with
      role := .runtime, occupied := true, pc := sp.upentry, g := regs, rmode := sp.rmode, tid := s.ag.tid
      spawnid := s.ag.spawnid, upentry := sp.upentry, fibpool := sp.fibpool, upcause := cause, upaddr := t.addr
      serving := entry, uid := s.job.nextUid, slStopped := s.ag.slStopped, dbgStopped := s.ag.dbgStopped
      stepping := s.ag.stepping }
    job := { s.job with nextUid := s.job.nextUid + 1 } }

/-- Dwords of a record and its stack image, but for those hardware writes (FSTATE and NOTICE) and what a master's
entry does not use. -/
def recordBody (master : Bool) (ws : List Word) : List Word :=
  ((if master then ws.take 128 else ws).set 108 0#64).set 117 0#64

/-- What the hardware knows of the agent in focus once it is saved. -/
def State.savedInfo (s : State) (image : List Word) : FibreInfo :=
  { spawn := if s.ag.role = .master then 0 else s.ag.spawnid.toNat, uid := s.ag.uid, runtime := s.ag.role = .runtime
    serving := s.ag.serving, run := s.ag.run, node := s.ag.node, deferred := s.ag.deferred, upcause := s.ag.upcause
    image := image }

/-- A saved agent entered in the job's table of saved agents. -/
def State.noteSaved (s : State) (entry : Word) (cell : Nat) : State :=
  { s with job := { s.job with
      fibres := assign entry.toNat (s.savedInfo (recordBody (s.ag.role = .master) (s.getWords cell 192))) s.job.fibres } }

/-- The trap record of a cause of the agent in focus (R321). -/
def State.agentRecord (s : State) (kind : Nat) (t : Trap) (entry : Word) : List Word :=
  trapRecord kind t.subr 0 0 t.cause.toNat s.ag.pc t.addr (BitVec.ofNat 64 s.agId) s.ag.spawnid entry t.info (t.since.getD s.pkg.cycle)

/-- Delivery by upcall into a free pool entry (R40): the entry written, a page fault's record posted, the runtime
entered. -/
def State.deliverUpcall (s : State) (sp : Spawn) (t : Trap) (entry : Word) (cell : Nat) (home : Option Nat) : State :=
  let st := if pageFault t.cause then 1 else 2
  let origin := if pageFault t.cause then 0 else if t.cause = 0x42#8 then 2 else 1
  let u := (s.saveAt cell home (fstate st origin t.cause.toNat s.agId s.ag.slStopped)).noteSaved entry cell
  let w := u.enterRuntime sp entry t
  if pageFault t.cause then w.postRecord (u.agentRecord 0 t entry) else w

/-- STATE and ORIGIN of a save on the supervisor path, and the record's KIND (R318, R326). -/
def Role.saved : Role → Nat × Nat × Nat
  | .unit => (4, 3, 0)
  | .runtime => (4, 4, 1)
  | .master => (5, 7, 2)

/-- Delivery to the supervisor (R318): saved in `sfibarea`, one record posted; with no free entry the agent stays
stopped with its cause. -/
def State.deliverSupervisor (s : State) (t : Trap) : State :=
  let put (x : State) (d : Option Trap) : State := { x with ag := { x.ag with deferred := d } }
  let held : Trap := { t with since := some (t.since.getD s.pkg.cycle), toArea := true }
  State.showSince (if poolSize s.job.sfibarea = 0 then (put s (some held)).firmwareCause t
  else
    match s.freeAreaEntry (poolSize s.job.sfibarea) 0 with
    | .error e => (put s (some held)).firmwareCause e
    | .ok none => put s (some held)
    | .ok (some (entry, cell, home, u0)) =>
      let u := put u0 none
      let (st, origin, kind) := u.ag.role.saved
      let w := (u.saveAt cell home (fstate st origin t.cause.toNat u.agId u.ag.slStopped)).noteSaved entry cell
      let x := if w.ag.role = .master then
          { w with ag := { w.ag with reserved := true, deferred := none, wait := .ready, nb := [], stepping := false } }
        else ({ w with ag := { w.ag with stepping := false } }).vacate
      x.postRecord (u.agentRecord kind t entry)) s

/-- A stop on the debug path (R317, R362): LCAUSE, DSTOP and STOPPED, and the notice to firmware. -/
def State.deliverDebug (s : State) (t : Trap) : State :=
  ({ s with
    ag := { s.ag with dbgStopped := true, stepping := false }
    pkg := { s.pkg.setBits (s.dbgctl s.agId) 0x0000_FF00_0000_0000#64 (packFields [(t.cause.toNat, 40)]) with
      reports := s.pkg.reports ++ [Report.stopped (s.slotPlace s.agId) t.cause] } }).showStops.trace 7
      t.cause.toNat s.ag.pc 0#64

/-- A debug stop at a boundary (R362): its cause is traced (R363) and delivered. -/
def State.stopDebug (s : State) (c : Byte) : State := (s.trace 3 c.toNat s.ag.pc 0#64).deliverDebug { cause := c }

/-- Taking an exception: the first path of R317 that applies to the agent in focus, whose pc is the recorded pc.
Outstanding streaming accesses perform first; while one cannot, the agent stays stopped with its cause (R172). An agent whose
level has been cancelled ends at its next turn, and its cause is discarded with it (R45, R295). -/
def State.raise (s : State) (t : Trap) : State :=
  if s.ag.ending then { s with ag := { s.ag with wait := .ready, deferred := none } } else
  let s0 := if t.since.isSome then s.settleAll else s.settleAll.trace 3 t.cause.toNat s.ag.pc 0#64
  let s1 := { s0 with ag := { s0.ag with upaddr := t.addr, wait := .ready, deferred := none } }
  let owned := s.owned s.agId
  let debug := owned && s.ag.role ≠ .runtime && 0xA1 ≤ t.cause.toNat && t.cause.toNat ≤ 0xA4
  if (s1.firstStreaming (fun _ => true)).isSome && !debug then
    ({ s1 with ag := { s1.ag with deferred := some { t with since := some (t.since.getD s.pkg.cycle) } } }).showSince s
  else if s.ag.role = .unit && t.upcalls owned then
    match lookup s.ag.spawnid.toNat s.job.spawns with
    | none => s1.deliverSupervisor t
    | some sp =>
      if sp.upentry = 0#64 then s1.deliverSupervisor t
      else
        match s1.freePoolEntry sp.fibpool (poolSize sp.fibpool) 0 with
        | none => s1.deliverSupervisor t
        | some (entry, cell, home, u) => (u.deliverUpcall sp t entry cell home).showSince s
  else if debug then ({ s1 with ag := { s1.ag with upaddr := s.ag.upaddr } }).deliverDebug t
  else if s.ag.role = .unit && t.contains then s1.containUnit t
  else if s.ag.priv = .supervisor then (s1.setWait .halt).firmwareCause t
  else s1.deliverSupervisor t

/-- A cause alone. -/
def State.raiseCause (s : State) (c : Byte) : State := s.raise { cause := c }

/-- A vector register from its eight dwords. -/
def vOfWords (ws : List Word) : VWord := BitVec.ofNat 512 (packBits 64 (ws.map (fun w => w.toNat)))

/-- Bits of `rmode` that hold state (R85). -/
def rmodeMask : Word := 0x1F3#64

/-- The agent a fibre record holds (R326), into the position `a`; g30 is rebased by the move of its slot (R39). -/
def agentOfRecord (ws : List Word) (a : Nat) (info : FibreInfo) (old : Agent) : Agent :=
  let w (off : Nat) : Word := ws.getD (off / 8) 0#64
  let f := (w 0x360).toNat
  let st := field f 60 4
  let role : Role := if st = 5 then .master else if info.runtime then .runtime else .unit
  let move : Word := BitVec.ofNat 64 512 * (BitVec.ofNat 64 (slotOf a) - BitVec.ofNat 64 (field f 29 4))
  let p := (w 0x390).toNat
  { old with
    role := role, priv := .user, occupied := true, pc := w 0x350
    g := Vector.ofFn (fun i => if i.val = 0 then 0#64
      else if i.val = 30 && role ≠ .master then w (0x200 + 8 * i.val) + move else w (0x200 + 8 * i.val))
    v := Vector.ofFn (fun i => vOfWords ((ws.drop (8 * i.val)).take 8))
    k := Vector.ofFn (fun i => BitVec.ofNat 16 (field (w (0x340 + 8 * (i.val / 4))).toNat (16 * (i.val % 4)) 16))
    xe := Vector.ofFn (fun i => w (0x300 + 8 * i.val))
    rmode := w 0x358 &&& rmodeMask, tid := w 0x368, spawnid := w 0x370, upaddr := w 0x378
    upcause := info.upcause
    nb := if p / 2 ^ 63 = 1 then
        [{ by_ := { kind := 0, pc := w 0x350, agent := a, tid := w 0x368 }, isStore := field p 62 1 = 1, size := 8, va := w 0x398, loc := .cell 0 none, dest := BitVec.ofNat 5 p
           data := 0#64, since := 0, performed := true, failed := some (BitVec.ofNat 8 (field p 48 8)) }]
      else []
    wait := .ready
    wakes := if (w 0x380).toNat / 2 ^ 63 = 1 then (w 0x380).toNat % 2 ^ 32 else 0
    waited := if (w 0x388).toNat / 2 ^ 63 = 1 then (w 0x388).toNat % 2 ^ 32 else 0
    aborted := if (w 0x380).toNat / 2 ^ 63 = 1 then some (some (field (w 0x380).toNat 60 3))
      else if (w 0x388).toNat / 2 ^ 63 = 1 then some none else none
    serving := info.serving, uid := info.uid, run := info.run, node := info.node
    slStopped := old.slStopped || field f 28 1 = 1
    notBefore := 0, forfeits := 0
    reserved := false, deferred := info.deferred, ending := false }

/-- The dwords a record is read as at a resume (R182, R327): where software wrote an entry it must not write, the
resumed state is unpredictable, so every dword but FSTATE is a free value. -/
def State.resumeWords (s : State) (info : FibreInfo) (ws : List Word) : List Word × State :=
  let st := field (ws.getD 108 0#64).toNat 60 4
  if st = 4 || st = 5 || recordBody (st = 5) ws = info.image then (ws, s)
  else
    (((List.range 192).map (fun i => Config.freeValue (s.free + i))).set 108 (ws.getD 108 0#64),
      { s with free := s.free + 192 })

/-- Returning to a saved agent: an entry's record and stack image into the position in focus, the entry freed (R39,
R181, R327, R334). An unreadable record raises 0xA5 for its unit without resuming it (R346); marks of the stack image go with it
(R345). -/
def State.restore (s : State) (entry : Word) : State :=
  match lookup entry.toNat s.job.fibres with
  | none => s
  | some info =>
    match s.hwCell false entry 2048 with
    | .error _ => s
    | .ok (t, cell, _) =>
      if t.badWords cell 128 ≠ [] then t.containSaved { cause := 0xA5#8, slot := some t.agId } entry.toNat info t.agId
      else
        let bad := t.badWords (cell + 1024) 64
        let (ws, t) := (t.account t.pkg.cycle).resumeWords info (t.getWords cell 192)
        let ag := agentOfRecord (ws.take 128) t.agId info t.ag
        let sp := lookup info.spawn t.job.spawns
        let ag1 := if ag.role = .master then
            { ag with joinst := t.ag.joinst, upentry := t.ag.upentry, fibpool := t.ag.fibpool
                      ending := (t.job.node? ag.run ag.node).any (fun n => n.ending) }
          else { ag with upentry := (sp.map (fun x => x.upentry)).getD 0#64, fibpool := (sp.map (fun x => x.fibpool)).getD 0#64 }
        let u := { t with
          ag := ag1
          job := { t.job with
            fibres := remove entry.toNat t.job.fibres
            ready := t.job.ready.filter (fun r => !(r.entry == entry)) } }
        let x := if ag.role = .master then u
          else (State.putWords (engineWriter (coreKey u.agId)) none (u.stackCell u.agId) (ws.drop 128) u).markWords (u.stackCell u.agId) bad
        x.showStops.setEntryState entry 0

/-- The first cycle above `c` at which a slot has a turn. -/
def turnAbove (slot c : Nat) : Nat := c + 1 + (slot + 15 - c % 16) % 16

/-- A unit of a spawn started in the slot in focus (R22): it awaits its draw over one turn and issues at the second. -/
def State.startUnit (s0 : State) (id : Nat) (sp : Spawn) (n : Nat) : State :=
  let s := s0.account s0.pkg.cycle
  let regs : Vector Word 32 := Vector.ofFn (fun i =>
    if i.val = 0 then 0#64 else if i.val < 24 then sp.args.getD (i.val - 1) 0#64
    else if i.val = 24 then BitVec.ofNat 64 n else if i.val = 30 then stackTop s.agId else 0#64)
  let t : State := { s with
    ag := { Agent.vacant with
      role := .unit, occupied := true, pc := sp.target, g := regs, rmode := sp.rmode, tid := BitVec.ofNat 64 n
      spawnid := BitVec.ofNat 64 id, upentry := sp.upentry, fibpool := sp.fibpool, uid := s.job.nextUid
      slStopped := s.ag.slStopped, dbgStopped := s.ag.dbgStopped, stepping := s.ag.stepping
      notBefore := turnAbove (slotOf s.agId) s.pkg.cycle + 16 }
    job := { s.job with
      nextUid := s.job.nextUid + 1
      spawns := modify id (fun x => { x with units := x.units + 1 }) s.job.spawns } }
  t.trace 4 0 sp.target t.ag.tid

/-- The next number of a child record (R32); the record leaves the basin with the last. -/
def State.takeChild (s : State) (die id : Nat) (sp : Spawn) : State :=
  let t := s.onSpawn id (fun x => { x with nextChunk := x.nextChunk + 1 })
  let u := if sp.nextChunk = sp.hi then
      t.onDie die (fun d => { d with basin := d.basin.filter (fun i => !(i == id)), spilled := d.spilled.filter (fun i => !(i == id)) })
    else t
  u.startUnit id sp sp.nextChunk

/-- A number of a spawn that is to be drawn again (R44). -/
def State.takeAgain (s : State) (id : Nat) (sp : Spawn) (n : Nat) : State :=
  (s.onSpawn id (fun x => { x with redraw := x.redraw.drop 1 })).startUnit id sp n

/-- The newest child spawn of a die that has a number to draw again (R44). -/
def Job.again (j : Job) (die : Nat) : Option (Nat × Spawn) :=
  j.spawns.reverse.find? (fun x => x.2.root != x.1 && x.2.homeDie == die && !x.2.redraw.isEmpty && x.2.ended.isNone)

/-- Whether a spawn-table entry has a number to give (R20, R44). -/
def Job.drawable (j : Job) (e : TableEntry) : Bool :=
  match lookup e.spawn j.spawns with
  | none => false
  | some sp => sp.ended.isNone && (e.next ≤ e.last || e.further.isSome || !sp.redraw.isEmpty)

/-- The next entry round-robin after the master served last (R43, R385). -/
def nextEntry (last : Nat) (es : Table TableEntry) : Option (Nat × TableEntry) :=
  match es.find? (fun e => last < e.1) with
  | some e => some e
  | none => es.head?

/-- An entry whose chunk is used up takes up the further one (R20). -/
def TableEntry.refill (e : TableEntry) : TableEntry :=
  match e.further with
  | some (a, b) => if e.last < e.next then { e with next := a, last := b, further := none } else e
  | none => e

/-- What the die in focus holds to draw under rule 3 of R43. -/
def State.takeTop (s : State) (die : Nat) : State :=
  match nextEntry (s.job.die die).lastMaster ((s.job.die die).entries.filter (fun e => s.job.drawable e.2)) with
  | none => s
  | some (m, e) =>
    match lookup e.spawn s.job.spawns with
    | none => s
    | some sp =>
      let t := s.onDie die (fun d => { d with lastMaster := m })
      match sp.redraw with
      | n :: _ => t.takeAgain e.spawn sp n
      | [] =>
        (t.onDie die (fun d => { d with entries := modify m (fun x => { x.refill with next := x.refill.next + 1 }) d.entries })).startUnit
          e.spawn sp e.refill.next

/-- The first fibre on the ready list of the core in focus whose entry can be read (R43). The manual does not say what a
draw does with an entry it cannot translate: it is passed over, so that it prevents no draw (R46). DESIGN CHOICE: log
entry 79. -/
def State.readyHere (s : State) : Option ReadyFibre :=
  s.job.ready.find? (fun r => r.core == coreKey s.agId && (s.hwCell false r.entry 2048).toBool)

/-- Whether the slot in focus has something to draw (R43). -/
def State.hasWork (s : State) : Bool :=
  s.readyHere.isSome || (s.job.again (vdieOf s.agId)).isSome ||
    !((s.job.die (vdieOf s.agId)).basin ++ (s.job.die (vdieOf s.agId)).spilled).isEmpty ||
    (s.job.die (vdieOf s.agId)).entries.any (fun e => s.job.drawable e.2)

/-- Whether a slot may draw (R37, R334, R335, R356, R362). -/
def State.mayDraw (s : State) : Bool :=
  !isMasterId s.agId && !s.ag.occupied && !s.ag.slStopped && !s.ag.dbgStopped && !s.ag.stepping &&
    s.job.status = .running && !s.job.posting s.agId && !s.pkg.gated.contains (s.job.pdie (vdieOf s.agId))

/-- A ready fibre or runtime drawn (R39, R43): like a unit it issues at the second turn (R22, R262). -/
def State.drawFibre (s : State) (entry : Word) : State :=
  let t := s.restore entry
  if t.ag.occupied then
    ({ t with ag := { t.ag with notBefore := turnAbove (slotOf t.agId) t.pkg.cycle + 16 } }).trace 4 0 t.ag.pc t.ag.tid
  else t

/-- Drawing for the vacant slot in focus, by the preference of R43. -/
def State.draw (s : State) : State :=
  if !s.mayDraw then s
  else
    match s.readyHere with
    | some r => s.drawFibre r.entry
    | none =>
      let die := vdieOf s.agId
      match s.job.again die, (s.job.die die).basin ++ (s.job.die die).spilled with
      | some (id, sp), _ => s.takeAgain id sp (sp.redraw.headD 0)
      | none, id :: _ =>
        match lookup id s.job.spawns with
        | some sp => s.takeChild die id sp
        | none => s
      | none, [] => s.takeTop die

/-- What the effect of an access can be. -/
inductive Effect where
  /-- Performed; a value for a register, which for g0 is discarded. -/
  | done (s : State) (d : Reg) (v : Word)
  | trap (t : Trap)
  /-- Refused by a full park table for the last time: a cause in the state that counted the refusal (R164, R361). -/
  | limit (s : State) (t : Trap)
  /-- The request stays on its way: a host translation is missing, a slice holds it, or a die sleeps. -/
  | blocked (s : State)
  /-- Some of the accesses of a vector instruction performed; the rest are on their way. -/
  | partly (s : State) (op : MemOp)
  /-- Parked or watching: the wait is set. -/
  | waiting (s : State)
  /-- Refused by a full table: reissued at the next turn. -/
  | again (s : State)

/-- The dword address an address lies in. -/
def dwordVa (va : Word) : Word := va &&& 0xFFFF_FFFF_FFFF_FFF8#64

/-- A failed load's trap (R159, R315). -/
def loadTrap (c : Byte) (va : Word) : Trap :=
  if c.toNat / 32 = 1 then { cause := c, subr := 2, addr := va } else { cause := c, addr := dwordVa va }

/-- Whether a request is for the page of an IOVA. -/
def HostRequest.names (r : HostRequest) (port pasid page : Nat) : Bool := r.port == port && r.pasid == pasid && r.page == page

/-- An ATS request sent for the page of an IOVA, unless one is outstanding (R314, R381). -/
def Pkg.askHost (p : Pkg) (loc : Loc) (write : Bool) (engine : Option Nat := none) : Pkg :=
  match loc with
  | .host port pasid iova =>
    let mine (r : HostRequest) : Bool := r.names port pasid (iova / 4096)
    let who := engine.toList.map (fun e => (e, write))
    if (p.ats ++ p.pri).any mine then
      let note (r : HostRequest) : HostRequest := if mine r then { r with engines := (r.engines ++ who).dedup } else r
      { p with ats := p.ats.map note, pri := p.pri.map note }
    else
      let r : HostRequest :=
        { port := port, pasid := pasid, page := iova / 4096, write := write, since := p.cycle, retry := false, engines := who }
      { p with ats := p.ats ++ [r] }
  | _ => p

/-- A location further on. -/
def Loc.plus (l : Loc) (n : Nat) : Loc :=
  match l with
  | .cell a h => .cell (a + n) h
  | .view a => .view (a + n)
  | .dev a => .dev (a + n)
  | .host p q i => .host p q (i + n)

/-- Whether a location is in the local store of a gated die, which must wake first (R356). -/
def State.asleep (s : State) (l : Loc) : Bool :=
  match l with
  | .cell a _ => isLocal a && s.pkg.gated.contains ((a - lsBase) / 2 ^ 25)
  | _ => false

/-- An access to the local store of a gated die calls for it (R356). -/
def State.callFor (s : State) (l : Loc) : State :=
  match l with
  | .cell a _ => if s.asleep l then s.callDie ((a - lsBase) / 2 ^ 25) else s
  | _ => s

/-- The bytes of active lanes: bit i of a mask governs bytes 4i to 4i + 3 (R117). -/
def maskBit (m : BitVec 16) (i : Nat) : Bool := m.toNat / 2 ^ i % 2 = 1

/-- The dwords of a 64-byte access with an active byte, ascending (R201). -/
def activeDwords (m : BitVec 16) : List Nat := (List.range 8).filter (fun i => maskBit m (2 * i) || maskBit m (2 * i + 1))

/-- A register whose active 4-byte groups come from loaded dwords (R201). -/
def vmerge (m : BitVec 16) (old : VWord) (got : List (Nat × Nat)) : VWord :=
  BitVec.ofNat 512 (packBits 32 ((List.range 16).map (fun i =>
    match maskBit m i, got.find? (fun x => x.1 == i / 2) with
    | true, some x => x.2 / 2 ^ (32 * (i % 2)) % 2 ^ 32
    | _, _ => old.toNat / 2 ^ (32 * i) % 2 ^ 32)))

/-- Up to `n` of the remaining dwords of a `vld` load, in ascending order, each an access of its own (R64, R201). -/
def State.vloadFrom (ty : LaneTy) (k d : VReg) (va : Word) (loc : Loc) : List Nat → Nat → List Nat → State → Effect
  | [], _, got, s => .done (s.setV d (vmerge (s.k k) (s.v d) ((activeDwords (s.k k)).zip got))) 0#5 0#64
  | _ :: _, 0, got, s => .partly s (.vload ty k d got)
  | i :: rest, n + 1, got, s =>
    match s.readAt (loc.plus (8 * i)) 8 with
    | none => .partly { s with pkg := s.pkg.askHost loc false } (.vload ty k d got)
    | some (.error c, _) => .trap (loadTrap c (va + BitVec.ofNat 64 (8 * i)))
    | some (.ok x, t) => State.vloadFrom ty k d va loc rest n (got ++ [x]) t

/-- The active bytes of dword `i` of a `vst` (R201): its byte offset, its size and its value. -/
def vstPart (m : BitVec 16) (x : VWord) (i : Nat) : Nat × Nat × Nat :=
  let dw := x.toNat / 2 ^ (64 * i) % 2 ^ 64
  if !maskBit m (2 * i + 1) then (8 * i, 4, dw % 2 ^ 32)
  else if !maskBit m (2 * i) then (8 * i + 4, 4, dw / 2 ^ 32)
  else (8 * i, 8, dw)

/-- Up to `n` of the remaining dwords of a `vst` are stored, in ascending order (R64, R201). -/
def State.vstoreTo (ty : LaneTy) (k d : VReg) (va : Word) (loc : Loc) : List Nat → Nat → Nat → State → Effect
  | [], _, _, s => .done s 0#5 0#64
  | _ :: _, 0, put, s => .partly s (.vstore ty k d put)
  | i :: rest, n + 1, put, s =>
    let (off, size, v) := vstPart (s.k k) (s.v d) i
    if s.heldAt 0 (loc.plus off) size then .partly s (.vstore ty k d put)
    else
      match s.writeAt (s.writer 0) (loc.plus off) size v with
      | none => .partly { s with pkg := s.pkg.askHost loc true } (.vstore ty k d put)
      | some (.error c) => .trap { cause := c, subr := if c = 0x2F#8 then 2 else 0, addr := va }
      | some (.ok t) => State.vstoreTo ty k d va loc rest n (put + 1) t

/-- The check of one lane address of `vldx` or `vstx` in the order of R202: the offset in the own local store. -/
def State.laneCheck (s : State) (f : Form) (va : Word) : Except Trap Nat :=
  let v := field va.toNat 25 4
  let off := field va.toNat 0 18
  if !canonical va then .error (fault1 f 2 0 va)
  else if supervisorHalf va then .error (fault1 f 3 0 va)
  else if va.toNat % 4 ≠ 0 then .error (fault1 f 4 0 va)
  else if !inWindow va then .error (fault1 f 6 0 va)
  else if field va.toNat 29 3 ≠ 0 || s.job.dies_n ≤ v then .error (fault1 f 5 0 va)
  else if v * 128 + field va.toNat 18 7 ≠ coreKey s.agId then .error (fault1 f 6 0 va)
  else if !systemArea off f then .error (fault1 f 5 1 va)
  else .ok off

/-- All active lanes in ascending order: their numbers and cells, or the lowest failing lane's cause. -/
def State.laneCells (s : State) (f : Form) : List (Nat × Word) → Except Trap (List (Nat × Nat))
  | [] => .ok []
  | (i, va) :: t =>
    match s.laneCheck f va with
    | .error e => .error e
    | .ok off =>
      match s.laneCells f t with
      | .error e => .error e
      | .ok r => .ok ((i, lsCell (s.job.pdie (vdieOf s.agId)) (coreOf s.agId) off) :: r)

/-- Lane `i` of 4 bytes. -/
def lane32 (x : VWord) (i : Nat) : Nat := x.toNat / 2 ^ (32 * i) % 2 ^ 32

/-- Active lane addresses of `vldx` and `vstx` (R202). -/
def State.laneAddrs (s : State) (base : Word) (k b : VReg) : List (Nat × Word) :=
  ((List.range 16).filter (fun i => maskBit (s.k k) i)).map (fun i => (i, base + BitVec.ofNat 64 (lane32 (s.v b) i)))

/-- A register whose lanes named come from loaded values (R202). -/
def lanesMerge (old : VWord) (got : List (Nat × Nat)) : VWord :=
  BitVec.ofNat 512 (packBits 32 ((List.range 16).map (fun i =>
    match got.find? (fun x => x.1 == i) with
    | some x => x.2
    | none => lane32 old i)))

/-- Up to `n` of the remaining lanes of a `vldx` load in ascending order (R202). -/
def State.gatherFrom (b k d : VReg) (all : List (Nat × Nat)) : List (Nat × Nat) → Nat → List Nat → State → Effect
  | [], _, got, s => .done (s.setV d (lanesMerge (s.v d) ((all.map (fun c => c.1)).zip got))) 0#5 0#64
  | _ :: _, 0, got, s => .partly s (.gather b k d got)
  | c :: rest, n + 1, got, s =>
    if s.poisoned c.2 then .trap { cause := 0x60#8, addr := windowVa (coreKey s.agId) (c.2 % 2 ^ 18 / 8 * 8) }
    else State.gatherFrom b k d all rest n (got ++ [s.readNat c.2 4]) s

/-- Up to `n` of the remaining lanes of a `vstx` store in ascending order (R202). -/
def State.scatterTo (b k d : VReg) : List (Nat × Nat) → Nat → Nat → State → Effect
  | [], _, _, s => .done s 0#5 0#64
  | _ :: _, 0, put, s => .partly s (.scatter b k d put)
  | c :: rest, n + 1, put, s =>
    State.scatterTo b k d rest n (put + 1) (s.store (s.writer 0) c.2 4 (lane32 (s.v d) c.1) none)

/-- A full/empty operation's effect, or its parking (R63, R163, R164). -/
def State.feEffect (s : State) (op : MemOp) (f : FeOp) (d : Reg) (v va : Word) (a : Nat) (home : Option Nat) (len : Nat)
    (post : Option (Nat × Nat × Poster)) : Effect :=
  match s.tryFe (s.writer 1) f v a home with
  | some (.ok x, t) =>
    let u := { t with ag := { t.ag with wakes := 0 } }
    let w := match post with
      | some (key, box, who) => u.posted key box who
      | none => u
    .done (w.bitChanged a (s.feBit a)) d x
  | some (.error c, _) => .trap { cause := c, addr := dwordVa va }
  | none =>
    if (s.job.parked.filter (fun p => p.ended.isNone && s.owner p.cell p.home == s.owner a home)).length < parkRoom a then
      let entry : Parked :=
        { agent := s.agId, op := f, v := v, cell := a, home := home, since := s.pkg.cycle, tried := s.pkg.cycle, wakes := s.ag.wakes
          ended := none, post := post }
      .waiting { s with
        ag := { s.ag with wait := .park op va len }
        job := { s.job with parked := s.job.parked ++ [entry] } }
    else
      let t := (({ s with ag := { s.ag with wakes := s.ag.wakes + 1, aborted := some (some f.sub) } } : State).bumpOwner a home 0x18)
      if s.job.ferlimit.toNat ≤ s.ag.wakes + 1 then .limit (s.bumpOwner a home 0x18) { cause := 0x40#8, addr := va } else .again t

/-- The watch table of a location's home (R70, R170): a view line's is that of its slice (R56, R60). -/
def State.tableOf (s : State) (loc : Loc) : Option Nat :=
  match loc with
  | .cell a home => some (s.owner a home)
  | .view pa => some (s.owner pa (some (s.job.partitionHash pa)))
  | _ => none

/-- Arming an `mwait`, or completing it at once (R70, R170). -/
def State.watchEffect (s : State) (op : MemOp) (w : WatchTest) (v va : Word) (loc : Loc) (len : Nat) : Effect :=
  let s0 := match loc with | .view pa => s.fillView pa | _ => s
  let full := 64 ≤ (s0.job.armed.filter (fun p => p.ended.isNone && !p.polling &&
    s0.tableOf p.loc == s0.tableOf loc)).length
  let e := s0.tryWatch { agent := s0.agId, test := w, v := v, loc := loc, since := s0.pkg.cycle, before := s0.ag.waited
                         polling := full, polled := s0.pkg.cycle, ended := none }
  match e.ended with
  | some none => .done { s0 with ag := { s0.ag with waited := 0 } } 0#5 0#64
  | some (some c) => .trap { cause := c, addr := dwordVa va }
  | none =>
    let t := if full then
        (match loc with
          | .cell a home => s0.bumpOwner a home 0x10
          | .view pa => s0.bumpOwner pa (some (s0.job.partitionHash pa)) 0x10
          | _ => s0)
      else s0
    .waiting { t with ag := { t.ag with wait := .watch op va len, waited := 0 }
                      job := { t.job with armed := t.job.armed ++ [e] } }

/-- An atomic's effect (R165). -/
def State.amoEffect (s : State) (f : AmoOp) (d : Reg) (v e va : Word) (loc : Loc) : Effect :=
  match loc with
  | .cell a home =>
    if s.poisoned a then .trap { cause := 0x61#8, addr := dwordVa va }
    else if (f.apply (s.readWord a) v e).isSome && s.heldAt 2 loc 8 then .blocked s
    else
      let (old, t) := s.atomic (s.writer 2) f v e a home
      .done t d old
  | _ => .trap { cause := 0x2E#8, addr := va }

/-- The effect of an access whose checks have passed, at its home (R64): up to `n` of the accesses it is made of
perform. -/
def State.effect (s : State) (n : Nat) (op : MemOp) (va : Word) (loc : Loc) (len : Nat) : Effect :=
  if s.asleep loc || n = 0 then .blocked s
  else
    match op with
    | .load size sign d =>
      match s.readAt loc size with
      | none => .blocked { s with pkg := s.pkg.askHost loc false }
      | some (.error c, _) => .trap (loadTrap c va)
      | some (.ok x, t) => .done t d (landed size sign x)
    | .store size v =>
      if s.heldAt 0 loc size then .blocked s
      else
        match s.writeAt (s.writer 0) loc size v.toNat with
        | none => .blocked { s with pkg := s.pkg.askHost loc true }
        | some (.error c) => .trap (if c = 0x2F#8 then { cause := c, subr := 2, addr := va } else { cause := c, addr := va })
        | some (.ok t) => .done t 0#5 0#64
    | .fe f d v =>
      match loc with
      | .cell a home =>
        if (f == .stfe || f == .stff) && s.heldAt 1 loc 8 then .blocked s else s.feEffect op f d v va a home len none
      | _ => .trap { cause := 0x26#8, addr := va }
    | .post n v =>
      match loc with
      | .cell a home => s.feEffect op .stfe 0#5 v va a home len (some (coreKey s.agId, n, s.poster))
      | _ => .trap { cause := 0x2E#8, addr := va }
    | .amo f d v e => s.amoEffect f d v e va loc
    | .watch w v => s.watchEffect op w v va loc len
    | .vload ty k d got => State.vloadFrom ty k d va loc ((activeDwords (s.k k)).drop got.length) n got s
    | .vstore ty k d put => State.vstoreTo ty k d va loc ((activeDwords (s.k k)).drop put) n put s
    | .gather b k d got =>
      match s.laneCells .load (s.laneAddrs va k b) with
      | .error e => .trap e
      | .ok cells => State.gatherFrom b k d cells (cells.drop got.length) n got s
    | .scatter b k d put =>
      match s.laneCells .store (s.laneAddrs va k b) with
      | .error e => .trap e
      | .ok cells => State.scatterTo b k d (cells.drop put) n put s
    | .stamp seq =>
      match s.readAt loc 8 with
      | none => .blocked { s with pkg := s.pkg.askHost loc false }
      | some (.error c, _) => .trap (loadTrap c va)
      | some (.ok x, t) => if x % 2 ^ 40 = seq then .done t 0#5 0#64 else .trap { cause := 0x41#8, addr := va }

/-- Form and size of an access (R157, R201). -/
def MemOp.form : MemOp → Form
  | .load .. | .vload .. | .gather .. | .stamp _ => .load
  | .store .. | .vstore .. | .scatter .. => .store
  | .fe .ldff _ _ => .ldff
  | .fe .fetst _ _ => .fetst
  | .fe .ldfe _ _ => .ldfe
  | .fe .. | .post .. => .stfe
  | .amo .. => .atomic
  | .watch .. => .mwait
def MemOp.size : MemOp → Nat
  | .load n _ _ => n
  | .store n _ => n
  | .vload .. | .vstore .. => 64
  | _ => 8

/-- Bits of the watch filter (R365). -/
def filterHit (p : Pkg) (core : Nat) (va : Word) : Bool :=
  let g := field va.toNat 6 51
  [g, g / 2 ^ 3, g / 2 ^ 7].all (fun x =>
    let b := foldBits 12 5 x
    field (p.reg (core + 0x600 + 8 * (b / 64))).toNat (b % 64) 1 = 1)

/-- The watch test of a data address (R366): whether it hits, and the state with PASS cleared. -/
def State.watchpoint (s : State) (va : Word) : Bool × State :=
  if isMasterId s.agId then (false, s)
  else
    let core := obsBase (s.job.pdie (vdieOf s.agId)) + 0x1000 * coreOf s.agId
    let ctl := (s.pkg.reg (s.dbgctl s.agId)).toNat
    if field (s.pkg.reg (core + 8)).toNat 63 1 = 0 || field ctl 60 1 = 0 then (false, s)
    else if field ctl 59 1 = 1 then
      (false, { s with pkg := s.pkg.setBits (s.dbgctl s.agId) 0x0800_0000_0000_0000#64 0#64 })
    else (filterHit s.pkg core va, s)

/-- What the agent in focus does with an effect at issue. -/
def State.finish (s : State) (op : MemOp) (va : Word) (loc : Loc) (len : Nat) : Effect → State
  | .done t d v => (t.setG d v).advance len
  | .trap t => s.raise t
  | .limit u t => u.raise t
  | .blocked t => (t.callFor loc).setWait (.request op va loc len t.pkg.cycle)
  | .partly t rest => t.setWait (.request rest va loc len t.pkg.cycle)
  | .waiting t => t
  | .again t => t

/-- Streaming accesses to any of some pieces perform, as far as they can; whether none of them is left, nor one of an ended unit of
the position (R66 exception 1). -/
def State.clearWay (s : State) (pieces : List (Loc × Nat)) : Bool × State :=
  let p (x : Streaming) : Bool := pieces.any (fun y => x.touches y.1 y.2)
  let t := s.settle p s.ag.nb.length
  ((t.firstStreaming p).isNone && !pieces.any (fun y => t.looseAt y.1 y.2), t)

/-- The pieces an access is made of: a `vld` or `vst` reads or writes the dwords that hold an active byte (R201). -/
def State.pieces (s : State) (op : MemOp) (loc : Loc) (size : Nat) : List (Loc × Nat) :=
  match op with
  | .vload _ k _ _ | .vstore _ k _ _ => (activeDwords (s.k k)).map (fun i => (loc.plus (8 * i), 8))
  | _ => [(loc, size)]

/-- How many of the accesses of an instruction perform at its issue (R64): all, unless the schedule says otherwise. A `psm`
to a dword outside a local store goes through the merge stages of the network first (R166). -/
def State.atIssue (s : State) (op : MemOp) (loc : Loc) : Nat :=
  match op, loc with
  | .amo .psm _ _ _, .cell a _ => if isLocal a then s.share.getD 16 else 0
  | _, _ => s.share.getD 16

/-- An instruction gives its turn up in a class of lost turns: it has not issued, and PASS stays as it was (R366). -/
def State.yieldTurn (s0 s : State) (cls : Nat) : State :=
  { s.setWait (.again cls) with pkg := s.pkg.setReg (s0.dbgctl s0.agId) (s0.pkg.reg (s0.dbgctl s0.agId)) }

/-- The checks of R51 on a data access of the agent in focus, the streaming accesses it must follow (R66 exception 1),
and its effect. An access that waits for one that cannot perform yet loses its turn, not ready on memory (R161): `s0` is the
state before the watch test. -/
def State.perform (s0 s : State) (op : MemOp) (va : Word) (len : Nat) : State :=
  match s.check s.ag.priv op.form va op.size with
  | .error t => s.raise t
  | .ok (s1, loc) =>
    match s1.clearWay (s1.pieces op loc op.size) with
    | (false, s2) => s0.yieldTurn s2 1
    | (true, s2) => s2.finish op va loc len (s2.effect (s2.atIssue op loc) op va loc len)

/-- A data access of the agent in focus: the watch test (R366), then the checks and the effect. -/
def State.access (s : State) (op : MemOp) (va : Word) (len : Nat) : State :=
  let (hit, t) := s.watchpoint va
  if hit then t.raise { cause := 0xA2#8, addr := va } else s.perform t op va len

end Sys2Proof.Machine
end

