-- ==== Sys2Proof/Machine/Operands.lean ====
section
/-! DEFINITION. Operand forms: immediates and targets (05_encoding_registers_assembly.md R124), effective addresses
(07_memory_sync_swarm_instructions.md R158, R160), and how a result is written. -/

namespace Sys2Proof.Machine

/-- A signed immediate of `n` bits. -/
def imm15 (i : BitVec 15) : Word := i.signExtend 64
def imm5 (i : BitVec 5) : Word := i.signExtend 64

/-- Targets: an offset in parcels from the pc (R124). -/
def State.target15 (s : State) (off : BitVec 15) : Word := s.ag.pc + off.signExtend 64 * 2#64
def State.target20 (s : State) (off : BitVec 20) : Word := s.ag.pc + off.signExtend 64 * 2#64
def State.target7 (s : State) (off : BitVec 7) : Word := s.ag.pc + off.signExtend 64 * 2#64
def State.target10 (s : State) (off : BitVec 10) : Word := s.ag.pc + off.signExtend 64 * 2#64

/-- Address ga + imm (R158). -/
def State.eaImm (s : State) (a : Reg) (i : BitVec 15) : Word := s.g a + imm15 i

/-- Address ga + gb + off6 * 8 (R160, R163). -/
def State.eaIdx (s : State) (a b : Reg) (off : BitVec 6) : Word := s.g a + s.g b + BitVec.ofNat 64 (off.toNat * 8)

/-- Address of the compact forms: gb' + off4 * 8 (R128). -/
def State.eaC (s : State) (b : Reg) (off : BitVec 4) : Word := s.g b + BitVec.ofNat 64 (off.toNat * 8)

/-- The register a 3-bit compact field names (R128). -/
def creg (r : BitVec 3) : Reg := BitVec.ofNat 5 (24 + r.toNat)

/-- A result of a 4-byte instruction: written, and the pc advanced. -/
def State.result (s : State) (d : Reg) (v : Word) : State := (s.setG d v).advance 4

/-- The same for a compact form. -/
def State.result2 (s : State) (d : Reg) (v : Word) : State := (s.setG d v).advance 2

/-- A floating-point result with its flags (R85). -/
def State.fpResult (s : State) (d : Reg) (r : Word × Word) : State := ((s.setG d r.1).orFlags r.2).advance 4

/-- A long-latency result (R145): due at issue + L on a barrel core, at once on a master. -/
def State.longResult (s : State) (latency : Nat) (d : Reg) (r : Word × Word) : State :=
  if s.ag.role = .master then s.fpResult d r
  else (s.setWait (.long (s.pkg.cycle + latency) (.gpr d r.1 r.2))).advance 4

/-- A conditional branch (R143) of `n` bytes. -/
def State.branch (s : State) (n : Nat) (taken : Bool) (target : Word) : State :=
  if taken then s.setPc target else s.advance n

/-- `jal` of `n` bytes: links to the instruction after it (R144). -/
def State.jumpLink (s : State) (n : Nat) (d : Reg) (target : Word) : State :=
  (s.setG d (s.ag.pc + BitVec.ofNat 64 n)).setPc target

/-- `jalr` (R144): an odd target raises "pc misalignment" and changes no register. -/
def State.jumpReg (s : State) (n : Nat) (d : Reg) (target : Word) : State :=
  if target.toNat % 2 = 1 then s.raiseCause 0x0B#8 else s.jumpLink n d target

end Sys2Proof.Machine
end

