-- ==== Sys2Proof/Machine/Access.lean ====
section
/-! DEFINITION. Loads, stores, streaming accesses, full/empty operations and atomics
(07_memory_sync_swarm_instructions.md R157-R166). -/

namespace Sys2Proof.Machine

/-- Ordinary loads (R158). -/
def execLdb (d a : Reg) (i : BitVec 15) (s : State) : Out := .next (s.access (.load 1 true d) (s.eaImm a i) 4)
def execLdbu (d a : Reg) (i : BitVec 15) (s : State) : Out := .next (s.access (.load 1 false d) (s.eaImm a i) 4)
def execLdh (d a : Reg) (i : BitVec 15) (s : State) : Out := .next (s.access (.load 2 true d) (s.eaImm a i) 4)
def execLdhu (d a : Reg) (i : BitVec 15) (s : State) : Out := .next (s.access (.load 2 false d) (s.eaImm a i) 4)
def execLdw (d a : Reg) (i : BitVec 15) (s : State) : Out := .next (s.access (.load 4 true d) (s.eaImm a i) 4)
def execLdwu (d a : Reg) (i : BitVec 15) (s : State) : Out := .next (s.access (.load 4 false d) (s.eaImm a i) 4)
def execLdd (d a : Reg) (i : BitVec 15) (s : State) : Out := .next (s.access (.load 8 false d) (s.eaImm a i) 4)

/-- Ordinary stores (R158). -/
def execStb (r a : Reg) (i : BitVec 15) (s : State) : Out := .next (s.access (.store 1 (s.g r)) (s.eaImm a i) 4)
def execSth (r a : Reg) (i : BitVec 15) (s : State) : Out := .next (s.access (.store 2 (s.g r)) (s.eaImm a i) 4)
def execStw (r a : Reg) (i : BitVec 15) (s : State) : Out := .next (s.access (.store 4 (s.g r)) (s.eaImm a i) 4)
def execStd (r a : Reg) (i : BitVec 15) (s : State) : Out := .next (s.access (.store 8 (s.g r)) (s.eaImm a i) 4)

/-- The compact load and store (R128). -/
def execCLdd (d b : BitVec 3) (off : BitVec 4) (s : State) : Out :=
  .next (s.access (.load 8 false (creg d)) (s.eaC (creg b) off) 2)
def execCStd (r b : BitVec 3) (off : BitVec 4) (s : State) : Out :=
  .next (s.access (.store 8 (s.g (creg r))) (s.eaC (creg b) off) 2)

/-- A streaming access issued (R161): the watch test, every check of R51, then counted. With 16 counted the turn is
forfeited, not ready on memory. -/
def State.stream (s : State) (isStore : Bool) (size : Nat) (d : Reg) (va : Word) : State :=
  if 16 ≤ s.ag.nb.length then s.setWait (.again 1)
  else
    let (hit, s1) := s.watchpoint va
    if hit then s1.raise { cause := 0xA2#8, addr := va }
    else
      match s1.check s1.ag.priv (if isStore then .nbStore else .nbLoad) va size with
      | .error t => s1.raise t
      | .ok (s2, loc) =>
        let x : Streaming :=
          { by_ := s2.writer 0, isStore := isStore, size := size, va := va, loc := loc, dest := d, data := s.g d, since := s.pkg.cycle, performed := false
            failed := none }
        ({ s2 with ag := { s2.ag with nb := s2.ag.nb ++ [x] } }).advance 4

/-- Streaming loads and stores (R160). -/
def execLdwNb (d a b : Reg) (off : BitVec 6) (s : State) : Out := .next (s.stream false 4 d (s.eaIdx a b off))
def execLddNb (d a b : Reg) (off : BitVec 6) (s : State) : Out := .next (s.stream false 8 d (s.eaIdx a b off))
def execStwNb (d a b : Reg) (off : BitVec 6) (s : State) : Out := .next (s.stream true 4 d (s.eaIdx a b off))
def execStdNb (d a b : Reg) (off : BitVec 6) (s : State) : Out := .next (s.stream true 8 d (s.eaIdx a b off))

/-- Full/empty operations (R163). -/
def execLdfe (d a b : Reg) (off : BitVec 6) (s : State) : Out := .next (s.access (.fe .ldfe d 0#64) (s.eaIdx a b off) 4)
def execLdff (d a b : Reg) (off : BitVec 6) (s : State) : Out := .next (s.access (.fe .ldff d 0#64) (s.eaIdx a b off) 4)
def execStfe (d a b : Reg) (off : BitVec 6) (s : State) : Out :=
  .next (s.access (.fe .stfe 0#5 (s.g d)) (s.eaIdx a b off) 4)
def execStff (d a b : Reg) (off : BitVec 6) (s : State) : Out :=
  .next (s.access (.fe .stff 0#5 (s.g d)) (s.eaIdx a b off) 4)
def execFeclr (a b : Reg) (off : BitVec 6) (s : State) : Out := .next (s.access (.fe .feclr 0#5 0#64) (s.eaIdx a b off) 4)
def execFeset (a b : Reg) (off : BitVec 6) (s : State) : Out := .next (s.access (.fe .feset 0#5 0#64) (s.eaIdx a b off) 4)
def execFetst (d a b : Reg) (off : BitVec 6) (s : State) : Out :=
  .next (s.access (.fe .fetst d 0#64) (s.eaIdx a b off) 4)

/-- Atomics (R165, R166). -/
def execPsm (d a b : Reg) (s : State) : Out := .next (s.access (.amo .psm d (s.g b) (s.g d)) (s.g a) 4)
def execAmoadd (d a b : Reg) (s : State) : Out := .next (s.access (.amo .add d (s.g b) (s.g d)) (s.g a) 4)
def execAmoswap (d a b : Reg) (s : State) : Out := .next (s.access (.amo .swap d (s.g b) (s.g d)) (s.g a) 4)
def execAmocas (d a b : Reg) (s : State) : Out := .next (s.access (.amo .cas d (s.g b) (s.g d)) (s.g a) 4)
def execAmomin (d a b : Reg) (s : State) : Out := .next (s.access (.amo .min d (s.g b) (s.g d)) (s.g a) 4)
def execAmomax (d a b : Reg) (s : State) : Out := .next (s.access (.amo .max d (s.g b) (s.g d)) (s.g a) 4)
def execAmominu (d a b : Reg) (s : State) : Out := .next (s.access (.amo .minu d (s.g b) (s.g d)) (s.g a) 4)
def execAmomaxu (d a b : Reg) (s : State) : Out := .next (s.access (.amo .maxu d (s.g b) (s.g d)) (s.g a) 4)
def execAmoand (d a b : Reg) (s : State) : Out := .next (s.access (.amo .and d (s.g b) (s.g d)) (s.g a) 4)
def execAmoor (d a b : Reg) (s : State) : Out := .next (s.access (.amo .or d (s.g b) (s.g d)) (s.g a) 4)
def execAmoxor (d a b : Reg) (s : State) : Out := .next (s.access (.amo .xor d (s.g b) (s.g d)) (s.g a) 4)
def execAmofadd (d a b : Reg) (s : State) : Out := .next (s.access (.amo .fadd d (s.g b) (s.g d)) (s.g a) 4)

end Sys2Proof.Machine
end

