-- ==== Sys2Proof/Machine/Integer.lean ====
section
/-! DEFINITION. Integer, bit-field and constant instructions (06_scalar_instructions.md R135-R142). -/

namespace Sys2Proof.Machine

/-- Shift amount of the register shifts: gb[5:0] (R135). -/
def shamt (x : Word) : Nat := x.toNat % 64

/-- Signed comparison. -/
def sltW (a b : Word) : Bool := a.toInt < b.toInt

/-- Register operations (R135). -/
def execAdd (d a b : Reg) (s : State) : Out := .next (s.result d (s.g a + s.g b))
def execSub (d a b : Reg) (s : State) : Out := .next (s.result d (s.g a - s.g b))
def execAnd (d a b : Reg) (s : State) : Out := .next (s.result d (s.g a &&& s.g b))
def execOr (d a b : Reg) (s : State) : Out := .next (s.result d (s.g a ||| s.g b))
def execXor (d a b : Reg) (s : State) : Out := .next (s.result d (s.g a ^^^ s.g b))
def execAndn (d a b : Reg) (s : State) : Out := .next (s.result d (s.g a &&& ~~~s.g b))
def execOrn (d a b : Reg) (s : State) : Out := .next (s.result d (s.g a ||| ~~~s.g b))
def execSll (d a b : Reg) (s : State) : Out := .next (s.result d (s.g a <<< shamt (s.g b)))
def execSrl (d a b : Reg) (s : State) : Out := .next (s.result d (s.g a >>> shamt (s.g b)))
def execSra (d a b : Reg) (s : State) : Out := .next (s.result d ((s.g a).sshiftRight (shamt (s.g b))))
def execRol (d a b : Reg) (s : State) : Out := .next (s.result d ((s.g a).rotateLeft (shamt (s.g b))))
def execRor (d a b : Reg) (s : State) : Out := .next (s.result d ((s.g a).rotateRight (shamt (s.g b))))
def execSlt (d a b : Reg) (s : State) : Out := .next (s.result d (ofBool (sltW (s.g a) (s.g b))))
def execSltu (d a b : Reg) (s : State) : Out := .next (s.result d (ofBool ((s.g a).toNat < (s.g b).toNat)))
def execMin (d a b : Reg) (s : State) : Out := .next (s.result d (if sltW (s.g b) (s.g a) then s.g b else s.g a))
def execMax (d a b : Reg) (s : State) : Out := .next (s.result d (if sltW (s.g a) (s.g b) then s.g b else s.g a))
def execMinu (d a b : Reg) (s : State) : Out :=
  .next (s.result d (if (s.g b).toNat < (s.g a).toNat then s.g b else s.g a))
def execMaxu (d a b : Reg) (s : State) : Out :=
  .next (s.result d (if (s.g a).toNat < (s.g b).toNat then s.g b else s.g a))
def execSel (d a b : Reg) (s : State) : Out := .next (s.result d (if s.g d = 0#64 then s.g b else s.g a))

/-- Products (R136): the exact product, low or high half. -/
def mulLow (a b : Word) : Word := a * b
def mulHigh (a b : Int) : Word := BitVec.ofInt 64 (a * b / 2 ^ 64)

/-- Quotients and remainders (R136). -/
def divW (a b : Word) : Word := if b = 0#64 then 0xFFFF_FFFF_FFFF_FFFF#64 else BitVec.ofInt 64 (a.toInt.tdiv b.toInt)
def divuW (a b : Word) : Word := if b = 0#64 then 0xFFFF_FFFF_FFFF_FFFF#64 else BitVec.ofNat 64 (a.toNat / b.toNat)
def remW (a b : Word) : Word := if b = 0#64 then a else BitVec.ofInt 64 (a.toInt.tmod b.toInt)
def remuW (a b : Word) : Word := if b = 0#64 then a else BitVec.ofNat 64 (a.toNat % b.toNat)

/-- Multiply and divide (R136, R145). -/
def execMul (d a b : Reg) (s : State) : Out := .next (s.result d (mulLow (s.g a) (s.g b)))
def execMulxs (d a b : Reg) (s : State) : Out := .next (s.result d (mulHigh (s.g a).toInt (s.g b).toInt))
def execMulxu (d a b : Reg) (s : State) : Out := .next (s.result d (mulHigh (s.g a).toNat (s.g b).toNat))
def execMulxm (d a b : Reg) (s : State) : Out := .next (s.result d (mulHigh (s.g a).toInt (s.g b).toNat))
def execDiv (d a b : Reg) (s : State) : Out := .next (s.longResult 38 d (divW (s.g a) (s.g b), 0#64))
def execDivu (d a b : Reg) (s : State) : Out := .next (s.longResult 38 d (divuW (s.g a) (s.g b), 0#64))
def execRem (d a b : Reg) (s : State) : Out := .next (s.longResult 38 d (remW (s.g a) (s.g b), 0#64))
def execRemu (d a b : Reg) (s : State) : Out := .next (s.longResult 38 d (remuW (s.g a) (s.g b), 0#64))

/-- Counts of bits (R137). -/
def clzW (x : Word) : Word := BitVec.ofNat 64 (64 - bitLength x.toNat)
def ctzW (x : Word) : Word := BitVec.ofNat 64 (((List.range 64).find? (fun i => x.getLsbD i)).getD 64)
def popcW (x : Word) : Word := BitVec.ofNat 64 ((List.range 64).filter (fun i => x.getLsbD i)).length

/-- Bytes reversed (R137). -/
def bswapW (x : Word) : Word := BitVec.ofNat 64 (natOfBytes (bytesOfNat 8 x.toNat).reverse)

/-- SignExtend and ZeroExtend of the low `n` bits (R89). -/
def signExt (x n : Nat) : Word := BitVec.ofInt 64 (sx x n)
def zeroExt (x n : Nat) : Word := BitVec.ofNat 64 (x % 2 ^ n)

/-- Single-operand operations (R137). -/
def execClz (d a : Reg) (s : State) : Out := .next (s.result d (clzW (s.g a)))
def execCtz (d a : Reg) (s : State) : Out := .next (s.result d (ctzW (s.g a)))
def execPopc (d a : Reg) (s : State) : Out := .next (s.result d (popcW (s.g a)))
def execBswap (d a : Reg) (s : State) : Out := .next (s.result d (bswapW (s.g a)))
def execSextb (d a : Reg) (s : State) : Out := .next (s.result d (signExt (s.g a).toNat 8))
def execSexth (d a : Reg) (s : State) : Out := .next (s.result d (signExt (s.g a).toNat 16))
def execSextw (d a : Reg) (s : State) : Out := .next (s.result d (signExt (s.g a).toNat 32))
def execZextb (d a : Reg) (s : State) : Out := .next (s.result d (zeroExt (s.g a).toNat 8))
def execZexth (d a : Reg) (s : State) : Out := .next (s.result d (zeroExt (s.g a).toNat 16))
def execZextw (d a : Reg) (s : State) : Out := .next (s.result d (zeroExt (s.g a).toNat 32))

/-- A field of `len` bits at `lsb` replaced (R138). -/
def insertField (old x : Word) (lsb len : Nat) : Word :=
  let mask : Word := BitVec.ofNat 64 ((2 ^ len - 1) * 2 ^ lsb)
  (old &&& ~~~mask) ||| ((x <<< lsb) &&& mask)

/-- Bit fields (R138). -/
def execBfx (d a : Reg) (lsb lenm1 : BitVec 6) (s : State) : Out :=
  .next (s.result d (signExt ((s.g a).toNat / 2 ^ lsb.toNat) (lenm1.toNat + 1)))
def execBfxu (d a : Reg) (lsb lenm1 : BitVec 6) (s : State) : Out :=
  .next (s.result d (zeroExt ((s.g a).toNat / 2 ^ lsb.toNat) (lenm1.toNat + 1)))
def execBfi (d a : Reg) (lsb lenm1 : BitVec 6) (s : State) : Out :=
  .next (s.result d (insertField (s.g d) (s.g a) lsb.toNat (lenm1.toNat + 1)))

/-- Immediate operations (R139). -/
def execAddi (d a : Reg) (i : BitVec 15) (s : State) : Out := .next (s.result d (s.g a + imm15 i))
def execAndi (d a : Reg) (i : BitVec 15) (s : State) : Out := .next (s.result d (s.g a &&& imm15 i))
def execOri (d a : Reg) (i : BitVec 15) (s : State) : Out := .next (s.result d (s.g a ||| imm15 i))
def execXori (d a : Reg) (i : BitVec 15) (s : State) : Out := .next (s.result d (s.g a ^^^ imm15 i))
def execSlti (d a : Reg) (i : BitVec 15) (s : State) : Out := .next (s.result d (ofBool (sltW (s.g a) (imm15 i))))
def execSltiu (d a : Reg) (i : BitVec 15) (s : State) : Out :=
  .next (s.result d (ofBool ((s.g a).toNat < (imm15 i).toNat)))

/-- Immediate shifts (R140). -/
def execSlli (d a : Reg) (sh : BitVec 6) (s : State) : Out := .next (s.result d (s.g a <<< sh.toNat))
def execSrli (d a : Reg) (sh : BitVec 6) (s : State) : Out := .next (s.result d (s.g a >>> sh.toNat))
def execSrai (d a : Reg) (sh : BitVec 6) (s : State) : Out := .next (s.result d ((s.g a).sshiftRight sh.toNat))

/-- Constants and addresses (R141). -/
def execLui (d : Reg) (i : BitVec 20) (s : State) : Out := .next (s.result d (i.signExtend 64 <<< 12))
def execLpc (d : Reg) (i : BitVec 20) (s : State) : Out := .next (s.result d (s.target20 i))

/-- The xe registers (R142). -/
def execXset (n : VReg) (a : Reg) (s : State) : Out := .next ((s.setXe n (s.g a)).advance 4)
def execXget (d : Reg) (n : VReg) (s : State) : Out := .next (s.result d (s.xe n))
def execXli (n : VReg) (c : BitVec 2) (i : BitVec 16) (s : State) : Out :=
  .next ((s.setXe n (insertField (s.xe n) (i.zeroExtend 64) (16 * c.toNat) 16)).advance 4)

end Sys2Proof.Machine
end

