-- ==== Sys2Proof/Machine/Control.lean ====
section
/-! DEFINITION. Branches and jumps (06_scalar_instructions.md R143, R144). -/

namespace Sys2Proof.Machine

/-- Branches (R143). -/
def execBeq (a b : Reg) (off : BitVec 15) (s : State) : Out := .next (s.branch 4 (s.g a = s.g b) (s.target15 off))
def execBne (a b : Reg) (off : BitVec 15) (s : State) : Out := .next (s.branch 4 (s.g a ≠ s.g b) (s.target15 off))
def execBlt (a b : Reg) (off : BitVec 15) (s : State) : Out := .next (s.branch 4 (sltW (s.g a) (s.g b)) (s.target15 off))
def execBge (a b : Reg) (off : BitVec 15) (s : State) : Out := .next (s.branch 4 (!sltW (s.g a) (s.g b)) (s.target15 off))
def execBltu (a b : Reg) (off : BitVec 15) (s : State) : Out :=
  .next (s.branch 4 ((s.g a).toNat < (s.g b).toNat) (s.target15 off))
def execBgeu (a b : Reg) (off : BitVec 15) (s : State) : Out :=
  .next (s.branch 4 ((s.g b).toNat ≤ (s.g a).toNat) (s.target15 off))

/-- Jumps (R144). -/
def execJal (d : Reg) (off : BitVec 20) (s : State) : Out := .next (s.jumpLink 4 d (s.target20 off))
def execJalr (d a : Reg) (i : BitVec 15) (s : State) : Out := .next (s.jumpReg 4 d (s.eaImm a i))

end Sys2Proof.Machine
end

