-- ==== Sys2Proof/Machine/Compact.lean ====
section
/-! DEFINITION. Compact forms that do not touch memory (05_encoding_registers_assembly.md R128): each performs its
expansion, and the pc advances by 2. -/

namespace Sys2Proof.Machine

def execCMv (d a : Reg) (s : State) : Out := .next (s.result2 d (s.g a + s.g 0#5))
def execCAdd (d a : Reg) (s : State) : Out := .next (s.result2 d (s.g d + s.g a))
def execCSub (d a : Reg) (s : State) : Out := .next (s.result2 d (s.g d - s.g a))
def execCAnd (d a : Reg) (s : State) : Out := .next (s.result2 d (s.g d &&& s.g a))
def execCOr (d a : Reg) (s : State) : Out := .next (s.result2 d (s.g d ||| s.g a))
def execCXor (d a : Reg) (s : State) : Out := .next (s.result2 d (s.g d ^^^ s.g a))
def execCAddi (d : Reg) (i : BitVec 5) (s : State) : Out := .next (s.result2 d (s.g d + imm5 i))
def execCLi (d : Reg) (i : BitVec 5) (s : State) : Out := .next (s.result2 d (s.g 0#5 + imm5 i))
def execCSlli (d : Reg) (sh : BitVec 5) (s : State) : Out := .next (s.result2 d (s.g d <<< sh.toNat))
def execCSrli (d : Reg) (sh : BitVec 5) (s : State) : Out := .next (s.result2 d (s.g d >>> sh.toNat))
def execCSrai (d : Reg) (sh : BitVec 5) (s : State) : Out := .next (s.result2 d ((s.g d).sshiftRight sh.toNat))
def execCBz (a : BitVec 3) (off : BitVec 7) (s : State) : Out :=
  .next (s.branch 2 (s.g (creg a) = s.g 0#5) (s.target7 off))
def execCBnz (a : BitVec 3) (off : BitVec 7) (s : State) : Out :=
  .next (s.branch 2 (s.g (creg a) ≠ s.g 0#5) (s.target7 off))
def execCJ (off : BitVec 10) (s : State) : Out := .next (s.jumpLink 2 0#5 (s.target10 off))
def execCJr (a : Reg) (s : State) : Out := .next (s.jumpReg 2 0#5 (s.g a))
def execCNop (s : State) : Out := .next (s.result2 0#5 (s.g 0#5))

end Sys2Proof.Machine
end

