-- ==== Sys2Proof/Machine/Engine.lean ====
section
/-! DEFINITION. Engine accesses (02_memory_and_ordering.md R64; 16_translation_host_memory.md R308;
18_reliability_fabric_power.md R345): reads and writes of a copy, tile, memory-side or collective engine under the
job's translation, and the parts every engine shares: its records in the queue, its timelines, its causes. -/

namespace Sys2Proof.Machine

/-- How an engine access ends. -/
inductive Eng (α : Type) where
  | ok (s : State) (a : α)
  /-- A class-1 engine cause, or "format-view write". -/
  | fault (t : Trap)
  /-- A poisoned or uncorrectable dword, in the state that its access, which is admitted, leaves (R306). -/
  | bad (s : State)
  /-- A host translation is missing: the engine waits at its boundary (R314). -/
  | wait (s : State)

/-- Number of a request: its KIND, handle and number (R318). -/
def requestId (kind handle number : Nat) : Nat := (kind * 2 ^ 20 + handle) * 2 ^ 64 + number

/-- Who makes an engine access: the request, the chunk of it that is in hand (R69), and its privilege. -/
structure Chunk where
  request : Nat
  chunk : Nat
  priv : Priv

/-- Whether the page an engine waits for has been refused for good (R315). -/
def Pkg.refusedAt (p : Pkg) (q : Chunk) (loc : Loc) (write : Bool) : Bool :=
  match loc with
  | .host port pasid iova =>
    p.refused.any (fun r => r.names port pasid (iova / 4096) && r.engines.contains (q.request, write)) && (p.hostCell port pasid iova write).isNone
  | _ => false

/-- The gated die that holds a local store wakes for an engine's access to it, which waits (R356). -/
def State.wakeFor (s : State) (l : Loc) : State :=
  match l with
  | .cell a _ => s.wakeDie ((a - lsBase) / 2 ^ 25)
  | _ => s

/-- An engine read of `n` bytes, little-endian. -/
def State.engRead (s : State) (q : Chunk) (va : Word) (n : Nat) : Eng Nat :=
  match s.check q.priv .engRead va n with
  | .error t => .fault t
  | .ok (t, loc) =>
    if t.pkg.refusedAt q loc false then .fault { cause := 0x3F#8, subr := 2, addr := va } else
    if t.asleep loc then .wait (t.wakeFor loc) else
    match t.readAt loc n with
    | none => .wait { t with pkg := t.pkg.askHost loc false (some q.request) }
    | some (.error c, u) => if c = 0x60#8 then .bad u else .fault { cause := 0x3F#8, subr := 2, addr := va }
    | some (.ok x, u) => .ok u x

/-- Several reads in order, stopping at the first that does not end well. -/
def State.engReads (q : Chunk) : List (Word × Nat) → State → Eng (List Nat)
  | [], s => .ok s []
  | (va, n) :: rest, s =>
    match s.engRead q va n with
    | .ok t x =>
      match State.engReads q rest t with
      | .ok u xs => .ok u (x :: xs)
      | .fault c => .fault c
      | .bad u => .bad u
      | .wait u => .wait u
    | .fault c => .fault c
    | .bad u => .bad u
    | .wait t => .wait t

/-- Addresses of `n` items of `w` bytes from an address up. -/
def items (va : Word) (w n : Nat) : List (Word × Nat) := (List.range n).map (fun i => (va + BitVec.ofNat 64 (w * i), w))

/-- Where an engine read of `n` bytes reads, its checks made: a cell or a view (R51, R55). -/
def State.engLoc (s : State) (q : Chunk) (va : Word) (n : Nat) : Eng Loc :=
  match s.check q.priv .engRead va n with
  | .error t => .fault t
  | .ok (t, .host port pasid iova) =>
    if t.pkg.portsDown.contains port || t.pkg.refusedAt q (.host port pasid iova) false then .fault { cause := 0x3F#8, subr := 2, addr := va }
    else
      match t.pkg.hostCell port pasid iova false with
      | some a => .ok t (.cell a none)
      | none => .wait { t with pkg := t.pkg.askHost (.host port pasid iova) false (some q.request) }
  | .ok (t, l) => if t.asleep l then .wait (t.wakeFor l) else .ok t l

/-- Several places of reads in order. -/
def State.engLocs (q : Chunk) : List (Word × Nat) → State → Eng (List Loc)
  | [], s => .ok s []
  | (va, n) :: rest, s =>
    match s.engLoc q va n with
    | .ok t x =>
      match State.engLocs q rest t with
      | .ok u xs => .ok u (x :: xs)
      | .fault c => .fault c
      | .bad u => .bad u
      | .wait u => .wait u
    | .fault c => .fault c
    | .bad u => .bad u
    | .wait t => .wait t

/-- What a chunk has read early of the dword a cell lies in (R69). -/
def Job.earlyRead (j : Job) (q : Chunk) (a : Nat) : Option EarlyRead :=
  j.early.find? (fun e => e.request == q.request && e.chunk == q.chunk && e.dword == a / 8)

/-- A dword at a cell as a chunk reads it, none where it is poisoned (R69). -/
def State.wordOf (s : State) (q : Chunk) (a : Nat) : Option Nat :=
  match s.job.earlyRead q a with
  | some e => if e.bad then none else some e.value
  | none => if s.poisoned a then none else some (s.readNat a 8)

/-- A located byte as a chunk reads it, none where it is poisoned: a value read early stands (R69). -/
def State.readByteOf (s : State) (q : Chunk) (l : Loc) : Option Nat × State :=
  let now : Option Nat × State :=
    match s.readAt l 1 with
    | some (.ok x, t) => (some x, t)
    | some (.error _, t) => (none, t)
    | none => (none, s)
  match l with
  | .cell a _ =>
    match s.job.earlyRead q a with
    | some e => (if e.bad then none else some (e.value / 2 ^ (8 * (a % 8)) % 256), s)
    | none => now
  | _ => now

/-- Located bytes read in order, or none where one is poisoned; view lines are filled on the way. -/
def State.readLocs (q : Chunk) : List Loc → State → Option (List Nat) × State
  | [], s => (some [], s)
  | l :: rest, s =>
    match s.readByteOf q l with
    | (some x, t) =>
      match State.readLocs q rest t with
      | (some xs, u) => (some (x :: xs), u)
      | (none, u) => (none, u)
    | (none, t) => (none, t)

/-- Bytes an engine reads: a poisoned one gives its offset in the second list. -/
def State.engBytes (s : State) (q : Chunk) (va : Word) (n : Nat) : Eng (List Nat × List Nat) :=
  match State.engLocs q (items va 1 n) s with
  | .fault t => .fault t
  | .bad u => .bad u
  | .wait t => .wait t
  | .ok t ls =>
    let r := ls.map (fun l => (t.readByteOf q l).1)
    let u := ls.foldl (fun x l => match l with | .view pa => x.fillView pa | _ => x) t
    .ok u (r.map (fun x => x.getD 0), (r.zipIdx.filter (fun x => x.1.isNone)).map (fun x => x.2))

/-- Where an engine write lands: its cell and home. -/
abbrev Spot := Nat × Option Nat

/-- The place of an engine write of `n` bytes, of a form (R64, R55). -/
def State.engSpotAs (s : State) (f : Form) (q : Chunk) (va : Word) (n : Nat) : Eng Spot :=
  match s.check q.priv f va n with
  | .error t => .fault { t with info := 1#64 }
  | .ok (t, .cell a home) => if t.asleep (.cell a home) then .wait (t.wakeFor (.cell a home)) else .ok t (a, home)
  | .ok (t, .host port pasid iova) =>
    if t.pkg.portsDown.contains port || t.pkg.refusedAt q (.host port pasid iova) true then .fault { cause := 0x3F#8, subr := 2, addr := va }
    else
      match t.pkg.hostCell port pasid iova true with
      | some a => .ok t (a, none)
      | none => .wait { t with pkg := t.pkg.askHost (.host port pasid iova) true (some q.request) }
  | .ok (_, _) => .fault (fault1 .engWrite 6 0 va)

/-- The place of a plain engine write. -/
def State.engSpot (s : State) (q : Chunk) (va : Word) (n : Nat) : Eng Spot := s.engSpotAs .engWrite q va n

/-- Several places in order. -/
def State.engSpots (q : Chunk) : List (Word × Nat) → State → Eng (List Spot)
  | [], s => .ok s []
  | (va, n) :: rest, s =>
    match s.engSpot q va n with
    | .ok t x =>
      match State.engSpots q rest t with
      | .ok u xs => .ok u (x :: xs)
      | .fault c => .fault c
      | .bad u => .bad u
      | .wait u => .wait u
    | .fault c => .fault c
    | .bad u => .bad u
    | .wait t => .wait t

/-- Writes of up to a dword at places, in order. -/
def State.putSpots (w : Writer) (n : Nat) : List (Spot × Nat) → State → State
  | [], s => s
  | (sp, v) :: rest, s => State.putSpots w n rest (s.store w sp.1 n v sp.2)

/-- A write of an engine performs. -/
def State.doWrite (s : State) (x : LateWrite) : State :=
  match x.data with
  | .bad => s.storeBad x.writer x.cell x.home
  | .bit full => (s.setFe x.cell full).bitChanged x.cell (s.feBit x.cell)
  | .bytes bs =>
    if (List.range 8).all (fun i => bs.any (fun b => b.1 == i)) then
      s.store x.writer x.cell 8 (bs.map (fun b => b.2 * 2 ^ (8 * b.1))).sum x.home
    else s.storeBytes x.writer x.cell bs x.home

/-- Whether a write of the same request to the same dword is among some that are still to perform: it performs first (R216). -/
def LateWrite.behind (x : LateWrite) (l : List LateWrite) : Bool := l.any (fun y => y.request == x.request && y.cell == x.cell)

/-- Writes of an engine's step: all of them perform with it, or only as many as the schedule lets, and the rest later (R69). Those to
one dword keep the order of their steps (R216). -/
def State.doWrites (s : State) (l : List LateWrite) : State :=
  let n := s.share.getD l.length
  let t := ((l.take n).filter (fun x => !x.behind s.job.late)).foldl State.doWrite s
  { t with job := { t.job with late := t.job.late ++ (l.take n).filter (fun x => x.behind s.job.late) ++ l.drop n } }

/-- Whether writes of a request are still to perform (R68). -/
def Job.writing (j : Job) (request : Nat) : Bool := j.late.any (fun x => x.request == request)

/-- What a request that leaves its engine read early is no longer wanted. -/
def State.forget (s : State) (request : Nat) : State :=
  { s with job := { s.job with early := s.job.early.filter (fun e => !(e.request == request)) } }

/-- Whole dwords written poisoned (R221, R237, R248). -/
def State.poisonSpots (q : Nat) (w : Writer) (ss : List Spot) (s : State) : State :=
  s.doWrites (ss.map (fun x => { request := q, writer := w, cell := x.1, home := x.2, since := s.pkg.cycle, data := .bad }))

/-- Whole dwords written at places. -/
def State.writeWords (q : Nat) (w : Writer) (xs : List (Spot × Nat)) (s : State) : State :=
  s.doWrites (xs.map (fun x =>
    { request := q, writer := w, cell := x.1.1, home := x.1.2, since := s.pkg.cycle
      data := .bytes ((unpackBits 8 8 x.2).zipIdx.map (fun b => (b.2, b.1))) }))

/-- The whole dwords that hold bytes at places. -/
def dwordSpots (ss : List Spot) : List Spot := (ss.map (fun x => (x.1 / 8 * 8, x.2))).dedup

/-- A little-endian number from bytes held as numbers. -/
def ofByteNats (l : List Nat) : Nat := packBits 8 l

/-- The write of one dword that bytes at places make up: where two lie at one place the last stands. -/
def dwordWrite (q : Nat) (w : Writer) (now : Nat) (bs : List (Spot × Nat)) (dw : Nat) : LateWrite :=
  let mine := bs.filter (fun b => b.1.1 / 8 = dw)
  { request := q, writer := w, cell := dw * 8, home := (mine.head?.map (fun b => b.1.2)).getD none, since := now
    data := .bytes ((List.range 8).filterMap (fun i =>
      (mine.filter (fun b => b.1.1 % 8 = i)).getLast?.map (fun b => (i, b.2)))) }

/-- The dword writes that bytes at places make up, in the order of the dwords' first bytes (R159). -/
def dwordWrites (q : Nat) (w : Writer) (now : Nat) (bs : List (Spot × Nat)) : List LateWrite :=
  ((bs.map (fun b => b.1.1 / 8)).dedup).map (dwordWrite q w now bs)

/-- Bytes written at places. -/
def State.putBytes (q : Nat) (w : Writer) (bs : List (Spot × Nat)) (s : State) : State := s.doWrites (dwordWrites q w s.pkg.cycle bs)

/-- One completion write of a dword with `stff` semantics, which only a home with full/empty bits admits (R55, R157), or a
plain one (R219, R237, R245). -/
def State.completionWrite (s : State) (q : Chunk) (w : Writer) (full : Bool) (va : Word) (v : Nat) : Eng Unit :=
  match s.engSpotAs (if full then .engFlag else .engWrite) q va 8 with
  | .ok t sp => .ok (if full then t.storeFull w sp.1 v sp.2 else t.store w sp.1 8 v sp.2) ()
  | .fault c => .fault c
  | .bad u => .bad u
  | .wait t => .wait t

/-- Whether an address can take a completion write (R212, R237). -/
def usable (va : Word) : Bool := canonical va && va.toNat % 8 = 0

/-- A refused host page that a request has met is met for it (R315). -/
def Pkg.metRefusal (p : Pkg) (request : Nat) (t : Trap) : Pkg :=
  let met (r : HostRequest) : HostRequest := { r with engines := r.engines.filter (fun e => e.1 ≠ request) }
  if t.cause = 0x3F#8 && t.subr = 2 then { p with refused := (p.refused.map met).filter (fun r => r.engines ≠ []) } else p

/-- The state a failed engine access leaves (R306): its walk's bits stay where its frame's checks fail. -/
def State.afterEngine (s : State) (p : Priv) (t : Trap) : State :=
  if t.cause = 0x3E#8 || t.cause = 0x63#8 then s.afterDenied p (if t.info = 0#64 then .engRead else .engWrite) t.addr else s

/-- The record of an engine request's cause (R318, R321): KIND 3 to 6, the request's handle and number. -/
def State.requestRecord (s : State) (kind : Nat) (t : Trap) (handle number : Nat) (p : Poster) : State :=
  let spawn : Word := match p.level with | .spawn id => BitVec.ofNat 64 id | _ => 0#64
  ({ s with
    job := { s.job with recorded := s.job.recorded ++ [(kind, handle, number, p.level)] }
    pkg := s.pkg.metRefusal (requestId kind handle number) t }).postRecord
    (trapRecord kind t.subr 0 0 t.cause.toNat 0#64 t.addr (BitVec.ofNat 64 handle) spawn
    (BitVec.ofNat 64 number) 0#64 s.pkg.cycle)

/-- The writer of a request's engine (R368): its posting core, slot 15. -/
def Poster.writer (p : Poster) : Writer := engineWriter (p.agent / 16)

/-- The run and node a level lies under. -/
def State.levelNode (s : State) : Level → Nat × Nat
  | .job => (0, 0)
  | .node r n => (r, n)
  | .spawn id => ((lookup id s.job.spawns).map (fun sp => (sp.run, sp.node))).getD (0, 0)

/-- The agents at work, as those that may act on a request's completion before its cause does. -/
def State.waiters (s : State) : List Waiter :=
  (s.allAgents.filter (fun x => x.2.occupied)).map (fun x =>
    { agent := x.1, uid := x.2.uid, run := x.2.run, node := x.2.node, left := 4096 })

/-- A cause a request raises on its way out of its engine (R205, R318): class 1 goes to the supervisor at once; one that enters
containment does so where the request counts, at a later instant, which the manual does not fix. The programs that meet such a cause
act on the completion first (R267, R274, R279): here it waits until every agent at work has had time for that. DESIGN CHOICE: log
entry 86. -/
def State.requestCause (s : State) (kind : Nat) (handle number : Nat) (p : Poster) : Option Trap → State
  | none => s
  | some t =>
    if t.contains then
      { s with job := { s.job with owing := s.job.owing ++ [
          { trap := t, kind := kind, handle := handle, number := number, poster := p, run := (s.levelNode p.level).1
            node := (s.levelNode p.level).2, left := false, since := s.pkg.cycle, waiters := s.waiters }] } }
    else s.requestRecord kind t handle number p

/-- Whether a request still owes a cause. -/
def Job.owes (j : Job) (kind handle number : Nat) : Bool :=
  j.owing.any (fun o => o.kind == kind && o.handle == handle && o.number == number)

/-- A request that has left its engine ceases to count, once it owes no cause (R205, R293). -/
def State.requestGone (s : State) (kind handle number : Nat) (p : Poster) : State :=
  if s.job.owes kind handle number then
    { s with job := { s.job with owing := s.job.owing.map (fun o =>
        if o.kind = kind && o.handle = handle && o.number = number then { o with left := true } else o) } }
  else (s.endRequest p.level).forget (requestId kind handle number)

/-- Whether a waiter may still act before an owed cause does: it is at work, has instructions left to issue, and does not join the
very spawn that waits for the request; after 2^20 cycles only one that comes to its next instruction by itself counts (log entry
86). -/
def State.holdsOwed (s : State) (o : Owed) (w : Waiter) : Bool :=
  let a := s.agent w.agent
  let comes := match a.wait with | .ready | .reply _ _ | .long _ _ | .sleep _ | .cpwait _ _ _ => !a.stopped | _ => false
  let joins := match o.poster.level with
    | .spawn id => a.wait = .join && ((lookup id s.job.spawns).any (fun sp => sp.root == a.spawnid.toNat))
    | _ => false
  a.occupied && !a.ending && a.uid == w.uid && a.run == w.run && a.node == w.node && w.left ≠ 0 && !joins &&
    (s.pkg.cycle < o.since + 2 ^ 20 || comes)

/-- Whether a cause that is owed comes now. -/
def State.owedComes (s : State) (o : Owed) : Bool := !o.waiters.any (s.holdsOwed o)

/-- Containment of a cause that is owed, where its request counts (R44, R205); if that spawn is gone, at the node above it. -/
def State.containOwed (s : State) (o : Owed) : State :=
  match o.poster.level with
  | .spawn id =>
    if (lookup id s.job.spawns).isSome then s.containAt o.trap (.spawn id)
    else if (s.job.node? o.run o.node).isSome then s.containNode o.trap o.run o.node else s
  | l => s.containAt o.trap l

/-- A cause that is owed enters containment. -/
def State.raiseOwed (s : State) (i : Nat) : Option State :=
  (s.job.owing[i]?).bind (fun o =>
    if s.owedComes o then
      let t := ({ s with job := { s.job with owing := s.job.owing.eraseIdx i } } : State).containOwed o
      some (if o.left then t.requestGone o.kind o.handle o.number o.poster else t)
    else none)

/-- Timeline handles (R228). -/
def listHandle (die list : Nat) : Nat := 2 ^ 14 + die * 2 ^ 10 + list
def conduitHandle (key : Nat) : Nat := 2 * 2 ^ 14 + key / 128 * 2 ^ 10 + key % 128
def queueHandle (die stack queue : Nat) : Nat := 3 * 2 ^ 14 + die * 2 ^ 10 + stack * 16 + queue

/-- An address in the job's timeline area (R284): bit 56 extended. -/
def Job.timelineVa (j : Job) (off : Nat) : Word :=
  let b := field j.tlarea.toNat 16 41 * 2 ^ 16
  BitVec.ofNat 64 ((if b / 2 ^ 56 % 2 = 1 then b + 0xFE00_0000_0000_0000 else b) + off)

/-- A timeline dword of the area written by hardware, whose page the supervisor maps readable only (R284); a page that is
not there takes no value. -/
def State.writeTimeline (s : State) (off v : Nat) : State :=
  match s.hwCell false (s.job.timelineVa off) 8 with
  | .ok (t, a, home) => t.store (engineWriter 0) a 8 v home
  | .error _ => s

/-- A stack's memory-side engine, keyed by virtual die * 2 + stack. -/
def Job.msEngine (j : Job) (key : Nat) : MsEngine :=
  (lookup key j.msEngines).getD { seqs := [], timelines := [], requests := [], lastQueue := 15, busyAt := 0 }
def State.onMs (s : State) (key : Nat) (f : MsEngine → MsEngine) : State :=
  { s with job := { s.job with msEngines := assign key { f (s.job.msEngine key) with busyAt := s.pkg.cycle } s.job.msEngines } }

/-- A communicator changed. -/
def State.onComm (s : State) (h : Nat) (f : Comm → Comm) : State :=
  { s with job := { s.job with comms := modify h f s.job.comms } }

/-- Whether an address is a record in the general local store of a core (R206, R222). -/
def ownRecordOf (key : Nat) (va : Word) : Bool :=
  inWindow va && va.toNat / 2 ^ 18 = 0x00FF_FF00_0000_0000 / 2 ^ 18 + key && va.toNat % 2 ^ 18 < 0x3_C000 &&
    va.toNat % 64 = 0

/-- The cell of a window address in the partition. -/
def State.windowCellOf (s : State) (va : Word) : Nat :=
  lsCell (s.job.pdie (field va.toNat 25 4)) (field va.toNat 18 7) (field va.toNat 0 18)

/-- The record of eight dwords at a cell. -/
def State.record8 (s : State) (cell : Nat) : List Word := s.getWords cell 8

end Sys2Proof.Machine
end

