-- ==== Sys2Proof/Machine/Sync.lean ====
section
/-! DEFINITION. Waits and the fence (07_memory_sync_swarm_instructions.md R167-R171), and the reporting of failed
streaming accesses by the instructions that wait for them (R162). -/

namespace Sys2Proof.Machine

/-- The trap of the oldest failed streaming access a test picks, taken at the instruction at pc (R162). -/
def State.report (s : State) (p : Streaming → Bool) : Option State :=
  (s.failedStreaming p).map (fun t => (s.dropFailed p).raise t)

/-- One turn of a `waitc` (R162, R168): a blocking failure reported, completion, or the wait. -/
def State.waitcTurn (s : State) (nl ns nc nt : Nat) : State :=
  match s.report (fun x => if x.isStore then ns < s.ag.nbstore else nl < s.ag.nbload) with
  | some t => t
  | none =>
    if s.ag.nbload ≤ nl && s.ag.nbstore ≤ ns && s.cpout s.ag ≤ nc && s.tkout s.ag ≤ nt then (s.setWait .ready).advance 4
    else s.setWait (.waitc nl ns nc nt)

/-- What an instruction that waits for every streaming access does at a turn (R162): a failure reported, the wait while
one is outstanding, else its own effect. -/
def State.drained (s : State) (w : Wait) (done : State → State) : State :=
  match s.report (fun _ => true) with
  | some t => t
  | none => if s.ag.nb = [] then done (s.setWait .ready) else s.setWait w

/-- One turn of a `fence` (R169). -/
def State.fenceTurn (s : State) : State := s.drained .fence (fun t => t.advance 4)

def execWaitc (nl ns nc nt : BitVec 5) (s : State) : Out := .next (s.waitcTurn nl.toNat ns.toNat nc.toNat nt.toNat)
def execFence (s : State) : Out := .next s.fenceTurn

/-- `mwait` (R170). -/
def execMwaitEq (a b : Reg) (s : State) : Out := .next (s.access (.watch .eq (s.g b)) (s.g a) 4)
def execMwaitGe (a b : Reg) (s : State) : Out := .next (s.access (.watch .ge (s.g b)) (s.g a) 4)
def execMwaitNe (a b : Reg) (s : State) : Out := .next (s.access (.watch .ne (s.g b)) (s.g a) 4)

/-- `sleep` (R171): a target already reached lets the next instruction issue at the next turn. -/
def execSleep (a : Reg) (s : State) : Out :=
  .next (if (s.g a).toNat ≤ s.pkg.cycle then s.advance 4 else s.setWait (.sleep (s.g a)))

end Sys2Proof.Machine
end

