-- ==== Sys2Proof/Machine/EnginePost.lean ====
section
/-! DEFINITION. Posting to the engines (09_engine_instructions_records.md R204-R210, R222, R232, R234;
10_collectives_accord.md R241). -/

namespace Sys2Proof.Machine

/-- Whether an address is a record in the general local store of the agent's own core (R206, R222). -/
def ownRecord (agent : Nat) (va : Word) : Bool := ownRecordOf (coreKey agent) va

/-- Address of mailbox n and of reply word n of the agent's core (R53). -/
def State.mailboxVa (s : State) (n : Nat) : Word := windowVa (coreKey s.agId) (0x3_E000 + 8 * n)
def State.replyVa (s : State) (n : Nat) : Word := windowVa (coreKey s.agId) (0x3_E020 + 8 * n)

/-- `cppost` (R206): `stfe` of the record's address to the mailbox. -/
def execCppost (n : BitVec 2) (a : Reg) (s : State) : Out :=
  .next (
    if s.ag.role = .master then s.raiseCause 0x0C#8
    else if !ownRecord s.agId (s.g a) then s.raise { cause := 0x80#8, addr := s.g a }
    else s.access (.post n.toNat (s.g a)) (s.mailboxVa n.toNat) 4)

/-- `cpprom` (R209): `ldfe` of the reply word. -/
def execCpprom (d : Reg) (n : BitVec 2) (s : State) : Out :=
  .next (
    if s.ag.role = .master then s.raiseCause 0x0C#8
    else s.access (.fe .ldfe d 0#64) (s.replyVa n.toNat) 4)

/-- `cpwait` (R210): the checks, then the stamp read at the promise. -/
def execCpwait (p r q : Reg) (s : State) : Out :=
  let op : MemOp := .stamp ((s.g q).toNat % 2 ^ 40)
  .next (
    if s.ag.role = .master then s.raiseCause 0x0C#8
    else if (s.g p).toNat ≤ s.pkg.cycle then s.access op (s.g r) 4
    else
      let (hit, t) := s.watchpoint (s.g r)
      if hit then t.raise { cause := 0xA2#8, addr := s.g r }
      else
        match t.check t.ag.priv .load (s.g r) 8 with
        | .error c => t.raise c
        | .ok (u, _) => u.setWait (.cpwait op (s.g r) (s.g p)))

/-- Tasks a die's scheduler holds at most (R222). -/
def taskRoom : Nat := 1024

/-- STATUS of a task record (R227), written by the scheduler. -/
def State.writeStatus (s : State) (t : Task) : State :=
  let v := packFields [(t.state, 60), (t.cause, 40), (t.blocks, 16)]
  s.store t.poster.writer (t.recAddr + 56) 8 v.toNat none

/-- `tkpost` (R222). While the scheduler is full, or its die wakes (R356), it waits, not ready on message. The manual names no address
for a bad task list: the record's is recorded. DESIGN CHOICE: log entry 106. -/
def execTkpost (t l : Reg) (s : State) : Out :=
  .next (
    if s.ag.role = .master then s.raiseCause 0x0C#8
    else
      let gt := s.g t
      let list := (s.g l).toNat % 64
      let die := (s.g l).toNat / 64
      if !ownRecord s.agId gt then s.raise { cause := 0x83#8, addr := gt }
      else if s.job.dies_n ≤ die then s.raise { cause := 0x84#8, addr := gt }
      else if s.pkg.gated.contains (s.job.pdie die) then (s.wakeDie (s.job.pdie die)).setWait (.again 2)
      else if taskRoom ≤ (s.job.tile die).tasks.length then s.setWait (.again 2)
      else
        let ticket := (lookup list (s.job.tile die).tickets).getD 1
        let cell := s.windowCellOf gt
        let task : Task :=
          { list := list, ticket := ticket, recAddr := cell, record := s.record8 cell, poster := s.poster, state := 1
            cause := 0, blocks := 0, row := 0, header := [], loaded := [], trap := none, dispatched := false, hold := .going }
        let u := (s.onTile die (fun x => { x with
          tickets := assign list (ticket + 1) x.tickets, tasks := x.tasks ++ [task] })).addRequest s.poster.level
        (u.writeStatus task).result t (BitVec.ofNat 64 ticket))

/-- An accumulator's tile state (R99). -/
def Acc.dword0 (a : Acc) : Word := packFields [(a.carry, 0), (a.incoming, 32)]
def Acc.dword1 (a : Acc) : Word :=
  packFields [(if a.sat then 1 else 0, 1), (if a.rovf then 1 else 0, 2), (if a.aln then 1 else 0, 3),
    (if a.rows.any (fun r => r.nan) then 1 else 0, 4), (a.gc, 32), (a.gr, 34), (a.nextKey, 48)]

/-- What `tkstat` returns (R232). -/
def Job.tkstat (j : Job) (a sel : Nat) : Option Word :=
  let n := j.dies_n
  let acc := lookup (a % 256) (j.tile (a / 256)).accs
  match sel with
  | 0 => if a < 256 * n then some ((acc.map Acc.dword0).getD 0#64) else none
  | 1 => if a < 256 * n then some ((acc.map Acc.dword1).getD 0#64) else none
  | 2 => if a < 64 * n then some (BitVec.ofNat 64 ((lookup (a % 64) (j.tile (a / 64)).timelines).getD 0)) else none
  | 3 => if a < 64 * n then some (j.timelineVa (8 * a)) else none
  | 4 => if a < 32 * n then some (j.timelineVa (0x2000 + 8 * a)) else none
  | _ => none

/-- `tkstat` (R232). -/
def execTkstat (d a b : Reg) (s : State) : Out :=
  .next (
    match s.job.tkstat (s.g a).toNat (s.g b).toNat with
    | some v => s.result d v
    | none => s.raise { cause := 0x8C#8, addr := 0#64 })

/-- How reading a 64-byte block by eight SC loads ends (R234, R241). -/
inductive BlockRead where
  | ok (s : State) (ws : List Word)
  /-- A cause, in the state that what performed before it leaves. -/
  | trap (s : State) (t : Trap)
  /-- A host translation is missing, a die sleeps, or a streaming access must perform first: reissued, not ready on memory. -/
  | again (s : State)

/-- Eight dword loads of a located block in ascending order. -/
def State.blockLoads (va : Word) (loc : Loc) : Nat → Nat → State → BlockRead
  | 0, _, s => .ok s []
  | n + 1, i, s =>
    match s.readAt (loc.plus (8 * i)) 8 with
    | none => .again (({ s with pkg := s.pkg.askHost (loc.plus (8 * i)) false } : State).setWait
        (.page (va + BitVec.ofNat 64 (8 * i)) (loc.plus (8 * i)) false))
    | some (.error c, t) => .trap t (loadTrap c (va + BitVec.ofNat 64 (8 * i)))
    | some (.ok x, t) =>
      match State.blockLoads va loc n (i + 1) t with
      | .ok u ws => .ok u (BitVec.ofNat 64 x :: ws)
      | r => r

/-- A block at an address that must be aligned to 64, its granule tested against the watch filter first (R366). -/
def State.readBlock (s0 : State) (va : Word) : BlockRead :=
  let (hit, s) := s0.watchpoint va
  if hit then .trap s { cause := 0xA2#8, addr := va }
  else
    match s.check s.ag.priv .load va (if va.toNat % 64 = 0 && !inWindow va then 8 else 64) with
    | .error t => .trap s t
    | .ok (t, loc) =>
      match t.clearWay [(loc, 64)] with
      | (false, u) => .again (s0.yieldTurn u 1)
      | (true, u) =>
        if u.asleep loc then .again (s0.yieldTurn (u.callFor loc) 1)
        else
          match State.blockLoads va loc 8 0 u with
          | .again w => .again ((s0.yieldTurn w 1).setWait w.ag.wait)
          | r => r

/-- Requests a memory-side queue holds at most (R234). -/
def queueRoom : Nat := 32

/-- The post of a parameter block to the queue it names (R234), while that has room. -/
def State.postMemSide (s : State) (d : Reg) (ws : List Word) (key : Nat) : Option State :=
  let q := field (dw ws 0) 32 4
  let m := s.job.msEngine key
  if queueRoom ≤ (m.requests.filter (fun r => r.queue = q)).length then none
  else
    let seq := (lookup q m.seqs).getD 1
    let r : MsRequest :=
      { queue := q, seq := seq, block := ws, sources := [], poster := s.poster, started := false, progress := 0, isat := false
        hold := .going, status := none, cause := none, written := 0 }
    let u := (s.onMs key (fun x => { x with seqs := assign q (seq + 1) x.seqs, requests := x.requests ++ [r] })).addRequest s.poster.level
    some (u.result d (BitVec.ofNat 64 seq))

/-- The store-kind checks of DADDR but for its alignment (R234): a page that is not memory-side is refused with reason
"attribute". -/
def State.checkDestination (s : State) (daddr : Word) : Except Trap (State × Nat) :=
  match s.check s.ag.priv .store daddr 1 with
  | .error t => .error (if t.cause = 0x63#8 then { cause := 0x2E#8, addr := daddr } else t)
  | .ok (t, .cell c none) =>
    if isLocal c then .error { cause := 0x2E#8, addr := daddr }
    else .ok (t, (t.job.vdie (c / 2 ^ 38)).getD 0 * 2 + c / 2 ^ 37 % 2)
  | .ok (_, _) => .error { cause := 0x2E#8, addr := daddr }

/-- `mspost` (R234): the block read, its destination translated, then the post, for which it waits while the queue is
full. -/
def execMspost (d a : Reg) (s : State) : Out :=
  .next (
    match s.readBlock (s.g a) with
    | .trap s1 t => s1.raise t
    | .again t => t
    | .ok s1 ws =>
      match s1.checkDestination (ws.getD 1 0#64) with
      | .error t => s1.raise t
      | .ok (s2, key) => (s2.postMemSide d ws key).getD (s2.setWait (.room (.memSide d ws key) 4)))

/-- Instances a rank's queue for a communicator holds at most (R241). -/
def instanceRoom : Nat := 16

/-- The post of a collective record (R241), while the communicator's queue has room and no save is under way (R335). -/
def State.postCollective (s : State) (d : Reg) (ws : List Word) (h : Nat) : Option State :=
  match lookup h s.job.comms with
  | none => some (s.raise { cause := 0x8E#8, addr := 0#64 })
  | some c =>
    if instanceRoom ≤ c.instances.length || s.job.status ≠ .running then none
    else
      let n := c.seq + 1
      let i : Instance :=
        { seq := n, record := ws, poster := s.poster, started := false, peers := [], status := 0, causes := []
          flags := 0, bandnw := 0, words := 0, result := [], bad := [], hold := .going, completed := 0 }
      let u := (s.onComm h (fun x => { x with seq := n, instances := x.instances ++ [i] })).addRequest s.poster.level
      some (u.result d (BitVec.ofNat 64 n))

/-- `colpost` (R241). -/
def execColpost (d a b : Reg) (s : State) : Out :=
  .next (
    let (hit, w) := s.watchpoint (s.g a)
    if hit then w.raise { cause := 0xA2#8, addr := s.g a }
    else
      match w.check w.ag.priv .load (s.g a) (if (s.g a).toNat % 64 = 0 && !inWindow (s.g a) then 8 else 64) with
      | .error t => w.raise t
      | .ok _ =>
        let h := (s.g b).toNat
        match (if h < 256 then lookup h s.job.comms else none) with
        | none => w.raise { cause := 0x8E#8, addr := 0#64 }
        | some _ =>
          match s.readBlock (s.g a) with
          | .trap s1 t => s1.raise t
          | .again t => t
          | .ok s1 ws => (s1.postCollective d ws h).getD (s1.setWait (.room (.collective d ws h) 4)))

/-- A post that waited for room is made once there is room (R234, R241). -/
def State.madeRoom (s : State) : Option State :=
  match s.ag.wait with
  | .room (.memSide d ws key) _ => ((s.setWait .ready).postMemSide d ws key)
  | .room (.collective d ws h) _ => ((s.setWait .ready).postCollective d ws h)
  | _ => none

end Sys2Proof.Machine
end

