-- ==== Sys2Proof/Machine/CopyEngine.lean ====
section
/-! DEFINITION. The conduits and their copies (09_engine_instructions_records.md R207-R221): taking a mailbox, promises,
the record and layout checks, dense, indexed, pooled and versioned movement, stamps and completion. -/

namespace Sys2Proof.Machine

/-- Operation and fields of a copy record (R211). -/
def copyOp (r : List Word) : Nat := field (dw r 0) 60 4
def copyMean (r : List Word) : Bool := field (dw r 0) 59 1 = 1
def copyBf16 (r : List Word) : Bool := field (dw r 0) 57 2 = 1
def copyVer (r : List Word) : Bool := field (dw r 0) 56 1 = 1
def copyRowd (r : List Word) : Nat := field (dw r 0) 40 16
def copyCount (r : List Word) : Nat := field (dw r 7) 0 20

/-- Bytes of a row, and the cost of moving one (R208, R216). -/
def rowBytes (r : List Word) : Nat := copyRowd r * 8
def rowCost (r : List Word) : Nat := (copyRowd r + 31) / 32

/-- Bytes of an output row of a pooled gather (R217). -/
def bagBytes (r : List Word) : Nat := if copyBf16 r then 2 * rowBytes r else rowBytes r

/-- The full count a complete copy reports, but for a dense one (R219). -/
def copyFull (r : List Word) : Nat := if copyOp r = 4 then 1 else copyCount r

/-- The conditions of R212 on a record's own fields. -/
def copyRecordOk (r : List Word) : Bool :=
  let zero (b : Bool) : Bool := !b
  dw r 7 / 2 ^ 20 = 0 && field (dw r 0) 57 2 ≤ 1 && (copyVer r || dw r 6 = 0) &&
    match copyOp r with
    | 0 => zero (copyMean r) && zero (copyBf16 r) && zero (copyVer r) && copyRowd r = 0 && copyCount r = 0
    | 1 | 2 => zero (copyMean r) && zero (copyBf16 r) && dw r 5 = 0 && copyRowd r ≠ 0 && copyCount r ≠ 0
    | 3 => copyRowd r ≠ 0 && copyCount r ≠ 0 && inWindow (r.getD 2 0#64)
    | 4 => zero (copyMean r) && zero (copyBf16 r) && dw r 5 = 0 && copyRowd r ≠ 0 && copyCount r = 0 && copyVer r &&
        dw r 4 < 2 ^ 32
    | _ => false

/-- A layout record (R213). -/
structure Layout where
  outer : Nat
  inner : Nat
  swz : Nat
  e : Nat
  bkx : Nat
  bw : Nat
  tr : Nat
  tc : Nat
  ntr : Nat
  ntc : Nat
  stride : Nat
  pitch : Nat
  deriving DecidableEq, Repr

/-- Its fields from four dwords. -/
def layoutOf (r : List Word) : Layout :=
  let d := dw r 0
  { outer := field d 61 3, inner := field d 58 3, swz := field d 56 2, e := 2 ^ field d 54 2, bkx := field d 52 2
    bw := field d 48 4 + 1, tr := field d 16 16, tc := field d 0 16, ntr := dw r 1 / 2 ^ 32, ntc := dw r 1 % 2 ^ 32
    stride := dw r 2, pitch := dw r 3 }

/-- Elements a block of exponents covers (R213). -/
def Layout.nblk (l : Layout) : Nat := if l.bkx = 2 then 16 else 32

/-- Line pitch of INNER 0 and 1, and the bytes of a nappe block (R214). -/
def Layout.line (l : Layout) : Nat := (if l.inner = 0 then l.tc else l.tr) * l.e
def Layout.p (l : Layout) : Nat := if l.pitch = 0 then l.line else l.pitch
def Layout.mb (l : Layout) : Nat := 16 * l.nblk * l.e + (if l.bkx = 0 then 0 else 16)
def Layout.bb (l : Layout) : Nat := l.nblk * l.e + 1

/-- Tile span (R214). -/
def Layout.span (l : Layout) : Nat :=
  match l.inner with
  | 0 => (l.tr - 1) * l.p + l.tc * l.e
  | 1 => (l.tc - 1) * l.p + l.tr * l.e
  | 2 => l.tr * (l.tc / l.nblk) * l.bb
  | 3 => l.tr / 16 * (l.tc / l.nblk) * l.mb
  | _ => l.tr * l.tc * l.e

/-- The constraints of R213 on one record. -/
def layoutOk (r : List Word) : Bool :=
  let l := layoutOf r
  field (dw r 0) 32 16 = 0 && l.outer ≤ 4 && l.inner ≤ 4 && l.bkx ≤ 2 && 1 ≤ l.tr && 1 ≤ l.tc && 1 ≤ l.ntr && 1 ≤ l.ntc &&
    (l.outer = 3 || l.bw = 1) && (l.inner ≤ 1 || l.pitch = 0) &&
    (l.outer ≠ 2 || (l.ntr = l.ntc && l.ntr = 2 ^ Nat.log2 l.ntr)) && (l.outer ≠ 3 || l.ntc % l.bw = 0) &&
    (l.bkx = 0 || ((l.inner = 2 || l.inner = 3) && (if l.bkx = 1 then l.e ≤ 2 else l.e = 1))) &&
    (l.inner ≠ 2 || l.bkx ≠ 0) && ((l.inner ≠ 2 && l.inner ≠ 3) || l.tc % l.nblk = 0) &&
    (l.inner ≠ 3 || l.tr % 16 = 0) && (l.inner ≠ 4 || (l.tr % 8 = 0 && l.tc % 8 = 0)) &&
    (l.swz = 0 || (l.inner ≤ 1 && l.pitch % 256 = 0 && l.line % 256 = 0)) &&
    l.stride % l.e = 0 && l.span ≤ l.stride

/-- Whether two records describe the same matrix (R213). -/
def layoutsAgree (a b : Layout) : Bool :=
  a.tr * a.ntr = b.tr * b.ntr && a.tc * a.ntc = b.tc * b.ntc && a.e = b.e && a.bkx = b.bkx

/-- Bits of `x` spread to every second position from `k` up (R214). -/
def spreadBits : Nat → Nat → Nat → Nat
  | 0, _, _ => 0
  | n + 1, k, x => x % 2 * 2 ^ (2 * k) + spreadBits n (k + 1) (x / 2)

/-- Every second bit of `x` from the lowest up. -/
def gatherBits : Nat → Nat → Nat
  | 0, _ => 0
  | n + 1, x => x % 2 + 2 * gatherBits n (x / 4)

/-- Tile ordinal (R214), and the tile of an ordinal. -/
def Layout.ordinal (l : Layout) (tr tc : Nat) : Nat :=
  match l.outer with
  | 0 => tr * l.ntc + tc
  | 1 => tc * l.ntr + tr
  | 2 => spreadBits 32 0 tc + 2 * spreadBits 32 0 tr
  | 3 => tc / l.bw * l.ntr * l.bw + tr * l.bw + tc % l.bw
  | _ => tr * l.ntc + (if tr % 2 = 0 then tc else l.ntc - 1 - tc)
def Layout.tileAt (l : Layout) (t : Nat) : Nat × Nat :=
  match l.outer with
  | 0 => (t / l.ntc, t % l.ntc)
  | 1 => (t % l.ntr, t / l.ntr)
  | 2 => (gatherBits 32 (t / 2), gatherBits 32 t)
  | 3 =>
    let r := t % (l.ntr * l.bw)
    (r / l.bw, t / (l.ntr * l.bw) * l.bw + r % l.bw)
  | _ =>
    let tr := t / l.ntc
    (tr, if tr % 2 = 0 then t % l.ntc else l.ntc - 1 - t % l.ntc)

/-- Inner offset of element (i, j) before swizzle, and of the exponent byte of block (i, b) (R214). -/
def Layout.innerElem (l : Layout) (i j : Nat) : Nat :=
  let nb := l.nblk
  match l.inner with
  | 0 => i * l.p + j * l.e
  | 1 => j * l.p + i * l.e
  | 2 => i * (l.tc / nb) * l.bb + j / nb * l.bb + j % nb * l.e
  | 3 => (i / 16 * (l.tc / nb) + j / nb) * l.mb + (i % 16 * nb + j % nb) * l.e
  | _ => (i / 8 * (l.tc / 8) + j / 8) * (64 * l.e) + (j % 8 * 8 + i % 8) * l.e
def Layout.innerExp (l : Layout) (i b : Nat) : Nat :=
  let nb := l.nblk
  if l.inner = 2 then i * (l.tc / nb) * l.bb + b * l.bb + nb * l.e
  else (i / 16 * (l.tc / nb) + b) * l.mb + 16 * nb * l.e + i % 16

/-- Swz (R214): bits 7:3 of an offset by the line index. -/
def Layout.swizzle (l : Layout) (i j o : Nat) : Nat :=
  let line := if l.inner = 0 then i else j
  let bank := o / 8 % 32
  let new :=
    match l.swz with
    | 0 => bank
    | 1 => Nat.xor bank (line % 32)
    | 2 => Nat.xor bank (line / 2 % 32)
    | _ => (bank + line) % 32
  o / 256 * 256 + new * 8 + o % 8

/-- One moved byte: byte `k` of element (r, c), or the exponent byte of the block of row r that column c begins. -/
inductive Moved where
  | elem (r c k : Nat)
  | exp (r c : Nat)
  deriving DecidableEq, Repr

/-- Address of a moved byte under a layout (R214). -/
def Layout.addr (l : Layout) (base : Word) : Moved → Word
  | .elem r c k =>
    base + BitVec.ofNat 64 (l.ordinal (r / l.tr) (c / l.tc) * l.stride +
      l.swizzle (r % l.tr) (c % l.tc) (l.innerElem (r % l.tr) (c % l.tc)) + k)
  | .exp r c =>
    base + BitVec.ofNat 64 (l.ordinal (r / l.tr) (c / l.tc) * l.stride + l.innerExp (r % l.tr) (c % l.tc / l.nblk))

/-- Moved bytes of a tile, and of the matrix (R215). -/
def Layout.tileBytes (l : Layout) : Nat := l.tr * l.tc * l.e + (if l.bkx = 0 then 0 else l.tr * (l.tc / l.nblk))
def Layout.allBytes (l : Layout) : Nat := l.ntr * l.ntc * l.tileBytes

/-- Bytes of the lines of a tile at pitch `p` whose inner offset is below `o`: lines of `n` bytes, `count` of them. -/
def bytesBelow (n p count o : Nat) : Nat := ((List.range count).map (fun i => min (o - i * p) n)).sum

/-- The inner offset of byte `k` of such lines in ascending order of the offset, between `lo` and `lo + 2 ^ fuel`. -/
def offsetOf (n p count k : Nat) : Nat → Nat → Nat
  | 0, lo => lo
  | fuel + 1, lo => if bytesBelow n p count (lo + 2 ^ fuel) ≤ k then offsetOf n p count k fuel (lo + 2 ^ fuel) else offsetOf n p count k fuel lo

/-- Byte `k` of lines that interleave, as line and byte of it (R213, R215): bytes at one offset stand in the order of their
lines, which the manual does not fix (log entry 24). -/
def interleaved (n p count k : Nat) : Nat × Nat :=
  let o := offsetOf n p count k 33 0
  let i := (if o < n then 0 else (o - n) / p + 1) + (k - bytesBelow n p count o)
  (i, o - i * p)

/-- Byte p of the destination order within a tile: position (i, j) with the byte of the element, or block (i, first
column) of an exponent. -/
def Layout.inTile (l : Layout) (p : Nat) : Nat × Nat × Option Nat :=
  let nb := l.nblk
  let n := l.tc / nb
  match l.inner with
  | 0 =>
    if l.p < l.line then
      let x := interleaved l.line l.p l.tr p
      (x.1, x.2 / l.e, some (x.2 % l.e))
    else (p / (l.tc * l.e), p % (l.tc * l.e) / l.e, some (p % l.e))
  | 1 =>
    if l.p < l.line then
      let x := interleaved l.line l.p l.tc p
      (x.2 / l.e, x.1, some (x.2 % l.e))
    else (p % (l.tr * l.e) / l.e, p / (l.tr * l.e), some (p % l.e))
  | 2 =>
    let q := p / l.bb
    let o := p % l.bb
    if o < nb * l.e then (q / n, q % n * nb + o / l.e, some (o % l.e)) else (q / n, q % n * nb, none)
  | 3 =>
    let q := p / l.mb
    let o := p % l.mb
    if o < 16 * nb * l.e then (q / n * 16 + o / l.e / nb, q % n * nb + o / l.e % nb, some (o % l.e))
    else (q / n * 16 + (o - 16 * nb * l.e), q % n * nb, none)
  | _ =>
    let q := p / (64 * l.e)
    let o := p % (64 * l.e) / l.e
    (q / (l.tc / 8) * 8 + o % 8, q % (l.tc / 8) * 8 + o / 8, some (p % l.e))

/-- Byte n of the destination order (R215). -/
def Layout.moved (l : Layout) (n : Nat) : Moved :=
  let (tr, tc) := l.tileAt (n / l.tileBytes)
  match l.inTile (n % l.tileBytes) with
  | (i, j, some k) => .elem (tr * l.tr + i) (tc * l.tc + j) k
  | (i, j, none) => .exp (tr * l.tr + i) (tc * l.tc + j)

/-- Chunks of a dense copy (R215). -/
def Layout.chunks (l : Layout) : Nat := (l.allBytes + 255) / 256

/-- A copy of a conduit by its number, and one changed. -/
def Job.copy? (j : Job) (key seq : Nat) : Option Copy := (j.conduit key).copies.find? (fun c => c.seq == seq)
def State.onCopy (s : State) (key seq : Nat) (f : Copy → Copy) : State :=
  s.onConduit key (fun d => { d with copies := d.copies.map (fun c => if c.seq = seq then f c else c) })

/-- Who makes a copy's engine accesses, in its chunk in hand. -/
def Copy.by_ (key : Nat) (c : Copy) : Chunk :=
  { request := requestId 3 (conduitHandle key) c.seq, chunk := c.progress, priv := c.poster.priv }

/-- A copy's movement ends with a STATUS and the cause its completion raises (R219, R221). -/
def State.copyEnd (s : State) (key seq st : Nat) (t : Option Trap) : State :=
  s.onCopy key seq (fun c => { c with status := some st, cause := t, unread := false })

/-- A copy's trap record (R318). -/
def State.copyRecord (s : State) (key : Nat) (c : Copy) (t : Trap) : State :=
  s.requestRecord 3 t (conduitHandle key) c.seq c.poster

/-- A fault at a copy's boundary (R221): a page fault suspends it, any other ends it with status 3. -/
def State.copyFault (s : State) (key : Nat) (c : Copy) (t : Trap) : State :=
  if pageFault t.cause then (s.onCopy key c.seq (fun x => { x with hold := .suspended })).copyRecord key c t
  else (s.afterEngine c.poster.priv t).copyEnd key c.seq 3 (some t)

/-- "Copy source uncorrectable" (R221). -/
def State.copyBad (s : State) (key : Nat) (c : Copy) : State := s.copyEnd key c.seq 2 (some { cause := 0x82#8 })

/-- Four dwords of a layout record at an address. -/
def State.readLayout (s : State) (q : Chunk) (va : Word) : Eng (List Nat) :=
  match s.check q.priv .engRead va 32 with
  | .error t => .fault t
  | .ok _ => State.engReads q (items va 8 4) s

/-- The reads and checks of a take (R207, R212): none for a rejected record, else its layout records and its cost. -/
def State.takeReads (s : State) (q : Chunk) (r : List Word) : Eng (Option (List Word × List Word × Nat)) :=
  let words (l : List Nat) : List Word := l.map (BitVec.ofNat 64)
  if !copyRecordOk r then .ok s none
  else
    match copyOp r with
    | 0 =>
      match s.readLayout q (r.getD 4 0#64) with
      | .fault t => .fault t
      | .bad u => .bad u
      | .wait t => .wait t
      | .ok t a =>
        match t.readLayout q (r.getD 5 0#64) with
        | .fault e => .fault e
        | .bad u => .bad u
        | .wait u => .wait u
        | .ok u b =>
          let d := layoutOf (words b)
          if layoutOk (words a) && layoutOk (words b) && layoutsAgree (layoutOf (words a)) d && d.chunks < 2 ^ 20 then
            .ok u (some (words a, words b, d.chunks))
          else .ok u none
    | 3 =>
      match State.engReads q [(r.getD 5 0#64 + BitVec.ofNat 64 (4 * copyCount r), 4), (r.getD 5 0#64, 4)] s with
      | .fault t => .fault t
      | .bad u => .bad u
      | .wait t => .wait t
      | .ok t l => .ok t (some ([], [], (l.getD 0 0 + 2 ^ 64 - l.getD 1 0) * rowCost r % 2 ^ 64))
    | 4 => .ok s (some ([], [], rowCost r))
    | _ => .ok s (some ([], [], copyCount r * rowCost r))

/-- Mailbox, reply word and timeline cells of a core (R53). -/
def State.mailboxCell (s : State) (key n : Nat) : Nat := lsCell (s.job.pdie (key / 128)) (key % 128) (0x3_E000 + 8 * n)
def State.replyCell (s : State) (key n : Nat) : Nat := lsCell (s.job.pdie (key / 128)) (key % 128) (0x3_E020 + 8 * n)
def State.counterCell (s : State) (key : Nat) : Nat := lsCell (s.job.pdie (key / 128)) (key % 128) 0x3_E040

/-- The mailbox a conduit takes next: the first full one after the last it took (R207). -/
def State.nextMailbox (s : State) (key : Nat) : Option Nat :=
  [1, 2, 3, 4].map (fun i => ((s.job.conduit key).lastBox + i) % 4) |>.find? (fun n => s.feBit (s.mailboxCell key n))

/-- A promise written to a reply word (R207, R208). -/
def State.writePromise (s : State) (key box p : Nat) : State :=
  s.storeFull (engineWriter key) (s.replyCell key box) p none

/-- The promise of R208, modulo 2^64. -/
def promiseAfter (base cost : Nat) : Nat := (base + 2048 + 16 * cost) % 2 ^ 64

/-- The promise of the conduit's previous copy, while it is not complete (R208). -/
def Conduit.previous (c : Conduit) : Nat := (c.copies.getLast?.map (fun x => x.promise)).getD 0

/-- The mailbox emptied and its poster named (R207); a mailbox filled otherwise counts under the job. -/
def State.emptyMailbox (s : State) (key box : Nat) : Poster × State :=
  let a := s.mailboxCell key box
  let t := (s.onConduit key (fun c =>
    { c with posters := remove box c.posters, lastBox := box, seq := c.seq + 1, takenAt := some s.pkg.cycle })).setFe a false
  match lookup box (s.job.conduit key).posters with
  | some p => (p, t.bitChanged a true)
  | none => ({ uid := 0, level := .job, priv := .user, agent := key * 16 + 15 }, (t.addRequest .job).bitChanged a true)

/-- One take (R207, R208, R212). -/
def State.takeCopy (s : State) (key box : Nat) : State :=
  let ga := s.readWord (s.mailboxCell key box)
  let now := s.pkg.cycle
  let prev := (s.job.conduit key).previous
  let (poster, s1) := s.emptyMailbox key box
  let n := (s1.job.conduit key).seq
  let cell := s1.windowCellOf ga
  let blank : Copy :=
    { seq := n, box := box, recAddr := ga, record := [], src := [], dst := [], poster := poster, promise := 0, unread := false
      progress := 0, attempts := 0, waitVersion := none, writing := none, bags := [], hold := .going, cost := 0, spent := 0, status := none, cause := none
      noStamp := false }
  let add (t : State) (c : Copy) : State :=
    (t.onConduit key (fun d => { d with copies := d.copies ++ [c] })).writePromise key box c.promise
  if !ownRecordOf key ga then
    add s1 { blank with promise := 2 ^ 64 - 1, noStamp := true, status := some 4, cause := some { cause := 0x80#8, addr := ga } }
  else
    let r := s1.record8 cell
    let s2 := s1.store (engineWriter key) cell 8 (dw r 0 / 2 ^ 40 * 2 ^ 40 + n % 2 ^ 40) none
    let base := max now prev
    let rejected : Copy :=
      { blank with
        record := r, status := some 4, cause := some { cause := 0x81#8 }
        promise := if usable (r.getD 3 0#64) then promiseAfter now 0 else 2 ^ 64 - 1 }
    let taken : Copy := { blank with record := r, promise := promiseAfter base 0 }
    match s2.takeReads (blank.by_ key) r with
    | .ok t none => add t rejected
    | .ok t (some (a, b, cost)) => add t { taken with src := a, dst := b, cost := cost, promise := promiseAfter base cost }
    | .wait t => add t { taken with unread := true }
    | .bad u => add u { taken with status := some 2, cause := some { cause := 0x82#8 } }
    | .fault t =>
      if pageFault t.cause then
        let c := { taken with unread := true, hold := .suspended }
        (add s2 c).copyRecord key c t
      else add (s2.afterEngine poster.priv t) { taken with status := some 3, cause := some t }

/-- Whether the engines of the job in focus do their work (R335). -/
def State.working (s : State) : Bool := s.job.status = .running

/-- Whether a conduit does its work: the job's engines do, and no trap record of its own waits for queue room (R320). -/
def State.conduitWorks (s : State) (key : Nat) : Bool := s.working && !s.job.enginePosting 3 (conduitHandle key)

/-- Whether a conduit takes a mailbox at this cycle (R37, R207): its turn is the sixteenth, and it takes one in a turn. -/
def State.mayTake (s : State) (key : Nat) : Bool :=
  s.conduitWorks key && (s.job.conduit key).takenAt ≠ some s.pkg.cycle && key / 128 < s.job.dies_n && s.pkg.cycle % 16 = 15 && (s.job.conduit key).copies.length < 64

/-- CONDUIT_TAKE (R207). -/
def tryConduitTake (die core : Nat) (s : State) : Option State :=
  let key := die * 128 + core
  if s.mayTake key then
    match s.nextMailbox key with
    | some box => some ((s.conduitTurn key).takeCopy key box)
    | none => none
  else none
def execConduitTake (die core : Nat) (s : State) : Out := passing s (tryConduitTake die core s)

/-- The reads and checks a serviced fault put off (R212). -/
def State.copyChecks (s : State) (key : Nat) (c : Copy) : State :=
  match s.takeReads (c.by_ key) c.record with
  | .ok t none => t.copyEnd key c.seq 4 (some { cause := 0x81#8 })
  | .ok t (some (a, b, cost)) => t.onCopy key c.seq (fun x => { x with src := a, dst := b, cost := cost, unread := false })
  | .wait t => t
  | .bad u => u.copyBad key c
  | .fault t => s.copyFault key c t

/-- One step of a copy's movement: the put-off checks, or what `go` does. It generates addresses (R360). A versioned writer between its
`amocas` and its final store goes on while the job halts (R218, R335). -/
def State.copyStep (s : State) (die core seq : Nat) (ops : List Nat) (go : Nat → Copy → State) : Option State :=
  let key := die * 128 + core
  match s.job.copy? key seq with
  | some c =>
    if (s.conduitWorks key || (s.job.status = .halting && c.writing.isSome)) && c.status.isNone && c.hold = .going &&
        c.waitVersion.isNone && ops.contains (copyOp c.record) then
      some ((if c.unread then s.copyChecks key c else go key c).conduitTurn key)
    else none
  | none => none

/-- A chunk complete: progress, cost spent, and the end of the movement at the full count (R219). -/
def State.copyDone (s : State) (key : Nat) (c : Copy) (full cost : Nat) : State :=
  s.onCopy key c.seq (fun x => { x with
    progress := c.progress + 1, spent := c.spent + cost, attempts := 0, writing := none
    status := if c.progress + 1 = full then some 1 else none })

/-- Bytes moved from places to places (R215, R221): every address is checked before a byte is read, and a poisoned
source writes the whole destination poisoned, unless the copy is a versioned write. -/
def State.moveBytes (s : State) (key : Nat) (c : Copy) (src dst : List (Word × Nat)) (done : State → State) : State :=
  let q := c.by_ key
  match State.engLocs q src s with
  | .fault t => s.copyFault key c t
  | .bad u => u.copyBad key c
  | .wait t => t
  | .ok s1 from_ =>
    match State.engSpots q dst s1 with
    | .fault t => s.copyFault key c t
    | .bad u => u.copyBad key c
    | .wait t => t
    | .ok s2 ss =>
      match State.readLocs q from_ s2 with
      | (some bytes, s3) => done (State.putBytes q.request (engineWriter key) (ss.zip bytes) s3)
      | (none, s3) => (State.poisonSpots q.request (engineWriter key) (dwordSpots ss) s3).copyBad key c

/-- A destination written whole and poisoned where an index or offset entry is poisoned (R221). -/
def State.poisonRow (s : State) (key : Nat) (c : Copy) (dst : List (Word × Nat)) : State :=
  match State.engSpots (c.by_ key) dst s with
  | .fault t => s.copyFault key c t
  | .bad u => u.copyBad key c
  | .wait t => t
  | .ok t ss => (State.poisonSpots (c.by_ key).request (engineWriter key) (dwordSpots ss) t).copyBad key c

/-- One chunk of a dense copy (R215). -/
def State.denseChunk (s : State) (key : Nat) (c : Copy) : State :=
  let a := layoutOf c.src
  let b := layoutOf c.dst
  let n := min 256 (b.allBytes - 256 * c.progress)
  let ms := (List.range n).map (fun i => b.moved (256 * c.progress + i))
  s.moveBytes key c (ms.map (fun m => (a.addr (c.record.getD 1 0#64) m, 1)))
    (ms.map (fun m => (b.addr (c.record.getD 2 0#64) m, 1))) (fun t => t.copyDone key c b.chunks 1)

/-- Bytes of row x of a table at a base, `n` bytes a row. -/
def rowItems (base : Word) (n x : Nat) : List (Word × Nat) := items (base + BitVec.ofNat 64 (n * x)) 1 n

/-- Address of row x's version (R218). -/
def versionVa (c : Copy) (x : Nat) : Word := c.record.getD 6 0#64 + BitVec.ofNat 64 (8 * x)

/-- How reading the version of a row stands. -/
inductive Version where
  | even (s : State) (v : Nat)
  | odd
  | fault (t : Trap)
  | bad (s : State)
  | wait (s : State)

/-- A load of a version (R218). -/
def State.version (s : State) (key : Nat) (c : Copy) (x : Nat) : Version :=
  match s.engRead (c.by_ key) (versionVa c x) 8 with
  | .ok t v => if v % 2 = 0 then .even t v else .odd
  | .fault t => .fault t
  | .bad u => .bad u
  | .wait t => .wait t

/-- An attempt of a versioned reader met an odd version: after the eighth it waits (R218). -/
def State.attempt (s : State) (key : Nat) (c : Copy) (x : Nat) : State :=
  s.onCopy key c.seq (fun y =>
    if c.attempts + 1 < 8 then { y with attempts := c.attempts + 1 } else { y with attempts := 0, waitVersion := some (versionVa c x) })

/-- One index of a gather (R216, R218, R221). The manual does not say what a poisoned version dword does: a reader ends as by a poisoned
index, its destination row poisoned, and a writer with nothing written, both with STATUS 2. DESIGN CHOICE: log entry 111. -/
def State.gatherRow (s : State) (key : Nat) (c : Copy) : State :=
  let r := c.record
  let n := rowBytes r
  let dst := rowItems (r.getD 2 0#64) n c.progress
  match s.engRead (c.by_ key) (r.getD 4 0#64 + BitVec.ofNat 64 (4 * c.progress)) 4 with
  | .fault t => s.copyFault key c t
  | .wait t => t
  | .bad u => u.poisonRow key c dst
  | .ok t x =>
    let move (u : State) : State :=
      u.moveBytes key c (rowItems (r.getD 1 0#64) n x) dst (fun w => w.copyDone key c (copyFull r) (rowCost r))
    if copyVer r then
      match t.version key c x with
      | .even u _ => move u
      | .odd => t.attempt key c x
      | .fault e => s.copyFault key c e
      | .bad u => u.poisonRow key c dst
      | .wait u => u
    else move t

/-- A versioned writer goes on past its `amocas` by up to `n` accesses (R218): the row's dwords in ascending order, then the
version. -/
def State.versionGoOn (s : State) (key : Nat) (c : Copy) (w : VersionWrite) (n : Nat) : State :=
  let t := (w.row.take n).foldl State.doWrite s
  if w.row.length < n then
    (t.store (engineWriter key) w.cell 8 ((w.version + 2) % 2 ^ 64) w.home).copyDone key { c with writing := none }
      (copyFull c.record) (rowCost c.record)
  else t.onCopy key c.seq (fun y => { y with writing := some { w with row := w.row.drop n } })

/-- A versioned writer of bytes to a row (R218): source and addresses first, then the version, the row and the version again,
each access one of its own. -/
def State.versionedWrite (s : State) (key : Nat) (c : Copy) (src : List (Word × Nat)) (x : Nat) : State :=
  let q := c.by_ key
  let w := engineWriter key
  match State.engLocs q src s with
  | .fault t => s.copyFault key c t
  | .bad u => u.copyBad key c
  | .wait t => t
  | .ok s1 from_ =>
    match State.readLocs q from_ s1 with
    | (none, s2) => s2.copyBad key c
    | (some bytes, s2) =>
      match State.engSpots q ((versionVa c x, 8) :: rowItems (c.record.getD 2 0#64) (rowBytes c.record) x) s2 with
      | .fault t => s.copyFault key c t
      | .bad u => u.copyBad key c
      | .wait t => t
      | .ok s3 [] => s3
      | .ok s3 ((va, home) :: ss) =>
        if hostBase ≤ va then s.copyFault key c { cause := 0x3E#8, addr := versionVa c x }
        else if s3.poisoned va then s3.copyBad key c
        else
          let v := s3.readNat va 8
          if v % 2 = 1 then s3.onCopy key c.seq (fun y => { y with waitVersion := some (versionVa c x) })
          else
            let row := dwordWrites q.request w s3.pkg.cycle (ss.zip bytes)
            (s3.store w va 8 (v + 1) home).versionGoOn key c { cell := va, home := home, version := v, row := row }
              ((s3.share.map (fun n => n - 1)).getD (row.length + 1))

/-- One step of a versioned write: its beginning, or what is left of it. -/
def State.versionStep (s : State) (key : Nat) (c : Copy) (begin_ : State) : State :=
  match c.writing with
  | some w => s.versionGoOn key c w (s.share.getD (w.row.length + 1))
  | none => begin_

/-- An error in a versioned writer's own data once the version is odd, or a write of it that fails end to end (R218): that
dword and every later one of the row are written poisoned, the version is made even, and the copy ends with STATUS 2. -/
def State.writerFails (s : State) (key : Nat) (c : Copy) : Option State :=
  c.writing.map (fun w =>
    let t := w.row.foldl (fun u x => u.doWrite { x with data := .bad }) s
    ((t.store (engineWriter key) w.cell 8 ((w.version + 2) % 2 ^ 64) w.home).onCopy key c.seq (fun y => { y with writing := none })).copyBad key c)

/-- One index of a scatter (R216, R218, R221). -/
def State.scatterRow (s : State) (key : Nat) (c : Copy) : State :=
  let r := c.record
  let n := rowBytes r
  let src := rowItems (r.getD 1 0#64) n c.progress
  s.versionStep key c (
    match s.engRead (c.by_ key) (r.getD 4 0#64 + BitVec.ofNat 64 (4 * c.progress)) 4 with
    | .fault t => s.copyFault key c t
    | .wait t => t
    | .bad u => u.copyBad key c
    | .ok t x =>
      if copyVer r then t.versionedWrite key c src x
      else
        t.moveBytes key c src (rowItems (r.getD 2 0#64) n x) (fun w => w.copyDone key c (copyFull r) (rowCost r)))

/-- A row-replace (R216, R218). -/
def State.replaceRow (s : State) (key : Nat) (c : Copy) : State :=
  s.versionStep key c
    (s.versionedWrite key c (rowItems (c.record.getD 1 0#64) (rowBytes c.record) 0) (dw c.record 4 % 2 ^ 32))

/-- FP32 elements of a row (R217): BF16 rows widened exactly. -/
def rowElems (r : List Word) (bytes : List Nat) : List FVal :=
  if copyBf16 r then (unpackBits 16 (bytes.length / 2) (ofByteNats bytes)).map bf16.decode
  else (unpackBits 32 (bytes.length / 4) (ofByteNats bytes)).map fp32.decode

/-- FP32 rounding of a pooled element (R217). -/
def pool32 (x : FVal) : Nat := (roundToFormat x fp32 .rne .inf false).1

/-- One element position of a bag (R217). -/
def poolElem (mean : Bool) : List FVal → Nat
  | [] => 0
  | x :: xs =>
    let acc := xs.foldl (fun a y => pool32 ((fp32.decode a).add y .rne).1) (pool32 x)
    if mean && !xs.isEmpty then pool32 ((fp32.decode acc).div (FVal.int (xs.length + 1))).1 else acc

/-- Pool(b) (R217): the output row as bytes. -/
def poolRows (r : List Word) (rows : List (List Nat)) : List Nat :=
  let es := rows.map (rowElems r)
  (List.range (bagBytes r / 4)).flatMap (fun i =>
    unpackBits 8 4 (poolElem (copyMean r) (es.map (fun e => e.getD i (.zero false)))))

/-- How reading the rows of a bag stands. -/
inductive BagRead where
  | ok (s : State) (rows : List (List Nat))
  | odd (x : Nat)
  | fault (t : Trap)
  | bad (s : State)
  | wait (s : State)

/-- The rows a bag names, in index order (R217, R218). -/
def State.bagRows (key : Nat) (c : Copy) (q : Chunk) : List Nat → State → BagRead
  | [], s => .ok s []
  | k :: rest, s =>
    match s.engRead q (c.record.getD 4 0#64 + BitVec.ofNat 64 (4 * k)) 4 with
    | .fault t => .fault t
    | .bad u => .bad u
    | .wait t => .wait t
    | .ok t x =>
      let go (u : State) : BagRead :=
        match State.engLocs q (rowItems (c.record.getD 1 0#64) (rowBytes c.record) x) u with
        | .fault e => .fault e
        | .bad u => .bad u
        | .wait w => .wait w
        | .ok w ls =>
          match State.readLocs q ls w with
          | (none, y) => .bad y
          | (some bytes, y) =>
            match State.bagRows key c q rest y with
            | .ok z rows => .ok z (bytes :: rows)
            | e => e
      if copyVer c.record then
        match t.version key c x with
        | .even u _ => go u
        | .odd => .odd x
        | .fault e => .fault e
        | .bad u => .bad u
        | .wait u => .wait u
      else go t

/-- How forming a bag stands: the state, its output bytes and its cost; or what stops it, with the state its offsets were
read in. -/
inductive BagOut where
  | ok (s : State) (bytes : List Nat) (cost : Nat)
  | odd (s : State) (x : Nat)
  | fault (t : Trap)
  | bad (s : State)
  | wait (s : State)

/-- Bag b of a pooled gather read and pooled (R217). -/
def State.formBag (s : State) (key : Nat) (c : Copy) (b : Nat) : BagOut :=
  let r := c.record
  let q := { c.by_ key with chunk := b }
  match State.engReads q (items (r.getD 5 0#64 + BitVec.ofNat 64 (4 * b)) 4 2) s with
  | .fault t => .fault t
  | .wait t => .wait t
  | .bad u => .bad u
  | .ok t l =>
    let lo := l.getD 0 0
    let n := l.getD 1 0 - lo
    match State.bagRows key c q ((List.range n).map (fun i => lo + i)) t with
    | .fault e => .fault e
    | .wait u => .wait u
    | .bad u => .bad u
    | .odd x => .odd t x
    | .ok u rows => .ok u (poolRows r rows) (n * rowCost r)

/-- A bag's output row written (R217). -/
def State.writeBag (s : State) (key : Nat) (c : Copy) (bytes : List Nat) (cost : Nat) : State :=
  let r := c.record
  match State.engSpots (c.by_ key) (rowItems (r.getD 2 0#64) (bagBytes r) c.progress) s with
  | .fault e => s.copyFault key c e
  | .bad u => u.copyBad key c
  | .wait w => w
  | .ok w ss => (State.putBytes (c.by_ key).request (engineWriter key) (ss.zip bytes) w).copyDone key c (copyFull r) cost

/-- One bag of a pooled gather (R217, R221), formed now or earlier. -/
def State.poolBag (s : State) (key : Nat) (c : Copy) : State :=
  match lookup c.progress c.bags with
  | some (cost :: bytes) => s.writeBag key c bytes cost
  | _ =>
    match s.formBag key c c.progress with
    | .fault e => s.copyFault key c e
    | .wait u => u
    | .bad t => t.poisonRow key c (rowItems (c.record.getD 2 0#64) (bagBytes c.record) c.progress)
    | .odd t x => t.attempt key c x
    | .ok u bytes cost => u.writeBag key c bytes cost

/-- A later bag is formed ahead of those before it, where nothing stops it (R69, R272): bags have no order among them. -/
def State.earlyBag (s : State) (die core seq b : Nat) : Option State :=
  let key := die * 128 + core
  match s.job.copy? key seq with
  | some c =>
    if s.conduitWorks key && c.status.isNone && c.hold = .going && !c.unread && copyOp c.record = 3 && c.progress ≤ b &&
        b < copyCount c.record && (lookup b c.bags).isNone then
      match s.formBag key c b with
      | .ok u bytes cost => some (u.onCopy key seq (fun x => { x with bags := assign b (cost :: bytes) x.bags }))
      | _ => none
    else none
  | none => none

def tryDenseCopy (die core seq : Nat) (s : State) : Option State := s.copyStep die core seq [0] s.denseChunk
def execDenseCopy (die core seq : Nat) (s : State) : Out := passing s (tryDenseCopy die core seq s)
def tryGather (die core seq : Nat) (s : State) : Option State := s.copyStep die core seq [1] s.gatherRow
def execGather (die core seq : Nat) (s : State) : Out := passing s (tryGather die core seq s)
def tryScatter (die core seq : Nat) (s : State) : Option State := s.copyStep die core seq [2] s.scatterRow
def execScatter (die core seq : Nat) (s : State) : Out := passing s (tryScatter die core seq s)
def tryPooledGather (die core seq : Nat) (s : State) : Option State := s.copyStep die core seq [3] s.poolBag
def execPooledGather (die core seq : Nat) (s : State) : Out := passing s (tryPooledGather die core seq s)
def tryRowReplace (die core seq : Nat) (s : State) : Option State := s.copyStep die core seq [4] s.replaceRow
def execRowReplace (die core seq : Nat) (s : State) : Out := passing s (tryRowReplace die core seq s)

/-- PROMISE_REVISION (R208): a copy whose stamp is not written by its promise. -/
def tryPromiseRevision (die core seq : Nat) (s : State) : Option State :=
  let key := die * 128 + core
  match s.job.copy? key seq with
  | some c =>
    if s.working && c.promise ≤ s.pkg.cycle then
      let p := promiseAfter c.promise ((c.cost + 2 ^ 64 - c.spent % 2 ^ 64) % 2 ^ 64)
      let t := s.onCopy key seq (fun x => { x with promise := p })
      some (if (s.job.conduit key).copies.any (fun x => x.box = c.box && seq < x.seq) then t else t.writePromise key c.box p)
    else none
  | none => none
def execPromiseRevision (die core seq : Nat) (s : State) : Out := passing s (tryPromiseRevision die core seq s)

/-- VERSION_WAIT_WAKE (R218): the version a reader or writer waits on is no longer odd. -/
def tryVersionWaitWake (die core seq : Nat) (s : State) : Option State :=
  let key := die * 128 + core
  match s.job.copy? key seq with
  | some c =>
    match c.waitVersion with
    | some va =>
      let ready : Bool :=
        match s.engRead (c.by_ key) va 8 with
        | .ok _ v => v % 2 = 0
        | .wait _ => false
        | _ => true
      if s.working && ready then some (s.onCopy key seq (fun x => { x with waitVersion := none })) else none
    | none => none
  | none => none
def execVersionWaitWake (die core seq : Nat) (s : State) : Out := passing s (tryVersionWaitWake die core seq s)

/-- COPY_RESUME (R221): a suspended copy goes on once the supervisor has serviced its fault. -/
def tryCopyResume (die core seq : Nat) (s : State) : Option State :=
  let key := die * 128 + core
  match s.job.copy? key seq with
  | some c =>
    if s.working && c.hold = .serviced then some (s.onCopy key seq (fun x => { x with hold := .going })) else none
  | none => none
def execCopyResume (die core seq : Nat) (s : State) : Out := passing s (tryCopyResume die core seq s)

/-- A stamp's dword (R219). -/
def stampWord (c : Copy) (st : Nat) : Nat := st * 2 ^ 60 + c.progress % 2 ^ 20 * 2 ^ 40 + c.seq % 2 ^ 40

/-- The timeline written, the copy gone, its cause raised, its count fallen (R220, R205). -/
def State.copyLeaves (s : State) (key : Nat) (c : Copy) (causes : List Trap) : State :=
  let t := s.store (engineWriter key) (s.counterCell key) 8 c.seq none
  let u := t.onConduit key (fun d => { d with copies := d.copies.filter (fun x => !(x.seq == c.seq)) })
  let v := causes.foldl (fun x e => x.requestCause 3 (conduitHandle key) c.seq c.poster (some e)) u
  v.requestGone 3 (conduitHandle key) c.seq c.poster

/-- COPY_COMPLETION (R212, R219, R220): the oldest copy's stamp, then its timeline. -/
def State.completeCopy (s : State) (key : Nat) (c : Copy) (st : Nat) : State :=
  let va := c.record.getD 3 0#64
  if c.noStamp || (st = 4 && !usable va) then s.copyLeaves key c c.cause.toList
  else
    match s.completionWrite (c.by_ key) (engineWriter key) true va (stampWord c st) with
    | .ok t () => t.copyLeaves key c c.cause.toList
    | .wait t => t
    | .bad u => u
    | .fault t =>
      if pageFault t.cause then s.copyFault key c t
      else (s.afterEngine c.poster.priv t).copyLeaves key c (c.cause.toList ++ [t])

def tryCopyCompletion (die core : Nat) (s : State) : Option State :=
  let key := die * 128 + core
  match (s.job.conduit key).copies.head? with
  | some c =>
    match c.status with
    | some st =>
      if s.conduitWorks key && c.hold = .going && !s.job.writing (c.by_ key).request then some (s.completeCopy key c st)
      else none
    | none => none
  | none => none
def execCopyCompletion (die core : Nat) (s : State) : Out := passing s (tryCopyCompletion die core s)

end Sys2Proof.Machine
end

