-- ==== Sys2Proof/Machine/MemSide.lean ====
section
/-! DEFINITION. The memory-side engines (09_engine_instructions_records.md R234-R237): starting a queue's next request, one
line at a time, and its completion writes. -/

namespace Sys2Proof.Machine

/-- Fields of a parameter block (R235). -/
def msOp (b : List Word) : Nat := field (dw b 0) 60 4
def msInt (b : List Word) : Bool := field (dw b 0) 59 1 = 1
def msSources (b : List Word) : Nat := field (dw b 0) 56 3 + 1
def msFull (b : List Word) : Bool := field (dw b 0) 55 1 = 1
def msLines (b : List Word) : Nat := field (dw b 0) 0 32

/-- The field checks of R235. A field that only another operation gives a meaning must be 0 too, as R211 and R224 say of theirs; R235
does not say it. DESIGN CHOICE: log entry 110. -/
def msBlockOk (b : List Word) : Bool :=
  msOp b ≤ 3 && field (dw b 0) 36 19 = 0 && msLines b ≠ 0 && dw b 1 % 64 = 0 && dw b 6 = 0 && dw b 7 = 0 &&
    (msOp b = 0 || (!msInt b && field (dw b 0) 56 3 = 0)) && (msOp b = 3 || !msFull b) && (msOp b ≠ 3 || dw b 2 = 0)

/-- The request an engine has started. -/
def MsEngine.active (m : MsEngine) : Option MsRequest := m.requests.find? (fun r => r.started)

/-- A request of an engine changed. -/
def State.onMsRequest (s : State) (key queue seq : Nat) (f : MsRequest → MsRequest) : State :=
  s.onMs key (fun m => { m with requests := m.requests.map (fun r => if r.queue = queue && r.seq = seq then f r else r) })

/-- The next request: queues in turn after the last one served, the oldest of a queue (R298). -/
def MsEngine.next (m : MsEngine) : Option MsRequest :=
  ((List.range 16).map (fun i => (m.lastQueue + 1 + i) % 16)).findSome? (fun q => m.requests.find? (fun r => r.queue == q))

/-- Key of a stack's engine. -/
def msKey (die stack : Nat) : Nat := die * 2 + stack

/-- The trap record of a memory-side request (R318). -/
def msHandle (key queue : Nat) : Nat := queueHandle (key / 2) (key % 2) queue

/-- Whether an engine does its work on a request: the job's engines do, and no trap record of its queue waits for queue room
(R320). -/
def State.msWorks (s : State) (key : Nat) (r : MsRequest) : Bool := s.working && !s.job.enginePosting 5 (msHandle key r.queue)

/-- Who makes a request's accesses, at the line in hand. -/
def MsRequest.by_ (key : Nat) (r : MsRequest) : Chunk :=
  { request := requestId 5 (msHandle key r.queue) r.seq, chunk := r.progress, priv := r.poster.priv }

/-- MS_REQUEST_START (R234, R235, R298): a block that fails its checks is rejected with status 4. -/
def tryMsRequestStart (die stack : Nat) (s : State) : Option State :=
  let key := msKey die stack
  let m := s.job.msEngine key
  match m.active, m.next with
  | none, some r =>
    if s.msWorks key r then
      let bad := !msBlockOk r.block
      some ((s.onMs key (fun x => { x with lastQueue := r.queue })).onMsRequest key r.queue r.seq (fun x => { x with
        started := true
        status := if bad then some 4 else none
        cause := if bad then some { cause := 0x8D#8 } else none }))
    else none
  | _, _ => none
def execMsRequestStart (die stack : Nat) (s : State) : Out := passing s (tryMsRequestStart die stack s)

/-- A request's movement ends (R237). -/
def State.msEnd (s : State) (key : Nat) (r : MsRequest) (st : Nat) (t : Option Trap) : State :=
  s.onMsRequest key r.queue r.seq (fun x => { x with status := some st, cause := t })

/-- A fault at a line (R308): a page fault suspends, any other ends with status 3. -/
def State.msFault (s : State) (key : Nat) (r : MsRequest) (t : Trap) : State :=
  if pageFault t.cause then
    (s.onMsRequest key r.queue r.seq (fun x => { x with hold := .suspended })).requestRecord 5 t (msHandle key r.queue) r.seq r.poster
  else (s.afterEngine r.poster.priv t).msEnd key r 3 (some t)

/-- Where a line lies: in memory-side frames of the engine's stack, not in a view (R235). -/
def State.msLine (s : State) (key : Nat) (p : Priv) (f : Form) (va : Word) : Eng Nat :=
  match s.check p f va 64 with
  | .error t => .fault (if t.cause = 0x63#8 then { cause := 0x3E#8, subr := 1, addr := va } else t)
  | .ok (t, .cell a none) =>
    if a / 2 ^ 37 = t.job.pdie (key / 2) * 2 + key % 2 then .ok t a else .fault { cause := 0x3E#8, subr := 1, addr := va }
  | .ok (_, _) => .fault { cause := 0x3E#8, subr := 1, addr := va }

/-- Several lines in order. -/
def State.msLinesAt (key : Nat) (p : Priv) : List Word → State → Eng (List Nat)
  | [], s => .ok s []
  | va :: rest, s =>
    match s.msLine key p .engRead va with
    | .ok t a =>
      match State.msLinesAt key p rest t with
      | .ok u as => .ok u (a :: as)
      | e => e
    | .fault t => .fault t
    | .bad u => .bad u
    | .wait t => .wait t

/-- The dwords of a line as a request reads them, none where one is poisoned (R237). -/
def State.lineRead (s : State) (q : Chunk) (a : Nat) : Option (List Nat) :=
  let ws := (List.range 8).map (fun i => s.wordOf q (a + 8 * i))
  if ws.any (fun w => w.isNone) then none else some (ws.map (fun w => w.getD 0))

/-- The spots of a line. -/
def lineSpots (a : Nat) : List Spot := (List.range 8).map (fun i => (a + 8 * i, none))

/-- A line complete (R236). -/
def State.msDone (s : State) (key : Nat) (r : MsRequest) (sat : Bool) : State :=
  s.onMsRequest key r.queue r.seq (fun x => { x with
    progress := r.progress + 1, isat := x.isat || sat, status := if r.progress + 1 = msLines r.block then some 1 else none })

/-- A line of a request: its destination, then its sources, then what their dwords give (R236, R237). -/
def State.msLineStep (s : State) (key : Nat) (r : MsRequest) (srcs : List Word)
    (go : State → Nat → List (List Nat) → State) : State :=
  let off : Word := BitVec.ofNat 64 (64 * r.progress)
  match s.msLine key r.poster.priv .engWrite (r.block.getD 1 0#64 + off) with
  | .fault t => s.msFault key r { t with info := 1#64 }
  | .bad u => u
  | .wait t => t
  | .ok t d =>
    match State.msLinesAt key r.poster.priv (srcs.map (fun v => v + off)) t with
    | .fault e => s.msFault key r e
    | .bad u => u
    | .wait u => u
    | .ok u as =>
      let ls := as.map (u.lineRead (r.by_ key))
      if ls.any (fun l => l.isNone) then
        (State.poisonSpots (r.by_ key).request r.poster.writer (lineSpots d) u).msEnd key r 2 (some { cause := 0x62#8 })
      else go u d (ls.map (fun l => l.getD []))

/-- Dwords written to a line. -/
def State.writeLine (s : State) (key : Nat) (r : MsRequest) (d : Nat) (ws : List Nat) : State :=
  State.writeWords (r.by_ key).request r.poster.writer ((lineSpots d).zip ws) s

/-- Node and Combine of R236: the result, and whether a sum was clamped. -/
def msNode (int : Bool) (x y : Option Nat × Bool) : Option Nat × Bool :=
  match x.1, y.1 with
  | some a, some b =>
    if int then
      let sum := sx a 32 + sx b 32
      (some (low (satS sum 32) 32), x.2 || y.2 || satS sum 32 ≠ sum)
    else (some (add32 a b).1, x.2 || y.2)
  | some a, none => (some a, x.2 || y.2)
  | none, b => (b, x.2 || y.2)

/-- A NaN result is the canonical NaN (R236, R249), also where it is the one value present. -/
def canon32 (x : Nat) : Nat := if (fp32.decode x).isNan then fp32.canonNan else x

/-- A line of a reduce (R236): the elements, and whether a sum was clamped. -/
def reduceLine (int : Bool) (lines : List (List Nat)) : List (Nat × Bool) :=
  (List.range 16).map (fun e =>
    let leaves := (List.range 8).map (fun i => ((lines[i]?).map (fun l => l.getD e 0), false))
    let x := (treeFold (msNode int) 3 leaves).headD (none, false)
    (if int then x.1.getD 0 else canon32 (x.1.getD 0), x.2))

/-- The part of a reduce that reads its table, beyond every line (R69). -/
def tableChunk : Nat := 2 ^ 32

/-- The table of a reduce's sources, read at its first line (R235, R237). -/
def State.readTable (s : State) (key : Nat) (r : MsRequest) : State :=
  match s.msLine key r.poster.priv .engRead (r.block.getD 2 0#64) with
  | .fault t => s.msFault key r t
  | .bad u => u
  | .wait t => t
  | .ok t a =>
    let ws := (List.range (msSources r.block)).map (fun i => t.wordOf { r.by_ key with chunk := tableChunk } (a + 8 * i))
    if ws.any (fun w => w.isNone) then
      match t.msLine key r.poster.priv .engWrite (r.block.getD 1 0#64) with
      | .fault e => t.msFault key r { e with info := 1#64 }
      | .bad u => u
      | .wait u => u
      | .ok u d => (State.poisonSpots (r.by_ key).request r.poster.writer (lineSpots d) u).msEnd key r 2 (some { cause := 0x62#8 })
    else t.onMsRequest key r.queue r.seq (fun x => { x with sources := ws.map (fun w => BitVec.ofNat 64 (w.getD 0)) })

/-- A line of a reduce (R236). -/
def State.msReduceLine (s : State) (key : Nat) (r : MsRequest) : State :=
  if r.sources = [] then s.readTable key r
  else
    s.msLineStep key r r.sources (fun t d ls =>
      let out := reduceLine (msInt r.block) (ls.map (fun l => unpackBits 32 16 (packBits 64 l)))
      (t.writeLine key r d (unpackBits 64 8 (packBits 32 (out.map (fun x => x.1))))).msDone key r (out.any (fun x => x.2)))

/-- Bits of a line's dwords set, each an access of its own, waking parked operations (R63, R69, R236). -/
def State.fillBits (s : State) (key : Nat) (r : MsRequest) (d : Nat) : State :=
  s.doWrites ((lineSpots d).map (fun x =>
    { request := (r.by_ key).request, writer := r.poster.writer, cell := x.1, home := x.2, since := s.pkg.cycle
      data := .bit (msFull r.block) }))

/-- One step of the request an engine works on. -/
def State.msStep (s : State) (die stack op : Nat) (go : Nat → MsRequest → State) : Option State :=
  let key := msKey die stack
  match (s.job.msEngine key).active with
  | some r => if s.msWorks key r && r.status.isNone && r.hold = .going && msOp r.block = op then some (go key r) else none
  | none => none

def tryMsReduce (die stack : Nat) (s : State) : Option State := s.msStep die stack 0 s.msReduceLine
def execMsReduce (die stack : Nat) (s : State) : Out := passing s (tryMsReduce die stack s)
def tryMsFill (die stack : Nat) (s : State) : Option State :=
  s.msStep die stack 1 (fun key r =>
    s.msLineStep key r [] (fun t d _ => (t.writeLine key r d (List.replicate 8 (dw r.block 2))).msDone key r false))
def execMsFill (die stack : Nat) (s : State) : Out := passing s (tryMsFill die stack s)
def tryMsCopy (die stack : Nat) (s : State) : Option State :=
  s.msStep die stack 2 (fun key r =>
    s.msLineStep key r [r.block.getD 2 0#64] (fun t d ls => (t.writeLine key r d (ls.headD [])).msDone key r false))
def execMsCopy (die stack : Nat) (s : State) : Out := passing s (tryMsCopy die stack s)
def tryMsFeInit (die stack : Nat) (s : State) : Option State :=
  s.msStep die stack 3 (fun key r =>
    s.msLineStep key r [] (fun t d _ => (t.fillBits key r d).msDone key r false))
def execMsFeInit (die stack : Nat) (s : State) : Out := passing s (tryMsFeInit die stack s)

/-- MS_RESUME (R308). -/
def tryMsResume (die stack : Nat) (s : State) : Option State :=
  let key := msKey die stack
  match (s.job.msEngine key).active with
  | some r =>
    if s.working && r.hold = .serviced then some (s.onMsRequest key r.queue r.seq (fun x => { x with hold := .going }))
    else none
  | none => none
def execMsResume (die stack : Nat) (s : State) : Out := passing s (tryMsResume die stack s)

/-- Status dword (R237). -/
def msStatus (r : MsRequest) (st : Nat) : Nat := st * 2 ^ 60 + (if r.isat then 2 ^ 56 else 0) + r.progress % 2 ^ 32

/-- What one completion write leads to. -/
inductive Written where
  | on (s : State)
  | stop (s : State)

/-- Completion write number `n` of a request (R237): made, skipped with its cause, or waiting for service. -/
def State.msWrite (s : State) (key : Nat) (r : MsRequest) (n : Nat) (full : Bool) (va : Word) (v : Nat) : Written :=
  let past (t : State) : State := t.onMsRequest key r.queue r.seq (fun x => { x with written := n + 1 })
  if n < r.written || !usable va then .on s
  else
    match s.completionWrite (r.by_ key) r.poster.writer full va v with
    | .ok t () => .on (past t)
    | .wait t => .stop t
    | .bad u => .on (past u)
    | .fault t =>
      if pageFault t.cause then .stop (s.msFault key r t)
      else .on ((past (s.afterEngine r.poster.priv t)).requestCause 5 (msHandle key r.queue) r.seq r.poster (some t))

/-- The timeline advanced and the request gone (R237). -/
def State.msLeaves (s : State) (key : Nat) (r : MsRequest) : State :=
  let t := s.onMs key (fun m => { m with
    timelines := assign r.queue r.seq m.timelines
    requests := m.requests.filter (fun x => !(x.queue == r.queue && x.seq == r.seq)) })
  let u := t.writeTimeline (0x2000 + 8 * (32 * (key / 2) + 16 * (key % 2) + r.queue)) r.seq
  (u.requestCause 5 (msHandle key r.queue) r.seq r.poster r.cause).requestGone 5 (msHandle key r.queue) r.seq r.poster

/-- MS_COMPLETION (R237). -/
def State.msComplete (s : State) (key : Nat) (r : MsRequest) (st : Nat) : State :=
  let statVa := r.block.getD 5 0#64
  let first : Written := if statVa = 0#64 then .on s else s.msWrite key r 0 false statVa (msStatus r st)
  match first with
  | .stop t => t
  | .on t =>
    match t.msWrite key r 1 true (r.block.getD 3 0#64) (dw r.block 4) with
    | .stop u => u
    | .on u => u.msLeaves key r

def tryMsCompletion (die stack : Nat) (s : State) : Option State :=
  let key := msKey die stack
  match (s.job.msEngine key).active with
  | some r =>
    match r.status with
    | some st => if s.msWorks key r && r.hold = .going && !s.job.writing (r.by_ key).request then some (s.msComplete key r st) else none
    | none => none
  | none => none
def execMsCompletion (die stack : Nat) (s : State) : Out := passing s (tryMsCompletion die stack s)

end Sys2Proof.Machine
end

