-- ==== Sys2Proof/Machine/Collective.lean ====
section
/-! DEFINITION. Collectives and the Accord sparse merge (10_collectives_accord.md R238-R257) and the communicator command
(15_work_hierarchy_scheduling.md R297). -/

namespace Sys2Proof.Machine

/-- Fields of a collective record (R243). -/
def colOp (r : List Word) : Nat := field (dw r 0) 60 4
def colType (r : List Word) : Nat := field (dw r 0) 58 2
def colRoot (r : List Word) : Nat := field (dw r 0) 50 8
def colRow (r : List Word) : Nat := field (dw r 0) 40 8 + 1
def colCount (r : List Word) : Nat := field (dw r 0) 0 32
def colRange (r : List Word) : Nat := dw r 5

/-- Bytes of an element, and of a row (R243). -/
def colElem (r : List Word) : Nat := if colType r = 1 then 2 else 4
def colRowBytes (r : List Word) : Nat := colRow r * colElem r

/-- Bytes of a rank's send buffer (R243, R246). -/
def colSendBytes (r : List Word) (rank : Nat) : Nat :=
  match colOp r with
  | 0 => colCount r * colElem r
  | 1 => colCount r * colRowBytes r
  | 2 => if rank = colRoot r then colCount r else 0
  | _ => colCount r

/-- The usability test of a completion record (R237, R244). -/
def colUsable (r : List Word) : Bool := usable (r.getD 6 0#64)

/-- Whether a record is valid (R244) at a rank of a communicator of `size` ranks. -/
def colRecordOk (r : List Word) (rank size : Nat) : Bool :=
  let op := colOp r
  op ≤ 3 && field (dw r 0) 48 2 = 0 && field (dw r 0) 32 8 = 0 && dw r 7 = 0 && colUsable r && dw r 6 % 16 = 0 &&
    (if op ≤ 1 then colType r ≤ 2 else colType r = 0) && (if op = 2 then colRoot r < size else colRoot r = 0) &&
    (op = 1 || colRow r = 1) && (op = 1 || (dw r 2 = 0 && dw r 4 = 0 && dw r 5 = 0)) &&
    (match op with
     | 0 => 1 ≤ colCount r
     | 1 => 1 ≤ colRange r && colRange r ≤ 2 ^ 32
     | _ => colCount r ≠ 0 && colCount r % 8 = 0) &&
    dw r 1 % colElem r = 0 && dw r 2 % 4 = 0 && dw r 3 % 8 = 0 && (op ≠ 2 || rank = colRoot r || dw r 1 = 0)

/-- Whether two records agree (R244). -/
def colAgree (a b : List Word) : Bool :=
  colOp a = colOp b && colType a = colType b && colRoot a = colRoot b && colRow a = colRow b && colRange a = colRange b &&
    (colOp a = 1 || colCount a = colCount b)

/-- Bits of COLSTAT gathered over the tree (R247). -/
def colISAT : Nat := 2 ^ 59
def colFOVF : Nat := 2 ^ 58
def colIDROP : Nat := 2 ^ 57
def colORDER : Nat := 2 ^ 56
def colCAP : Nat := 2 ^ 55

/-- Add of R249 on widened elements, with its flag. -/
def colAdd (ty : Nat) (x y : Nat) : Nat × Nat :=
  if ty = 2 then
    let sum := sx x 32 + sx y 32
    (low (satS sum 32) 32, if satS sum 32 = sum then 0 else colISAT)
  else
    let r := add32 x y
    (r.1, if r.2 &&& flagOF = 0#64 then 0 else colFOVF)

/-- Widen and Out of R249. -/
def colWiden (ty : Nat) (x : Nat) : Nat := if ty = 1 then x * 2 ^ 16 else x
def colOut (ty : Nat) (a : Nat) : Nat × Nat :=
  if ty = 1 then
    let r := roundToFormat (fp32.decode a) bf16 .rne .inf false
    (r.1, if r.2 &&& flagOF = 0#64 then 0 else colFOVF)
  else (if ty = 0 then canon32 a else a, 0)

/-- An entry of a stream: index, row, whether it is poisoned. -/
abbrev ColEntry := Nat × List Nat × Bool

/-- Rows added element by element, and rows put out, with flags. -/
def rowAdd (ty : Nat) (x y : List Nat) : List Nat × Nat :=
  let r := List.zipWith (colAdd ty) x y
  (r.map (fun e => e.1), r.foldl (fun n e => Nat.lor n e.2) 0)
def rowOutOf (ty : Nat) (x : List Nat) : List Nat × Nat :=
  let r := x.map (colOut ty)
  (r.map (fun e => e.1), r.foldl (fun n e => Nat.lor n e.2) 0)

/-- Two entries of one index added (R253). -/
def entryAdd (ty : Nat) (a b : ColEntry) : ColEntry × Nat :=
  let r := rowAdd ty a.2.1 b.2.1
  ((a.1, r.1, a.2.2 || b.2.2), r.2)

/-- Step 1 of R253: runs of one index folded in stream order, from a first entry. -/
def foldRuns (ty : Nat) : ColEntry → List ColEntry → List ColEntry × Nat
  | a, [] => ([a], 0)
  | a, b :: t =>
    if a.1 = b.1 then
      let s := entryAdd ty a b
      let r := foldRuns ty s.1 t
      (r.1, Nat.lor s.2 r.2)
    else
      let r := foldRuns ty b t
      (a :: r.1, r.2)

/-- Step 2 of R253 for one more input: the sums so far with it. -/
def mergeInto (ty : Nat) : Nat → List ColEntry → List ColEntry → List ColEntry × Nat
  | 0, a, _ => (a, 0)
  | _ + 1, [], b => (b, 0)
  | _ + 1, a, [] => (a, 0)
  | n + 1, x :: a, y :: b =>
    if x.1 = y.1 then
      let s := entryAdd ty x y
      let r := mergeInto ty n a b
      (s.1 :: r.1, Nat.lor s.2 r.2)
    else if x.1 < y.1 then
      let r := mergeInto ty n a (y :: b)
      (x :: r.1, r.2)
    else
      let r := mergeInto ty n (x :: a) b
      (y :: r.1, r.2)

/-- An input widened and folded (R253). -/
def foldInput (ty : Nat) (l : List ColEntry) : List ColEntry × Nat :=
  match l.map (fun e => (e.1, e.2.1.map (colWiden ty), e.2.2)) with
  | [] => ([], 0)
  | a :: t => foldRuns ty a t

/-- A merge node of its inputs in ascending PORT order (R250, R253). -/
def mergeNode (ty : Nat) (inputs : List (List ColEntry)) : List ColEntry × Nat :=
  let acc := inputs.foldl (fun (a : List ColEntry × Nat) l =>
    let f := foldInput ty l
    let r := mergeInto ty (a.1.length + f.1.length + 1) a.1 f.1
    (r.1, Nat.lor a.2 (Nat.lor f.2 r.2))) ([], 0)
  let outs := acc.1.map (fun e => ((e.1, (rowOutOf ty e.2.1).1, e.2.2), (rowOutOf ty e.2.1).2))
  (outs.map (fun o => o.1), outs.foldl (fun n o => Nat.lor n o.2) acc.2)

/-- Fields of a tree entry (R240). -/
def treeParent (w : Word) : Nat := field w.toNat 8 8
def treePort (w : Word) : Nat := field w.toNat 0 3

/-- Inputs of node k in ascending PORT order, as positions in the descriptor (R240, R250). -/
def treeInputs (tree : List Word) (root k : Nat) : List Nat :=
  (List.range 8).filterMap (fun p =>
    (tree.zipIdx.find? (fun e => treeParent e.1 == k && treePort e.1 == p && e.2 ≠ root)).map (fun e => e.2))

/-- The output of a position of the tree: a rank's stream or a node's merge (R253). -/
def treeOutput (ty size : Nat) (tree : List Word) (root : Nat) (streams : List (List ColEntry)) :
    Nat → Nat → List ColEntry × Nat
  | 0, _ => ([], 0)
  | fuel + 1, i =>
    if i < size then (streams.getD i [], 0)
    else
      let ins := (treeInputs tree root (i - size)).map (treeOutput ty size tree root streams fuel)
      let m := mergeNode ty (ins.map (fun x => x.1))
      (m.1, ins.foldl (fun n x => Nat.lor n x.2) m.2)

/-- Position of the root node in the descriptor (R240). -/
def treeRoot (size : Nat) (tree : List Word) : Nat :=
  ((tree.zipIdx.find? (fun e => size ≤ e.2 && treeParent e.1 = 255)).map (fun e => e.2)).getD size

/-- The root's output for the ranks' streams. -/
def Comm.merge (c : Comm) (ty : Nat) (streams : List (List ColEntry)) : List ColEntry × Nat :=
  let root := treeRoot c.size c.tree
  treeOutput ty c.size c.tree root streams (c.nnode + 2) root

/-- Whether byte o of a rank's send buffer lies in a poisoned dword. -/
def peerBadByte (p : PeerPost) (o : Nat) : Bool := p.badDwords.contains ((dw p.record 1 % 8 + o) / 8)

/-- Elements of a rank's bytes from byte o up. -/
def peerElems (p : PeerPost) (o n : Nat) : List Nat :=
  let es := colElem p.record
  unpackBits (8 * es) n (ofByteNats (((p.bytes.drop o).take (n * es)).map (fun b => b.toNat)))

/-- A rank's entries, up to a poisoned index dword (R248). -/
def peerEntries (p : PeerPost) : List ColEntry :=
  let n := colRowBytes p.record
  ((p.indices.takeWhile (fun i => !i.2)).zipIdx).map (fun i =>
    (i.1.1, peerElems p (n * i.2) (colRow p.record), (List.range n).any (fun b => peerBadByte p (n * i.2 + b))))

/-- The checks of R252 from the last index kept. -/
def keepEntries (range : Nat) : Nat → List ColEntry → List ColEntry × Nat
  | _, [] => ([], 0)
  | last, e :: t =>
    if range ≤ e.1 then
      let r := keepEntries range last t
      (r.1, Nat.lor colIDROP r.2)
    else if e.1 < last then
      let r := keepEntries range last t
      (r.1, Nat.lor colORDER r.2)
    else
      let r := keepEntries range e.1 t
      (e :: r.1, r.2)

/-- Bytes padded with zeros to a multiple of 8. -/
def pad8 (l : List Nat) : List Nat := l ++ List.replicate ((8 - l.length % 8) % 8) 0

/-- Bytes of a row. -/
def rowToBytes (es : Nat) (l : List Nat) : List Nat := l.flatMap (unpackBits 8 es)

/-- A band record (R254, R255): its bytes, with a mark on those of poisoned rows. -/
def bandRecord (t es rowB band : Nat) (l : List ColEntry) : List (Nat × Bool) :=
  let n := l.length
  let plain (x : List Nat) : List (Nat × Bool) := x.map (fun b => (b, false))
  let row (e : ColEntry) : List (Nat × Bool) := (rowToBytes es e.2.1).map (fun b => (b, e.2.2))
  let body :=
    if t < n then
      plain ((List.range 512).map (fun k =>
        ((List.range 8).map (fun b => if l.any (fun e => e.1 % 4096 = 8 * k + b) then 2 ^ b else 0)).sum)) ++
      (List.range 4096).flatMap (fun k =>
        match l.find? (fun e => e.1 % 4096 == k) with
        | some e => row e
        | none => plain (List.replicate rowB 0))
    else
      let rows := l.flatMap row
      plain (pad8 (l.flatMap (fun e => unpackBits 8 2 (e.1 % 4096)))) ++ rows ++ plain (List.replicate ((8 - rows.length % 8) % 8) 0)
  let head := (if t < n then 2 ^ 63 else 0) + n % 2 ^ 13 * 2 ^ 32 + band % 2 ^ 20
  plain (unpackBits 8 8 head) ++ plain (unpackBits 8 8 (16 + body.length)) ++ body

/-- Band records written while they fit, and the first band that does not (R256). -/
def fitBands (cap : Nat) : Nat → List (Nat × List (Nat × Bool)) → List (Nat × Bool) × Option Nat
  | _, [] => ([], none)
  | used, (band, r) :: t =>
    if used + r.length ≤ cap then
      let x := fitBands cap (used + r.length) t
      (r ++ x.1, x.2)
    else ([], some band)

/-- The band records of a root stream (R255). -/
def bandRecords (t es rowB : Nat) (l : List ColEntry) : List (Nat × List (Nat × Bool)) :=
  ((l.map (fun e => e.1 / 4096)).dedup).map (fun b => (b, bandRecord t es rowB b (l.filter (fun e => e.1 / 4096 = b))))

/-- Relative dwords of the marked bytes. -/
def badDwordsOf (l : List Bool) : List Nat := ((l.zipIdx.filter (fun x => x.1)).map (fun x => x.2 / 8)).dedup

/-- What an instance gives a rank: flags, bytes, poisoned dwords, and the band not written (R250-R256). -/
structure ColResult where
  flags : Nat
  bytes : List Nat
  bad : List Nat
  stopped : Option Nat

/-- The result of an operation for the ranks' posts in rank order. -/
def Comm.compute (c : Comm) (r : List Word) (posts : List PeerPost) : ColResult :=
  let ty := colType r
  let es := colElem r
  match colOp r with
  | 0 =>
    let m := c.merge ty (posts.map (fun p => [(0, peerElems p 0 (colCount r), false)]))
    let bytes := m.1.flatMap (fun e => rowToBytes es e.2.1)
    { flags := m.2, bytes := bytes, stopped := none
      bad := badDwordsOf ((List.range bytes.length).map (fun o =>
        posts.any (fun p => (List.range es).any (fun b => peerBadByte p (o / es * es + b))))) }
  | 1 =>
    let kept := posts.map (fun p => keepEntries (colRange r) 0 (peerEntries p))
    let m := c.merge ty (kept.map (fun k => k.1))
    let f := fitBands (dw r 4) 0 (bandRecords c.threshold es (colRowBytes r) m.1)
    { flags := Nat.lor (kept.foldl (fun n k => Nat.lor n k.2) m.2) (if f.2.isSome then colCAP else 0)
      bytes := f.1.map (fun b => b.1), bad := badDwordsOf (f.1.map (fun b => b.2)), stopped := f.2 }
  | 2 =>
    match posts.find? (fun p => p.rank == colRoot r) with
    | some p =>
      { flags := 0, bytes := p.bytes.map (fun b => b.toNat), stopped := none
        bad := badDwordsOf ((List.range p.bytes.length).map (peerBadByte p)) }
    | none => { flags := 0, bytes := [], bad := [], stopped := none }
  | _ =>
    { flags := 0, bytes := posts.flatMap (fun p => p.bytes.map (fun b => b.toNat)), stopped := none
      bad := badDwordsOf (posts.flatMap (fun p => (List.range p.bytes.length).map (peerBadByte p))) }

/-- The oldest instance of a communicator that is not complete (R245). -/
def State.colHead (s : State) (h : Nat) : Option (Comm × Instance) :=
  match lookup h s.job.comms with
  | some c => c.instances.head?.map (fun i => (c, i))
  | none => none

/-- An instance changed. -/
def State.onInstance (s : State) (h n : Nat) (f : Instance → Instance) : State :=
  s.onComm h (fun c => { c with instances := c.instances.map (fun i => if i.seq = n then f i else i) })

/-- Whether the collective engine works for the job (R335): a job being saved still completes its instances. -/
def State.colWorking (s : State) : Bool := s.job.status = .running || s.job.status = .halting

/-- Whether it works on a communicator: no trap record of its instances waits for queue room (R320). -/
def State.colWorks (s : State) (h : Nat) : Bool := s.colWorking && !s.job.enginePosting 6 h

/-- Who makes an instance's engine accesses. -/
def Instance.by_ (h : Nat) (i : Instance) : Chunk := { request := requestId 6 h i.seq, chunk := 0, priv := i.poster.priv }

/-- An instance ends with a STATUS, no result, and a further cause (R244, R248); a capacity stop stays recorded. -/
def State.colEnd (s : State) (h n st : Nat) (t : Option Trap) : State :=
  s.onInstance h n (fun i => { i with
    status := st, causes := i.causes ++ t.toList, result := [], bad := [], words := 0, hold := .going })

/-- COLLECTIVE_INSTANCE_START (R242, R244). -/
def State.colStart (s : State) (h : Nat) (c : Comm) (i : Instance) (peers : List PeerPost) : State :=
  let own := colRecordOk i.record c.rank c.size
  let good := own && peers.all (fun p => colRecordOk p.record p.rank c.size && colAgree i.record p.record)
  let t := s.onInstance h i.seq (fun x => { x with started := true, peers := peers })
  if good then t
  else t.colEnd h i.seq (if own then 6 else 4) (some { cause := if own then 0x90#8 else 0x8F#8 })

def tryCollectiveInstanceStart (h : Nat) (peers : List PeerPost) (s : State) : Option State :=
  match s.colHead h with
  | some (c, i) =>
    if s.colWorks h && !i.started && i.status = 0 &&
        peers.map (fun p => p.rank) = (List.range c.size).filter (fun r => r ≠ c.rank) then
      some (s.colStart h c i peers)
    else none
  | none => none
def execCollectiveInstanceStart (h : Nat) (peers : List PeerPost) (s : State) : Out := passing s (tryCollectiveInstanceStart h peers s)

/-- The trap record of an instance (R318). -/
def State.colFault (s : State) (h : Nat) (i : Instance) (t : Trap) : State :=
  if pageFault t.cause then (s.onInstance h i.seq (fun x => { x with hold := .suspended })).requestRecord 6 t h i.seq i.poster
  else (s.afterEngine i.poster.priv t).colEnd h i.seq 3 (some t)

/-- This rank's post as its engine reads it (R246): its index array and its send buffer. -/
def State.ownPost (s : State) (h : Nat) (c : Comm) (i : Instance) : Eng PeerPost :=
  let r := i.record
  let nidx := if colOp r = 1 then colCount r else 0
  match s.engBytes (i.by_ h) (r.getD 2 0#64) (4 * nidx) with
  | .fault t => .fault t
  | .bad u => .bad u
  | .wait t => .wait t
  | .ok s1 idx =>
    match s1.engBytes (i.by_ h) (r.getD 1 0#64) (colSendBytes r c.rank) with
    | .fault t => .fault t
    | .bad u => .bad u
    | .wait t => .wait t
    | .ok s2 body =>
      .ok s2
        { rank := c.rank, record := r, refused := false
          indices := (List.range nidx).map (fun k =>
            (ofByteNats ((idx.1.drop (4 * k)).take 4), (List.range 4).any (fun b => idx.2.contains (4 * k + b))))
          bytes := body.1.map (BitVec.ofNat 8)
          badDwords := (body.2.map (fun o => (dw r 1 % 8 + o) / 8)).dedup }

/-- Whether a rank read a bad dword (R248). -/
def peerPoisoned (p : PeerPost) : Bool := p.badDwords ≠ [] || p.indices.any (fun i => i.2)

/-- Posts in rank order. -/
def orderPosts (size : Nat) (l : List PeerPost) : List PeerPost :=
  (List.range size).filterMap (fun r => l.find? (fun p => p.rank == r))

/-- The operation of an instance performed (R248, R250-R256). -/
def State.colRun (s : State) (h : Nat) (c : Comm) (i : Instance) : State :=
  match s.ownPost h c i with
  | .fault t => s.colFault h i t
  | .bad u => u
  | .wait t => t
  | .ok t own =>
    let bad : Option Trap := if peerPoisoned own then some { cause := 0x62#8 } else none
    if i.peers.any (fun p => p.refused) then t.colEnd h i.seq 3 bad
    else
      let posts := orderPosts c.size (own :: i.peers)
      let x := c.compute i.record posts
      let st := if posts.any peerPoisoned then 2 else if x.stopped.isSome then 5 else 1
      t.onInstance h i.seq (fun y => { y with
        status := st, flags := x.flags, bandnw := x.stopped.getD 0, result := x.bytes, bad := x.bad
        words := (x.bytes.length + 7) / 8, causes := bad.toList })

/-- One operation of a communicator's oldest instance. -/
def State.colStep (s : State) (h op : Nat) : Option State :=
  match s.colHead h with
  | some (c, i) =>
    if s.colWorks h && i.started && i.status = 0 && i.hold = .going && colOp i.record = op then some (s.colRun h c i)
    else none
  | none => none

def tryColDenseAllreduce (h : Nat) (s : State) : Option State := s.colStep h 0
def execColDenseAllreduce (h : Nat) (s : State) : Out := passing s (tryColDenseAllreduce h s)
def tryColSparseAllreduce (h : Nat) (s : State) : Option State := s.colStep h 1
def execColSparseAllreduce (h : Nat) (s : State) : Out := passing s (tryColSparseAllreduce h s)
def tryColBroadcast (h : Nat) (s : State) : Option State := s.colStep h 2
def execColBroadcast (h : Nat) (s : State) : Out := passing s (tryColBroadcast h s)
def tryColAllGather (h : Nat) (s : State) : Option State := s.colStep h 3
def execColAllGather (h : Nat) (s : State) : Out := passing s (tryColAllGather h s)

/-- COL_RESUME (R248). -/
def tryColResume (h : Nat) (s : State) : Option State :=
  match s.colHead h with
  | some (_, i) =>
    if s.colWorking && i.hold = .serviced then some (s.onInstance h i.seq (fun x => { x with hold := .going }))
    else none
  | none => none
def execColResume (h : Nat) (s : State) : Out := passing s (tryColResume h s)

/-- COLSTAT (R247). -/
def colstat (i : Instance) : Nat := i.status * 2 ^ 60 + Nat.lor i.flags 0 + i.bandnw % 2 ^ 20 * 2 ^ 32 + i.words % 2 ^ 32

/-- What a step of R245 leads to. -/
inductive ColWritten where
  | on (s : State)
  | stop (s : State)

/-- Step 1 of R245: the result into the receive buffer. -/
def State.colReceive (s : State) (h : Nat) (i : Instance) : ColWritten :=
  if 1 ≤ i.completed then .on s
  else
    match State.engSpots (i.by_ h) (items (i.record.getD 3 0#64) 1 i.result.length) s with
    | .wait t => .stop t
    | .bad u => .on u
    | .fault t => .stop (s.colFault h i t)
    | .ok t ss =>
      let bad := i.bad.filterMap (fun d => (ss[8 * d]?).map (fun sp => sp.1 / 8 * 8))
      let ws := (dwordWrites (i.by_ h).request i.poster.writer t.pkg.cycle (ss.zip i.result)).map (fun x =>
        if bad.contains x.cell then { x with data := .bad } else x)
      .on ((t.doWrites ws).onInstance h i.seq (fun x => { x with completed := 1 }))

/-- Steps 2 and 3 of R245: a completion write made, skipped with its cause, or waiting for service (R244). -/
def State.colWrite (s : State) (h : Nat) (i : Instance) (step : Nat) (full : Bool) (va : Word) (v : Nat) : ColWritten :=
  let past (t : State) : State := t.onInstance h i.seq (fun x => { x with completed := step })
  if step ≤ i.completed || !colUsable i.record then .on s
  else
    match s.completionWrite (i.by_ h) i.poster.writer full va v with
    | .ok t () => .on (past t)
    | .wait t => .stop t
    | .bad u => .on (past u)
    | .fault t =>
      if pageFault t.cause then .stop ((s.onInstance h i.seq (fun x => { x with hold := .suspended })).requestRecord 6 t h i.seq i.poster)
      else .on ((past (s.afterEngine i.poster.priv t)).requestCause 6 h i.seq i.poster (some t))

/-- Step 4 of R245: the timeline, and the instance gone with its cause raised (R205). -/
def State.colLeaves (s : State) (h : Nat) (i : Instance) : State :=
  let t := s.onComm h (fun c => { c with instances := c.instances.filter (fun x => !(x.seq == i.seq)) })
  let u := t.writeTimeline (0x3000 + 8 * h) i.seq
  (i.causes.foldl (fun x e => x.requestCause 6 h i.seq i.poster (some e)) u).requestGone 6 h i.seq i.poster

/-- COL_COMPLETION (R245). -/
def State.colComplete (s : State) (h : Nat) (i : Instance) : State :=
  let ca := i.record.getD 6 0#64
  match s.colReceive h i with
  | .stop t => t
  | .on t =>
    if t.job.writing (i.by_ h).request then t
    else
    match t.colWrite h i 2 false ca (colstat i) with
    | .stop u => u
    | .on u =>
      match u.colWrite h i 3 true (ca + 8#64) i.seq with
      | .stop w => w
      | .on w => w.colLeaves h i

def tryColCompletion (h : Nat) (s : State) : Option State :=
  match s.colHead h with
  | some (_, i) =>
    if s.colWorks h && i.status ≠ 0 && i.hold = .going && !s.job.writing (i.by_ h).request then some (s.colComplete h i) else none
  | none => none
def execColCompletion (h : Nat) (s : State) : Out := passing s (tryColCompletion h s)

/-- Whether an instance can still be aborted: its COLSTAT is not written, and it has not ended with STATUS 4, 6 or 7 (R248). -/
def Instance.abortable (i : Instance) : Bool := i.completed < 2 && i.status ≠ 4 && i.status ≠ 6 && i.status ≠ 7

/-- An instance ends with STATUS 7 (R248). Where its result has been written, COLSTAT keeps the dwords written (R247). -/
def State.abortInstance (s : State) (h : Nat) (i : Instance) : State :=
  let cause : Trap := { cause := 0x91#8 }
  if i.completed = 0 then (s.colEnd h i.seq 7 (some cause)).onInstance h i.seq (fun x => { x with started := true })
  else s.onInstance h i.seq (fun x => { x with status := 7, causes := x.causes ++ [cause], hold := .going })

/-- Instances ended with STATUS 7 (R248). -/
def State.abortInstances (s : State) (h : Nat) (c : Comm) : State :=
  (c.instances.filter (fun i => i.abortable)).foldl (fun t i => t.abortInstance h i) s

/-- COL_ABORT (R248): the communicator is being ended, or a member is lost. -/
def tryColAbort (h : Nat) (s : State) : Option State :=
  match lookup h s.job.comms with
  | some c =>
    if s.colWorking && (c.ending || c.lost ≠ []) && c.instances.any (fun i => i.abortable) then some (s.abortInstances h c)
    else none
  | none => none
def execColAbort (h : Nat) (s : State) : Out := passing s (tryColAbort h s)

/-- Fields of a communicator block (R297), and those of create in range. -/
def commOp (b : List Word) : Nat := field (dw b 0) 60 4
def commHandle (b : List Word) : Nat := dw b 1
def commSize (b : List Word) : Nat := field (dw b 0) 8 9
def commNodes (b : List Word) : Nat := field (dw b 0) 24 8
def commThreshold (b : List Word) : Nat := field (dw b 0) 32 13
def commRank (b : List Word) : Nat := field (dw b 0) 0 8
def commReservedOk (b : List Word) : Bool :=
  field (dw b 0) 45 15 = 0 && field (dw b 0) 17 7 = 0 && dw b 1 < 256 && dw b 4 = 0 && dw b 5 = 0 && dw b 6 = 0 && dw b 7 = 0
def commCreateOk (b : List Word) : Bool :=
  commReservedOk b && 1 ≤ commThreshold b && commThreshold b ≤ 4096 && 1 ≤ commNodes b && 1 ≤ commSize b && commSize b ≤ 256 &&
    commRank b < commSize b && dw b 2 % 8 = 0 && canonical (b.getD 2 0#64) && !supervisorHalf (b.getD 2 0#64)

/-- Create (R239, R297): the tree read, the information block and the timeline written. -/
def State.commCreate (s : State) (b : List Word) (tree : List Nat) : State :=
  let h := commHandle b
  let c : Comm :=
    { rank := commRank b, size := commSize b, threshold := commThreshold b, nnode := commNodes b
      tree := tree.map (BitVec.ofNat 64), seq := 0, instances := [], ending := false, lost := [] }
  let t := { s with job := { s.job with comms := assign h c s.job.comms } }
  let head := commThreshold b * 2 ^ 32 + commNodes b * 2 ^ 24 + commSize b * 2 ^ 8 + commRank b
  let words := [head, (s.job.timelineVa (0x3000 + 8 * h)).toNat, dw b 2, 0, 0, 0, 0, 0]
  let u := words.zipIdx.foldl (fun x w => x.writeTimeline (0x4000 + 64 * h + 8 * w.2) w.1) t
  u.writeTimeline (0x3000 + 8 * h) 0

/-- How a communicator command stands: finished with its CSTAT, or waiting for aborted instances to complete. -/
inductive CommStep where
  | finished (s : State) (stat : Nat)
  | waiting (s : State)

/-- The command of a block (R297). -/
def State.commCommand (s : State) (b : List Word) : CommStep :=
  let h := commHandle b
  match commOp b with
  | 1 =>
    if commCreateOk b && (lookup h s.job.comms).isNone then
      let q : Chunk := { request := requestId 7 h 0, chunk := 0, priv := .user }
      match State.engReads q (items (b.getD 2 0#64) 8 (commSize b + commNodes b)) s with
      | .ok t tree => .finished (t.commCreate b tree) 1
      | .wait t => .waiting t
      | .bad t => .finished t 4
      | .fault e => .finished { s with pkg := s.pkg.metRefusal q.request e } 4
    else .finished s 4
  | 2 =>
    if !commReservedOk b then .finished s 4
    else
      match lookup h s.job.comms with
      | none => .finished s 4
      | some c =>
        if c.instances.isEmpty then .finished { s with job := { s.job with comms := remove h s.job.comms } } 1
        else .waiting (s.onComm h (fun x => { x with ending := true }))
  | _ => .finished s 4

/-- A command given by firmware's write of `comctl` for the job (R283, R297), if a test takes its OP: the block read, the command,
CSTAT. One that waits is kept, and goes on once it can. -/
def State.firmwareComm (s : State) (va : Word) (p : Nat → Bool) : Option State :=
  match s.hwCell true va 64 with
  | .error _ => none
  | .ok (t, cell, _) =>
    let b := t.getWords cell 8
    let keep (u : State) (l : List Word) : State := { u with job := { u.job with commands := l } }
    let rest := s.job.commands.filter (fun x => x ≠ va)
    if !p (commOp b) || (List.range 8).any (fun i => t.poisoned (cell + 8 * i)) then none
    else
      match t.commCommand b with
      | .waiting u => some (keep u (rest ++ [va]))
      | .finished u stat =>
        match (keep u rest).hwWrite (va + 24#64) (BitVec.ofNat 64 stat) with
        | .ok w => some w
        | .error _ => some (keep u rest)

def tryCommCreate (va : Word) (s : State) : Option State :=
  match s.firmwareComm va (fun op => op = 1) with
  | some t => if s.job.status = .running then some t else none
  | none => none
def execCommCreate (va : Word) (s : State) : Out := passing s (tryCommCreate va s)
def tryCommEnd (va : Word) (s : State) : Option State :=
  match s.firmwareComm va (fun op => op = 2) with
  | some t => if s.job.status = .running then some t else none
  | none => none
def execCommEnd (va : Word) (s : State) : Out := passing s (tryCommEnd va s)

/-- SEGMENT_DELIVERY_FAILURE (R354): the oldest instance in flight ends with STATUS 7. -/
def trySegmentDeliveryFailure (h : Nat) (s : State) : Option State :=
  match s.colHead h with
  | some (_, i) =>
    if s.colWorking && i.started && i.abortable then some (s.abortInstance h i) else none
  | none => none
def execSegmentDeliveryFailure (h : Nat) (s : State) : Out := passing s (trySegmentDeliveryFailure h s)

/-- MEMBER_PACKAGE_LOST (R248, R353): firmware reports a member lost; its instances are aborted. -/
def tryMemberPackageLost (h rank : Nat) (s : State) : Option State :=
  match lookup h s.job.comms with
  | some c =>
    if rank < c.size && rank ≠ c.rank && !c.lost.contains rank then
      some ((s.onComm h (fun x => { x with lost := rank :: x.lost })).abortInstances h c)
    else none
  | none => none
def execMemberPackageLost (h rank : Nat) (s : State) : Out := passing s (tryMemberPackageLost h rank s)

end Sys2Proof.Machine
end

