-- ==== Sys2Proof/Machine/Swarm.lean ====
section
/-! DEFINITION. Spawns, prefix sums and fibres (01_execution_model.md R13-R33, R38-R45;
07_memory_sync_swarm_instructions.md R173-R182). -/

namespace Sys2Proof.Machine

/-- Whether the agent in focus is a unit or an upcall runtime (R15). -/
def State.inSlot (s : State) : Bool := s.ag.role ≠ .master

/-- What the operand table of R16 decides. -/
inductive RangeCheck where
  | trap (cause : Byte)
  | empty
  | launch
  deriving DecidableEq, Repr

/-- The operand table of R16. -/
def rangeCheck (lo hi target : Word) : RangeCheck :=
  if target.toNat % 2 = 1 then .trap 0x0B#8
  else if hi.toNat < lo.toNat then .empty
  else if 2 ^ 40 < hi.toNat - lo.toNat + 1 then .trap 0x45#8
  else .launch

/-- g1-g23 (R18, R30). -/
def State.args (s : State) : List Word := (s.ag.g.toList.drop 1).take 23

/-- The spawn a master launches (R18): ps values set since the last `join`, policies of its node (R285). -/
def State.topSpawn (s : State) (lo hi target : Word) : Spawn :=
  let id := s.job.nextSpawn
  let node := s.job.graphNode s.ag.run s.ag.node
  { lo := lo.toNat, hi := hi.toNat, nextChunk := lo.toNat, args := s.args, target := target, rmode := s.ag.rmode
    upentry := s.ag.upentry, fibpool := s.ag.fibpool
    ps := Vector.ofFn (fun i => (lookup i.val s.ag.psInit).getD 0#64), homeDie := vdieOf s.agId, root := id, parent := id
    master := s.agId, run := s.ag.run, node := s.ag.node, spol := (node.map GraphNode.spol).getD 0
    upol := (node.map GraphNode.upol).getD 0, units := 0, requests := 0, ended := none, contained := false, since := s.pkg.cycle
    retries := [], redraw := [] }

/-- A spawn entered in the job's table. -/
def State.addSpawn (s : State) (sp : Spawn) : State :=
  { s with job := { s.job with spawns := assign s.job.nextSpawn sp s.job.spawns, nextSpawn := s.job.nextSpawn + 1 } }

/-- The master's outstanding spawn named (R14). -/
def State.setSpawnid (s : State) (id : Nat) : State := { s with ag := { s.ag with spawnid := BitVec.ofNat 64 id } }

/-- `spawn` (R14, R16-R18, R174). -/
def execSpawn (t a b : Reg) (s : State) : Out :=
  .next (
    if s.inSlot then s.raiseCause 0x0C#8
    else if s.ag.spawnid ≠ 0#64 then s.raiseCause 0x44#8
    else
      match rangeCheck (s.g a) (s.g b) (s.g t) with
      | .trap c => s.raiseCause c
      | .empty => s.advance 4
      | .launch => ((s.addSpawn (s.topSpawn (s.g a) (s.g b) (s.g t))).setSpawnid s.job.nextSpawn).advance 4)

/-- Records of the job in the overflow area (R31). -/
def Job.overflow (j : Job) : Nat := (j.dies.map (fun d => d.2.spilled.length)).sum

/-- Room for one more record in a die's basin (R31). -/
def Job.basinRoom (j : Job) (die : Nat) : Bool := (j.die die).basin.length < 256 || j.overflow < poolSize j.basinov

/-- A spilled record written into the overflow area: the manual gives its 16 dwords no layout, so they are free values. Nor
does it say what a fault of that write does: the dword is not written, and nothing is raised. DESIGN CHOICE: log entry 85. -/
def State.spillRecord (s : State) : State :=
  let va := poolVa s.job.basinov + BitVec.ofNat 64 (128 * s.job.overflow)
  (List.range 16).foldl (fun t i =>
    let (x, u) := t.fresh
    match u.hwWrite (va + BitVec.ofNat 64 (8 * i)) x with
    | .ok w => w
    | .error _ => u) s

/-- A child record put into a die's basin, the oldest hardware record spilled from a full one (R31). -/
def State.pushBasin (s : State) (die id : Nat) : State :=
  (if (s.job.die die).basin.length < 256 then s else s.spillRecord).onDie die (fun d =>
    if d.basin.length < 256 then { d with basin := id :: d.basin }
    else { d with basin := id :: d.basin.dropLast, spilled := d.basin.getLast?.toList ++ d.spilled })

/-- The child a unit creates (R30). -/
def State.childSpawn (s : State) (lo hi target : Word) (p : Spawn) : Spawn :=
  { lo := lo.toNat, hi := hi.toNat, nextChunk := lo.toNat, args := s.args, target := target, rmode := s.ag.rmode
    upentry := p.upentry, fibpool := p.fibpool, ps := Vector.replicate 8 0#64, homeDie := vdieOf s.agId, root := p.root
    parent := s.ag.spawnid.toNat, master := p.master, run := p.run, node := p.node, spol := p.spol, upol := p.upol
    units := 0, requests := 0, ended := none, contained := false, since := s.pkg.cycle
    retries := [], redraw := [] }

/-- `spawnn` (R30, R31, R174). -/
def execSpawnn (t a b : Reg) (s : State) : Out :=
  .next (
    if !s.inSlot then s.raiseCause 0x0C#8
    else
      match rangeCheck (s.g a) (s.g b) (s.g t), lookup s.ag.spawnid.toNat s.job.spawns with
      | .trap c, _ => s.raiseCause c
      | .empty, _ => s.advance 4
      | .launch, none => s.advance 4
      | .launch, some p =>
        if s.job.basinRoom (vdieOf s.agId) then
          ((s.addSpawn (s.childSpawn (s.g a) (s.g b) (s.g t) p)).pushBasin (vdieOf s.agId) s.job.nextSpawn).advance 4
        else s.raiseCause 0x46#8)

/-- `joinst` of a complete spawn (R25, R279). -/
def joinstOf (sp : Spawn) : Word :=
  match sp.ended with
  | some .cancelled => 1#64
  | some .contained => 2#64
  | none => if sp.contained then 2#64 else 0#64

/-- The `join` of a complete spawn (R25). -/
def State.joined (s : State) (id : Nat) (sp : Spawn) : State :=
  { s with
    ag := { s.ag with joinst := joinstOf sp, psLast := sp.ps, psInit := [], spawnid := 0#64 }
    job := { s.job with
      spawns := remove id s.job.spawns
      dies := s.job.dies.map (fun d => (d.1, { d.2 with entries := d.2.entries.filter (fun e => !(e.2.spawn == id)) })) } }

/-- One turn of a `join` (R14, R25, R66, R175). -/
def State.joinTurn (s : State) : State :=
  s.drained .join (fun t =>
    match lookup t.ag.spawnid.toNat t.job.spawns with
    | none => ({ t with ag := { t.ag with joinst := 0#64, psInit := [], spawnid := 0#64 } }).advance 4
    | some sp =>
      if t.job.complete t.ag.spawnid.toNat sp then (t.joined t.ag.spawnid.toNat sp).advance 4 else t.setWait .join)

def execJoin (s : State) : Out := .next (if s.inSlot then s.raiseCause 0x0C#8 else s.joinTurn)

/-- Retiring (R23, R42, R176): a unit counts as retired, a runtime is discarded; the slot draws. -/
def State.retire (s0 : State) : State :=
  let s := if s0.ag.role = .unit then s0.trace 5 0 s0.ag.pc s0.ag.tid else s0
  let u := s.vacate
  (if s.ag.role = .unit then u.retireOne s.ag.spawnid.toNat else u).draw

/-- One turn of a `next`. -/
def State.nextTurn (s : State) (len : Nat) : State := s.drained (.next len) State.retire

def execNext (s : State) : Out := .next (if s.inSlot then s.nextTurn 4 else s.raiseCause 0x0C#8)
def execCNext (s : State) : Out := .next (if s.inSlot then s.nextTurn 2 else s.raiseCause 0x0C#8)

/-- A request into requests ordered by window, then global slot index (R28). -/
def insertPs (r : PsRequest) : List PsRequest → List PsRequest
  | [] => [r]
  | x :: t => if r.window < x.window || (r.window = x.window && r.agent < x.agent) then r :: x :: t else x :: insertPs r t

/-- Requests of windows below a bound applied in order to the ps registers of their spawn (R28), but for those lost on the way
(R350). -/
def applyPs (spawn bound : Nat) : List PsRequest → Vector Word 8 → List PsRequest × Vector Word 8
  | [], ps => ([], ps)
  | r :: t, ps =>
    if r.spawn = spawn && r.value.isNone && r.lost ≠ some .request && r.window < bound && r.n < 8 then
      let i : Fin 8 := Fin.ofNat 8 r.n
      let (rest, qs) := applyPs spawn bound t (ps.set i (ps[i] + BitVec.ofNat 64 r.amount))
      ({ r with value := some ps[i] } :: rest, qs)
    else
      let (rest, qs) := applyPs spawn bound t ps
      (r :: rest, qs)

/-- Every window below a bound takes effect on a spawn's ps registers (R28). -/
def State.psWindows (s : State) (spawn bound : Nat) : State :=
  match lookup spawn s.job.spawns with
  | none => s
  | some sp =>
    let (rs, ps) := applyPs spawn bound s.job.psRequests sp.ps
    { s with job := { s.job with psRequests := rs, spawns := assign spawn { sp with ps := ps } s.job.spawns } }

/-- `ps` of n bytes (R27, R28): the request joins its window and the agent waits for the result. -/
def State.prefixSum (s : State) (len : Nat) (d : Reg) (n : Nat) : State :=
  if !s.inSlot then s.raiseCause 0x0C#8
  else
    let root := ((lookup s.ag.spawnid.toNat s.job.spawns).map (fun sp => sp.root)).getD 0
    let home := ((lookup root s.job.spawns).map (fun sp => sp.homeDie)).getD 0
    let here := home = vdieOf s.agId
    let arrives := if here then s.pkg.cycle else s.pkg.cycle + 48
    let r : PsRequest :=
      { agent := s.agId, spawn := root, n := n, amount := (s.g d).toNat % 2 ^ 16, window := arrives / 16, arrives := arrives
        due := s.pkg.cycle + (if here then 24 else 112), d := d, value := none, sent := s.pkg.cycle, lost := none }
    (({ s with job := { s.job with psRequests := insertPs r s.job.psRequests } }).setWait .ps).advance len

def execPs (d : Reg) (n : VReg) (s : State) : Out := .next (s.prefixSum 4 d n.toNat)
def execCPs (d n : BitVec 3) (s : State) : Out := .next (s.prefixSum 2 (creg d) n.toNat)

/-- `psset` (R29, R177): the initial value of the next spawn, or the live register after every earlier window. The manual gives a
master's access no time to reach the home die: it reaches it in the window of its issue, as a `psget` does. DESIGN CHOICE: log entry
104. -/
def execPsset (n : VReg) (a : Reg) (s : State) : Out :=
  .next (
    if s.inSlot then s.raiseCause 0x0C#8
    else if s.ag.spawnid = 0#64 then
      ({ s with ag := { s.ag with psInit := assign n.toNat (s.g a) s.ag.psInit } }).advance 4
    else
      ((s.psWindows s.ag.spawnid.toNat (s.pkg.cycle / 16)).onSpawn s.ag.spawnid.toNat
        (fun sp => { sp with ps := sp.ps.set n.toFin (s.g a) })).advance 4)

/-- The value `psget` returns with no spawn outstanding (R177). -/
def State.psIdle (s : State) (n : VReg) : Word := (lookup n.toNat s.ag.psInit).getD s.ag.psLast[n.toFin]

/-- The value of a live ps register. -/
def State.psLive (s : State) (n : VReg) : Word :=
  ((lookup s.ag.spawnid.toNat s.job.spawns).map (fun sp => sp.ps[n.toFin])).getD 0#64

/-- `psget` (R29, R177), in the window of its issue: log entry 104. -/
def execPsget (d : Reg) (n : VReg) (s : State) : Out :=
  .next (
    if s.inSlot then s.raiseCause 0x0C#8
    else if s.ag.spawnid = 0#64 then s.result d (s.psIdle n)
    else
      let t := s.psWindows s.ag.spawnid.toNat (s.pkg.cycle / 16)
      t.result d (t.psLive n))

/-- `cancel` (R45, R178). -/
def execCancel (s : State) : Out :=
  .next (
    if s.ag.role = .master && s.ag.spawnid = 0#64 then s.advance 4
    else (s.advance 4).cancelSpawn s.ag.spawnid.toNat .cancelled)

/-- What `fbsave` does once no streaming access is outstanding (R180). -/
def State.fibreSave (s : State) : State :=
  match lookup s.ag.spawnid.toNat s.job.spawns with
  | none => s.raiseCause 0x48#8
  | some sp =>
    if sp.upentry = 0#64 then s.raiseCause 0x48#8
    else
      match s.freePoolEntry sp.fibpool (poolSize sp.fibpool) 0 with
      | none => s.raiseCause 0x49#8
      | some (entry, cell, home, u) =>
        let v := { u with ag := { u.ag with upaddr := 0#64 } }
        ((v.trace 3 0x42 s.ag.pc 0#64).advance 4).deliverUpcall sp { cause := 0x42#8 } entry cell home

/-- One turn of `fbsave` (R162, R180). -/
def State.fbsaveTurn (s : State) : State := s.drained .fbsave State.fibreSave

def execFbsave (s : State) : Out :=
  .next (
    match s.ag.role with
    | .master => s.raiseCause 0x0C#8
    | .runtime => s.raiseCause 0x47#8
    | .unit => s.fbsaveTurn)

/-- Whether an address is an entry of a live spawn's fibre pool and holds a fibre (R181); its state and home core. -/
def State.fibreAt (s : State) (va : Word) : Option (Nat × Nat) :=
  if s.job.spawns.any (fun x => inPool x.2.fibpool va) && (lookup va.toNat s.job.fibres).isSome then
    match s.hwRead (va + 0x360#64), s.hwCell false va 2048 with
    | .ok (_, f), .ok _ => some (field f.toNat 60 4, field f.toNat 40 4 * 128 + field f.toNat 33 7)
    | _, _ => none
  else none

/-- `fbload` (R181): after the runtime's own accesses the fibre replaces it. R162 does not name it among the instructions that
report a failed streaming access: a failure still pending goes with the runtime's registers. DESIGN CHOICE: log entry 105. -/
def execFbload (a : Reg) (s : State) : Out :=
  .next (
    match s.ag.role with
    | .master => s.raiseCause 0x0C#8
    | .unit => s.raiseCause 0x47#8
    | .runtime =>
      match s.fibreAt (s.g a) with
      | some (st, core) =>
        if (st = 2 || st = 3) && core = coreKey s.agId then
          let t := s.settleAll
          if (t.firstStreaming (fun _ => true)).isSome then t.setWait (.again 1) else t.restore (s.g a)
        else s.raiseCause 0x47#8
      | none => s.raiseCause 0x47#8)

/-- A fibre made ready on its home core's list (R40), which calls for a die that is gated (R356). -/
def State.pushReady (s : State) (core : Nat) (entry : Word) : State :=
  let t := (s.setEntryState entry 3).callDie (s.job.pdie (core / 128))
  { t with job := { t.job with ready := t.job.ready ++ [{ core := core, entry := entry }] } }

/-- `fbret` (R182). -/
def execFbret (a : Reg) (s : State) : Out :=
  .next (
    match s.ag.role with
    | .master => s.raiseCause 0x0C#8
    | .unit => s.raiseCause 0x47#8
    | .runtime =>
      match s.fibreAt (s.g a) with
      | some (2, core) => (s.pushReady core (s.g a)).advance 4
      | _ => s.raiseCause 0x47#8)

end Sys2Proof.Machine
end

