-- ==== Sys2Proof/Machine/System.lean ====
section
/-! DEFINITION. Named states, `sys` and `brk` (05_encoding_registers_assembly.md R118-R120;
06_scalar_instructions.md R153-R156; 15_work_hierarchy_scheduling.md R283, R296, R297). -/

namespace Sys2Proof.Machine

/-- How a context may use a named state: not at all (it reads zero), read, read and write, or write (R118, R119). -/
inductive NsUse where
  | none | ro | rw | wo
  deriving DecidableEq, Repr

/-- Assigned numbers (R119, R283). -/
def nsKnown (n : Nat) : Bool := n ≤ 14 || (0x400 ≤ n && n ≤ 0x40F) || n = 0x800 || n = 0x801

/-- Whether a privilege reaches a number (R118, R280). -/
def nsReach (p : Priv) (n : Nat) : Bool := n < 0x400 || (n < 0x800 && p ≠ .user) || p = .firmware

/-- The use of an assigned and reached number in a context (R119, R283). -/
def nsUse (master : Bool) (p : Priv) (n : Nat) : NsUse :=
  match n with
  | 0 | 2 | 3 | 11 | 12 | 13 | 14 => .ro
  | 1 | 7 | 8 => if master then .none else .ro
  | 4 => .rw
  | 5 => if master then .ro else .none
  | 6 | 9 => if master then .rw else .ro
  | 10 => if p = .user then .ro else .rw
  | 0x400 | 0x401 | 0x404 | 0x40C | 0x40E => .ro
  | 0x40D | 0x40F => .wo
  | _ => .rw

/-- The node on a master: the one that runs there, else one that has exited there and is not complete. -/
def Job.nodeOn (j : Job) (m : Nat) : Option (Nat × Nat × RunNode) :=
  let all := j.runs.flatMap (fun r => r.nodes.zipIdx.map (fun x => (r.id, x.2, x.1)))
  match all.find? (fun x => x.2.2.st == .running (masterId m)) with
  | some x => some x
  | none => all.find? (fun x => x.2.2.st == .exited (masterId m))

/-- Mailboxes that were filled otherwise than by `cppost` and not yet taken (R205, R207). -/
def State.strayPosts (s : State) : Nat :=
  ((List.range s.job.dies_n).map (fun v => (s.fe.filter (fun d =>
    let a := 8 * d
    isLocal a && (a - lsBase) / 2 ^ 25 = s.job.pdie v && 0x3_E000 ≤ a % 2 ^ 18 && a % 2 ^ 18 < 0x3_E020 &&
      (lookup (a % 2 ^ 18 / 8 % 4) (s.job.conduit (v * 128 + (a - lsBase) / 2 ^ 18 % 128)).posters).isNone)).length)).sum

/-- Counter of a level instance, or none when it is not live (R293, R296). -/
def State.levelCount (s : State) (kind id : Nat) : Option Nat :=
  let j := s.job
  match kind with
  | 0 => some ((j.runs.filter (fun r => r.started)).length + j.requests + s.strayPosts)
  | 1 =>
    ((j.run? id).filter (fun r => r.started)).map (fun r => (r.nodes.filter (fun n =>
      match n.st with
      | .complete | .skipped | .ended => false
      | _ => true)).length)
  | 2 => (j.nodeOn id).map (fun x =>
      (match x.2.2.st with | .running _ => 1 | _ => 0) +
        (if j.spawns.any (fun sp => sp.2.root == sp.1 && sp.2.run == x.1 && sp.2.node == x.2.1) then 1 else 0) + x.2.2.requests)
  | 3 => (lookup id j.spawns).map (fun sp =>
      (if sp.ended.isSome || j.exhausted id sp then 0 else 1) + sp.units +
        (j.spawns.filter (fun c => c.2.parent == id && c.1 != id)).length + (sp.requests - j.owedOnly id sp) + j.looseUnder id)
  | _ =>
    if id < 2 ^ 15 && (s.agent id).occupied && (s.agent id).role = .unit then some (1 + (s.agent id).nb.length) else none

/-- `lvlsel` as a level instance (R296). -/
def Job.selected (j : Job) : Nat × Nat := (field j.lvlsel.toNat 61 3, field j.lvlsel.toNat 0 48)

/-- `lvlcnt` (R296). -/
def State.lvlcnt (s : State) : Word :=
  match s.levelCount s.job.selected.1 s.job.selected.2 with
  | some n => BitVec.ofNat 64 n
  | none => 0xFFFF_FFFF_FFFF_FFFF#64

/-- Cancelling a live level instance (R295, R296). -/
def State.cancelLevel (s : State) (kind id : Nat) : State :=
  if (s.levelCount kind id).isNone then s
  else
    match kind with
    | 0 => s.endJob
    | 1 => s.cancelRun id
    | 2 =>
      match s.job.nodeOn id with
      | some (r, n, _) => s.cancelNode r n false
      | none => s
    | 3 => s.cancelSpawn id .cancelled
    | _ => s.putAgent id { s.agent id with ending := true }

/-- `runqst` (R283). -/
def Job.runqst (j : Job) : Word :=
  let q (p : Nat) : Nat := (j.runs.filter (fun r => !r.started && r.prio = p)).length
  packFields [(q 0, 0), (q 1, 8), (q 2, 16), (q 3, 24), ((j.runs.filter (fun r => r.started)).length, 32)]

/-- Value of a named state the context may read (R119, R283). -/
def State.named (s : State) (n : Nat) : Word :=
  match n with
  | 0 => BitVec.ofNat 64 s.pkg.cycle
  | 1 => s.ag.tid
  | 2 => BitVec.ofNat 64 s.agId
  | 3 => s.ag.spawnid
  | 4 => s.ag.rmode
  | 5 => s.ag.joinst
  | 6 => s.ag.upentry
  | 7 => s.ag.upcause
  | 8 => s.ag.upaddr
  | 9 => s.ag.fibpool
  | 10 => s.job.ferlimit
  | 11 => BitVec.ofNat 64 s.ag.nbload
  | 12 => BitVec.ofNat 64 s.ag.nbstore
  | 13 => BitVec.ofNat 64 (s.cpout s.ag)
  | 14 => BitVec.ofNat 64 (s.tkout s.ag)
  | 0x400 => s.job.jobid
  | 0x401 => s.job.vdcount
  | 0x402 => s.job.sqbase
  | 0x403 => s.job.sqhead
  | 0x404 => s.job.sqtail
  | 0x405 => s.job.basinov
  | 0x406 => s.job.sfibarea
  | 0x407 => s.job.tlarea
  | 0x408 => s.job.ptroot
  | 0x409 => s.job.dlbase
  | 0x40A => s.job.jobpol
  | 0x40B => s.job.lvlsel
  | 0x40C => s.lvlcnt
  | 0x40E => s.job.runqst
  | _ => 0#64

/-- `mfs` (R118, R153). -/
def execMfs (d : Reg) (n : BitVec 12) (s : State) : Out :=
  .next (
    if !nsKnown n.toNat then s.raiseCause 0x0A#8
    else if !nsReach s.ag.priv n.toNat then s.raiseCause 0x09#8
    else
      match nsUse (s.ag.role = .master) s.ag.priv n.toNat with
      | .none | .wo => s.result d 0#64
      | _ => s.result d (s.named n.toNat))

/-- LOG2N of a layout like R120's. -/
def log2nOf (v : Word) : Nat := field v.toNat 59 5

/-- Whether a value breaks the rule of a named state it is written to: cause `0x0D` (R6, R118, R153, R283). -/
def Job.refuses (j : Job) (n : Nat) (v : Word) : Bool :=
  if n = 6 then v ≠ 0#64 && (!canonical v || supervisorHalf v || v.toNat % 2 = 1)
  else if n = 9 || n = 0x406 then 20 < log2nOf v
  else if n = 10 then v.toNat % 2 ^ 32 = 0
  else if n = 0x402 then log2nOf v ≠ 0 && (log2nOf v < 4 || 20 < log2nOf v)
  else if n = 0x403 then j.queueSize < (j.sqtail.toNat + 2 ^ 32 - v.toNat % 2 ^ 32) % 2 ^ 32
  else if n = 0x405 then 24 < log2nOf v
  else if n = 0x408 then field v.toNat 0 5 < 4 || 24 < field v.toNat 0 5
  else if n = 0x40B then 4 < field v.toNat 61 3
  else if n = 0x40D then 1 < v.toNat
  else false

/-- The bits a named state holds (R85, R120, R283, R296, R300, R319, R339). -/
def nsMask (n : Nat) : Word :=
  match n with
  | 4 => 0x1F3#64
  | 9 | 0x406 | 0x405 => 0xF9FF_FFFF_FFFF_F800#64
  | 10 | 0x403 => 0xFFFF_FFFF#64
  | 0x402 => 0xF9FF_FFFF_FFFF_FFC0#64
  | 0x407 => 0x01FF_FFFF_FFFF_0000#64
  | 0x408 => 0x000F_FFFF_FFFF_F1DF#64
  | 0x409 => 0xC00F_FFFF_FFFF_F000#64
  | 0x40A => 0x3#64
  | 0x40B => 0xE000_FFFF_FFFF_FFFF#64
  | _ => 0xFFFF_FFFF_FFFF_FFFF#64

/-- A named state takes a value. -/
def State.setNamed (s : State) (n : Nat) (x : Word) : State :=
  let v := x &&& nsMask n
  match n with
  | 4 => { s with ag := { s.ag with rmode := v } }
  | 6 => { s with ag := { s.ag with upentry := v } }
  | 9 => { s with ag := { s.ag with fibpool := v } }
  | 10 => { s with job := { s.job with ferlimit := v } }
  | 0x402 => { s with job := { s.job with sqbase := v } }
  | 0x403 => { s with job := { s.job with sqhead := v } }
  | 0x405 => { s with job := { s.job with basinov := v } }
  | 0x406 => { s with job := { s.job with sfibarea := v } }
  | 0x407 => { s with job := { s.job with tlarea := v } }
  | 0x408 => { s with job := { s.job with ptroot := v } }
  | 0x409 => { s with job := { s.job with dlbase := v } }
  | 0x40A => { s with job := { s.job with jobpol := v } }
  | 0x40B => { s with job := { s.job with lvlsel := v } }
  | _ => s

/-- One turn of a write of `comctl` (R297): CSTAT's dword checked, the block read, the command run once CSTAT can be
written; the instruction completes when the command has. -/
def State.comctl (s : State) (va : Word) : State :=
  match s.readBlock va with
  | .trap s1 t => s1.raise t
  | .again t => t
  | .ok s1 ws =>
    match s1.check s1.ag.priv .store (va + 24#64) 8 with
    | .error t => s1.raise t
    | .ok (s2, loc) =>
      if (s2.writeAt (s2.writer 0) loc 8 0).isNone then ({ s2 with pkg := s2.pkg.askHost loc true }).setWait (.page (va + 24#64) loc true)
      else
        match s2.commCommand ws with
        | .waiting t => t.setWait (.again 1)
        | .finished t stat =>
          match t.writeAt (t.writer 0) loc 8 stat with
          | none => t.setWait (.again 1)
          | some (.error c) => t.raise { cause := c, addr := va + 24#64 }
          | some (.ok u) => u.advance 4

/-- `mts` (R118, R153). -/
def execMts (n : BitVec 12) (a : Reg) (s : State) : Out :=
  .next (
    let v := s.g a
    if !nsKnown n.toNat then s.raiseCause 0x0A#8
    else if !nsReach s.ag.priv n.toNat then s.raiseCause 0x09#8
    else
      match nsUse (s.ag.role = .master) s.ag.priv n.toNat with
      | .none | .ro => s.raiseCause 0x0E#8
      | _ =>
        if s.job.refuses n.toNat v then s.raiseCause 0x0D#8
        else if n = 0x40D#12 then
          let t := s.advance 4
          if v = 1#64 then t.cancelLevel t.job.selected.1 t.job.selected.2 else t
        else if n = 0x40F#12 then s.comctl v
        else (s.setNamed n.toNat v).advance 4)

/-- Whether firmware may write `vdcount` or `vdmap` (R283). -/
def Job.mayRemap (j : Job) (n : Nat) (v : Word) : Bool :=
  j.status = .suspended && (n ≠ 0x401 || [1, 2, 4, 8, 16].contains (v.toNat % 32))

/-- Firmware's write of a named state (R283): `fjob` says which job `0x400` to `0x40F` refer to. A value that a rule refuses,
and a job that is not there, leave everything as it is. -/
def State.firmwareWrite (s : State) (n : Nat) (v : Word) : State :=
  let t := s.focusJob s.pkg.fjob
  if n = 0x800 then { s with pkg := { s.pkg with fjob := v.toNat % 16 } }
  else if t.job.status = .absent || t.job.refuses n v then s
  else
    match n with
    | 0x400 => { t with job := { t.job with jobid := v &&& 0xF#64 } }
    | 0x401 => if t.job.mayRemap n v then { t with job := { t.job with vdcount := v &&& 0x1F#64 } } else s
    | 0x801 => if t.job.mayRemap n v then { t with job := { t.job with vdmap := v } } else s
    | 0x40D => if v = 1#64 then t.cancelLevel t.job.selected.1 t.job.selected.2 else s
    | 0x40F => (t.firmwareComm v (fun _ => true)).getD s
    | _ => if n = 10 || (0x402 ≤ n && n ≤ 0x40B && n ≠ 0x404) then t.setNamed n v else s

/-- Firmware's read of a named state (R283): what it returns. -/
def State.firmwareRead (s : State) (n : Nat) : Word :=
  if n = 0x800 then BitVec.ofNat 64 s.pkg.fjob
  else if n = 0x801 then (s.focusJob s.pkg.fjob).job.vdmap
  else if n = 0 || n = 10 || (0x400 ≤ n && n ≤ 0x40F && n ≠ 0x40D && n ≠ 0x40F) then (s.focusJob s.pkg.fjob).named n
  else 0#64

/-- A node's master leaves it (R13, R155): the node awaits its requests. The supervisor runs no node. -/
def State.exitNode (s : State) : State :=
  if s.ag.priv = .supervisor then s.advance 4
  else (s.onNode s.ag.run s.ag.node (fun n => { n with st := .exited s.agId })).vacate

/-- `sys` (R155). -/
def execSys (n : BitVec 12) (s : State) : Out :=
  .next (
    if n = 0#12 then
      if s.inSlot then s.raiseCause 0x0C#8
      else if s.ag.spawnid ≠ 0#64 then s.raiseCause 0x44#8
      else s.drained .sysExit State.exitNode
    else (s.advance 4).raise { cause := 0xA0#8, info := n.setWidth 64 })

/-- `brk` (R156): the recorded pc is that of the next instruction, the address that of the `brk`. -/
def execBrk (n : BitVec 12) (s : State) : Out :=
  .next ((s.advance 4).raise { cause := 0xA1#8, addr := s.ag.pc, info := n.setWidth 64 })

end Sys2Proof.Machine
end

