-- ==== Sys2Proof/Machine/Graph.lean ====
section
/-! DEFINITION. Graphs and runs (15_work_hierarchy_scheduling.md R285-R295, R298): uploads, triggers, patch lists, node
resolution, node start and completion, run completion and cancelling. -/

namespace Sys2Proof.Machine

/-- Whether a job's scheduler answers the host (R286). -/
def State.answers (s : State) : Bool := s.job.status = .running || s.job.status = .halting

/-- Whether the graph scheduler works: not while a record of its own waits for queue room (R320). -/
def State.graphWorks (s : State) : Bool := s.answers && !s.job.graphPosting

/-- Address whose bits 56:6 a register holds in bits 50:0 (R286, R288). -/
def addr6 (v : Word) : Word :=
  let n := field v.toNat 0 51 * 64
  BitVec.ofNat 64 (if n / 2 ^ 56 = 1 then n + 0xFE00_0000_0000_0000 else n)

/-- Graph id of a register write. -/
def graphId (v : Word) : Nat := field v.toNat 51 8

/-- The accesses of the graph scheduler: its reads and writes are those of one requester, at U. -/
def schedulerChunk : Chunk := { request := 0, chunk := 0, priv := .user }

/-- The record of a cause of the graph scheduler (R321). -/
def State.graphRecord (s : State) (t : Trap) (run : Nat) : State :=
  ({ s with pkg := s.pkg.metRefusal schedulerChunk.request t }).postRecord (trapRecord 8 t.subr 0 0 t.cause.toNat 0#64 t.addr 0#64 (BitVec.ofNat 64 run) 0#64 0#64 s.pkg.cycle)

/-- Parts of a graph node (R285). -/
def GraphNode.conditional (n : GraphNode) : Bool := field n.dword0.toNat 62 2 = 1
def GraphNode.nsucc (n : GraphNode) : Nat := field n.dword0.toNat 32 14
def GraphNode.succ0 (n : GraphNode) : Nat := field n.dword0.toNat 0 14

/-- Edges that leave node `i`, as (condition, target). -/
def Graph.out (g : Graph) (i : Nat) : List (Nat × Nat) :=
  match g.nodes[i]? with
  | some n => ((g.edges.drop n.succ0).take n.nsucc).map (fun e => (field e.toNat 62 2, e.toNat % 2 ^ 12))
  | none => []

/-- Edges into node `k`, as (source, condition). -/
def Graph.into (g : Graph) (k : Nat) : List (Nat × Nat) :=
  (List.range g.nodes.length).flatMap (fun i => ((g.out i).filter (fun e => e.2 == k)).map (fun e => (i, e.1)))

/-- Nodes left when sources are taken away again and again: none exactly when there is no cycle. -/
def Graph.peel (g : Graph) : Nat → List Nat → List Nat
  | 0, l => l
  | n + 1, l => g.peel n (l.filter (fun k => (g.into k).any (fun e => l.contains e.1)))

/-- Whether a node entry keeps to R285. -/
def GraphNode.ok (n : GraphNode) (edges : List Word) : Bool :=
  let d := n.dword0.toNat
  field d 62 2 ≤ 1 && field d 46 10 = 0 && field d 14 18 = 0 && n.succ0 + n.nsucc ≤ edges.length &&
    canonical n.entry && !supervisorHalf n.entry && n.entry.toNat % 2 = 0 &&
    (if n.conditional then n.pred.toNat % 8 = 0 else n.pred = 0#64) &&
    (n.conditional || ((edges.drop n.succ0).take n.nsucc).all (fun e => field e.toNat 62 2 = 0))

/-- Whether an image keeps to R285, its header given. -/
def Graph.ok (g : Graph) (head : List Nat) : Bool :=
  field (head.getD 0 0) 0 30 = 0 && (head.drop 2).all (· == 0) && g.nodes.length ≤ 4096 && g.edges.length ≤ 16384 &&
    g.nodes.all (fun n => n.ok g.edges) &&
    g.edges.all (fun e => field e.toNat 62 2 ≤ 2 && field e.toNat 12 50 = 0 && e.toNat % 2 ^ 12 < g.nodes.length) &&
    g.peel g.nodes.length (List.range g.nodes.length) = []

/-- A graph from its header and the dwords after it. -/
def graphOf (head body : List Nat) : Graph :=
  let n := field (head.getD 0 0) 48 16
  let w (i : Nat) : Word := BitVec.ofNat 64 (body.getD i 0)
  { rpol := field (head.getD 0 0) 30 2, donea := BitVec.ofNat 64 (head.getD 1 0)
    nodes := (List.range n).map (fun i => { dword0 := w (4 * i), entry := w (4 * i + 1), args := w (4 * i + 2), pred := w (4 * i + 3) })
    edges := (body.drop (4 * n)).map (BitVec.ofNat 64) }

/-- Bytes a graph takes of the scheduler memory (R287). -/
def Graph.bytes (g : Graph) : Nat := 64 + 32 * g.nodes.length + 8 * g.edges.length
def Job.graphBytes (j : Job) : Nat := (j.graphs.map (fun g => g.2.bytes)).sum

/-- An upload ends with a result (R286). -/
def State.uploadEnds (s : State) (id res : Nat) : State :=
  { s with
    job := { s.job with gstat := packFields [(res, 60), (id, 0)], upload := none }
    pkg := if res = 5 then s.pkg.metRefusal schedulerChunk.request { cause := 0x3F#8, subr := 2 } else s.pkg }

/-- A read of an upload stopped: a page fault goes to the supervisor and the upload goes on after service; any other
fault ends it. -/
def State.uploadStops (s : State) (v : Word) : Eng (List Nat) → State
  | .wait t => { t with job := { t.job with upload := some (v, addr6 v) } }
  | .fault t =>
    if pageFault t.cause then
      let u := { s with job := { s.job with upload := some (v, t.addr) } }
      if s.job.upload = some (v, t.addr) then u else u.graphRecord t 0
    else (s.afterEngine .user t).uploadEnds (graphId v) 5
  | .bad t => t.uploadEnds (graphId v) 5
  | .ok t _ => t.uploadEnds (graphId v) 5

/-- Whether a graph has a run queued or in flight. -/
def Job.graphBusy (j : Job) (id : Nat) : Bool := j.runs.any (fun r => r.graph == id)

/-- An upload's image takes the place of the graph it names. A run may have been triggered while the upload waited for a page:
the graph is then busy, and the upload is refused. DESIGN CHOICE: log entry 90. -/
def State.uploadTakes (s : State) (id : Nat) (g : Option Graph) : State :=
  if s.job.graphBusy id then s.uploadEnds id 2
  else
    ({ s with job := { s.job with
        graphs := match g with | some x => assign id x s.job.graphs | none => remove id s.job.graphs } }).uploadEnds id 1

/-- An upload from the reading of its image on (R287). -/
def State.uploadStep (s : State) (v : Word) : State :=
  let id := graphId v
  match State.engReads schedulerChunk (items (addr6 v) 8 8) s with
  | .ok s1 head =>
    let n := field (head.getD 0 0) 48 16
    let e := field (head.getD 0 0) 32 16
    if n = 0 then s1.uploadTakes id none
    else if 4096 < n || 16384 < e then s1.uploadEnds id 4
    else
      match State.engReads schedulerChunk (items (addr6 v + 64#64) 8 (4 * n + e)) s1 with
      | .ok s2 body =>
        let g := graphOf head body
        let others := (remove id s2.job.graphs).map (fun x => x.2.bytes)
        if !g.ok head then s2.uploadEnds id 4
        else if 2 ^ 22 < others.sum + (s2.jobs.map (fun x => x.2.graphBytes)).sum + g.bytes then s2.uploadEnds id 3
        else s2.uploadTakes id (some g)
      | r => s1.uploadStops v r
  | r => s.uploadStops v r

/-- GRAPH_UPLOAD (R287). -/
def tryGraphUpload (v : Word) (s : State) : Option State :=
  if !s.answers then none
  else if s.job.graphBusy (graphId v) then some (s.uploadEnds (graphId v) 2)
  else if s.job.graphPosting then some { s with job := { s.job with upload := some (v, addr6 v) } }
  else some (s.uploadStep v)
def execGraphUpload (v : Word) (s : State) : Out := passing s (tryGraphUpload v s)

/-- RUN_TRIGGER (R288). -/
def tryRunTrigger (v : Word) (s : State) : Option State :=
  if !s.answers then none
  else
    let prio := field v.toNat 62 2
    let refused := { s with job := { s.job with runRefused := min (s.job.runRefused + 1) 0xFFFF } }
    match lookup (graphId v) s.job.graphs with
    | none => some refused
    | some g =>
      if field v.toNat 59 3 ≠ 0 || 64 ≤ (s.job.runs.filter (fun r => !r.started && r.prio = prio)).length then some refused
      else
        let node : RunNode := { st := .waiting, pred := false, requests := 0, retries := 0, ending := false, restart := false }
        let r : Run :=
          { id := s.job.nextRun, prio := prio, graph := graphId v, plist := addr6 v, started := false
            nodes := List.replicate g.nodes.length node, cancelled := false, patched := none, rejected := false, faulted := none }
        some { s with job := { s.job with runs := s.job.runs ++ [r], nextRun := s.job.nextRun + 1 } }
def execRunTrigger (v : Word) (s : State) : Out := passing s (tryRunTrigger v s)

/-- Whether a node of a run has come to its end. -/
def RunNode.final (n : RunNode) : Bool :=
  match n.st with
  | .complete | .skipped | .ended => true
  | _ => false

/-- STATUS of a run that is over (R292). -/
def Run.status (r : Run) : Nat :=
  if r.rejected then 4 else if r.cancelled then 3 else if r.nodes.any (fun n => n.st == .ended) then 2 else 1

/-- A run leaves the scheduler, RUNDONE rises (R292). -/
def State.runLeaves (s : State) (id : Nat) : State :=
  { s with job := { s.job with runs := s.job.runs.filter (fun r => !(r.id == id)), runDone := s.job.runDone + 1 } }

/-- The supervisor told of a page fault of a run, once for an address. -/
def State.runFault (s : State) (r : Run) (t : Trap) : State :=
  if r.faulted = some t.addr then s
  else (s.onRun r.id (fun q => { q with faulted := some t.addr })).graphRecord t r.id

/-- The completion dword of a run written, and the run gone (R292). -/
def State.finishRun (s : State) (r : Run) : State :=
  let donea := ((lookup r.graph s.job.graphs).map (fun g => g.donea)).getD 0#64
  if donea = 0#64 then s.runLeaves r.id
  else
    match s.completionWrite schedulerChunk (engineWriter 0) true donea (r.status * 2 ^ 60 + r.id % 2 ^ 60) with
    | .ok t () => t.runLeaves r.id
    | .wait t => t
    | .bad t => t.runLeaves r.id
    | .fault t => if pageFault t.cause then s.runFault r t else ((s.afterEngine .user t).runLeaves r.id).graphRecord t r.id

/-- A run finished if every node of it is over, while no record of the scheduler waits (R320). -/
def State.finishIfOver (s : State) (id : Nat) : State :=
  match s.job.run? id with
  | some r => if r.nodes.all RunNode.final && !s.job.graphPosting then s.finishRun r else s
  | none => s

/-- What resolving a node reads. -/
inductive Predicate where
  | value (s : State) (b : Bool)
  | later (s : State)

/-- The predicate of a node at its resolution (R291): one load for a conditional node. A page fault is serviced and the
node resolves after it; for any other fault the manual gives the predicate no value. -/
def State.predicate (s : State) (r : Run) (n : GraphNode) : Predicate :=
  if !n.conditional then .value s false
  else
    match s.engRead schedulerChunk n.pred 8 with
    | .ok t x => .value t (x ≠ 0)
    | .wait t => .later t
    | .bad u =>
      let (x, t) := u.fresh
      .value (t.graphRecord { cause := 0x60#8, addr := n.pred } r.id) (x ≠ 0#64)
    | .fault c =>
      if pageFault c.cause then .later (s.runFault r c)
      else
        let (x, t) := (s.afterEngine .user c).fresh
        .value (t.graphRecord c r.id) (x ≠ 0#64)

/-- Whether an edge is enabled (R291). -/
def Run.enabled (r : Run) (e : Nat × Nat) : Bool :=
  match r.nodes[e.1]? with
  | some n => n.st == .complete && (e.2 = 0 || (e.2 = 1 && n.pred) || (e.2 = 2 && !n.pred))
  | none => false

/-- Whether a waiting node is to be resolved (R291). -/
def Run.resolvable (r : Run) (g : Graph) (k : Nat) : Bool :=
  (r.nodes[k]?).any (fun n => n.st == .waiting) && (g.into k).all (fun e => (r.nodes[e.1]?).any RunNode.final)

/-- One node resolved (R291): none if it waits for its predicate. -/
def State.resolve (s : State) (r : Run) (g : Graph) (k : Nat) : State :=
  match g.nodes[k]? with
  | none => s
  | some n =>
    match s.predicate r n with
    | .later t => t
    | .value t b =>
      let runs := (g.into k).isEmpty || (g.into k).any r.enabled
      t.onNode r.id k (fun x => { x with pred := b, st := if runs then .ready t.pkg.cycle else .skipped })

/-- Nodes resolved until none more resolves, or a record of the scheduler has to wait (R320): a skipped node resolves its
successors. -/
def State.resolveAll (id : Nat) (g : Graph) : Nat → State → State
  | 0, s => s
  | fuel + 1, s =>
    match (if s.job.graphPosting then none else s.job.run? id) with
    | none => s
    | some r =>
      match (List.range g.nodes.length).filter (r.resolvable g) with
      | [] => s
      | ks => State.resolveAll id g fuel (ks.foldl (fun t k => if t.job.graphPosting then t else t.resolve r g k) s)

/-- The nodes of a run resolved as far as they can be, and the run finished if that ends it. -/
def State.runStep (s : State) (id : Nat) : State :=
  match (s.job.run? id).bind (fun r => lookup r.graph s.job.graphs) with
  | some g => (State.resolveAll id g g.nodes.length s).finishIfOver id
  | none => s.finishIfOver id

/-- The rejection of a run with its cause (R290). -/
def State.rejectRun (s : State) (id : Nat) (t : Trap) : State :=
  ((s.onRun id (fun r => { r with
    rejected := true, patched := none, nodes := r.nodes.map (fun n => { n with st := .skipped }) })).graphRecord t id).finishIfOver id

/-- One entry of a patch list in rule (R290). -/
def patchOk (n : Nat) (e : Nat) : Bool :=
  field e 40 8 = 0 && field e 16 22 = 0 && field e 48 16 < n && e % 2 ^ 16 % 2 ^ field e 38 2 = 0

/-- Entries written in order, from the `i`-th (R290). -/
def State.patch (g : Graph) (id : Nat) : List (Nat × Nat) → Nat → State → State
  | [], _, s => (({ s with job := { s.job with lastRun := id } }).onRun id (fun r => { r with patched := none })).runStep id
  | (e, v) :: rest, i, s =>
    let width := 2 ^ field e 38 2
    let va := ((g.nodes[field e 48 16]?).map (fun n => n.args)).getD 0#64 + BitVec.ofNat 64 (e % 2 ^ 16)
    let hold (t : State) : State := t.onRun id (fun r => { r with patched := some i })
    match s.engSpot schedulerChunk va width with
    | .ok t sp => State.patch g id rest (i + 1) (t.store (engineWriter 0) sp.1 width (v % 2 ^ (8 * width)) sp.2)
    | .wait t => hold t
    | .bad t => hold t
    | .fault t =>
      if pageFault t.cause then
        match (hold s).job.run? id with
        | some r => (hold s).runFault r t
        | none => s
      else (s.afterEngine .user { t with info := 1#64 }).rejectRun id t

/-- A run starts, or goes on after a serviced page fault: its patch list is read, checked and applied from entry `i`,
and its first nodes resolved (R289-R291). -/
def State.startRun (s : State) (r : Run) (g : Graph) (i : Nat) : State :=
  let s0 := s.onRun r.id (fun q => { q with started := true, patched := some i })
  let stop (x : Eng (List Nat)) : State :=
    match x with
    | .wait t => t
    | .fault t => if pageFault t.cause then s0.runFault r t else (s0.afterEngine .user t).rejectRun r.id t
    | .bad t | .ok t _ => t.rejectRun r.id { cause := 0x62#8, addr := r.plist }
  if r.plist = 0#64 then State.patch g r.id [] 0 s0
  else
    match State.engReads schedulerChunk (items r.plist 8 2) s0 with
    | .ok s1 head =>
      let count := head.getD 0 0
      if 2 ^ 11 ≤ count || count = 0 || 1024 < count || head.getD 1 0 ≠ 0 then s1.rejectRun r.id { cause := 0x92#8 }
      else
        match State.engReads schedulerChunk (items (r.plist + 16#64) 8 (2 * count)) s1 with
        | .ok s2 ws =>
          let es := (List.range count).map (fun k => (ws.getD (2 * k) 0, ws.getD (2 * k + 1) 0))
          if es.all (fun e => patchOk g.nodes.length e.1) then State.patch g r.id (es.drop i) i s2
          else s2.rejectRun r.id { cause := 0x92#8 }
        | x => stop x
    | x => stop x

/-- The next run to start (R289, R298). -/
def Job.nextToStart (j : Job) : Option Run :=
  let flying := j.runs.filter (fun r => r.started)
  if 16 ≤ flying.length then none
  else
    [3, 2, 1, 0].findSome? (fun p => j.runs.find? (fun r => !r.started && r.prio == p && flying.all (fun f => f.graph != r.graph)))

/-- Whether what stopped a read or write at an address has been serviced. -/
def State.serviced (s : State) (f : Form) (va : Option Word) : Bool :=
  match va with
  | none => true
  | some a =>
    match s.check .user f a 1 with
    | .ok _ => true
    | .error t => !pageFault t.cause

/-- RUN_START (R289): a run whose patching was suspended goes on, else the next queued run starts. -/
def tryRunStart (s : State) : Option State :=
  if !s.working || s.job.graphPosting then none
  else
    match s.job.runs.find? (fun r => r.patched.isSome && s.serviced .engWrite r.faulted) with
    | some r =>
      match lookup r.graph s.job.graphs with
      | some g => some (s.startRun r g (r.patched.getD 0))
      | none => none
    | none =>
      match s.job.nextToStart with
      | some r =>
        match lookup r.graph s.job.graphs with
        | some g => some (s.startRun r g 0)
        | none => none
      | none => none
def execRunStart (s : State) : Out := passing s (tryRunStart s)

/-- Whether a master may take a node (R281, R298). -/
def State.masterFree (s : State) (m : Nat) : Bool :=
  let a := s.agent (masterId m)
  !a.occupied && !a.reserved && !a.dbgStopped && !s.job.posting (masterId m)

/-- Ready nodes as (priority, since, run, node). -/
def Job.readyNodes (j : Job) : List (Nat × Nat × Nat × Nat) :=
  j.runs.flatMap (fun r => r.nodes.zipIdx.filterMap (fun x =>
    match x.1.st with
    | .ready t => some (r.prio, t, r.id, x.2)
    | _ => none))

/-- The order of R298 on ready nodes. -/
def nodeBefore (a b : Nat × Nat × Nat × Nat) : Bool :=
  let (p, t, r, n) := a
  let (p', t', r', n') := b
  p' < p || (p = p' && (t < t' || (t = t' && (r < r' || (r = r' && n < n')))))

/-- The first in that order. -/
def firstNode : List (Nat × Nat × Nat × Nat) → Option (Nat × Nat × Nat × Nat)
  | [] => none
  | x :: t =>
    match firstNode t with
    | none => some x
    | some y => if nodeBefore y x then some y else some x

/-- A node started on a master (R291). -/
def State.startNode (s : State) (m run node : Nat) (g : GraphNode) : State :=
  let a : Agent := { Agent.vacant with
    role := .master, priv := .user, occupied := true, pc := g.entry
    g := (Vector.replicate 32 0#64 |>.set 1 g.args |>.set 2 (BitVec.ofNat 64 run)), run := run, node := node
    dbgStopped := (s.agent (masterId m)).dbgStopped }
  ((s.putAgent (masterId m) a).setAccounted (masterId m) (s.pkg.cycle + 1)).onNode run node (fun x => { x with st := .running (masterId m) })

/-- NODE_START (R298). -/
def tryNodeStart (s : State) : Option State :=
  if !s.working || s.job.graphPosting then none
  else
    match firstNode s.job.readyNodes, ((List.range (2 * s.job.dies_n)).drop 1).find? s.masterFree with
    | some (_, _, run, node), some m =>
      match s.job.graphNode run node with
      | some g => some (s.startNode m run node g)
      | none => none
    | _, _ => none
def execNodeStart (s : State) : Out := passing s (tryNodeStart s)

/-- Whether a node has no spawn left. -/
def Job.spawnless (j : Job) (run node : Nat) : Bool :=
  j.spawns.all (fun x => !(x.2.root == x.1 && x.2.run == run && x.2.node == node))

/-- Whether a node that has exited comes to its end: its requests and its spawn are gone (R292, R295), and no cause is owed under
it (log entry 86). -/
def Job.nodeEnds (j : Job) (run node : Nat) (n : RunNode) : Bool :=
  (match n.st with | .exited _ => true | _ => false) && n.requests = 0 && j.spawnless run node &&
    !j.owing.any (fun o => o.run == run && o.node == node)

/-- NODE_COMPLETION (R291, R292, R294, R295): a node ends, its successors resolve, and the run completes if it is over.
Also what of these a page fault had held up. -/
def tryNodeCompletion (run node : Nat) (s : State) : Option State :=
  match s.job.run? run, s.job.node? run node with
  | some r, some n =>
    if !s.graphWorks || !r.started || r.patched.isSome then none
    else if s.job.nodeEnds run node n then
      let st : NodeState := if n.ending then (if n.restart then .ready s.pkg.cycle else .ended) else .complete
      some ((s.onNode run node (fun x => { x with st := st, ending := false, restart := false })).runStep run)
    else
      match lookup r.graph s.job.graphs with
      | some g =>
        if ((List.range g.nodes.length).any (r.resolvable g) && s.serviced .engRead r.faulted) ||
            (r.nodes.all RunNode.final && s.serviced .engFlag r.faulted) then some (s.runStep run)
        else none
      | none => none
  | _, _ => none
def execNodeCompletion (run node : Nat) (s : State) : Out := passing s (tryNodeCompletion run node s)

/-- RUN_CANCEL (R295): a queued run leaves at once, one in flight is cancelled; any other id does nothing. -/
def tryRunCancel (v : Word) (s : State) : Option State :=
  if !s.answers then none
  else
    match s.job.run? (v.toNat % 2 ^ 48) with
    | none => some s
    | some r =>
      if r.started then some ((s.cancelRun r.id).finishIfOver r.id)
      else
        some ((s.onRun r.id (fun q => { q with
          started := true, cancelled := true, nodes := q.nodes.map (fun n => { n with st := .skipped }) })).finishIfOver r.id)
def execRunCancel (v : Word) (s : State) : Out := passing s (tryRunCancel v s)

/-- A suspended upload goes on once what stopped it has been serviced (R287). -/
def tryUploadResume (s : State) : Option State :=
  match s.job.upload with
  | some (v, va) =>
    if s.graphWorks && s.serviced .engRead (some va) then some (s.uploadStep v) else none
  | none => none
def execUploadResume (s : State) : Out := passing s (tryUploadResume s)

/-- A write to the job page (R286): of any other width than 8 bytes, or misaligned, it is counted as refused; a register the
host may not write ignores it. -/
def State.writeJobPage (s : State) (off size : Nat) (v : Word) : Option State :=
  if !s.answers then none
  else if size ≠ 8 || off % 8 ≠ 0 then
    some { s with job := { s.job with runRefused := min (s.job.runRefused + 1) 0xFFFF } }
  else
    match off with
    | 0 => tryRunTrigger v s
    | 0x10 => tryGraphUpload v s
    | 0x20 => tryRunCancel v s
    | _ => some s

/-- LVLCMD_CANCEL (R296): firmware's write of 1 to the job's `lvlcmd` cancels the selected instance, if it is live. -/
def tryLvlcmdCancel (s : State) : Option State :=
  if s.answers then some (s.cancelLevel s.job.selected.1 s.job.selected.2) else none
def execLvlcmdCancel (s : State) : Out := passing s (tryLvlcmdCancel s)

end Sys2Proof.Machine
end

