-- ==== Sys2Proof/Machine/TileEngine.lean ====
section
/-! DEFINITION. The tile task schedulers and the accumulators (04_block_exponent_accumulators.md R96-R114;
09_engine_instructions_records.md R222-R231): dispatch, key order, one K-block of one tile row at a time, readout, images,
and completion. -/

namespace Sys2Proof.Machine

/-- B4 formats, and whether a format has a scale array (R225). -/
def bfmtIsB4 (f : Nat) : Bool := f = 1 || f = 6
def bfmtScaled (f : Nat) : Bool := 2 ≤ f && f ≤ 6

/-- Bits of dword 0 an operation uses (R224). -/
def taskMask (op : Nat) : Nat :=
  0xFC00_0000_0000_FF00 + (if op = 4 then 0 else 0xFFFF_0000) +
    (match op with
     | 0 => 0x03E0_0000_0000_0000
     | 1 => 0x001F_F000_0000_0000
     | 2 => 0x0000_0E00_0000_0000
     | _ => 0)

/-- Bytes of an element of A in the nappe buffer, and of one layout block with its exponent bytes (R225). -/
def aElem (r : List Word) : Nat :=
  match taskAfmt r with
  | 0 => if 12 ≤ taskPa r then 2 else 1
  | 1 | 2 => 1
  | 3 | 4 => 2
  | _ => 4
def aNblk (r : List Word) : Nat := if taskAfmt r = 0 && taskPa r = 4 then 16 else 32
def aBlock (r : List Word) : Nat := 16 * aNblk r * aElem r + (if taskAfmt r = 0 then 16 else 0)

/-- Whether a dependence's handle is in range (R228). -/
def Job.depOk (j : Job) (d : Nat) : Bool :=
  match d / 2 ^ 62 with
  | 0 => d = 0
  | k => field d 58 4 < j.dies_n && field d 48 10 < (if k = 1 then 64 else if k = 2 then 128 else 32)

/-- The timeline a handle names (R228). -/
def State.timeline (s : State) (d : Nat) : Nat :=
  let die := field d 58 4
  let i := field d 48 10
  match d / 2 ^ 62 with
  | 1 => (lookup i (s.job.tile die).timelines).getD 0
  | 2 => s.readNat (s.counterCell (die * 128 + i)) 8
  | _ => (lookup (i % 16) (s.job.msEngine (die * 2 + i / 16)).timelines).getD 0

/-- Whether a dependence is satisfied (R228); one out of range holds nothing up, so that its task is rejected. -/
def State.depMet (s : State) (d : Nat) : Bool :=
  !s.job.depOk d || d = 0 || (s.timeline d % 2 ^ 48 + 2 ^ 48 - d % 2 ^ 48) % 2 ^ 48 < 2 ^ 47

/-- The checks of R224 on a record; `gr` is the accumulator's, where it exists. -/
def Job.taskOk (j : Job) (die : Nat) (r : List Word) (gr : Option Nat) : Bool :=
  let op := taskOp r
  let a := r.getD 1 0#64
  let rowsFit := match gr with | some g => taskRow0 r + taskRows r ≤ 64 * g | none => true
  op ≤ 5 && Nat.land (dw r 0) (2 ^ 64 - 1 - taskMask op) = 0 && (op = 1 || dw r 1 = 0) &&
    ((1 ≤ op && op ≤ 4) || dw r 2 = 0) && (op = 2 || (op = 1 && bfmtScaled (taskBfmt r)) || dw r 3 = 0) &&
    dw r 4 / 2 ^ 40 = 0 && (op = 1 || taskNkb r = 0) && (op = 1 || op = 2 || dw r 4 = 0) && j.depOk (dw r 5) &&
    j.depOk (dw r 6) &&
    match op with
    | 0 => taskGr r ≠ 0 && taskGc r ≠ 0
    | 1 =>
      taskAfmt r ≤ 5 && taskBfmt r ≤ 6 && 1 ≤ taskNkb r && taskNkb r ≤ (if bfmtIsB4 (taskBfmt r) then 16 else 8) &&
        taskRows r ≠ 0 && taskRows r % 16 = 0 && taskRow0 r % 16 = 0 && rowsFit && inWindow a && field a.toNat 29 3 = 0 &&
        field a.toNat 25 4 = die && field a.toNat 0 18 + taskRows r / 16 * taskNkb r * aBlock r ≤ 0x3_C000
    | 2 => taskRows r ≠ 0 && rowsFit
    | _ => true

/-- Tile engines of a die (00_scope.md), and those no accumulator holds. -/
def tileEngines : Nat := 64
def Tile.free (t : Tile) : List Nat :=
  (List.range tileEngines).filter (fun e => t.accs.all (fun a => !a.2.engines.contains e))

/-- A task changed with its STATUS written (R227). -/
def State.setTask (s : State) (die : Nat) (t : Task) : State :=
  (s.onTile die (fun x => { x with
    tasks := x.tasks.map (fun y => if y.list = t.list && y.ticket = t.ticket then t else y) })).writeStatus t

/-- Whether the spawn a request counts under has been cancelled or contained (R107). -/
def State.posterEnded (s : State) (p : Poster) : Bool :=
  match p.level with
  | .spawn id =>
    match lookup id s.job.spawns with
    | some sp => sp.ended.isSome
    | none => true
  | _ => false

/-- A task in a final state (R227) with the cause its completion raises, which is its CAUSE; without one CAUSE is the task's own. -/
def State.taskEnd (s : State) (die : Nat) (t : Task) (st : Nat) (trap : Option Trap) : State :=
  s.setTask die { t with state := st, cause := (trap.map (fun x => x.cause.toNat)).getD t.cause, trap := trap, hold := .going }
def State.taskReject (s : State) (die : Nat) (t : Task) (c : Byte) : State := s.taskEnd die t 6 (some { cause := c })

/-- Key that follows (R106). -/
def nextKeyOf (k : Nat) : Nat := (k + 1) % 2 ^ 16

/-- NEXTKEY past the skipped keys before `k`, if every key before it is skipped (R107). -/
def closeGap (skipped : List Nat) (k : Nat) : Nat → Nat → Option Nat
  | 0, n => if n = k then some n else none
  | fuel + 1, n => if n = k then some n else if skipped.contains n then closeGap skipped k fuel (nextKeyOf n) else none

/-- NEXTKEY brought up to an arriving key over skipped ones (R107). -/
def Acc.arrive (a : Acc) (k : Nat) : Acc :=
  match closeGap a.skipped k a.skipped.length a.nextKey with
  | some n =>
    { a with nextKey := n, skipped := a.skipped.filter (fun x => !((x + 2 ^ 16 - a.nextKey) % 2 ^ 16 < (n + 2 ^ 16 - a.nextKey) % 2 ^ 16)) }
  | none => a

/-- An operation that waits or runs under its key: the key is no longer skipped (R106, R107). -/
def Acc.unskip (a : Acc) (k : Nat) : Acc := { a with skipped := a.skipped.filter (fun x => x ≠ k) }

/-- An operation begins to be applied (R106). -/
def State.startOp (s : State) (die h : Nat) (t : Task) : State :=
  let u := s.onAcc die h (fun a => { a.unskip (taskKey t.record) with
    current := some (t.list, t.ticket)
    rows := a.rows.map (fun r => { r with block := 0, told := false }) })
  u.setTask die { t with state := 3 }

/-- The held operation whose key is next is applied; a cancelled one completes with state 7 and its key is skipped; a gap
of skipped keys closes when the operation after it is held (R106, R107). -/
def State.advanceAcc (die h : Nat) : Nat → State → State
  | 0, s => s
  | fuel + 1, s =>
    match lookup h (s.job.tile die).accs with
    | none => s
    | some a =>
      if a.current.isSome then s
      else
        match a.held.find? (fun x => (closeGap a.skipped x.1 a.skipped.length a.nextKey).isSome) with
        | none => s
        | some (k, list, ticket) =>
          let u := s.onAcc die h (fun b => { b.arrive k with held := b.held.filter (fun y => !(y.1 == k)) })
          match u.job.task? die list ticket with
          | none => u
          | some t =>
            if u.posterEnded t.poster then
              State.advanceAcc die h fuel ((u.onAcc die h (fun b => { b with skipped := k :: b.skipped })).taskEnd die t 7 none)
            else u.startOp die h t

def State.advance1 (s : State) (die h : Nat) : State := State.advanceAcc die h 17 s

/-- The operation in hand ends in a final state; its key's successor is next (R106, R231). -/
def State.opEnd (s : State) (die h : Nat) (t : Task) (st : Nat) (trap : Option Trap) : State :=
  let blocks := if taskOp t.record = 1 then ((lookup h (s.job.tile die).accs).map (fun a => a.applied t.record)).getD 0 else 0
  ((s.taskEnd die { t with blocks := blocks } st trap).onAcc die h (fun a => { a with
    current := none, nextKey := nextKeyOf (taskKey t.record) })).advance1 die h

/-- Who makes a task's engine accesses, in the part of it that is in hand. -/
def Task.by_ (die : Nat) (t : Task) : Chunk :=
  { request := requestId 4 (listHandle die t.list) t.ticket, chunk := t.row, priv := t.poster.priv }

/-- A fault of a task's engine accesses (R231): a page fault suspends it, any other ends it in state 9. `stop` ends it. -/
def State.taskFault (s : State) (die h : Nat) (t : Task) (c : Trap) (stop : State → Task → Nat → Option Trap → State) : State :=
  if pageFault c.cause then
    let blocks := if taskOp t.record = 1 then ((lookup h (s.job.tile die).accs).map (fun a => a.applied t.record)).getD 0 else 0
    ((s.tick die h).setTask die { t with state := 4, hold := .suspended, blocks := blocks }).requestRecord 4 c (listHandle die t.list)
      t.ticket t.poster
  else stop (s.afterEngine t.poster.priv c) t 9 (some c)

/-- Oldest undispatched task of a list (R229). -/
def Tile.head (t : Tile) (list : Nat) : Option Task := t.tasks.find? (fun x => x.list == list && !x.dispatched)

/-- Whether a head is eligible (R229). -/
def State.eligible (s : State) (die : Nat) (t : Task) : Bool :=
  let tile := s.job.tile die
  s.depMet (dw t.record 5) && s.depMet (dw t.record 6) &&
    (if taskOp t.record = 0 then
       let waiting := ((tile.tasks.filter (fun x => x.dispatched && x.state = 3 && taskOp x.record = 0)).map
         (fun x => taskGr x.record * taskGc x.record)).sum
       waiting + taskGr t.record * taskGc t.record ≤ tile.free.length
     else
       match lookup (taskHandle t.record) tile.accs with
       | some a =>
        (a.held.filter (fun x => !(s.job.task? die x.2.1 x.2.2).any (fun y => s.posterEnded y.poster))).length < 16
       | none => true)

/-- The list whose head is dispatched: highest PRIO, then the first list after the last one served at that PRIO (R229). -/
def State.nextList (s : State) (die : Nat) : Option (Nat × Task) :=
  let tile := s.job.tile die
  let heads := (List.range 64).filterMap (fun l => (tile.head l).bind (fun t => if s.eligible die t then some (l, t) else none))
  match heads with
  | [] => none
  | _ =>
    let p := (heads.map (fun x => taskPrio x.2.record)).foldl max 0
    let best := heads.filter (fun x => taskPrio x.2.record = p)
    let last := (lookup p tile.lastList).getD 63
    match best.find? (fun x => last < x.1) with
    | some x => some x
    | none => best.head?

/-- A held operation whose spawn has ended completes with state 7, and its key is skipped (R107). -/
def State.cancelOne (s : State) (die : Nat) (t : Task) : State :=
  let h := taskHandle t.record
  let k := taskKey t.record
  ((s.onAcc die h (fun a => { a with held := a.held.filter (fun x => !(x.1 == k)), skipped := k :: a.skipped })).taskEnd die t 7 none).advance1
    die h

/-- The held operations a test picks whose spawn has ended complete so (R107). -/
def State.cancelHeld (s : State) (die : Nat) (p : Task → Bool) : State :=
  ((s.job.tile die).tasks.filter (fun t => p t && t.state = 2 && s.posterEnded t.poster)).foldl (fun u t => u.cancelOne die t) s

/-- A checked task meets its accumulator (R106, R107, R109). -/
def State.meetAcc (s0 : State) (die : Nat) (t : Task) : State :=
  let h := taskHandle t.record
  let k := taskKey t.record
  let s := s0.cancelHeld die (fun x => taskHandle x.record = h)
  match lookup h (s.job.tile die).accs with
  | none => s.taskReject die t 0x88#8
  | some a0 =>
    let a := a0.arrive k
    let u := s.onAcc die h (fun b => { b.arrive k with watchdog := 0, counted := s.pkg.cycle })
    let d := (k + 2 ^ 16 - a.nextKey) % 2 ^ 16
    let inHand := (a.current.bind (fun c => s.job.task? die c.1 c.2)).map (fun c => taskKey c.record)
    if 2 ^ 15 ≤ d then u.taskReject die t 0x86#8
    else if inHand = some k || a.held.any (fun x => x.1 == k) then u.taskReject die t 0x87#8
    else if d = 0 then u.startOp die h t
    else if s.posterEnded t.poster then
      ((u.onAcc die h (fun b => { b with skipped := k :: b.skipped })).taskEnd die t 7 none).advance1 die h
    else
      ((u.onAcc die h (fun b => { b.unskip k with held := b.held ++ [(k, t.list, t.ticket)] })).setTask die { t with state := 2 }).advance1 die h

/-- TASK_DISPATCH (R224, R229): at most one task of a die in a cycle. -/
def State.dispatch (s : State) (die list : Nat) (t0 : Task) : State :=
  let t := { t0 with dispatched := true }
  let r := t.record
  let s1 := s.onTile die (fun x => { x with
    dispatchedAt := some s.pkg.cycle
    lastList := assign (taskPrio r) list x.lastList
    tasks := x.tasks.map (fun y => if y.list = t.list && y.ticket = t.ticket then t else y) })
  let acc := lookup (taskHandle r) (s1.job.tile die).accs
  if !s1.job.taskOk die r (acc.map (fun a => a.gr)) then s1.taskReject die t 0x85#8
  else if taskOp r = 0 || taskOp r = 4 then s1.setTask die { t with state := 3 }
  else s1.meetAcc die t

def tryTaskDispatch (die : Nat) (s : State) : Option State :=
  if s.working && die < s.job.dies_n && (s.job.tile die).dispatchedAt ≠ some s.pkg.cycle then
    match s.nextList die with
    | some (list, t) => some (s.dispatch die list t)
    | none => none
  else none
def execTaskDispatch (die : Nat) (s : State) : Out := passing s (tryTaskDispatch die s)

/-- Whether the engines of a list's tasks do their work: the job's do, and no trap record of the list waits for queue room
(R320). -/
def State.tilesWork (s : State) (die list : Nat) : Bool := s.working && !s.job.enginePosting 4 (listHandle die list)

/-- A dispatched allocation of a list: the oldest in state 3 of an operation. -/
def State.allocating (s : State) (die list op : Nat) : Option Task :=
  (s.job.tile die).tasks.find? (fun t => t.list == list && t.dispatched && t.state == 3 && taskOp t.record == op)

/-- An empty tile row of `n` columns (R98, R109). -/
def emptyRow (n : Nat) : AccRow :=
  { x := -32768, h := 47, nan := false, lost := false, m := List.replicate n 0, block := 0, told := false }

/-- ACLR (R109). -/
def State.clearAcc (s : State) (die : Nat) (t : Task) : State :=
  let r := t.record
  let h := taskHandle r
  if (lookup h (s.job.tile die).accs).isSome then s.taskReject die t 0x89#8
  else
    let a : Acc :=
      { engines := (s.job.tile die).free.take (taskGr r * taskGc r), gr := taskGr r, gc := taskGc r, aln := taskAln r
        nextKey := taskKey r, incoming := 0, carry := 0, sat := false, rovf := false
        rows := List.replicate (64 * taskGr r) (emptyRow (128 * taskGc r)), current := none, held := [], skipped := []
        watchdog := 0, counted := s.pkg.cycle }
    (s.onTile die (fun x => { x with accs := assign h a x.accs })).taskEnd die t 5 none

def tryAclr (die list : Nat) (s : State) : Option State :=
  match s.allocating die list 0 with
  | some t =>
    let used := (lookup (taskHandle t.record) (s.job.tile die).accs).isSome
    if s.tilesWork die list && (used || taskGr t.record * taskGc t.record ≤ (s.job.tile die).free.length) then some (s.clearAcc die t)
    else none
  | none => none
def execAclr (die list : Nat) (s : State) : Out := passing s (tryAclr die list s)

/-- The operation in hand of an accumulator, while it runs (R106, R231). -/
def State.inHand (s : State) (die h op : Nat) : Option (Acc × Task) :=
  match lookup h (s.job.tile die).accs with
  | none => none
  | some a =>
    match a.current.bind (fun c => s.job.task? die c.1 c.2) with
    | some t => if s.tilesWork die t.list && t.state = 3 && taskOp t.record = op then some (a, t) else none
    | none => none

/-- Row pitch of B, and offset and bytes of block b within a row (R225). -/
def bPitch (f : Nat) : Nat := if f = 0 then 264 else if f = 1 then 272 else if f = 4 || f = 5 then 192 else 256
def bSpot (f b : Nat) : Nat × Nat :=
  match f with
  | 0 => (33 * b, 33)
  | 1 => (17 * b, 17)
  | 2 | 3 => (32 * b, 32)
  | 4 | 5 => (24 * b, 24)
  | _ => (16 * b, 16)

/-- A block of B converted (R76, R92, R225): the block and whether its conversion saturated. -/
def bBlock (f : Nat) (bytes : List Nat) (scale : Nat) : PanelBlock × Bool :=
  let n := ofByteNats bytes
  let els (g : Nat → FVal) : List FVal := (List.range 32).map g
  let conv (v : List FVal) (w : Nat) : PanelBlock × Bool :=
    let b := toBK v w
    ({ x := b.1, q := b.2.1, bad := false }, b.2.2)
  match f with
  | 0 => ({ x := bytes.getD 32 0, q := (List.range 32).map (fun k => bkMantissa (bytes.getD k 0) 8), bad := false }, false)
  | 1 => ({ x := bytes.getD 16 0, q := (List.range 32).map (fun k => bkMantissa (nibble n k) 4), bad := false }, false)
  | 2 => conv (els (fun k => mxValue e4m3 (bytes.getD k 0) scale)) 8
  | 3 => conv (els (fun k => mxValue e5m2 (bytes.getD k 0) scale)) 8
  | 4 => conv (els (fun k => mxValue e2m3 (six n k) scale)) 8
  | 5 => conv (els (fun k => mxValue e3m2 (six n k) scale)) 8
  | _ => conv (els (fun k => mxValue e2m1 (nibble n k) scale)) 4

/-- One column of a panel from the bytes of its row and its scales (R225). -/
def bColumn (f : Nat) (row scales : List Nat × List Nat) : List PanelBlock × Bool :=
  let bs := (List.range (if bfmtIsB4 f then 16 else 8)).map (fun b =>
    let (lo, n) := bSpot f b
    let r := bBlock f ((row.1.drop lo).take n) (scales.1.getD b 0)
    let bad := row.2.any (fun o => lo ≤ o && o < lo + n) || (bfmtScaled f && scales.2.contains b)
    ({ r.1 with bad := bad }, r.2))
  (bs.map (fun x => x.1), bs.any (fun x => x.2))

/-- Scale bytes of a row of B (R225): one for each of its blocks. -/
def scaleBytes (f : Nat) : Nat := if !bfmtScaled f then 0 else if bfmtIsB4 f then 16 else 8

/-- Columns of a panel read from column `j` up. -/
def State.readColumns (q : Chunk) (t : Task) : Nat → Nat → State → Eng (List (List PanelBlock) × Bool)
  | 0, _, s => .ok s ([], false)
  | n + 1, j, s =>
    let f := taskBfmt t.record
    match s.engBytes q (t.record.getD 2 0#64 + BitVec.ofNat 64 (j * bPitch f)) (bPitch f) with
    | .fault e => .fault e
    | .bad u => .bad u
    | .wait u => .wait u
    | .ok u row =>
      match u.engBytes q (t.record.getD 3 0#64 + BitVec.ofNat 64 (16 * j)) (scaleBytes f) with
      | .fault e => .fault e
      | .bad u => .bad u
      | .wait w => .wait w
      | .ok w sc =>
        match State.readColumns q t n (j + 1) w with
        | .ok y (cs, sat) =>
          let c := bColumn f row sc
          .ok y (c.1 :: cs, c.2 || sat)
        | .fault e => .fault e
        | .bad u => .bad u
        | .wait y => .wait y

/-- Panels put in place for the engines of a group that need them (R226): each with the columns of its position. A panel
whose engine stood at another group column holds other columns, so its tag does not match (R97, R110). -/
def State.loadPanels (die : Nat) (t : Task) : List (Nat × Nat) → State → Eng Unit
  | [], s => .ok s ()
  | (e, c) :: rest, s =>
    let r := t.record
    if (s.job.tile die).tagged r e c && !taskFresh r then State.loadPanels die t rest s
    else
      match State.readColumns (t.by_ die) t 128 (128 * c) s with
      | .fault x => .fault x
      | .bad u => .bad u
      | .wait u => .wait u
      | .ok u (cs, sat) =>
        let p : Panel := { col := c, addr := r.getD 2 0#64, fmt := taskBfmt r, aux := r.getD 3 0#64, sat := sat, cols := cs }
        State.loadPanels die t rest (u.onTile die (fun x => { x with panels := assign e p x.panels }))

/-- MMA begins (R110, R226): its B panel is in place, with SAT for a conversion that saturated. -/
def State.beginMma (s : State) (die h : Nat) (a : Acc) (t : Task) : State :=
  let es := a.column t.record
  match State.loadPanels die t es s with
  | .fault c => s.taskFault die h t c (fun x y st z => x.opEnd die h y st z)
  | .bad u => u
  | .wait u => u
  | .ok u () =>
    let sat := es.any (fun e => (lookup e.1 (u.job.tile die).panels).any (fun p => p.sat))
    (u.onAcc die h (fun b => { b with sat := b.sat || sat })).onTile die (fun x => { x with
      tasks := x.tasks.map (fun y => if y.list = t.list && y.ticket = t.ticket then { t with row := 1 } else y) })

def tryMma (die h : Nat) (s : State) : Option State :=
  match s.inHand die h 1 with
  | some (a, t) => if t.row = 0 then some ((s.tick die h).beginMma die h a t) else none
  | none => none
def execMma (die h : Nat) (s : State) : Out := passing s (tryMma die h s)

/-- The part of an MMA that reads block b of nappe row r of A (R69). -/
def aChunk (r b : Nat) : Nat := 2 + 16 * r + b

/-- Bytes of an engine's local store as a chunk reads them (R69), and whether one is poisoned. -/
def State.localBytes (s : State) (q : Chunk) (a n : Nat) : Nat × Bool :=
  let l := (List.range n).map (fun i => (s.wordOf q ((a + i) / 8 * 8)).map (fun w => w / 2 ^ (8 * ((a + i) % 8)) % 256))
  (ofByteNats (l.map (fun x => x.getD 0)), l.any (fun x => x.isNone))

/-- Block b of nappe row r of A (R214, R225): exponent byte and mantissas, whether the conversion saturated, and whether a
byte is poisoned. -/
def State.aBlockAt (s : State) (die : Nat) (t : Task) (r b : Nat) : Nat × List Int × Bool × Bool :=
  let rec_ := t.record
  let pa := taskPa rec_
  let q := { t.by_ die with chunk := aChunk r b }
  let base := s.windowCellOf (rec_.getD 1 0#64) + (r / 16 * taskNkb rec_ + b) * aBlock rec_
  let n := aNblk rec_ * aElem rec_
  let (bytes, bad) := s.localBytes q (base + r % 16 * n) n
  let (x, xbad) := s.localBytes q (base + 16 * n + r % 16) 1
  let conv (f : Fmt) : Nat × List Int × Bool × Bool :=
    let v := toBK ((unpackBits f.width 32 bytes).map f.decode) pa
    (v.1, v.2.1, v.2.2, bad)
  match taskAfmt rec_ with
  | 0 =>
    let w := if pa = 4 then 4 else if pa = 8 then 8 else 16
    (x, (unpackBits w 32 bytes).map (fun q => bkMantissa q pa), false, bad || xbad)
  | 1 => conv e4m3
  | 2 => conv e5m2
  | 3 => conv bf16
  | 4 => conv fp16
  | _ => conv fp32

/-- Shift of R101: the shifted value and whether a nonzero bit was lost. -/
def accShift (aln : Bool) (v s : Int) : Int × Bool :=
  (alignShift v s aln, s < 0 && v ≠ v / 2 ^ (-s).toNat * 2 ^ (-s).toNat)

/-- Largest magnitude of a row. -/
def maxAbs (m : List Int) : Nat := m.foldl (fun n x => max n x.natAbs) 0

/-- Exact partial of one column (R100). -/
def partialOf (qa qb : List Int) : Int := (List.zipWith (fun x y => x * y) qa qb).foldl (fun n x => n + x) 0

/-- ApplyBlock (R101): the row, and whether an incoming and a carry event took place. -/
def applyBlock (aln : Bool) (pa : Nat) (xa : Nat) (qa : List Int) (cols : List PanelBlock) (row : AccRow) : AccRow × Bool × Bool :=
  if row.nan then (row, false, false)
  else if xa = 0xFF || cols.any (fun c => c.x = 0xFF) then ({ row with nan := true }, false, false)
  else
    let p : List (Int × Int) := cols.map (fun c => (partialOf qa c.q, ((xa : Int) - 127) + ((c.x : Int) - 127)))
    match (p.filter (fun x => x.1 ≠ 0)).map (fun x => x.2) with
    | [] => (row, false, false)
    | e :: es =>
      let req := es.foldl max e + (pa + 12) - 46
      let incoming := row.x ≠ -32768 && row.x < req
      let m3 := if incoming then row.m.map (fun v => accShift aln v (row.x - req)) else row.m.map (fun v => (v, false))
      let x3 := if row.x = -32768 || incoming then req else row.x
      let add := p.map (fun y => if y.1 = 0 then ((0 : Int), false) else accShift aln y.1 (y.2 - x3))
      let m4 := List.zipWith (fun a b => a.1 + b.1) m3 add
      let carry : Bool := 2 ^ 46 ≤ maxAbs m4
      let m5 := if carry then m4.map (fun v => accShift aln v (-1)) else m4.map (fun v => (v, false))
      let x5 := if carry then x3 + 1 else x3
      let m := m5.map (fun v => v.1)
      ({ row with
          x := x5, m := m, h := 47 - bitLength (maxAbs m), nan := 32767 < x5
          lost := row.lost || m3.any (fun v => v.2) || add.any (fun v => v.2) || m5.any (fun v => v.2) }, incoming, carry)

/-- A counter of R99: it saturates. -/
def bump32 (n : Nat) (b : Bool) : Nat := if b then min (n + 1) (2 ^ 32 - 1) else n

/-- One K-block applied to one tile row (R100, R101, R104, R231). -/
def State.applyRow (s : State) (die h : Nat) (a : Acc) (t : Task) (i : Nat) (row : AccRow) : State :=
  let r := t.record
  let b := row.block
  let (xa, qa, sat, bad) := s.aBlockAt die t (i - taskRow0 r) b
  let cols := ((a.engines.drop (i / 64 * a.gc)).take a.gc).flatMap (fun e =>
    ((lookup e (s.job.tile die).panels).map (fun p => p.cols)).getD [])
  let blocks := cols.map (fun c => c.getD b { x := 0xFF, q := [], bad := true })
  if bad || blocks.any (fun x => x.bad) then (s.tick die h).opEnd die h t 9 (some { cause := 0x62#8 })
  else
    let (row1, inc, car) := applyBlock a.aln (taskPa r) xa qa blocks row
    let u := s.onAcc die h (fun c => { c with
      rows := updateAt (fun _ => { row1 with block := b + 1, told := false }) i c.rows
      incoming := bump32 c.incoming inc, carry := bump32 c.carry car, sat := c.sat || sat, watchdog := 0, counted := s.pkg.cycle })
    let done := ((lookup h (u.job.tile die).accs).map (fun c => c.applied r)).getD 0 = taskNkb r
    if done then u.opEnd die h t 5 none else u

def tryApplyBlock (die h row : Nat) (s : State) : Option State :=
  match s.inHand die h 1 with
  | some (a, t) =>
    match a.rows[row]? with
    | some x => if a.rowReady t row && (a.gc = 1 || x.told) && !s.watchExpired die a then some (s.applyRow die h a t row x) else none
    | none => none
  | none => none
def execApplyBlock (die h row : Nat) (s : State) : Out := passing s (tryApplyBlock die h row s)

/-- EXPONENT_MESSAGE (R104): the engines of a tile row hold every peer's messages for its next block. -/
def tryExponentMessage (die h row : Nat) (s : State) : Option State :=
  match s.inHand die h 1 with
  | some (a, t) =>
    match a.rows[row]? with
    | some x =>
      if a.rowReady t row && 1 < a.gc && !x.told && !s.watchExpired die a then
        some ((s.tick die h).onAcc die h (fun c => { c with rows := updateAt (fun y => { y with told := true }) row c.rows }))
      else none
    | none => none
  | none => none
def execExponentMessage (die h row : Nat) (s : State) : Out := passing s (tryExponentMessage die h row s)

/-- Row status dword (R98). -/
def AccRow.status (r : AccRow) : Nat :=
  low r.x 16 + r.h % 2 ^ 6 * 2 ^ 16 + (if r.nan then 2 ^ 24 else 0) + (if r.lost then 2 ^ 25 else 0)

/-- A raw row (R112, R114): its status, then its mantissas, as dwords. -/
def AccRow.raw (r : AccRow) : List Nat := r.status :: r.m.map (fun v => low v 64)

/-- One element read out (R114) and whether it overflowed. -/
def readElem (f : Nat) (nanOvf : Bool) (r : AccRow) (v : Int) : Nat × Bool :=
  let fmt := if f = 0 then fp32 else if f = 1 then bf16 else e4m3
  if r.nan then (fmt.canonNan, false)
  else
    let q := roundToFormat (FVal.ofInt v r.x false) fmt .rne (if f = 2 then (if nanOvf then .nan else .sat) else .inf) false
    (q.1, q.2 &&& flagOF ≠ 0#64)

/-- Bytes of a row read out, and whether an element overflowed (R114). -/
def AccRow.readout (r : AccRow) (f : Nat) (nanOvf : Bool) : List Nat × Bool :=
  if f = 3 then (r.raw.flatMap (unpackBits 8 8), false)
  else
    let es := r.m.map (readElem f nanOvf r)
    (es.flatMap (fun e => unpackBits 8 (if f = 0 then 4 else if f = 1 then 2 else 1) e.1), es.any (fun e => e.2))

/-- Bytes written by a request's engine, every address checked first. -/
def State.engPut (s : State) (q : Chunk) (w : Writer) (va : Word) (bytes : List Nat) : Eng Unit :=
  match State.engSpots q (items va 1 bytes.length) s with
  | .fault t => .fault t
  | .bad u => .bad u
  | .wait t => .wait t
  | .ok t ss => .ok (State.putBytes q.request w (ss.zip bytes) t) ()

/-- A row of a readout or an image written (R231); `last` is the number of rows. -/
def State.rowOut (s : State) (die h : Nat) (t : Task) (va : Word) (bytes : List Nat) (ovf : Bool) (last : Nat) : State :=
  match s.engPut (t.by_ die) t.poster.writer va bytes with
  | .fault c => s.taskFault die h t c (fun x y st z => x.opEnd die h y st z)
  | .bad u => u
  | .wait u => u
  | .ok u () =>
    let v := u.onAcc die h (fun c => { c with rovf := c.rovf || ovf })
    if t.row + 1 = last then v.opEnd die h { t with row := t.row + 1 } 5 none
    else v.onTile die (fun x => { x with
      tasks := x.tasks.map (fun y => if y.list = t.list && y.ticket = t.ticket then { t with row := t.row + 1 } else y) })

/-- RDOUT (R111, R114): one row. -/
def tryRdout (die h : Nat) (s : State) : Option State :=
  match s.inHand die h 2 with
  | some (a, t) =>
    match a.rows[taskRow0 t.record + t.row]? with
    | some r =>
      let (bytes, ovf) := r.readout (taskRfmt t.record) (taskNanOvf t.record)
      some (s.rowOut die h t (t.record.getD 2 0#64 + BitVec.ofNat 64 (t.row * dw t.record 3)) bytes ovf (taskRows t.record))
    | none => none
  | none => none
def execRdout (die h : Nat) (s : State) : Out := passing s (tryRdout die h s)

/-- Bytes of a row of an image (R112). -/
def imageRow (gc : Nat) : Nat := 8 * (1 + 128 * gc)

/-- ASAVE (R112): one row, the tile state before the first. The manual lists what an image holds and does not say how row
status and mantissas lie: here each row's status dword stands before its mantissas, as in a raw readout. DESIGN CHOICE: log
entry 88. -/
def tryAsave (die h : Nat) (s : State) : Option State :=
  match s.inHand die h 3 with
  | some (a, t) =>
    match a.rows[t.row]? with
    | some r =>
      let base := t.record.getD 2 0#64
      let body := r.raw.flatMap (unpackBits 8 8)
      some (
        if t.row = 0 then
          s.rowOut die h t base (unpackBits 8 8 a.dword0.toNat ++ unpackBits 8 8 a.dword1.toNat ++ body) false a.rows.length
        else s.rowOut die h t (base + BitVec.ofNat 64 (16 + t.row * imageRow a.gc)) body false a.rows.length)
    | none => none
  | none => none
def execAsave (die h : Nat) (s : State) : Out := passing s (tryAsave die h s)

/-- A tile row of an image (R112), if it is valid; H is recomputed. The manual leaves two images open. A row with NANR = 1
and X = -32768 that has a nonzero m, as ASAVE writes it where X has passed 32,767, counts as an empty row with a nonzero m
and is rejected. A NaN row with |m| = 2^47 gets H = 0. DESIGN CHOICE: log entry 89. -/
def rowOfImage (ws : List Nat) : Option AccRow :=
  let st := ws.headD 0
  let m := (ws.drop 1).map (fun w => sx w 48)
  let x := sx st 16
  let nan := field st 24 1 = 1
  if st / 2 ^ 26 ≠ 0 || field st 22 2 ≠ 0 || (ws.drop 1).any (fun w => low (sx w 48) 64 ≠ w) ||
      (x = -32768 && m.any (fun v => v ≠ 0)) || (x ≠ -32768 && !nan && m.any (fun v => 2 ^ 46 ≤ v.natAbs)) then none
  else
    some { x := x, h := 47 - bitLength (maxAbs m), nan := nan, lost := field st 25 1 = 1, m := m, block := 0, told := false }

/-- An image's reads, none poisoned (R231), or what stops its load: a page fault suspends it where it stands. -/
def State.imageRead (s : State) (die : Nat) (t : Task) (off n : Nat) (go : State → List Nat → Option State) : Option State :=
  match s.engBytes (t.by_ die) (t.record.getD 2 0#64 + BitVec.ofNat 64 off) n with
  | .fault c => some (s.taskFault die (taskHandle t.record) t c (fun x y st z => x.taskEnd die y st z))
  | .wait u => some u
  | .bad u => some (u.taskEnd die t 9 (some { cause := 0x62#8 }))
  | .ok u (bytes, bad) =>
    if bad ≠ [] then some (u.taskEnd die t 9 (some { cause := 0x62#8 })) else go u (unpackBits 64 (n / 8) (ofByteNats bytes))

/-- A task kept as it stands, its state and STATUS the same. -/
def State.keepTask (s : State) (die : Nat) (t : Task) : State :=
  s.onTile die (fun x => { x with tasks := x.tasks.map (fun y => if y.list = t.list && y.ticket = t.ticket then t else y) })

/-- The accumulator an image describes, with its first engines free (R112). -/
def State.accOfImage (s : State) (die d0 d1 : Nat) (rows : List AccRow) : Acc :=
  let gc := field d1 32 2
  let gr := field d1 34 2
  { engines := (s.job.tile die).free.take (gr * gc), gr := gr, gc := gc, aln := field d1 3 1 = 1
    nextKey := field d1 48 16, incoming := d0 / 2 ^ 32, carry := d0 % 2 ^ 32, sat := field d1 1 1 = 1
    rovf := field d1 2 1 = 1, rows := rows, current := none, held := [], skipped := [], watchdog := 0, counted := s.pkg.cycle }

/-- How ALOAD goes on (R112, R231): the tile state is read first, then one row after the other; the accumulator stands when
the last has been read. None while too few engines are free. -/
def State.loadAcc (s : State) (die : Nat) (t : Task) : Option State :=
  let h := taskHandle t.record
  if (lookup h (s.job.tile die).accs).isSome then some (s.taskReject die t 0x89#8)
  else
    match t.header with
    | [] =>
      s.imageRead die t 0 16 (fun u ws =>
        let d1 := ws.getD 1 0
        if field d1 34 2 = 0 || field d1 32 2 = 0 || field d1 36 12 ≠ 0 || field d1 5 27 ≠ 0 || field d1 0 1 ≠ 0 then
          some (u.taskReject die t 0x8A#8)
        else some (u.keepTask die { t with header := ws.map (BitVec.ofNat 64) }))
    | _ =>
      let d0 := dw t.header 0
      let d1 := dw t.header 1
      let gc := field d1 32 2
      let gr := field d1 34 2
      if (s.job.tile die).free.length < gr * gc then none
      else
        s.imageRead die t (16 + t.row * imageRow gc) (imageRow gc) (fun u ws =>
          match rowOfImage ws with
          | none => some (u.taskReject die t 0x8A#8)
          | some r =>
            let rows := t.loaded ++ [r]
            if t.row + 1 < 64 * gr then some (u.keepTask die { t with row := t.row + 1, loaded := rows })
            else
              some ((u.onTile die (fun x => { x with accs := assign h (s.accOfImage die d0 d1 rows) x.accs })).taskEnd die
                { t with loaded := [] } 5 none))

/-- ALOAD (R112): while too few engines are free it waits, as ACLR does. -/
def tryAload (die list : Nat) (s : State) : Option State :=
  match s.allocating die list 4 with
  | some t =>
    if s.tilesWork die list then
      match s.loadAcc die t with
      | some u => some u
      | none => none
    else none
  | none => none
def execAload (die list : Nat) (s : State) : Out := passing s (tryAload die list s)

/-- AFREE (R113): engines and handle released, operations held with later keys rejected; those whose spawn has ended have
completed with state 7 (R107). -/
def State.freeAcc (s0 : State) (die h : Nat) (a : Acc) (t : Task) : State :=
  let s := s0.cancelHeld die (fun x => taskHandle x.record = h)
  let u := s.onTile die (fun x => { x with accs := remove h x.accs })
  let v := a.held.foldl (fun x k =>
    match x.job.task? die k.2.1 k.2.2 with
    | some y => if y.state = 2 then x.taskReject die y 0x88#8 else x
    | none => x) u
  v.taskEnd die t 5 none

def tryAfree (die h : Nat) (s : State) : Option State :=
  match s.inHand die h 5 with
  | some (a, t) => some (s.freeAcc die h a t)
  | none => none
def execAfree (die h : Nat) (s : State) : Out := passing s (tryAfree die h s)

/-- GROUP_WATCHDOG (R105, R231): 2^24 cycles with an engine waiting for a peer's message and no block applied. The manual names no
reset at the expiry; a held operation that then begins without a dispatch finds the count at 0. DESIGN CHOICE: log entry 108. -/
def tryGroupWatchdog (die h : Nat) (s : State) : Option State :=
  match s.inHand die h 1 with
  | some (a, t) =>
    if s.watchExpired die a then
      some ((s.onAcc die h (fun c => { c with watchdog := 0, counted := s.pkg.cycle })).opEnd die h t 8 (some { cause := 0x8B#8 }))
    else none
  | none => none
def execGroupWatchdog (die h : Nat) (s : State) : Out := passing s (tryGroupWatchdog die h s)

/-- TASK_RESUME (R231): a suspended task of a handle goes on once its fault is serviced. -/
def tryTaskResume (die h : Nat) (s : State) : Option State :=
  match (s.job.tile die).tasks.find? (fun t => t.state == 4 && t.hold == .serviced && taskHandle t.record == h) with
  | some t =>
    if s.working then some ((s.tick die h).setTask die { t with state := 3, hold := .going })
    else none
  | none => none
def execTaskResume (die h : Nat) (s : State) : Out := passing s (tryTaskResume die h s)

/-- Tasks at the front of a list in a final state, every effect performed (R230). -/
def State.finished (s : State) (die list : Nat) : List Task :=
  ((s.job.tile die).tasks.filter (fun x => x.list = list)).takeWhile (fun x => 5 ≤ x.state && !s.job.writing (x.by_ die).request)

/-- TASK_COMPLETION (R107, R205, R230): causes of finished tasks raised, then the timeline over the finished front. -/
def State.completeTasks (s : State) (die list : Nat) : State :=
  let s1 := s.cancelHeld die (fun t => t.list = list)
  let fin := (s1.job.tile die).tasks.filter (fun t => t.list = list && 5 ≤ t.state && t.trap.isSome)
  let s2 := s1.onTile die (fun x => { x with
    tasks := x.tasks.map (fun t => if t.list = list && 5 ≤ t.state then { t with trap := none } else t) })
  let done := s2.finished die list
  let last := (done.getLast?.map (fun t => t.ticket)).getD 0
  let s3 :=
    if done.isEmpty then s2
    else
      (s2.onTile die (fun x => { x with
        timelines := assign list last x.timelines
        tasks := x.tasks.filter (fun t => !(t.list == list && t.ticket ≤ last)) })).writeTimeline (8 * (64 * die + list)) last
  let s4 := fin.foldl (fun x t => x.requestCause 4 (listHandle die list) t.ticket t.poster t.trap) s3
  done.foldl (fun x t => x.requestGone 4 (listHandle die list) t.ticket t.poster) s4

def tryTaskCompletion (die list : Nat) (s : State) : Option State :=
  let t := s.job.tile die
  if s.tilesWork die list && (!(s.finished die list).isEmpty ||
      t.tasks.any (fun x => x.list = list && ((5 ≤ x.state && x.trap.isSome) || (x.state = 2 && s.posterEnded x.poster)))) then
    some (s.completeTasks die list)
  else none
def execTaskCompletion (die list : Nat) (s : State) : Out := passing s (tryTaskCompletion die list s)

end Sys2Proof.Machine
end

