-- ==== Sys2Proof/Machine/Privileged.lean ====
section
/-! DEFINITION. The privileged instructions of major 0x39 (17_traps_preemption_context.md R327-R334): servicing trap
records, invalidating translations, moving agents between slots and entries, `halt` and `idle`; and bringing an agent
to a boundary (07_memory_sync_swarm_instructions.md R172, 06_scalar_instructions.md R146). -/

namespace Sys2Proof.Machine

/-- An instruction that only S may execute (R280, R328): at U it raises "privileged instruction". -/
def State.privileged (s : State) (x : State) : Out := .next (if s.ag.priv = .user then s.raiseCause 0x08#8 else x)

/-- What is done with another agent, the focus returning to the steward. -/
def State.within (s : State) (a : Nat) (f : State → State) : State :=
  let t := f (s.focus a)
  if t.job.status = .absent then t else t.focus s.agId

/-- Whether an agent's wait can be given up (R146, R172): not while an access, a long-latency operation or a
prefix-sum result is on its way. -/
def State.yields (s : State) : Bool :=
  match s.ag.wait with
  | .request .. | .reply .. | .long .. | .ps => false
  | .park .. => s.job.parked.all (fun p => !(p.agent == s.agId && p.ended.isSome))
  | .watch .. => s.job.armed.all (fun p => !(p.agent == s.agId && p.ended.isSome))
  | _ => true

/-- The agent in focus brought to a boundary: its streaming accesses performed. None while it must wait. -/
def State.quiet (s : State) : Option State :=
  let t := s.settleAll
  if t.yields && (t.firstStreaming (fun _ => true)).isNone then some t else none

/-- A wait given up in place, its counts kept (R172). -/
def State.giveUp (s : State) : State :=
  let t := match s.job.parked.find? (fun p => p.agent == s.agId), s.job.armed.find? (fun p => p.agent == s.agId) with
    | some p, _ => { s with ag := { s.ag with wakes := p.wakes, aborted := some (some p.op.sub) } }
    | none, some w => { s with ag := { s.ag with waited := s.pkg.cycle - w.since + w.before, aborted := some none } }
    | none, none => s
  (t.releaseWaits).setWait .ready

/-- `idle` (R330): it completes at the first instant TAIL ≠ HEAD. -/
def State.idleTurn (s : State) : State := if s.job.queued = 0 then s.setWait .idle else (s.setWait .ready).advance 4
def execIdle (s : State) : Out := s.privileged s.idleTurn

/-- `halt` (R331): firmware is asked to suspend the job; it retires when the job resumes. -/
def execHalt (s : State) : Out :=
  s.privileged (({ s.tickAll with job := { s.tickAll.job with status := .halting } }).advance 4 |>.setWait .halt)

/-- FSTATE of an entry that holds a saved agent. -/
def State.savedState (s : State) (va : Word) : Option Nat :=
  if (lookup va.toNat s.job.fibres).isSome then (s.entryState va).filter (fun st => 1 ≤ st && st ≤ 5) else none

/-- What the supervisor wrote in an entry of STATE 4 or 5 takes effect (R327). -/
def State.takeImage (s : State) (va : Word) : State :=
  match s.hwCell false va 2048 with
  | .error _ => s
  | .ok (t, cell, _) =>
    { t with job := { t.job with fibres := modify va.toNat (fun f => { f with image := recordBody false (t.getWords cell 192) }) t.job.fibres } }

/-- Home core of an entry (R39, R326). -/
def State.homeCore (s : State) (va : Word) : Nat :=
  match s.hwRead (va + 0x360#64) with
  | .ok (_, f) => field f.toNat 40 4 * 128 + field f.toNat 33 7
  | .error _ => 0

/-- An entry resumed (DISP 1 of R332): a fibre or runtime becomes Ready, a master reloads. -/
def State.resumeEntry (s : State) (va : Word) (st : Nat) : State :=
  let t := s.setNotice va 1
  if st = 5 then
    let m := match s.hwRead (va + 0x360#64) with
      | .ok (_, f) => 2 ^ 15 + field f.toNat 40 4 * 2 ^ 11 + field f.toNat 33 7 * 16
      | .error _ => steward
    t.within m (fun u => u.restore va)
  else (if st = 4 then t.takeImage va else t).pushReady (t.homeCore va) va

/-- A master's saved entry ended as by kill self (R295, R332), where its node is not being ended already. -/
def State.endMaster (s : State) (va : Word) (info : FibreInfo) : State :=
  let t := if (s.job.node? info.run info.node).any (fun n => n.ending) then s else s.cancelNode info.run info.node false
  let m := match t.job.node? info.run info.node with
    | some n => (match n.st with | .running m => m | _ => t.agId)
    | none => t.agId
  (if m = t.agId then t else t.within m State.endAgent).discardFibre va.toNat

/-- An entry ended (DISP 2 of R332). -/
def State.endEntry (s : State) (va : Word) : State :=
  match lookup va.toNat s.job.fibres with
  | none => s
  | some info =>
    let t := s.setNotice va 2
    if info.spawn = 0 then t.endMaster va info else t.discardFibre va.toNat

/-- Unit number in an entry. -/
def State.entryTid (s : State) (va : Word) : Nat :=
  match s.hwRead (va + 0x368#64) with
  | .ok (_, x) => x.toNat
  | .error _ => 0

/-- The slot an entry was saved from, as a global slot index (R326). -/
def State.entrySlot (s : State) (va : Word) : Nat :=
  match s.hwRead (va + 0x360#64) with
  | .ok (_, f) => field f.toNat 40 4 * 2 ^ 11 + field f.toNat 33 7 * 16 + field f.toNat 29 4
  | .error _ => 0

/-- An entry ended and its cause contained (DISP 3 of R332): a master's at its node, a runtime's at the unit it served. -/
def State.containEntry (s : State) (va : Word) (t : Trap) : State :=
  match lookup va.toNat s.job.fibres with
  | none => s
  | some info =>
    if info.spawn = 0 then
      let u := (s.setNotice va 2).containNode t info.run info.node
      if u.job.status = .absent then u else u.endMaster va info
    else if info.runtime then
      let u := s.endEntry va
      match lookup info.serving.toNat u.job.fibres with
      | none => u.containUnitOf t info.spawn (s.entryTid va) (s.entrySlot va) (fun x => x)
      | some f =>
        u.containUnitOf t f.spawn (u.entryTid info.serving) (u.entrySlot info.serving) (fun x => x.discardFibre info.serving.toNat)
    else
      let u := (s.setNotice va 2).containUnitOf t info.spawn (s.entryTid va) (s.entrySlot va) (fun x => x.discardFibre va.toNat)
      u.discardFibre va.toNat

/-- Parts of a timeline handle (R228): die, and list, core or queue. -/
def handleDie (h : Nat) : Nat := h / 2 ^ 10 % 16
def handleLow (h : Nat) : Nat := h % 2 ^ 10

/-- A suspended request resumes at its boundary (DISP 1 of R332): its resume event takes it up. -/
def State.resumeRequest (s : State) (kind handle number : Nat) : State :=
  let up (h : Hold) : Hold := if h = .suspended then .serviced else h
  match kind with
  | 3 => s.onCopy (handleDie handle * 128 + handleLow handle) number (fun c => { c with hold := up c.hold })
  | 4 => s.onTile (handleDie handle) (fun x => { x with tasks := x.tasks.map (fun t =>
      if t.list = handleLow handle && t.ticket = number then { t with hold := up t.hold } else t) })
  | 5 => s.onMs (handleDie handle * 2 + handleLow handle / 16) (fun m => { m with requests := m.requests.map (fun r =>
      if r.queue = handleLow handle % 16 && r.seq = number then { r with hold := up r.hold } else r) })
  | _ => s.onInstance handle number (fun i => { i with hold := up i.hold })

/-- A suspended request ends with the status of a fault that is not serviced, or skips the completion write that
faulted (DISP 2 of R332; R221, R231, R237, R248). -/
def State.endSuspended (s : State) (kind handle number : Nat) (cause : Nat) : State :=
  match kind with
  | 3 =>
    let key := handleDie handle * 128 + handleLow handle
    match s.job.copy? key number with
    | some c =>
      if c.hold ≠ .suspended then s
      else
        let t := s.onCopy key number (fun x => { x with hold := .going })
        if c.status.isSome then t.copyLeaves key c c.cause.toList else t.copyEnd key number 3 none
    | none => s
  | 4 =>
    let die := handleDie handle
    match s.job.task? die (handleLow handle) number with
    | some t =>
      if t.hold ≠ .suspended then s
      else
        let e := { t with cause := cause }
        if taskOp t.record = 4 then s.taskEnd die e 9 none else s.opEnd die (taskHandle t.record) e 9 none
    | none => s
  | 5 =>
    let key := handleDie handle * 2 + handleLow handle / 16
    match (s.job.msEngine key).requests.find? (fun r => r.queue == handleLow handle % 16 && r.seq == number) with
    | some r =>
      if r.hold ≠ .suspended then s
      else
        let t := s.onMsRequest key r.queue r.seq (fun x => { x with hold := .going })
        if r.status.isSome then t.onMsRequest key r.queue r.seq (fun x => { x with written := x.written + 1 })
        else t.msEnd key r 3 none
    | none => s
  | _ =>
    match (lookup handle s.job.comms).bind (fun c => c.instances.find? (fun i => i.seq == number)) with
    | some i =>
      if i.hold ≠ .suspended then s
      else if i.completed = 0 then s.colEnd handle number 3 none
      else s.onInstance handle number (fun x => { x with hold := .going, completed := x.completed + 1 })
    | none => s

/-- The disposition of a record (R332). -/
def State.dispose (s : State) (r : List Word) : State :=
  let d := dw r 0
  let kind := field d 56 4
  let disp := field d 60 4
  let t : Trap := { cause := BitVec.ofNat 8 d, subr := field d 52 4, addr := r.getD 2 0#64 }
  let va := r.getD 5 0#64
  if kind ≤ 2 then
    match s.savedState va with
    | none => s
    | some st =>
      if !(if kind = 2 then st = 5 else if kind = 1 then st = 4 else st = 1 || st = 4) then s
      else
        match disp with
        | 1 => s.resumeEntry va st
        | 2 => s.endEntry va
        | 3 => s.containEntry va t
        | _ => s
  else if kind ≤ 6 then
    let named (x : Nat × Nat × Nat × Level) : Bool := x.1 == kind && x.2.1 == dw r 3 && x.2.2.1 == dw r 5
    let level := (s.job.recorded.find? named).map (fun x => x.2.2.2)
    let u := { s with job := { s.job with recorded := s.job.recorded.eraseP named } }
    match disp with
    | 1 => u.resumeRequest kind (dw r 3) (dw r 5)
    | 2 => u.endSuspended kind (dw r 3) (dw r 5) t.cause.toNat
    | 3 =>
      let w := u.endSuspended kind (dw r 3) (dw r 5) t.cause.toNat
      match level with
      | some l => w.containAt t l
      | none => w
    | _ => u
  else s

/-- `sret` (R332): the record at HEAD disposed of, HEAD incremented. A fault on the queue is a firmware cause (R320). -/
def State.serviceRecord (s : State) : State :=
  if s.job.queued = 0 then s.advance 4
  else
    let va := s.job.recordVa s.job.sqhead.toNat
    match s.hwCell false va 64 with
    | .error t => s.raise t
    | .ok (t, cell, _) =>
      if (List.range 8).any (fun i => t.poisoned (cell + 8 * i)) then t.raise { cause := 0x60#8, addr := va }
      else
        let u := (t.advance 4).dispose (t.getWords cell 8)
        if u.job.status = .absent then u
        else { u with job := { u.job with sqhead := BitVec.ofNat 64 ((u.job.sqhead.toNat + 1) % 2 ^ 32) } }
def execSret (s : State) : Out := s.privileged s.serviceRecord

/-- Whether a cached translation is in the scope of `tlbinv ga, gb` (R333). -/
def State.inScope (s : State) (a b : Word) (t : TlbEntry) : Bool :=
  match field b.toNat 62 2 with
  | 0 =>
    let lo := a.toNat % 2 ^ 57
    overlaps (t.vpn * 2 ^ pageShift t.size) (2 ^ pageShift t.size) lo (b.toNat % 2 ^ 40 * 2 ^ 16)
  | 1 => true
  | _ => field t.pte.toNat 59 3 = 4 && field t.pte.toNat 8 6 = b.toNat % 64 && s.job.dies_n ≠ 0

/-- Whether the operands of `tlbinv` are in rule (R333). -/
def tlbinvOk (b : Word) : Bool :=
  match field b.toNat 62 2 with
  | 0 => field b.toNat 40 22 = 0 && field b.toNat 0 40 ≠ 0
  | 1 => field b.toNat 0 62 = 0
  | 2 => field b.toNat 6 56 = 0
  | _ => false

/-- Streaming accesses of every agent performed. -/
def State.settleEvery (s : State) : State :=
  ((s.allAgents.filter (fun x => !x.2.nb.isEmpty)).map (fun x => x.1)).foldl (fun t a => t.within a State.settleAll) s

/-- An agent's accesses on their way, as the cycle each began and its address (R305, R307, R333): a request, a parked operation, an
armed `mwait`, streaming accesses. -/
def State.onTheWay (s : State) (a : Nat) (x : Agent) : List (Nat × Word) :=
  (x.nb.filter (fun y => !y.performed)).map (fun y => (y.since, y.va)) ++
    match x.wait with
    | .request _ va _ _ since => [(since, va)]
    | .park _ va _ => (s.job.parked.filter (fun p => p.agent == a && p.ended.isNone)).map (fun p => (p.since, va))
    | .watch _ va _ => (s.job.armed.filter (fun p => p.agent == a && p.ended.isNone)).map (fun p => (p.since, va))
    | _ => []

/-- Every access of the job on its way, those of ended units among them, as its agent, the cycle it began and its address. -/
def State.accessesOut (s : State) : List (Nat × Nat × Word) :=
  s.allAgents.flatMap (fun x => (s.onTheWay x.1 x.2).map (fun y => (x.1, y.1, y.2))) ++
    s.job.loose.map (fun l => (l.agent, l.access.since, l.access.va))

/-- Versioned writers between their `amocas` and their final store (R218). -/
def Job.midWriters (j : Job) : List (Nat × Nat) :=
  j.conduits.flatMap (fun c => (c.2.copies.filter (fun x => x.writing.isSome)).map (fun x => (c.1, x.seq)))

/-- What a `tlbinv` that removes some entries has to wait for: which translation a write that an engine has left behind used is not
known, so it waits for each. -/
def State.drainOf (s : State) (pc a b : Word) (removed : List TlbEntry) : Drain :=
  let used (va : Word) : Bool :=
    !inWindow va && removed.any (fun t => t.vpn = field va.toNat (pageShift t.size) (57 - pageShift t.size))
  { pc := pc, a := a, b := b, accesses := (s.accessesOut.filter (fun x => used x.2.2)).map (fun x => (x.1, x.2.1))
    late := s.job.late, writers := s.job.midWriters }

/-- Whether anything a `tlbinv` waits for has yet to perform. -/
def State.drains (s : State) (d : Drain) : Bool :=
  s.accessesOut.any (fun x => d.accesses.contains (x.1, x.2.1)) || s.job.late.any (fun x => d.late.contains x) ||
    s.job.midWriters.any (fun x => d.writers.contains x)

/-- `tlbinv` (R333): the translations in scope go at once; it is reissued until every access that used one has performed. -/
def State.invalidate (s : State) (a b : Word) : State :=
  if !tlbinvOk b then s.raiseCause 0x0D#8
  else
    let t := s.settleEvery
    let done (u : State) : State := { u with job := { u.job with drain := none } }
    match t.job.drain.filter (fun d => d.pc = s.ag.pc && d.a = a && d.b = b) with
    | some d => if t.drains d then t.setWait (.again 1) else (done t).advance 4
    | none =>
      let d := t.drainOf s.ag.pc a b (t.job.tlb.filter (t.inScope a b))
      let u := { t with job := { t.job with tlb := t.job.tlb.filter (fun e => !t.inScope a b e), drain := some d } }
      if u.drains d then u.setWait (.again 1) else (done u).advance 4
def execTlbinv (a b : Reg) (s : State) : Out := s.privileged (s.invalidate (s.g a) (s.g b))

/-- An instruction of the supervisor that has executed ends what an abandoned `tlbinv` waited for. -/
def State.dropDrain (s : State) : State :=
  if s.ag.priv = .user then s else { s with job := { s.job with drain := none } }

/-- A slot operand (R329): a global slot index of the partition in slots 0 to 14. -/
def Job.slotOk (j : Job) (v : Word) : Bool := v.toNat < 2 ^ 15 && vdieOf v.toNat < j.dies_n && slotOf v.toNat < 15

/-- `slspill` (R334). -/
def State.spillSlot (s : State) (va slot : Word) : State :=
  if !s.job.slotOk slot then s.raiseCause 0x0D#8
  else if va.toNat % 2048 ≠ 0 then s.raiseCause 0x47#8
  else if !inPool s.job.sfibarea va then s.raiseCause 0x0D#8
  else
    match s.hwRead (va + 0x360#64) with
    | .error t => s.raise t
    | .ok (s1, f) =>
      if field f.toNat 60 4 ≠ 0 then s1.raiseCause 0x47#8
      else if !(s1.agent slot.toNat).occupied then s1.advance 4
      else
        match s1.hwCell true va 2048 with
        | .error t => s1.raise t
        | .ok (s2, cell, home) =>
          match (s2.focus slot.toNat).quiet with
          | none => s2.setWait (.again 1)
          | some u =>
            let w := (u.saveAt cell home (fstate 4 5 0 u.agId u.ag.slStopped)).noteSaved va cell
            (w.vacate.focus s2.agId).advance 4
def execSlspill (a b : Reg) (s : State) : Out := s.privileged (s.spillSlot (s.g a) (s.g b))

/-- `slload` with selector 0 (R334): the entry loaded into a vacant slot of its home core, or onto its own master. -/
def State.loadEntry (s : State) (va : Word) (st : Nat) (b : Word) : State :=
  let target := b.toNat % 2 ^ 16
  if field b.toNat 16 46 ≠ 0 then s.raiseCause 0x0D#8
  else if st = 5 then
    match s.hwRead (va + 0x360#64) with
    | .ok (_, f) =>
      if target = 2 ^ 15 + field f.toNat 40 4 * 2 ^ 11 + field f.toNat 33 7 * 16 then (s.within target (fun u => u.restore va)).advance 4
      else s.raiseCause 0x47#8
    | .error _ => s.raiseCause 0x47#8
  else if !s.job.slotOk (BitVec.ofNat 64 target) then s.raiseCause 0x0D#8
  else if (s.agent target).occupied || s.job.posting target || coreKey target ≠ s.homeCore va then s.raiseCause 0x47#8
  else (s.within target (fun u => u.restore va)).advance 4

/-- `slload` (R334). -/
def State.loadSlot (s : State) (va b : Word) : State :=
  match field b.toNat 62 2, s.savedState va with
  | 3, _ => s.raiseCause 0x0D#8
  | 0, some st => s.loadEntry va st b
  | 1, some st =>
    if field b.toNat 0 62 ≠ 0 then s.raiseCause 0x0D#8
    else if st = 2 || st = 3 then s.raiseCause 0x47#8
    else (s.resumeEntry va st).advance 4
  | 2, some _ => if field b.toNat 0 62 ≠ 0 then s.raiseCause 0x0D#8 else (s.endEntry va).advance 4
  | _, _ => s.raiseCause 0x47#8
def execSlload (a b : Reg) (s : State) : Out := s.privileged (s.loadSlot (s.g a) (s.g b))

/-- `slstop` (R334): reissued until the slot can stop. -/
def State.stopSlot (s : State) (slot : Word) : State :=
  if !s.job.slotOk slot then s.raiseCause 0x0D#8
  else
    match (s.focus slot.toNat).quiet with
    | none => s.setWait (.again 1)
    | some u =>
      let w := if u.ag.occupied then u.giveUp else u
      let x := w.account w.pkg.cycle
      ((({ x with ag := { x.ag with slStopped := true } }).showStops.trace 7 0 x.ag.pc 0#64).focus s.agId).advance 4
def execSlstop (a : Reg) (s : State) : Out := s.privileged (s.stopSlot (s.g a))

/-- `slgo` (R334). -/
def State.goSlot (s : State) (slot : Word) : State :=
  if !s.job.slotOk slot then s.raiseCause 0x0D#8
  else (s.within slot.toNat (fun u =>
    let x := u.account u.pkg.cycle
    if x.ag.slStopped then ({ x with ag := { x.ag with slStopped := false } }).showStops.trace 7 0 x.ag.pc 0#64 else x)).advance 4
def execSlgo (a : Reg) (s : State) : Out := s.privileged (s.goSlot (s.g a))

end Sys2Proof.Machine
end

