-- ==== Sys2Proof/Machine/Events1.lean ====
section
/-! DEFINITION. Steps of the barrel cores, the swarm and the waits (01_execution_model.md R19-R45;
02_memory_and_ordering.md R63-R70; 06_scalar_instructions.md R145; 07_memory_sync_swarm_instructions.md R158-R177;
17_traps_preemption_context.md R318, R320). A step that the state does not offer leaves it as it is. -/

namespace Sys2Proof.Machine

/-- Whether the job's agents are at work: it runs, or its agents come to a boundary for a save (R335). -/
def State.live (s : State) : Bool := s.job.status = .running || s.job.status = .halting

/-- Whether the agent in focus may issue when its turn comes (R22, R34): not while a debugger's stop is on its way (R362). -/
def State.canIssue (s : State) : Bool :=
  s.ag.occupied && !s.ag.ending && (match s.ag.wait with | .ready | .again _ | .page .. => true | _ => false) && !s.ag.slStopped &&
    (s.ag.dbgStopped == s.ag.stepping) && !s.stopWanted s.agId && !s.ag.reserved && s.ag.deferred.isNone && !s.job.posting s.agId &&
    s.job.status = .running && s.ag.notBefore ≤ s.pkg.cycle

/-- Whether an agent whose level was cancelled can end at its turn (R45): an access or a `ps` already sent performs
first. -/
def State.canEnd (s : State) : Bool :=
  s.ag.occupied && s.ag.ending &&
    match s.ag.wait with
    | .request .. | .ps => false
    | _ => true

/-- The turn at this cycle lost in a class. -/
def State.loseTurn (s : State) (cls : Nat) : State :=
  (if isMasterId s.agId then s else s.countTurns cls 1).setAccounted s.agId (s.pkg.cycle + 1)

/-- The agent in focus ends; a slot then draws (R45), which its turn awaits. -/
def State.endTurn (s : State) : State :=
  let t := (s.account s.pkg.cycle).endAgent
  if t.job.status = .absent then t else (t.loseTurn 2).draw

/-- Whether a slot has a turn at this cycle that nothing has taken: its die is awake (R34, R360). -/
def State.hasTurn (s : State) : Bool :=
  s.live && !s.turnTaken s.agId &&
    (isMasterId s.agId || (slotOf s.agId = s.pkg.cycle % 16 && !s.pkg.gated.contains (s.job.pdie (vdieOf s.agId))))

/-- Whether a conduit has copy work (R37). -/
def State.conduitBusy (s : State) (key : Nat) : Bool := !(s.job.conduit key).copies.isEmpty || (s.nextMailbox key).isSome

/-- ROTATION_TURN (R34, R37, R45, R360): the slot whose turn it is is offered issue, or loses the turn in one class; an
ending unit ends. A conduit with no copy work loses its turn, vacant; one that has work may yet generate addresses in it (log entry
100). -/
def tryRotationTurn (die core : Nat) (s : State) : Option State :=
  let t := s.focus (die * 2 ^ 11 + core * 16 + s.pkg.cycle % 16)
  if s.job.dies_n ≤ die || !t.hasTurn then none
  else if slotOf t.agId = 15 then
    if s.conduitBusy (die * 128 + core) then none else some ((t.account (s.pkg.cycle + 1)).focus s.agId)
  else if t.canEnd then some t.endTurn
  else if t.canIssue then some { t with offered := true }
  else some (t.account (s.pkg.cycle + 1))
def execRotationTurn (die core : Nat) (s : State) : Out := passing s (tryRotationTurn die core s)

/-- SLOT_DRAW (R23, R43): a vacant slot is offered a draw at its turn. -/
def trySlotDraw (a : Nat) (s : State) : Option State :=
  let t := s.focus a
  if vdieOf a < s.job.dies_n && t.hasTurn && t.mayDraw && t.hasWork then some (t.account (s.pkg.cycle + 1)).draw
  else none
def execSlotDraw (a : Nat) (s : State) : Out := passing s (trySlotDraw a s)

/-- The live top-level spawn a master has outstanding. -/
def Job.spawnOf (j : Job) (m : Nat) : Option (Nat × Spawn) :=
  j.spawns.find? (fun x => x.2.root == x.1 && x.2.master == masterId m && x.2.ended.isNone)

/-- Whether a die's spawn table holds a spawn of a master. -/
def Job.holdsSpawn (j : Job) (die m id : Nat) : Bool := (lookup m (j.die die).entries).any (fun e => e.spawn == id)

/-- Dies that a broadcast has yet to reach (R19). -/
def Job.unreached (j : Job) (m id : Nat) : List Nat := (List.range j.dies_n).filter (fun d => !j.holdsSpawn d m id)

/-- Whether the message of a broadcast to a die is lost and has not been sent again (R351). -/
def Job.castLost (j : Job) (id die : Nat) : Bool := j.casts.any (fun c => c.spawn == id && c.die == die && c.lost)

/-- Whether a broadcast may reach a die (R19): the dies take it up in the order of their virtual numbers; an awake one does not wait
for a die that has to wake, nor any for one whose message is lost. DEDUCED: log entry 113. -/
def State.mayReach (s : State) (die m id : Nat) : Bool :=
  let gated (d : Nat) : Bool := s.pkg.gated.contains (s.job.pdie d)
  !s.job.castLost id die && (s.job.unreached m id).all (fun d => die ≤ d || s.job.castLost id d || (gated d && !gated die))

/-- SPAWN_BROADCAST (R19): a die's spawn table takes up a spawn; a gated die wakes. -/
def trySpawnBroadcast (die m : Nat) (s : State) : Option State :=
  match s.job.spawnOf m with
  | some (id, _) =>
    if s.job.status ≠ .running || s.job.dies_n ≤ die || s.job.holdsSpawn die m id || !s.mayReach die m id then none
    else
      let t := { s with job := { s.job with casts := s.job.casts.filter (fun c => !(c.spawn == id && c.die == die)) } }
      some ((t.wakeDie (s.job.pdie die)).onDie die (fun d => { d with
        entries := assign m { spawn := id, next := 1, last := 0, further := none } d.entries }))
  | none => none
def execSpawnBroadcast (die m : Nat) (s : State) : Out := passing s (trySpawnBroadcast die m s)

/-- CHUNK_REQUEST (R20): the next chunk of 64 numbers, for a die that holds at most one. -/
def tryChunkRequest (die m : Nat) (s : State) : Option State :=
  match lookup m (s.job.die die).entries with
  | none => none
  | some e =>
    match lookup e.spawn s.job.spawns with
    | none => none
    | some sp =>
      if s.job.status ≠ .running || sp.ended.isSome || sp.hi < sp.nextChunk || e.further.isSome then none
      else
        let last := min (sp.nextChunk + 63) sp.hi
        let entry : TableEntry :=
          if e.last < e.next then { e with next := sp.nextChunk, last := last } else { e with further := some (sp.nextChunk, last) }
        some ((s.onSpawn e.spawn (fun x => { x with nextChunk := last + 1 })).onDie die (fun d => { d with
          entries := assign m entry d.entries }))
def execChunkRequest (die m : Nat) (s : State) : Out := passing s (tryChunkRequest die m s)

/-- PS_WINDOW (R28): the windows that have ended take effect. -/
def tryPsWindow (spawn : Nat) (s : State) : Option State :=
  if s.live && s.job.psRequests.any (fun r => r.spawn == spawn && r.value.isNone && r.lost ≠ some .request && r.window < s.pkg.cycle / 16) then
    some (s.psWindows spawn (s.pkg.cycle / 16))
  else none
def execPsWindow (spawn : Nat) (s : State) : Out := passing s (tryPsWindow spawn s)

/-- PS_RESULT (R28): the result lands in gd, exactly when it is due. -/
def tryPsResult (a : Nat) (s : State) : Option State :=
  let t := s.focus a
  match t.job.psRequests.find? (fun r => r.agent == a) with
  | some r =>
    if !t.live || t.ag.wait ≠ .ps || t.pkg.cycle ≠ r.due || r.lost.isSome then none
    else
      let u := (t.account t.pkg.cycle).psWindows r.spawn (t.pkg.cycle / 16)
      let v := ((u.job.psRequests.find? (fun x => x.agent == a)).bind (fun x => x.value)).getD 0#64
      some (((({ u with job := { u.job with psRequests := u.job.psRequests.filter (fun x => !(x.agent == a)) } }).setG r.d v).setTransaction
        none).setWait .ready)
  | none => none
def execPsResult (a : Nat) (s : State) : Out := passing s (tryPsResult a s)

/-- A `ps` request of another die than the home die, whose message or result is still on its way. -/
def State.psAway (s : State) (a : Nat) : Option PsRequest :=
  s.job.psRequests.find? (fun r => r.agent == a && s.pkg.cycle ≤ r.due && r.lost.isNone &&
    (lookup r.spawn s.job.spawns).any (fun sp => sp.homeDie != vdieOf a))

/-- A request of `ps` changed, in its place among the others. -/
def State.putPs (s : State) (r : PsRequest) : State :=
  { s with job := { s.job with psRequests := insertPs r (s.job.psRequests.filter (fun x => !(x.agent == r.agent))) } }

/-- A request or result of `ps` on another die is delayed by a repair of its link (R351): a request that has not reached the
home die joins a later window. -/
def State.delayPs (s : State) (a k : Nat) : Option State :=
  (s.psAway a).map (fun r =>
    if s.pkg.cycle < r.arrives then s.putPs { r with due := r.due + k, arrives := r.arrives + k, window := (r.arrives + k) / 16 }
    else s.putPs { r with due := r.due + k })

/-- It is lost (R350): the request, unless it has reached the home die, else its result. -/
def State.losePs (s : State) (a : Nat) : Option State :=
  (s.psAway a).map (fun r => s.putPs { r with lost := some (if s.pkg.cycle < r.arrives then .request else .result) })

/-- It is sent again (R350): a request that has taken effect keeps its value, in one window only. -/
def State.resendPs (s : State) (a : Nat) : State :=
  match s.job.psRequests.find? (fun r => r.agent == a) with
  | none => s
  | some r =>
    let now := s.pkg.cycle
    let q : PsRequest := { r with due := now + 112, sent := now, lost := none }
    s.putPs (if r.lost = some .request then { q with arrives := now + 48, window := (now + 48) / 16 } else q)

/-- BASIN_REFILL (R31): the newest spilled record returns to hardware. -/
def tryBasinRefill (die : Nat) (s : State) : Option State :=
  match (s.job.die die).spilled with
  | id :: rest =>
    if s.live && (s.job.die die).basin.length < 256 then
      some (s.onDie die (fun d => { d with basin := d.basin ++ [id], spilled := rest }))
    else none
  | [] => none
def execBasinRefill (die : Nat) (s : State) : Out := passing s (tryBasinRefill die s)

/-- A step that ends a wait of an agent: what it does, if the wait is of the kind and the step leaves it. The wait of an agent whose
level was cancelled is abandoned (R45). -/
def State.wakes (s : State) (a : Nat) (kind : Wait → Bool) (f : State → State) : Option State :=
  let t := s.focus a
  if t.live && t.ag.occupied && !t.ag.ending && kind t.ag.wait then
    let u := f (t.account t.pkg.cycle)
    if kind u.ag.wait then none else some u
  else none

/-- JOIN_RETIRE (R25). -/
def tryJoinRetire (a : Nat) (s : State) : Option State := s.wakes a (· == .join) State.joinTurn
def execJoinRetire (a : Nat) (s : State) : Out := passing s (tryJoinRetire a s)

/-- NEXT_DRAIN_COMPLETE (R176). -/
def tryNextDrainComplete (a : Nat) (s : State) : Option State :=
  s.wakes a (fun w => match w with | .next _ => true | _ => false) (fun t =>
    match t.ag.wait with
    | .next n => t.nextTurn n
    | _ => t)
def execNextDrainComplete (a : Nat) (s : State) : Out := passing s (tryNextDrainComplete a s)

/-- LONG_LATENCY_RESULT (R145, R199). -/
def tryLongLatencyResult (a : Nat) (s : State) : Option State :=
  s.wakes a (fun w => match w with | .long .. => true | _ => false) (fun t =>
    match t.ag.wait with
    | .long due r =>
      if t.pkg.cycle < due then t
      else
        match r with
        | .gpr d v f => ((t.setG d v).orFlags f).setWait .ready
        | .vec d v f => ((t.setV d v).orFlags f).setWait .ready
    | _ => t)
def execLongLatencyResult (a : Nat) (s : State) : Out := passing s (tryLongLatencyResult a s)

/-- Whether a slice's replay holds the next write of an access (R371): KIND 0 of a store, 1 of a full/empty operation, 2 of an
atomic. -/
def State.heldNext (s : State) (op : MemOp) (loc : Loc) : Bool :=
  match op with
  | .store n _ => s.heldAt 0 loc n
  | .vstore _ k d put =>
    ((activeDwords (s.k k)).drop put).head?.any (fun i => s.heldAt 0 (loc.plus (vstPart (s.k k) (s.v d) i).1) (vstPart (s.k k) (s.v d) i).2.1)
  | .fe .stfe _ _ | .fe .stff _ _ => s.heldAt 1 loc 8
  | .amo .. => s.heldAt 2 loc 8
  | _ => false

/-- The record a write leaves with its target (R349), by the place of the agent that sent it. -/
def State.noteDedup (s : State) (op : MemOp) : State :=
  if op.form.writes then { s with pkg := { s.pkg with dedup := s.pkg.dedup ++ [(s.slotPlace s.agId, s.pkg.cycle)] } } else s

/-- What the home makes of a request sent at `since` (R64): performed, its reply on the way, but for the lanes of a local access, which
are in hand (R202); performed in part; parked or
watching; failed, which an agent that is to end is not told (R45); still on its way with a translation newly asked for. -/
def State.atHome (s : State) (op : MemOp) (va : Word) (loc : Loc) (len since : Nat) : Option State :=
  match s.effect (s.share.getD 16) op va loc len with
  | .done t d v =>
    match op with
    | .gather .. | .scatter .. => some ((t.setWait .ready).advance len)
    | _ =>
      let x : Transaction := s.transaction.getD { agent := s.slotPlace s.agId, sent := since, retries := 0 }
      let u := if s.crosses loc then (t.noteDedup op).setTransaction (some x) else t
      some ((u.setWait (.reply d v)).advance len)
  | .trap t =>
    let u := (s.setTransaction none).setWait .ready
    some (if s.ag.ending then u else u.raise t)
  | .limit u t =>
    let v := (u.setTransaction none).setWait .ready
    some (if s.ag.ending then v else v.raise t)
  | .blocked t => if s.pkg.ats.length < t.pkg.ats.length then some t else none
  | .partly t rest =>
    if rest = op && t.pkg.ats.length = s.pkg.ats.length then none else some (t.setWait (.request rest va loc len since))
  | .waiting t => some (t.setTransaction none)
  | .again t => some ((t.setTransaction none).setWait .ready)

/-- Whether an agent's request is a `psm` that the merge stages of a die combine: to the dword of a cell, sent in a window of
16 cycles (R166). -/
def Agent.mergesIn (x : Agent) (cell window : Nat) : Bool :=
  match x.wait with
  | .request (.amo .psm _ _ _) _ (.cell c _) _ since => c / 8 = cell / 8 && since / 16 = window && !isLocal c
  | _ => false

/-- The agents whose `psm` one combined request carries, in the order of R166. The manual gives a request no time to a merge stage and
names no stages: it is at one in the 16 cycles of its issue, and the stages combine the requests of one die, never of two. DESIGN
CHOICE: log entry 109. -/
def State.mergedWith (s : State) (a cell window : Nat) : List Nat :=
  (s.allAgents.filter (fun x => vdieOf x.1 == vdieOf a && x.2.mergesIn cell window)).map (fun x => x.1)

/-- The request of one agent performs. -/
def State.performRequest (s : State) (a : Nat) : Option State :=
  let t := s.focus a
  match t.ag.wait with
  | .request op va loc len since => (t.account t.pkg.cycle).atHome op va loc len since
  | _ => none

/-- MEMORY_REQUEST_AT_HOME (R64): a request on its way performs; a combined set of `psm` once its 16 cycles are over, at
consecutive instants (R166). Where containment of one ends the job or an agent of the set, the rest go on without it. -/
def tryMemoryRequestAtHome (a : Nat) (s : State) : Option State :=
  let t := s.focus a
  let made : Option State :=
    match t.ag.wait with
    | .request (.amo .psm _ _ _) _ (.cell c _) _ since =>
      if isLocal c then t.performRequest a
      else if t.pkg.cycle / 16 ≤ since / 16 then none
      else match t.mergedWith a c (since / 16) with
        | [] => none
        | b :: rest => (t.performRequest b).map (fun u => rest.foldl (fun w x => (w.performRequest x).getD w) u)
    | _ => t.performRequest a
  match made with
  | some u => if t.live then some u else none
  | none => none
def execMemoryRequestAtHome (a : Nat) (s : State) : Out := passing s (tryMemoryRequestAtHome a s)

/-- The register an access writes at its reply. -/
def MemOp.dest : MemOp → Reg
  | .load _ _ d | .fe _ d _ | .amo _ d _ _ => d
  | _ => 0#5

/-- The reply of an access, of an ended full/empty operation or of a watch lands (R63, R70, R164, R170); an agent that is to end takes
none (R45). -/
def State.replyLands (s0 : State) : Option State :=
  let s := s0.setTransaction none
  match (if s.ag.ending then .ready else s.ag.wait) with
  | .reply d v => some ((s.setG d v).setWait .ready)
  | .park op va len =>
    match (s.job.parked.find? (fun p => p.agent == s.agId)).bind (fun p => p.ended) with
    | some r =>
      let t := { s.releaseWaits with ag := { s.ag with wakes := 0, wait := .ready } }
      match r with
      | .ok v => some ((t.setG op.dest v).advance len)
      | .error c => some (t.raise { cause := c, addr := if c = 0x40#8 then va else dwordVa va })
    | none => none
  | .watch _ va len =>
    match (s.job.armed.find? (fun p => p.agent == s.agId)).bind (fun p => p.ended) with
    | some r =>
      let t := { s.releaseWaits with ag := { s.ag with waited := 0, wait := .ready } }
      match r with
      | none => some (t.advance len)
      | some c => some (t.raise { cause := c, addr := dwordVa va })
    | none => none
  | _ => none

/-- LOAD_REPLY (R158). -/
def tryLoadReply (a : Nat) (s : State) : Option State :=
  let t := s.focus a
  if t.live then
    match (t.account t.pkg.cycle).replyLands with
    | some u => some u
    | none => none
  else none
def execLoadReply (a : Nat) (s : State) : Out := passing s (tryLoadReply a s)

/-- The translation an outstanding streaming access waits for, newly asked for (R314). -/
def State.askFor (s : State) (x : Streaming) : Option State :=
  let p := s.pkg.askHost x.loc x.isStore
  if !x.performed && s.pkg.ats.length < p.ats.length then some { s with pkg := p } else none

/-- Streaming accesses of ended units of a position (R45), and one of them performed: nobody is told its value or failure. -/
def Job.looseOf (j : Job) (a : Nat) : List Loose := j.loose.filter (fun l => l.agent == a)
def State.performLoose (s : State) (a i : Nat) : Option State :=
  let mine := (s.job.looseOf a).map (fun l => l.access)
  match (s.job.looseOf a)[i]? with
  | none => none
  | some l =>
    if (olderSame mine i).isSome then none
    else
      match s.doStreaming l.access with
      | some (_, t) => some { t with job := { t.job with loose := t.job.loose.erase l } }.reap
      | none => s.askFor l.access

/-- STREAMING_ACCESS_PERFORM (R66): an outstanding access performs, or asks for the host translation it lacks. Those of ended
units of the position come after the agent's own. -/
def tryStreamingAccessPerform (a i : Nat) (s : State) : Option State :=
  let t := s.focus a
  let made : Option State :=
    if t.ag.nb.length ≤ i then t.performLoose a (i - t.ag.nb.length)
    else
      match t.performStreaming i with
      | some u => some u
      | none => (t.ag.nb[i]?).bind t.askFor
  match made with
  | some u => if t.live then some u else none
  | none => none
def execStreamingAccessPerform (a i : Nat) (s : State) : Out := passing s (tryStreamingAccessPerform a i s)

/-- One retry of a parked operation by itself, and what a change of its dword's bit brings about. -/
def State.retryOne (s : State) (p : Parked) : State :=
  let (q, t) := s.retry p
  let u : State := { t with job := { t.job with parked := t.job.parked.map (fun x => if x.agent = p.agent then q else x) } }
  u.bitChanged p.cell (s.feBit p.cell)

/-- IDLE_WAKE (R164): an operation idle for 65,536 cycles is retried once; one that a replay lets go is retried at once (R371). -/
def tryIdleWake (a : Nat) (s : State) : Option State :=
  match s.job.parked.find? (fun p => p.agent == a && p.ended.isNone) with
  | some p => if s.live && (p.tried + 65536 ≤ s.pkg.cycle || s.released p) then some (s.retryOne p) else none
  | none => none
def execIdleWake (a : Nat) (s : State) : Out := passing s (tryIdleWake a s)

/-- MWAIT_POLL (R70): a polling `mwait` loads its dword. -/
def tryMwaitPoll (a : Nat) (s : State) : Option State :=
  match s.job.armed.find? (fun p => p.agent == a && p.polling && p.ended.isNone) with
  | some p =>
    if s.live && p.polled + 1024 ≤ s.pkg.cycle then
      let t := match p.loc with | .view pa => s.fillView pa | _ => s
      let q := { t.tryWatch p with polled := t.pkg.cycle }
      some { t with job := { t.job with armed := t.job.armed.map (fun x => if x.agent = a then q else x) } }
    else none
  | none => none
def execMwaitPoll (a : Nat) (s : State) : Out := passing s (tryMwaitPoll a s)

/-- WATCH_LIMIT (R170): an `mwait` not complete after 2^32 cycles raises "watch limit". -/
def tryWatchLimit (a : Nat) (s : State) : Option State :=
  let t := s.focus a
  match t.ag.wait, t.job.armed.find? (fun p => p.agent == a && p.ended.isNone) with
  | .watch _ va _, some p =>
    if t.live && !t.ag.ending && 2 ^ 32 ≤ t.pkg.cycle - p.since + p.before then
      let u := (t.account t.pkg.cycle).releaseWaits
      some (({ u with ag := { u.ag with waited := 0 } }).raise { cause := 0x43#8, addr := va })
    else none
  | _, _ => none
def execWatchLimit (a : Nat) (s : State) : Out := passing s (tryWatchLimit a s)

/-- SLEEP_WAKE (R171). -/
def trySleepWake (a : Nat) (s : State) : Option State :=
  s.wakes a (fun w => match w with | .sleep _ => true | _ => false) (fun t =>
    match t.ag.wait with
    | .sleep c => if c.toNat ≤ t.pkg.cycle then (t.setWait .ready).advance 4 else t
    | _ => t)
def execSleepWake (a : Nat) (s : State) : Out := passing s (trySleepWake a s)

/-- WAITC_COMPLETE (R168). -/
def tryWaitcComplete (a : Nat) (s : State) : Option State :=
  s.wakes a (fun w => match w with | .waitc .. => true | _ => false) (fun t =>
    match t.ag.wait with
    | .waitc nl ns nc nt => t.waitcTurn nl ns nc nt
    | _ => t)
def execWaitcComplete (a : Nat) (s : State) : Out := passing s (tryWaitcComplete a s)

/-- FENCE_COMPLETE (R67, R155, R180): a `fence` completes, or the wait as by `fence` of `sys 0` or `fbsave`. -/
def tryFenceComplete (a : Nat) (s : State) : Option State :=
  s.wakes a (fun w => match w with | .fence | .sysExit | .fbsave => true | _ => false) (fun t =>
    match t.ag.wait with
    | .sysExit => t.drained .sysExit State.exitNode
    | .fbsave => t.fbsaveTurn
    | _ => t.fenceTurn)
def execFenceComplete (a : Nat) (s : State) : Out := passing s (tryFenceComplete a s)

/-- A post that waited for room is made (R234, R241). -/
def State.roomMade (s : State) (a : Nat) : Option State :=
  let t := s.focus a
  match t.live && !t.ag.ending, (t.account t.pkg.cycle).madeRoom with
  | true, some u => some u
  | _, _ => none

/-- CPWAIT_PROMISE_REACHED (R210): the stamp is loaded at the slot's first turn at or after the promise. -/
def tryCpwaitPromiseReached (a : Nat) (s : State) : Option State :=
  s.wakes a (fun w => match w with | .cpwait .. => true | _ => false) (fun t =>
    match t.ag.wait with
    | .cpwait op va target =>
      if target.toNat ≤ t.pkg.cycle && t.hasTurn then
        let u := t.account (t.pkg.cycle + 1)
        u.perform (u.setWait .ready) op va 4
      else t
    | _ => t)
def execCpwaitPromiseReached (a : Nat) (s : State) : Out := passing s (tryCpwaitPromiseReached a s)

/-- LEASE_EXPIRY (R59, R69, R350): a line of a master's L1 expires. No load of a master reads a value older than its
home holds, so the machine keeps no line and nothing a program can see changes. -/
def execLeaseExpiry (_master _line : Nat) (s : State) : Out := .next s

/-- TRAP_RECORD_POST (R320): the oldest waiting record is written and TAIL incremented. -/
def tryTrapRecordPost (s : State) : Option State :=
  if s.job.records = [] || !s.live then none
  else if s.job.queueSize = 0 then (if s.job.status = .running then some s.postOldest else none)
  else if s.job.queued = s.job.queueSize then none
  else some s.postOldest
def execTrapRecordPost (s : State) : Out := passing s (tryTrapRecordPost s)

/-- DEFERRED_SUPERVISOR_SAVE (R318): an agent stopped with its cause is delivered once it can be; one that waits for an entry
of `sfibarea` is saved there. A fault or a mark met on the way, or no area, is a firmware cause. -/
def tryDeferredSupervisorSave (a : Nat) (s : State) : Option State :=
  let t := s.focus a
  match t.ag.deferred with
  | some c =>
    let u := if c.toArea then (t.account t.pkg.cycle).deliverSupervisor c else (t.account t.pkg.cycle).raise c
    if t.live && (u.ag.deferred.isNone || u.job.status ≠ t.job.status || u.job.fwCause ≠ t.job.fwCause) then some u else none
  | none => none
def execDeferredSupervisorSave (a : Nat) (s : State) : Out := passing s (tryDeferredSupervisorSave a s)

end Sys2Proof.Machine
end

