-- ==== Sys2Proof/Machine/Events2.lean ====
section
/-! DEFINITION. Steps of translation and host memory (16_translation_host_memory.md R306-R316, R381), of jobs and their
context (15_work_hierarchy_scheduling.md R282, R293; 17_traps_preemption_context.md R335-R340), and of reliability,
links, power and service (18_reliability_fabric_power.md R343-R357). A step that the state does not offer leaves it as it is. -/

namespace Sys2Proof.Machine

/-- The form a walk of a kind has; an engine's is a read. -/
def formOfKind : AccessKind → Form
  | .load => .load
  | .store => .store
  | .fetch => .fetch
  | .engine => .engRead

/-- PAGE_WALK (R306): a walk sets A and D, installs the entry, or changes nothing and denies. -/
def tryPageWalk (va : Word) (k : AccessKind) (s : State) : Option State :=
  if !s.live || !canonical va || inWindow va then none
  else
    match s.walk (formOfKind k) va with
    | .ok e => some (e.s.walked e.wrote)
    | .error _ => some s
def execPageWalk (va : Word) (k : AccessKind) (s : State) : Out := passing s (tryPageWalk va k s)

/-- Every job of the package changed, the focus returning to where it was. -/
def State.overJobs (f : State → State) (s : State) : State :=
  let back (t : State) : State :=
    let u := t.focusJob s.jobNo
    if u.job.status = .absent then u else u.focus s.agId
  back ((s.jobs.map (fun x => x.1)).foldl (fun t n => f (t.focusJob n)) (f s))

/-- Every agent of the job in focus changed. -/
def State.overAgents (f : State → State) (s : State) : State :=
  (s.allAgents.map (fun x => x.1)).foldl (fun t a => if t.job.status = .absent then t else f (t.focus a)) s

/-- The host accesses of the agent in focus that a test picks end with "host page refused" (R314, R315, R384): a streaming
access fails, a request on its way or the read or write that a post waits for raises it, but for an agent that is to end (R45). -/
def State.refuseHere (p : Bool → Loc → Bool) (s : State) : State :=
  let fail (x : Streaming) : Streaming :=
    if !x.performed && p x.isStore x.loc then
      { x with performed := true, failed := some (if x.isStore then 0x2F#8 else 0x27#8) }
    else x
  let t := { s with ag := { s.ag with nb := leaveCounters false false (s.ag.nb.map fail) } }
  let refused (va : Word) (loc : Loc) (write : Bool) : State :=
    if p write loc then
      if t.ag.ending then t.setWait .ready
      else (t.account t.pkg.cycle).raise { cause := if write then 0x2F#8 else 0x27#8, subr := 2, addr := va }
    else t
  match t.ag.wait with
  | .request op va loc _ _ => refused va loc op.form.writes
  | .page va loc write => refused va loc write
  | _ => t

/-- The same of every agent of every job; streaming accesses of ended units have failed with nobody told. -/
def State.refuseAll (p : Bool → Loc → Bool) (s : State) : State :=
  s.overJobs (fun t =>
    let u := t.overAgents (State.refuseHere p)
    ({ u with job := { u.job with loose := u.job.loose.filter (fun l => !p l.access.isStore l.access.loc) } }).reap)

/-- Whether a location lies in the page of a host request. -/
def HostRequest.at_ (r : HostRequest) (l : Loc) : Bool :=
  match l with
  | .host p q i => r.names p q (i / 4096)
  | _ => false

/-- Whether the ATC admits an access. -/
def Pkg.admits (p : Pkg) (write : Bool) (l : Loc) : Bool :=
  match l with
  | .host q r i => (p.hostCell q r i write).isSome
  | _ => true

/-- A page refused for good (R314, R315, R381): every access that waits for it and that the ATC does not admit ends. -/
def State.refusePage (s : State) (r : HostRequest) : State :=
  let t := s.refuseAll (fun write l => r.at_ l && !s.pkg.admits write l)
  let engines := r.engines.filter (fun e => !s.pkg.admits e.2 (.host r.port r.pasid (4096 * r.page)))
  if engines ≠ [] then { t with pkg := { t.pkg with refused := t.pkg.refused ++ [{ r with engines := engines }] } } else t

/-- Page requests a port has sent (R315): at most 512. -/
def Pkg.sent (p : Pkg) (port : Nat) : List HostRequest := (p.pri.filter (fun r => r.port == port)).take 512

/-- A page request answered or given up: one that waited for room is sent. -/
def Pkg.endPri (p : Pkg) (r : HostRequest) : Pkg :=
  let q := { p with pri := p.pri.filter (fun x => !(x == r)) }
  let late (x : HostRequest) : Bool := (q.sent r.port).contains x && !(p.sent r.port).contains x
  { q with pri := q.pri.map (fun x => if late x then { x with since := p.cycle } else x) }

/-- ATS_TRANSLATION_RESPONSE (R314, R381): what is granted fills the ATC; an access it does not admit asks for the page
once, and is refused when the retry fails too. -/
def tryAtsTranslationResponse (port pasid page : Nat) (a : AtsAnswer) (s : State) : Option State :=
  match s.pkg.ats.find? (fun r => r.names port pasid page) with
  | none => none
  | some r =>
    let p := { s.pkg with ats := s.pkg.ats.filter (fun x => !(x == r)) }
    match a with
    | .abort => some (({ s with pkg := p }).refusePage r)
    | .grant h rd wr =>
      let rest := p.atc.filter (fun e => !(e.port == port && e.pasid == pasid && e.page == page))
      let q := if rd || wr then
          { p with atc := rest ++ [{ port := port, pasid := pasid, page := page, hostPage := h, r := rd, w := wr }] }
        else p
      if (if r.write then wr else rd) then some { s with pkg := q }
      else if r.retry then some (({ s with pkg := q }).refusePage r)
      else some { s with pkg := { q with pri := q.pri ++ [{ r with since := s.pkg.cycle }] } }
def execAtsTranslationResponse (port pasid page : Nat) (a : AtsAnswer) (s : State) : Out := passing s (tryAtsTranslationResponse port pasid page a s)

/-- PRI_RESPONSE (R315): one that comes within 2^32 cycles. -/
def tryPriResponse (port pasid page : Nat) (a : PriAnswer) (s : State) : Option State :=
  match (s.pkg.sent port).find? (fun r => r.names port pasid page) with
  | none => none
  | some r =>
    let p := s.pkg.endPri r
    if r.since + 2 ^ 32 ≤ s.pkg.cycle then none
    else match a with
    | .success => some { s with pkg := { p with ats := p.ats ++ [{ r with retry := true, since := s.pkg.cycle }] } }
    | .invalid | .failure => some (({ s with pkg := p }).refusePage r)
def execPriResponse (port pasid page : Nat) (a : PriAnswer) (s : State) : Out := passing s (tryPriResponse port pasid page a s)

/-- PRI_TIMEOUT (R315). -/
def tryPriTimeout (port pasid page : Nat) (s : State) : Option State :=
  match (s.pkg.sent port).find? (fun r => r.names port pasid page) with
  | none => none
  | some r =>
    if r.since + 2 ^ 32 ≤ s.pkg.cycle then some (({ s with pkg := s.pkg.endPri r }).refusePage r)
    else none
def execPriTimeout (port pasid page : Nat) (s : State) : Out := passing s (tryPriTimeout port pasid page s)

/-- Writes of engines to host memory whose translation has been made and that are still to perform, of every job. -/
def State.hostWrites (s : State) : List LateWrite :=
  (s.job :: s.jobs.map (fun x => x.2)).flatMap (fun j =>
    (j.late ++ j.conduits.flatMap (fun c => c.2.copies.flatMap (fun x => (x.writing.map (fun w => w.row)).getD []))).filter
      (fun x => hostBase ≤ x.cell))

/-- ATS_INVALIDATION (R316): the entries of a range go at once, of one PASID or of all. -/
def tryAtsInvalidation (port : Nat) (pasid : Option Nat) (page pages : Nat) (s : State) : Option State :=
  if s.pkg.portsDown.contains port then none
  else
    let hit (e : AtcEntry) : Bool :=
      e.port == port && (match pasid with | some q => e.pasid == q | none => true) && page ≤ e.page && e.page < page + pages
    some { s with pkg := { s.pkg with
      atc := s.pkg.atc.filter (fun e => !hit e), invalidating := s.pkg.invalidating ++ [(port, s.hostWrites)] } }
def execAtsInvalidation (port : Nat) (pasid : Option Nat) (page pages : Nat) (s : State) : Out := passing s (tryAtsInvalidation port pasid page pages s)

/-- INVALIDATION_COMPLETION (R316): every access translated by a removed entry has performed; but for engines' late writes one
performs as it is translated. -/
def tryInvalidationCompletion (port : Nat) (s : State) : Option State :=
  match s.pkg.invalidating.find? (fun x => x.1 == port) with
  | some x =>
    if s.hostWrites.any x.2.contains then none
    else some { s with pkg := { s.pkg with invalidating := s.pkg.invalidating.erase x } }
  | none => none
def execInvalidationCompletion (port : Nat) (s : State) : Out := passing s (tryInvalidationCompletion port s)

/-- Address of the dword that an access of the agent in focus reads next: of a `vld`, the lowest that holds an active byte and has not
been loaded (R201). -/
def State.nextDword (s : State) (op : MemOp) (va : Word) : Word :=
  match op with
  | .vload _ k _ got => va + BitVec.ofNat 64 (8 * ((activeDwords (s.k k)).drop got.length).headD 0)
  | _ => va

/-- HOST_READ_COMPLETION (R58, R345): the data of a host read arrives; a completion with EP set or Completer Abort is a
poisoned dword. -/
def tryHostReadCompletion (a : Nat) (bad : Bool) (s : State) : Option State :=
  let t := s.focus a
  match t.ag.wait with
  | .request op va (.host port pasid iova) len since =>
    if !t.live || op.form.writes || (t.pkg.hostCell port pasid iova false).isNone then none
    else
      let u := t.account t.pkg.cycle
      if bad then
        let v := (u.setTransaction none).setWait .ready
        some (if v.ag.ending then v else v.raise (loadTrap 0x60#8 (t.nextDword op va)))
      else
        match u.atHome op va (.host port pasid iova) len since with
        | some w => some w
        | none => none
  | _ => none
def execHostReadCompletion (a : Nat) (bad : Bool) (s : State) : Out := passing s (tryHostReadCompletion a bad s)

/-- FORMAT_WINDOW_ARM (R310). -/
def tryFormatWindowArm (stack w : Nat) (s : State) : Option State :=
  if s.job.pdies.contains (stack / 2) then
    some (s.writeFwctl stack w (s.pkg.reg (fwBase stack w) ||| 0x8000_0000_0000_0000#64))
  else none
def execFormatWindowArm (stack w : Nat) (s : State) : Out := passing s (tryFormatWindowArm stack w s)

/-- FORMAT_WINDOW_DISARM (R310). -/
def tryFormatWindowDisarm (stack w : Nat) (s : State) : Option State :=
  if s.job.pdies.contains (stack / 2) then
    some (s.writeFwctl stack w (s.pkg.reg (fwBase stack w) &&& 0x7FFF_FFFF_FFFF_FFFF#64))
  else none
def execFormatWindowDisarm (stack w : Nat) (s : State) : Out := passing s (tryFormatWindowDisarm stack w s)

/-- DIRTY_LOG_EPOCH_FLIP (R340): outstanding writes perform, with their bits in the old buffer, before EPOCH changes. -/
def tryDirtyLogEpochFlip (epoch : Bool) (s : State) : Option State :=
  if s.job.status = .absent || (field s.job.dlbase.toNat 62 1 = 1) = epoch then none
  else
    let t := s.settleEvery
    some { t with job := { t.job with dlbase := t.job.dlbase ^^^ 0x4000_0000_0000_0000#64 } }
def execDirtyLogEpochFlip (epoch : Bool) (s : State) : Out := passing s (tryDirtyLogEpochFlip epoch s)

/-- Whether every agent of the job is at a boundary, with every one that is quiet in place of itself (R172, R335). -/
def State.allQuiet (s : State) : Option State :=
  (s.allAgents.map (fun x => x.1)).foldl (fun t a => t.bind (fun u => (u.focus a).quiet)) (some s)

/-- Cached lines and logged epochs of dies dropped: their slices have been written back and hold nothing (R335). -/
def Pkg.dropLines (p : Pkg) (dies : List Nat) : Pkg :=
  { p with viewLines := p.viewLines.filter (fun x => !dies.contains (x.1 * 64 / 2 ^ 38))
           epochs := p.epochs.filter (fun x => !dies.contains (x.1 * 64 / 2 ^ 38)) }

/-- What a job's context image holds of the agent in focus (R336): its record, ORIGIN 6, and stack image with its marks (R345). -/
def State.imageOf (s : State) : AgentImage :=
  let master : Bool := s.ag.role = .master
  { record := s.fibreRecord (fstate (if master then 5 else 4) 6 0 s.agId s.ag.slStopped) ++
      (if master then [] else s.getWords (s.stackCell s.agId) 64)
    bad := if master then [] else s.badWords (s.stackCell s.agId) 64
    info := s.savedInfo [], agent := s.ag }

/-- An occupied agent saved into the image: its wait given up, its slot or master left (R172, R335). -/
def State.saveImage (s : State) : State :=
  if s.ag.occupied then
    let t := s.giveUp
    ({ t with job := { t.job with image := assign t.agId t.imageOf t.job.image } }).vacate
  else s

/-- An agent of the image put back (R39, R336): what its record holds, and of the rest what the hardware knew. -/
def State.loadImage (s : State) (x : Nat × AgentImage) : State :=
  let t := s.focus x.1
  let i := x.2
  let ag : Agent := { agentOfRecord (i.record.take 128) x.1 i.info i.agent with
    priv := i.agent.priv, reserved := i.agent.reserved, ending := i.agent.ending }
  let u := { t with ag := ag }
  (if ag.role = .master then u
   else (State.putWords (engineWriter (coreKey x.1)) none (u.stackCell x.1) (i.record.drop 128) u).markWords (u.stackCell x.1) i.bad).showStops

/-- Whether an engine of the job is in the middle of writes that a save waits for (R218, R335). -/
def Job.midWrite (j : Job) : Bool := !j.late.isEmpty || j.conduits.any (fun c => c.2.copies.any (fun x => x.writing.isSome))

/-- JOB_SUSPEND (R335): the stop asked for; then, with every agent at a boundary, every streaming access performed, those of ended
units among them, and every collective instance complete, the job saved. -/
def tryJobSuspend (s : State) : Option State :=
  match s.job.status with
  | .running => some { s.tickAll with job := { s.tickAll.job with status := .halting } }
  | .halting =>
    if s.job.comms.any (fun c => !c.2.instances.isEmpty) || s.job.midWrite || !s.job.loose.isEmpty then none
    else
      match s.allQuiet with
      | none => none
      | some t =>
        let u := ((t.accountAll.overAgents State.saveImage).focus s.agId).tickAll
        some { u with
          pkg := u.pkg.dropLines u.job.pdies
          job := { u.job with
            status := .suspended
            conduits := u.job.conduits.map (fun c => (c.1, { c.2 with copies := c.2.copies.map (fun y => { y with waitVersion := none }) }))
            saved := some (u.job.vdmap, u.pkg.cycle) } }
  | .absent | .suspended => none
def execJobSuspend (s : State) : Out := passing s (tryJobSuspend s)

/-- JOB_SAVE_ABANDON (R335). -/
def tryJobSaveAbandon (s : State) : Option State :=
  if s.job.status = .halting then some { s.tickAll with job := { s.tickAll.job with status := .running } } else none
def execJobSaveAbandon (s : State) : Out := passing s (tryJobSaveAbandon s)

/-- Physical dies that jobs own (R282). -/
def State.ownedDies (s : State) : List Nat := s.job.pdies ++ s.jobs.flatMap (fun x => x.2.pdies)

/-- Dies in service (R3, R357). -/
def Pkg.inService (p : Pkg) (die : Nat) : Bool := field p.boot.diemap die 1 = 1

/-- Whether a cell lies in the stacks of a physical die, or in its local stores; and the cell in the same place of
another die. -/
def onDieCell (p a : Nat) : Bool := (a < 2 ^ 42 && a / 2 ^ 38 = p) || (isLocal a && (a - lsBase) / 2 ^ 25 = p)
def movedCell (p q a : Nat) : Nat := if isLocal a then a - p * 2 ^ 25 + q * 2 ^ 25 else a - p * 2 ^ 38 + q * 2 ^ 38

/-- The contents of a die copied to another: bytes, bits and marks (R336, R338). -/
def State.copyDie (s : State) (p q : Nat) : State :=
  let moved (l : List Nat) : List Nat :=
    ((l.filter (fun d => onDieCell p (8 * d))).map (fun d => movedCell p q (8 * d) / 8)).foldl (fun t d => insertNat d t)
      (l.filter (fun d => !onDieCell q (8 * d)))
  { s with
    mem := (s.mem.filter (fun c => onDieCell p c.1)).foldl (fun m c => Memory.write (movedCell p q c.1) c.2 m)
      (s.mem.filter (fun c => !onDieCell q c.1))
    fe := moved s.fe
    poison := moved s.poison }

/-- PA[41:38] changed from p to q in a value whose bits 51:0 are a DCS address (R338). -/
def moveDie (p q : Nat) (w : Word) : Word :=
  if field w.toNat 38 14 = p then BitVec.ofNat 64 (w.toNat - p * 2 ^ 38 + q * 2 ^ 38) else w

/-- A dword of memory so changed. -/
def State.moveDword (s : State) (p q a : Nat) : State :=
  let w := s.readWord a
  if moveDie p q w = w then s else { s with mem := Memory.writeNat a 8 (moveDie p q w).toNat s.mem }

/-- The valid entry at an address so changed, if its placement is 0 to 3 (R338). -/
def State.moveEntry (s : State) (p q a : Nat) : State :=
  if (s.readWord a).toNat / 2 ^ 63 = 1 && field (s.readWord (a + 8)).toNat 59 3 ≤ 3 then s.moveDword p q (a + 8) else s

/-- Every entry of the job's table so changed: the shards in turn, their directory entries first. A root or a shard that does not lie
in the partition's stacks, aligned as R300 says, is no table of the job (R5). -/
def State.moveTable (s : State) (p q : Nat) : State :=
  let root := field s.job.ptroot.toNat 12 40 * 2 ^ 12
  let n := 4 * 2 ^ field s.job.ptroot.toNat 0 5
  if !s.job.inStacks root then s
  else (List.range (16 * s.job.dies_n)).foldl (fun t i =>
    let u := t.moveDword p q (root + 8 * i)
    let base := (u.readWord (root + 8 * i)).toNat
    if u.job.inStacks base && base % (16 * n) = 0 then (List.range n).foldl (fun v k => v.moveEntry p q (base + 16 * k)) u else u) s

/-- Offset of a format-window register that holds an address (R309). -/
def fwAddrReg (off : Nat) : Bool := 0x1000 ≤ off && off < 0x1200 && [8, 0x10, 0x18].contains (off % 0x40)

/-- The register blocks of a die's stacks copied to another die's, addresses rewritten throughout the partition (R338). -/
def State.moveWindows (s : State) (p q : Nat) : State :=
  let base := 0xF00_0000_0000
  let block (a : Nat) : Nat := (a - base) / 0x20_0000
  let inBlocks (a : Nat) : Bool := base ≤ a && a < base + 32 * 0x10_0000
  let value (x : Nat × Word) : Word := if fwAddrReg ((x.1 - base) % 0x10_0000) then moveDie p q x.2 else x.2
  let kept := s.pkg.dev.filter (fun x => !(inBlocks x.1 && block x.1 == q))
  let there := kept.map (fun x => (x.1, if inBlocks x.1 && s.job.pdies.contains (block x.1) then value x else x.2))
  let new := (s.pkg.dev.filter (fun x => inBlocks x.1 && block x.1 == p)).map
    (fun x => (x.1 - p * 0x20_0000 + q * 0x20_0000, value x))
  { s with pkg := { s.pkg with dev := new.foldl (fun (d : Table Word) (x : Nat × Word) => assign x.1 x.2 d) there } }

/-- The map with virtual die v on physical die q. -/
def remap (m : Word) (v q : Nat) : Word := BitVec.ofNat 64 (m.toNat - field m.toNat (4 * v) 4 * 2 ^ (4 * v) + q * 2 ^ (4 * v))

/-- A location in the same place of another die. -/
def movedLoc (p q : Nat) : Loc → Loc
  | .cell a h => .cell (if onDieCell p a then movedCell p q a else a) h
  | l => l

/-- VIRTUAL_DIE_REMAP (R338). -/
def tryVirtualDieRemap (v q : Nat) (s : State) : Option State :=
  let p := s.job.pdie v
  if s.job.status ≠ .suspended || s.job.dies_n ≤ v || s.ownedDies.contains q || !s.pkg.inService q then none
  else
    let t := (s.copyDie p q).moveWindows p q
    let move (c : Nat) : Nat := if onDieCell p c then movedCell p q c else c
    let shift (y : Task) : Task := { y with recAddr := move y.recAddr }
    let u : State := { t with
      pkg := t.pkg.dropLines [p, q]
      job := { t.job with
        vdmap := remap t.job.vdmap v q
        ptroot := moveDie p q t.job.ptroot
        tlarea := moveDie p q t.job.tlarea
        dlbase := moveDie p q t.job.dlbase
        loose := t.job.loose.map (fun l => { l with access := { l.access with loc := movedLoc p q l.access.loc } })
        early := t.job.early.map (fun e => { e with dword := move (8 * e.dword) / 8 })
        late := t.job.late.map (fun w => { w with cell := move w.cell })
        tiles := t.job.tiles.map (fun x => (x.1, { x.2 with tasks := x.2.tasks.map shift })) } }
    some (u.moveTable p q)
def execVirtualDieRemap (v q : Nat) (s : State) : Out := passing s (tryVirtualDieRemap v q s)

/-- The promise of a copy not complete revised at a restore (R208, R337): it takes the cost that remains; a rejected copy without a
usable stamp address is promised nothing. -/
def revise (now : Nat) (c : Copy) : Copy :=
  { c with promise :=
      if c.noStamp || (c.status = some 4 && !usable (c.record.getD 3 0#64)) then 2 ^ 64 - 1
      else promiseAfter now ((c.cost + 2 ^ 64 - c.spent % 2 ^ 64) % 2 ^ 64) }

/-- The promises of one conduit rewritten through the mailboxes, each by the latest copy taken from it. -/
def State.rewritePromises (s : State) (key : Nat) : State :=
  let t := s.onConduit key (fun c => { c with copies := c.copies.map (revise s.pkg.cycle) })
  let cs := (t.job.conduit key).copies
  (cs.filter (fun c => !cs.any (fun x => x.box == c.box && c.seq < x.seq))).foldl
    (fun u c => u.writePromise key c.box c.promise) t

/-- Round-robin arbiters as after a reset, and nothing in the panels (R226, R336, R385). -/
def Job.rested (j : Job) : Job :=
  { j with
    dies := j.dies.map (fun d => (d.1, { d.2 with lastMaster := 31 }))
    conduits := j.conduits.map (fun c => (c.1, { c.2 with lastBox := 3 }))
    tiles := j.tiles.map (fun t => (t.1, { t.2 with
      lastList := [], panels := []
      tasks := t.2.tasks.map (fun x => if taskOp x.record = 1 then { x with row := 0 } else x) }))
    msEngines := j.msEngines.map (fun m => (m.1, { m.2 with lastQueue := 15 }))
    tlb := [] }

/-- JOB_RESTORE (R336, R337): the agents of the image put back, armed windows armed anew, caches empty, promises rewritten, a record of KIND 9 posted. -/
def tryJobRestore (s : State) : Option State :=
  match s.job.status, s.job.saved with
  | .suspended, some (old, at_) =>
    if s.job.pdies.all s.pkg.inService then
      let r := (s.job.image.foldl State.loadImage s.tickAll).focus s.agId
      let t := { r with
        job := { r.job.rested with status := .running, fwCause := none, saved := none, image := [] }
        pkg := { r.pkg.dropLines r.job.pdies with atc := [] } }
      let u := (t.job.conduits.map (fun c => c.1)).foldl State.rewritePromises t
      some (u.postRecord (trapRecord 9 0 0 0 0xA7 0#64 old u.job.vdmap 0#64 0#64 (BitVec.ofNat 64 at_) u.pkg.cycle))
    else none
  | _, _ => none
def execJobRestore (s : State) : Out := passing s (tryJobRestore s)

/-- Named states that firmware gives a job at its start (R283). -/
def startable (n : Nat) : Bool := n = 10 || (0x402 ≤ n && n ≤ 0x40B && n ≠ 0x404)

/-- The positions of some dies that a debugger stopped before a job came to own them stay stopped (R362). -/
def State.keepStops (s : State) (dies : List Nat) : State :=
  s.pkg.dev.foldl (fun t x =>
    match dbgctlOf x.1 with
    | some (d, who) =>
      match dies.idxOf? d with
      | some v =>
        let a := who + v * 2 ^ 11
        if field x.2.toNat 62 1 = 1 then t.putAgent a { t.agent a with dbgStopped := true } else t
      | none => t
    | none => t) s

/-- Whether a cell lies in the conduit timeline of a core of some dies (R53, R220). -/
def inConduitTimeline (dies : List Nat) (c : Nat) : Bool :=
  isLocal c && dies.contains ((c - lsBase) / 2 ^ 25) && 0x3_E040 ≤ (c - lsBase) % 2 ^ 18 && (c - lsBase) % 2 ^ 18 < 0x3_E048

/-- The job that firmware starts: a supervisor on the steward, the partition's mailboxes and reply words empty (R282,
R280, R281), its conduits' timelines at 0 (R220). The manual names the first number of a ticket, a copy and a memory-side request
only after package reset (R207, R222, R234): each job begins with them, since they are part of its context. DESIGN CHOICE: log entry
112. -/
def State.startJob (s : State) (number : Nat) (dies : List Nat) (entry : Word) (states : List (Nat × Word)) : State :=
  let sup : Agent := { Agent.vacant with role := .master, priv := .supervisor, occupied := true, pc := entry }
  let held (d : Nat) : Bool :=
    isLocal (8 * d) && dies.contains ((8 * d - lsBase) / 2 ^ 25) && !feDefault d
  let t : State := { s with
    ag := sup, agId := steward
    job := { Job.absent with
      status := .running, jobid := BitVec.ofNat 64 number, vdcount := BitVec.ofNat 64 dies.length
      vdmap := packFields (dies.zipIdx.map (fun x => (x.1, 4 * x.2)))
      dies := (List.range dies.length).map (fun v => (v, { entries := [], basin := [], spilled := [], lastMaster := 31, busyAt := s.pkg.cycle })) }
    mem := s.mem.filter (fun c => !inConduitTimeline dies c.1)
    fe := s.fe.filter (fun d => !held d)
    offered := false }
  let u := states.foldl (fun x n => if startable n.1 && !x.job.refuses n.1 n.2 then x.setNamed n.1 n.2 else x) t
  ((dies.foldl State.wakeDie u).keepStops dies).setAccounted steward (u.pkg.cycle + 1)

/-- JOB_START (R282). -/
def tryJobStart (number : Nat) (dies : List Nat) (entry : Word) (states : List (Nat × Word)) (s : State) : Option State :=
  let t := s.focusJob number
  if t.job.status ≠ .absent || t.pkg.boot.bootst ≠ 3 || dies.dedup ≠ dies ||
      dies.any (fun d => !t.pkg.inService d || t.ownedDies.contains d) then none
  else some (t.startJob number dies entry states)
def execJobStart (number : Nat) (dies : List Nat) (entry : Word) (states : List (Nat × Word)) (s : State) : Out := passing s (tryJobStart number dies entry states s)

/-- JOB_END (R293). -/
def tryJobEnd (s : State) : Option State := if s.job.status = .absent then none else some s.endJob
def execJobEnd (s : State) : Out := passing s (tryJobEnd s)

/-- Counter block of a base die (R361). -/
def baseBlock (stack : Nat) : Nat := obsBase (stack / 2) + 0xB_0000 + 0x40 * (stack % 2)

/-- PATROL_SCRUB (R344): a codeword of 32 bytes, by its number. -/
def tryPatrolScrub (codeword : Nat) (f : ScrubFinding) (s : State) : Option State :=
  let a := 32 * codeword
  if 2 ^ 42 ≤ a then none
  else
    match f with
    | .clean => some s
    | .corrected => some { s with pkg := s.pkg.bump (baseBlock (a / 2 ^ 37)) }
    | .uncorrectable =>
      let c := baseBlock (a / 2 ^ 37) + 8
      some { [a, a + 8, a + 16, a + 24].foldl (fun t d => t.setPoison d true) s with
        pkg := s.pkg.setReg c (s.pkg.reg c + 4#64) }
def execPatrolScrub (codeword : Nat) (f : ScrubFinding) (s : State) : Out := passing s (tryPatrolScrub codeword f s)

/-- An error in a word that an access reads (R343): one corrected counts in the block that corrects it; one that is not marks
its unit, a dword of a slice or local store, or the four dwords of a memory's codeword. -/
def State.wordError (s : State) (cell : Nat) (home : Option Nat) (uncorrectable : Bool) : State :=
  if !uncorrectable then s.bumpOwner cell home 0
  else if isLocal cell || (s.awakeHome home).isSome then s.setPoison cell true
  else [0, 8, 16, 24].foldl (fun t d => t.setPoison (cell / 32 * 32 + d) true) s

/-- An uncorrectable word of the B panel of a tile engine (R345): its tag is dropped, and an operation in hand loads it again. What
its group has waited so far is counted first (R105). -/
def State.panelError (s0 : State) (die engine : Nat) : State :=
  let s := s0.tickAll
  let again (a : Acc) (t : Task) : Bool :=
    a.engines.contains engine && a.current = some (t.list, t.ticket) && taskOp t.record = 1
  s.onTile die (fun x => { x with
    panels := remove engine x.panels
    tasks := x.tasks.map (fun t => if x.accs.any (fun a => again a.2 t) then { t with row := 0 } else t) })

/-- An uncorrectable word of a tile row (R345): the row enters the NaN state, and `0xA5` is contained where the operation in hand
counts. -/
def State.rowError (s : State) (die h row : Nat) : State :=
  let t := s.onAcc die h (fun a => { a with rows := updateAt (fun r => { r with nan := true }) row a.rows })
  match ((lookup h (s.job.tile die).accs).bind (fun a => a.current)).bind (fun c => s.job.task? die c.1 c.2) with
  | some k => t.containAt { cause := 0xA5#8 } k.poster.level
  | none => t

/-- An uncorrectable spawn-table entry or basin record (R346). -/
def State.spawnError (s : State) (id : Nat) : Option State :=
  if s.live && (lookup id s.job.spawns).any (fun sp => sp.ended.isNone) then some (s.containAt { cause := 0xA5#8 } (.spawn id)) else none

/-- Containment of a cause of the agent in focus at its owner: a unit, the unit a runtime serves, or a master's node
(R346). The slot or master is the agent that raised it (R320). -/
def State.containOwner (s : State) (t0 : Trap) : State :=
  let t := { t0 with slot := some s.agId }
  match s.ag.role with
  | .unit => s.raise t
  | .runtime =>
    let u := s.endAgent
    match lookup s.ag.serving.toNat u.job.fibres with
    | none => u.containUnitOf t s.ag.spawnid.toNat s.ag.tid.toNat s.agId (fun x => x)
    | some f => u.containUnitOf t f.spawn (u.entryTid s.ag.serving) s.agId (fun x => x.discardFibre s.ag.serving.toNat)
  | .master => if s.ag.priv = .supervisor then s.raise t else s.containNode t s.ag.run s.ag.node

/-- AGENT_STATE_UE (R346): at the agent's next boundary. -/
def tryAgentStateUe (a : Nat) (s : State) : Option State :=
  let t := s.focus a
  if !t.live || !t.ag.occupied then none
  else
    match t.quiet with
    | none => none
    | some u => some (((u.account u.pkg.cycle).giveUp).containOwner { cause := 0xA5#8 })
def execAgentStateUe (a : Nat) (s : State) : Out := passing s (tryAgentStateUe a s)

/-- A link at rest (R347). -/
def Link.rest : Link :=
  { nextSend := 0, acked := 0, replay := [], resend := [], expected := 0, held := [], nacks := [], delivered := [] }

/-- A link, and a link changed. -/
def Pkg.link (p : Pkg) (n : Nat) : Link := (lookup n p.links).getD Link.rest
def State.setLink (s : State) (n : Nat) (l : Link) : State := { s with pkg := { s.pkg with links := assign n l s.pkg.links } }

/-- Distance between flit numbers, modulo 4,096. -/
def flitAfter (a b : Nat) : Nat := (b + 4096 - a % 4096) % 4096

/-- The flit a sender sends under a number, and the sender after it: a resend goes ahead of new flits, and a new flit
needs room in the window (R347). -/
def Link.send (l : Link) (seq : Nat) (isVoid : Bool) (payload : List Byte) : Option (Link × List Byte) :=
  if l.resend.contains (seq, isVoid) then
    some ({ l with resend := l.resend.filter (fun x => !(x == (seq, isVoid))) }, (lookup seq l.replay).getD [])
  else if seq = l.nextSend && !isVoid && l.resend.isEmpty && flitAfter l.acked l.nextSend < 1024 then
    some ({ l with nextSend := (seq + 1) % 4096, replay := l.replay ++ [(seq, payload)] }, payload)
  else none

/-- Held flits passed on in sequence (R347). -/
def Link.release : Nat → Link → Link
  | 0, l => l
  | n + 1, l =>
    match l.held.find? (fun h => h.1 == l.expected) with
    | none => l
    | some (seq, payload, isVoid) =>
      Link.release n { l with
        expected := (seq + 1) % 4096, held := l.held.filter (fun h => !(h.1 == seq))
        delivered := if isVoid then l.delivered else l.delivered ++ [payload] }

/-- Numbers missing below one that has arrived, or at it. -/
def Link.missing (l : Link) (n : Nat) : List Nat :=
  ((List.range n).map (fun i => (l.expected + i) % 4096)).filter
    (fun k => !l.held.any (fun h => h.1 == k) && !l.nacks.contains k)

/-- What a receiver does with a flit (R347). -/
def Link.receive (l : Link) (seq : Nat) (crcOk isVoid : Bool) (payload : List Byte) : Link :=
  let ahead := flitAfter l.expected seq
  if 1024 ≤ ahead || l.held.any (fun h => h.1 == seq) then l
  else if !crcOk then { l with nacks := l.nacks ++ (if l.nacks.contains seq then [] else [seq]) }
  else
    let m := { l with nacks := l.nacks.filter (fun k => !(k == seq)) }
    if ahead = 0 then Link.release 257 { m with held := m.held ++ [(seq, payload, isVoid)] }
    else if m.held.length < 256 then
      { m with held := m.held ++ [(seq, payload, isVoid)], nacks := m.nacks ++ m.missing ahead }
    else { m with nacks := m.nacks ++ m.missing (ahead + 1) }

/-- FLIT_RECEIVE (R347). -/
def tryFlitReceive (link seq : Nat) (crcOk isVoid : Bool) (payload : List Byte) (s : State) : Option State :=
  match (s.pkg.link link).send seq isVoid payload with
  | some (l, bytes) => some (s.setLink link (l.receive seq crcOk isVoid bytes))
  | none => none
def execFlitReceive (link seq : Nat) (crcOk isVoid : Bool) (payload : List Byte) (s : State) : Out := passing s (tryFlitReceive link seq crcOk isVoid payload s)

/-- NACK_RECEIVE (R347, R348): the named flit is to be sent again, as VOID when its replay copy is lost. -/
def tryNackReceive (link seq : Nat) (copyOk : Bool) (s : State) : Option State :=
  let l := s.pkg.link link
  if l.nacks.contains seq && (lookup seq l.replay).isSome then
    some (s.setLink link { l with nacks := l.nacks.erase seq, resend := l.resend ++ [(seq, !copyOk)] })
  else none
def execNackReceive (link seq : Nat) (copyOk : Bool) (s : State) : Out := passing s (tryNackReceive link seq copyOk s)

/-- ACKNOWLEDGEMENT_RECEIVE (R347): every flit up to a number is acknowledged. -/
def tryAcknowledgementReceive (link seq : Nat) (s : State) : Option State :=
  let l := s.pkg.link link
  if flitAfter l.acked seq < flitAfter l.acked l.expected then
    let acked := (seq + 1) % 4096
    some (s.setLink link { l with
      acked := acked, replay := l.replay.filter (fun x => flitAfter acked x.1 < flitAfter acked l.nextSend) })
  else none
def execAcknowledgementReceive (link seq : Nat) (s : State) : Out := passing s (tryAcknowledgementReceive link seq s)

/-- LINK_WINDOW_REBUILD (R348): the ends exchange their numbers; the sender's window is what the receiver has not passed,
and what is missing there is asked for again. -/
def execLinkWindowRebuild (link : Nat) (s : State) : Out :=
  let l := s.pkg.link link
  let m := { l with acked := l.expected, resend := [], nacks := []
                    replay := l.replay.filter (fun x => flitAfter l.expected x.1 < flitAfter l.expected l.nextSend) }
  .next (s.setLink link { m with nacks := m.missing (flitAfter l.expected l.nextSend) })

/-- Whether the ATC admits a request to a host page; another location asks for nothing. -/
def State.reaches (s : State) (op : MemOp) (loc : Loc) : Bool := s.pkg.admits op.form.writes loc

/-- A request across a link that has no reply, with when it was first sent: a reply on its way, also one that ends a parked
operation or an `mwait`, a `ps` whose message or result is lost, a lost post, or an access not yet performed that nothing but its
reply holds back (R349, R350). -/
def State.unanswered (s : State) : Option Transaction :=
  let since (c : Nat) : Transaction := s.transaction.getD { agent := s.slotPlace s.agId, sent := c, retries := 0 }
  match s.ag.wait with
  | .reply .. | .lost => s.transaction
  | .request op _ loc _ c =>
    if s.crosses loc && s.reaches op loc && !s.heldNext op loc then some (since c) else none
  | .park .. =>
    (s.job.parked.find? (fun p => p.agent == s.agId && p.ended.isSome && s.crosses (.cell p.cell p.home))).map (fun p => since p.tried)
  | .watch .. => (s.job.armed.find? (fun p => p.agent == s.agId && p.ended.isSome && s.crosses p.loc)).map (fun p => since p.polled)
  | .ps =>
    (s.job.psRequests.find? (fun r => r.agent == s.agId && r.lost.isSome)).map (fun r => since r.sent)
  | _ => none

/-- A request is sent again: a `ps` or its result, or a post, which the instruction at pc makes at its next turn. -/
def State.resend (s : State) : State :=
  match s.ag.wait with
  | .ps => s.resendPs s.agId
  | .lost => (s.account s.pkg.cycle).setWait .ready
  | _ => s

/-- TRANSACTION_RETRY (R349): after 2^18 cycles without a reply, at most three times; then cause `0xA6`. -/
def tryTransactionRetry (a : Nat) (s : State) : Option State :=
  let t := s.focus a
  match t.unanswered with
  | some x =>
    if !t.live || t.pkg.cycle < x.sent + 2 ^ 18 then none
    else if x.retries < 3 then some (t.setTransaction (some { x with sent := t.pkg.cycle, retries := x.retries + 1 })).resend
    else
      let u := (((t.account t.pkg.cycle).setTransaction none).releaseWaits).setWait .ready
      some (({ u with job := { u.job with psRequests := u.job.psRequests.filter (fun r => !(r.agent == a)) } }).raise { cause := 0xA6#8 })
  | none => none
def execTransactionRetry (a : Nat) (s : State) : Out := passing s (tryTransactionRetry a s)

/-- A streaming access of the agent in focus has had no reply to its third retry: it fails with `0xA6` (R162, R349). -/
def State.streamingLost (s : State) (i : Nat) : Option State :=
  match s.ag.nb[i]? with
  | some x =>
    if x.performed || !s.crosses x.loc || s.pkg.cycle < x.since + 2 ^ 20 then none else some (s.markStreaming i (some 0xA6#8))
  | none => none

/-- What is known of a request in hand by its KIND, handle and number (R318): the dwords of its record, who posted it, the virtual die
of its engine, and since when its engine has not moved. -/
def State.requestOf (s : State) (kind handle number : Nat) : Option (List Word × Poster × Nat × Nat) :=
  let die := handleDie handle
  match kind with
  | 3 =>
    let key := die * 128 + handleLow handle
    (s.job.copy? key number).map (fun c => (c.record, c.poster, die, (s.job.conduit key).busyAt))
  | 4 => (s.job.task? die (handleLow handle) number).map (fun t => (t.record, t.poster, die, (s.job.tile die).busyAt))
  | 5 =>
    let m := s.job.msEngine (die * 2 + handleLow handle / 16)
    (m.requests.find? (fun r => r.queue == handleLow handle % 16 && r.seq == number)).map (fun r => (r.block, r.poster, die, m.busyAt))
  | 6 =>
    ((lookup handle s.job.comms).bind (fun c => c.instances.find? (fun i => i.seq == number))).map
      (fun i => (i.record, i.poster, vdieOf i.poster.agent, s.pkg.cycle))
  | _ => none

/-- An access of an engine for a request has had no reply to its third retry (R349, R350): a write it left behind, which does not
perform, or an access that has kept its engine, to a location that an address of its record names. Either crosses a link, and 2^20
cycles have passed. The cause counts where the request does. -/
def State.requestLost (s : State) (kind handle number : Nat) : Option State :=
  (s.requestOf kind handle number).bind (fun x =>
    let (record, poster, die, busy) := x
    let at_ := s.focus (die * 2 ^ 11)
    let old (c : Nat) : Bool := c + 2 ^ 20 ≤ s.pkg.cycle
    let gone (w : LateWrite) : Bool := w.request == requestId kind handle number && at_.crosses (.cell w.cell w.home) && old w.since
    let across := record.any (fun a =>
      match at_.check poster.priv .engRead a 1 with
      | .ok (_, l) => at_.crosses l
      | .error _ => false)
    if !s.live || s.job.owes kind handle number then none
    else match s.job.late.find? gone with
      | some w =>
        some (({ s with job := { s.job with late := s.job.late.erase w } }).requestCause kind handle number poster (some { cause := 0xA6#8 }))
      | none => if old busy && across then some (s.requestCause kind handle number poster (some { cause := 0xA6#8 })) else none)

/-- The message of a spawn's broadcast to another die than its master's is lost (R351): it is sent again after 2^18 cycles. -/
def State.castLost (s : State) (id die : Nat) : Option State :=
  (lookup id s.job.spawns).bind (fun sp =>
    let mine (c : Cast) : Bool := c.spawn == id && c.die == die
    let c := (s.job.casts.find? mine).getD { spawn := id, die := die, sent := sp.since, retries := 0, lost := false }
    if s.job.status ≠ .running || sp.root ≠ id || sp.ended.isSome || c.lost || die = vdieOf sp.master ||
        !(s.job.unreached (masterIndex sp.master) id).contains die then none
    else some { s with job := { s.job with casts := s.job.casts.filter (fun c => !mine c) ++ [{ c with lost := true }] } })

/-- A lost message of a broadcast is sent again after 2^18 cycles, at most three times; then its master takes cause `0xA6`, at a
boundary (R349, R351). -/
def tryCastRetry (id die : Nat) (s : State) : Option State :=
  match s.job.casts.find? (fun c => c.spawn == id && c.die == die && c.lost), lookup id s.job.spawns with
  | some c, some sp =>
    let rest := s.job.casts.filter (fun x => !(x == c))
    if !s.live || s.pkg.cycle < c.sent + 2 ^ 18 then none
    else if c.retries < 3 then
      some { s with job := { s.job with casts := rest ++ [{ c with sent := s.pkg.cycle, retries := c.retries + 1, lost := false }] } }
    else
      match (({ s with job := { s.job with casts := rest } } : State).focus sp.master).quiet with
      | some t => some (((t.account t.pkg.cycle).giveUp).raise { cause := 0xA6#8 })
      | none => none
  | _, _ => none

/-- DEDUP_EXPIRY (R349). -/
def tryDedupExpiry (ident : Nat) (s : State) : Option State :=
  match s.pkg.dedup.find? (fun x => x.1 == ident && x.2 + 2 ^ 21 ≤ s.pkg.cycle) with
  | some x => some { s with pkg := { s.pkg with dedup := s.pkg.dedup.erase x } }
  | none => none
def execDedupExpiry (ident : Nat) (s : State) : Out := passing s (tryDedupExpiry ident s)

/-- Whether a location lies behind a host port. -/
def Loc.atPort (l : Loc) (port : Nat) : Bool :=
  match l with
  | .host p _ _ => p = port
  | _ => false

/-- HOST_PORT_DOWN (R352): every host access in flight on the port ends with "host page refused", and firmware reports the loss to
the host. -/
def tryHostPortDown (port : Nat) (s : State) : Option State :=
  if s.pkg.portsDown.contains port then none
  else
    let t := { s with pkg := { s.pkg with
      portsDown := insertNat port s.pkg.portsDown
      atc := s.pkg.atc.filter (fun e => !(e.port == port))
      ats := s.pkg.ats.filter (fun r => !(r.port == port))
      pri := s.pkg.pri.filter (fun r => !(r.port == port))
      invalidating := s.pkg.invalidating.filter (fun p => !(p.1 == port))
      reports := s.pkg.reports ++ [Report.portDown port] } }
    some (t.refuseAll (fun _ l => l.atPort port))
def execHostPortDown (port : Nat) (s : State) : Out := passing s (tryHostPortDown port s)

/-- SCALE_UP_PORT_LANE_LOSS (R353): 4 of 8 lanes go on; one that loses more goes down. -/
def tryScaleUpPortLaneLoss (port lost : Nat) (s : State) : Option State :=
  let now := (lookup port s.pkg.lanes).getD 8
  if lost = 0 || now = 0 then none
  else some { s with pkg := { s.pkg with lanes := assign port (if now = 8 && lost ≤ 4 then 4 else 0) s.pkg.lanes } }
def execScaleUpPortLaneLoss (port lost : Nat) (s : State) : Out := passing s (tryScaleUpPortLaneLoss port lost s)

/-- BLOCK_RATE_LIMIT (R355). -/
def tryBlockRateLimit (b : PowerBlock) (s : State) : Option State :=
  if s.pkg.slowed.contains b then none else some { s with pkg := { s.pkg with slowed := s.pkg.slowed ++ [b] } }
def execBlockRateLimit (b : PowerBlock) (s : State) : Out := passing s (tryBlockRateLimit b s)

/-- BLOCK_RATE_RESTORE (R355). -/
def tryBlockRateRestore (b : PowerBlock) (s : State) : Option State :=
  if s.pkg.slowed.contains b then some { s with pkg := { s.pkg with slowed := s.pkg.slowed.erase b } } else none
def execBlockRateRestore (b : PowerBlock) (s : State) : Out := passing s (tryBlockRateRestore b s)

/-- Whether 2^22 cycles have passed since one. -/
def State.longSince (s : State) (c : Nat) : Bool := c + 2 ^ 22 ≤ s.pkg.cycle

/-- Whether a virtual die of the job in focus has been idle as R356 asks, for 2^22 cycles: its slots and masters, its basin and
tables, its engines. -/
def State.dieIdle (s : State) (v : Nat) : Bool :=
  let here (a : Nat) (home : Option Nat) : Bool := s.job.tableDie a home = some v
  let there (l : Loc) : Bool := match l with
    | .cell a h => here a h
    | .view a => here a (some (s.job.partitionHash a))
    | _ => false
  s.allAgents.all (fun x => vdieOf x.1 ≠ v || (!x.2.occupied && !x.2.reserved && s.longSince x.2.leftAt)) &&
    s.longSince (s.job.die v).busyAt && (s.job.die v).basin.isEmpty && (s.job.die v).spilled.isEmpty &&
    s.job.conduits.all (fun c => c.1 / 128 ≠ v || (c.2.copies.isEmpty && c.2.posters.isEmpty && s.longSince c.2.busyAt)) &&
    s.job.tiles.all (fun t => t.1 ≠ v || (t.2.tasks.isEmpty && t.2.accs.isEmpty && s.longSince t.2.busyAt)) &&
    s.job.msEngines.all (fun m => m.1 / 2 ≠ v || (m.2.requests.isEmpty && s.longSince m.2.busyAt)) &&
    s.job.parked.all (fun p => !here p.cell p.home || (p.ended.isSome && s.longSince p.tried)) &&
    s.job.armed.all (fun w => !there w.loc || (w.ended.isSome && s.longSince w.polled))

/-- DIE_GATE (R356): the slices written back and emptied, the base dies made homes of their lines. -/
def tryDieGate (pdie : Nat) (s : State) : Option State :=
  let elsewhere := s.jobs.any (fun x => x.2.pdies.contains pdie)
  let idle := match s.job.vdie pdie with
    | some v => s.live && s.dieIdle v
    | none => !elsewhere
  if s.pkg.gated.contains pdie || !s.pkg.inService pdie || !s.longSince ((lookup pdie s.pkg.leftAt).getD 0) || !idle then
    none
  else
    let gone (line : Nat) : Bool :=
      line * 64 / 2 ^ 38 = pdie || s.job.vdie pdie = some (s.job.partitionHash (line * 64) / 128)
    some { s with pkg := { s.pkg with
      viewLines := s.pkg.viewLines.filter (fun x => !gone x.1)
      epochs := s.pkg.epochs.filter (fun x => !gone x.1)
      gated := insertNat pdie s.pkg.gated
      gatedAt := assign pdie s.pkg.cycle s.pkg.gatedAt } }
def execDieGate (pdie : Nat) (s : State) : Out := passing s (tryDieGate pdie s)

/-- DIE_WAKE (R356). -/
def tryDieWake (pdie : Nat) (s : State) : Option State :=
  if s.pkg.gated.contains pdie then some (s.wakeDie pdie) else none
def execDieWake (pdie : Nat) (s : State) : Out := passing s (tryDieWake pdie s)

/-- PSEUDO_CHANNEL_RETIRE (R357): the loss of a third channel of a stack, or a later one, is reported. -/
def tryPseudoChannelRetire (stack channel : Nat) (s : State) : Option State :=
  if s.pkg.retired.contains (stack, channel) then none
  else
    let lost := 2 ≤ (s.pkg.retired.filter (fun x => x.1 == stack)).length
    some { s with pkg := { s.pkg with
      retired := s.pkg.retired ++ [(stack, channel)]
      reports := if lost then s.pkg.reports ++ [.channelLost stack channel] else s.pkg.reports } }
def execPseudoChannelRetire (stack channel : Nat) (s : State) : Out := passing s (tryPseudoChannelRetire stack channel s)

/-- LINK_LANE_RECALIBRATE (R357): bandwidth only, no flit lost. -/
def execLinkLaneRecalibrate (_link _lane : Nat) (s : State) : Out := .next s

/-- BLOCK_FIRMWARE_UPDATE (R357): an image signed for the module is loaded, any other is not. -/
def execBlockFirmwareUpdate (block image : Nat) (signed : Bool) (s : State) : Out :=
  .next (if signed then
      { s with pkg := { s.pkg with boot := { s.pkg.boot with blocks := assign block image s.pkg.boot.blocks } } }
    else s)

/-- DIE_OUT_OF_SERVICE (R357): a die in no partition leaves the counts of R3. -/
def tryDieOutOfService (pdie : Nat) (s : State) : Option State :=
  if !s.pkg.inService pdie || s.ownedDies.contains pdie then none
  else some { s with pkg := { s.pkg with boot := { s.pkg.boot with diemap := s.pkg.boot.diemap - 2 ^ pdie } } }
def execDieOutOfService (pdie : Nat) (s : State) : Out := passing s (tryDieOutOfService pdie s)

end Sys2Proof.Machine
end

