-- ==== Sys2Proof/Machine/Signature.lean ====
section
/-! DEFINITION. The signature of a GXO file (20_bringup_images.md R372, R373): ECDSA over P-384 with SHA-384. The manual names
the two algorithms and gives neither: they are those of FIPS 180-4 and FIPS 186-4. PRESUMED: log entry 92. -/

namespace Sys2Proof.Machine

/-- The greatest `x` below 2^n with `p x`, for a `p` that holds of 0 and fails from some number on. -/
def greatest (p : Nat → Bool) : Nat → Nat → Nat
  | 0, x => x
  | n + 1, x => greatest p n (if p (x + 2 ^ n) then x + 2 ^ n else x)

/-- The first 80 primes. -/
def shaPrimes : List Nat := ((List.range 410).filter (fun n => 2 ≤ n && (List.range n).all (fun d => d < 2 || n % d ≠ 0))).take 80

/-- The initial hash value of SHA-384: 64 bits after the point of the square roots of the ninth to the sixteenth prime. -/
def shaInit : List Nat := ((shaPrimes.drop 8).take 8).map (fun p => greatest (fun x => x * x ≤ p * 2 ^ 128) 72 0 % 2 ^ 64)

/-- The round constants: 64 bits after the point of the cube roots of the primes. -/
def shaRounds : List Nat := shaPrimes.map (fun p => greatest (fun x => x * x * x ≤ p * 2 ^ 192) 72 0 % 2 ^ 64)

/-- Rotation of a 64-bit word to the right. -/
def rotr (x n : Nat) : Nat := (x / 2 ^ n + x * 2 ^ (64 - n)) % 2 ^ 64

/-- The exclusive or of three words. -/
def xor3 (a b c : Nat) : Nat := Nat.xor (Nat.xor a b) c

/-- One further word of the message schedule, newest first. -/
def shaExtend (w : List Nat) : Nat :=
  let x := w.getD 1 0
  let y := w.getD 14 0
  (xor3 (rotr x 19) (rotr x 61) (x / 2 ^ 6) + w.getD 6 0 + xor3 (rotr y 1) (rotr y 8) (y / 2 ^ 7) + w.getD 15 0) % 2 ^ 64

/-- The 80 words of the message schedule, newest first. -/
def shaSchedule : Nat → List Nat → List Nat
  | 0, w => w
  | n + 1, w => shaSchedule n (shaExtend w :: w)

/-- One round on the eight working words. -/
def shaRound (v : List Nat) (kw : Nat × Nat) : List Nat :=
  match v with
  | [a, b, c, d, e, f, g, h] =>
    let ch := Nat.xor (Nat.land e f) (Nat.land (2 ^ 64 - 1 - e) g)
    let maj := xor3 (Nat.land a b) (Nat.land a c) (Nat.land b c)
    let t := h + xor3 (rotr e 14) (rotr e 18) (rotr e 41) + ch + kw.1 + kw.2
    [(t + xor3 (rotr a 28) (rotr a 34) (rotr a 39) + maj) % 2 ^ 64, a, b, c, (d + t) % 2 ^ 64, e, f, g]
  | _ => v

/-- A big-endian number from bytes. -/
def bigEndian (l : List Byte) : Nat := l.foldl (fun n b => n * 256 + b.toNat) 0

/-- Blocks of a padded message, `n` of them, taken up in turn. -/
def shaBlocks : Nat → List Byte → List Nat → List Nat
  | 0, _, h => h
  | n + 1, m, h =>
    let ws := (List.range 16).map (fun i => bigEndian ((m.drop (8 * i)).take 8))
    let v := (shaRounds.zip (shaSchedule 64 ws.reverse).reverse).foldl shaRound h
    shaBlocks n (m.drop 128) (List.zipWith (fun x y => (x + y) % 2 ^ 64) h v)

/-- A message padded to whole blocks of 128 bytes. -/
def shaPad (m : List Byte) : List Byte :=
  m ++ [0x80#8] ++ List.replicate ((111 + 128 - m.length % 128) % 128) 0#8 ++
    (List.range 16).map (fun i => BitVec.ofNat 8 (m.length * 8 / 2 ^ (8 * (15 - i))))

/-- SHA-384, as a number. -/
def sha384 (m : List Byte) : Nat :=
  ((shaBlocks ((shaPad m).length / 128) (shaPad m) shaInit).take 6).foldl (fun n w => n * 2 ^ 64 + w) 0

/-- The field, the order, the coefficient b and the base point of P-384; the coefficient a is -3. -/
def p384 : Nat := 2 ^ 384 - 2 ^ 128 - 2 ^ 96 + 2 ^ 32 - 1
def p384Order : Nat := 0xffffffffffffffffffffffffffffffffffffffffffffffffc7634d81f4372ddf581a0db248b0a77aecec196accc52973
def p384B : Nat := 0xb3312fa7e23ee7e4988e056be3f82d19181d9c6efe8141120314088f5013875ac656398d8a2ed19d2a85c8edd3ec2aef
def p384Base : Nat × Nat :=
  (0xaa87ca22be8b05378eb1c71ef320ad746e1d3b628ba79b9859f741e082542a385502f25dbf55296c3a545e3872760ab7,
   0x3617de4a96262c6f5d9e98bf9292dc29f8f41dbd289a147ce9da3113b5f0b8c00a60b1ce1d7e819d7a431d7c90ea0e5f)

/-- A power modulo m by the bits of an exponent from the highest down. -/
def powMod (m b e : Nat) : Nat → Nat → Nat
  | 0, r => r
  | n + 1, r => powMod m b e n (r * r * (if e / 2 ^ n % 2 = 1 then b else 1) % m)

/-- The inverse of a number modulo a prime of 384 bits. -/
def inverse (m x : Nat) : Nat := powMod m x (m - 2) 384 1

/-- The sum of two points, none being the point at infinity. -/
def pointAdd : Option (Nat × Nat) → Option (Nat × Nat) → Option (Nat × Nat)
  | none, q => q
  | p, none => p
  | some (x1, y1), some (x2, y2) =>
    if x1 = x2 && (y1 + y2) % p384 = 0 then none
    else
      let s := if x1 = x2 then (3 * x1 * x1 + p384 - 3) * inverse p384 (2 * y1) % p384
        else (y2 + p384 - y1) * inverse p384 (x2 + p384 - x1) % p384
      let x := (s * s + 2 * p384 - x1 - x2) % p384
      some (x, (s * (x1 + p384 - x) + p384 - y1) % p384)

/-- A multiple of a point by the bits of a number from the highest down. -/
def pointMul (q : Nat × Nat) (k : Nat) : Nat → Option (Nat × Nat) → Option (Nat × Nat)
  | 0, r => r
  | n + 1, r =>
    let d := pointAdd r r
    pointMul q k n (if k / 2 ^ n % 2 = 1 then pointAdd d (some q) else d)

/-- Whether (r, s) is the signature of a hash under a public key. -/
def ecdsaOk (key : Nat × Nat) (hash r s : Nat) : Bool :=
  0 < r && r < p384Order && 0 < s && s < p384Order &&
    (let w := inverse p384Order s
     match pointAdd (pointMul p384Base (hash * w % p384Order) 384 none) (pointMul key (r * w % p384Order) 384 none) with
     | some (x, _) => x % p384Order = r
     | none => false)

/-- Whether the signature block at `sig` closes a file: r, then s, each of 48 bytes, over every byte before it, under the module
key that configuration flash holds (R372, R373). -/
def signatureOk (f : List Byte) (sig : Nat) : Bool :=
  ecdsaOk Config.moduleKey (sha384 (f.take sig)) (bigEndian ((f.drop sig).take 48)) (bigEndian ((f.drop (sig + 48)).take 48))

end Sys2Proof.Machine
end

