-- ==== Sys2Proof/Machine/Events3.lean ====
section
/-! DEFINITION. Steps of observation and debug (19_observation_debug.md R358-R371), of bring-up and the management port
(20_bringup_images.md R372-R378), writes of device registers (00_scope.md R10), and undecodable words
(05_encoding_registers_assembly.md R129, R130). A step that the state does not offer leaves it as it is. -/

namespace Sys2Proof.Machine

/-- Block of a core of a physical die (R358). -/
def coreBase (pdie core : Nat) : Nat := obsBase pdie + 0x1000 * core

/-- Whether an offset of a core block is a rotation counter or a bin (R359). -/
def isCounter (off : Nat) : Bool := 0x100 ≤ off && off < 0x580

/-- The turns of a slot that no job owns are vacant ones (R34, R360). -/
def State.countIdle (s : State) (now pdie core slot : Nat) : State :=
  let k := pdie * 2 ^ 11 + core * 16 + slot
  let lo := (lookup k s.pkg.turnAt).getD 0
  let n := turnsIn slot lo now - s.pkg.gatedTurns pdie slot lo now
  let c := coreBase pdie core + 0x100 + 0x40 * slot + 0x20
  if now ≤ lo then s
  else
    { s with pkg := {
        (if (s.pkg.reg (coreBase pdie core)).toNat / 2 ^ 63 = 0 then s.pkg
         else s.pkg.setReg c (s.pkg.reg c + BitVec.ofNat 64 n)) with turnAt := assign k now s.pkg.turnAt } }

/-- What is done with every job that owns a physical die. -/
def State.onOwner (s : State) (pdie : Nat) (f : Nat → State → State) : State :=
  s.overJobs (fun t =>
    match t.job.vdie pdie with
    | some v => if t.job.status = .absent then t else (f v t).focus t.agId
    | none => t)

/-- Up to which cycle the turns of a slot can be accounted for: a conduit that has work may yet generate addresses in its latest
turn (R37). DESIGN CHOICE: log entry 100. -/
def State.settledTo (s : State) (now key slot : Nat) : Nat :=
  if slot = 15 && s.conduitBusy key then now - (now + 1) % 16 else now

/-- The turns before a cycle of a core's slots accounted for, and its rotations entered in their bins (R34, R360). -/
def State.settleCore (s : State) (now pdie core : Nat) : State :=
  let slots := (List.range 16).map (fun i => core * 16 + i)
  let t := if s.ownedDies.contains pdie then
      s.onOwner pdie (fun v u => slots.foldl (fun w i => (w.focus (v * 2 ^ 11 + i)).account (w.settledTo now (v * 128 + i / 16) (i % 16))) u)
    else slots.foldl (fun w i => w.countIdle now pdie core (i % 16)) s
  { t with pkg := t.pkg.rollRotations (coreBase pdie core) pdie now }

/-- Every core of the package so settled. -/
def State.accountPackage (s : State) (now : Nat) : State :=
  (List.range 2048).foldl (fun t i => t.settleCore now (i / 128) (i % 128)) s

/-- The counters and bins of a core zeroed at one cycle (R359): turns before it are no longer owed. -/
def State.clearCore (s : State) (pdie core : Nat) : State :=
  let b := coreBase pdie core
  let now := s.pkg.cycle
  let t := s.settleCore now pdie core
  { t with pkg := { t.pkg with dev := t.pkg.dev.filter (fun x => !(b ≤ x.1 && isCounter (x.1 - b))) } }

/-- OBS_COUNTER_CLEAR (R359). -/
def execObsCounterClear (pdie core : Nat) (s : State) : Out := .next (s.clearCore pdie core)

/-- A debug stop of the agent in focus (R362): at a boundary it stops with `0xA4`; while it must wait for one, DSTOP stays set and the
stop is on its way. -/
def State.askStop (s : State) : State :=
  match s.quiet with
  | none => { s with pkg := s.pkg.setBits (s.dbgctl s.agId) 0#64 0x4000_0000_0000_0000#64 }
  | some u => ((u.account u.pkg.cycle).giveUp).stopDebug 0xA4#8

/-- DEBUG_STOP (R362): of an owned slot or master. -/
def tryDebugStop (a : Nat) (s : State) : Option State :=
  let t := s.focus a
  if !t.live || !t.owned a || t.ag.dbgStopped || (t.stopWanted a && t.quiet.isNone) then none else some t.askStop
def execDebugStop (a : Nat) (s : State) : Out := passing s (tryDebugStop a s)

/-- A debug stop ends, one still on its way with it (R362). -/
def State.resumeDebug (s : State) : State :=
  let t := s.account s.pkg.cycle
  ((({ t with ag := { t.ag with dbgStopped := false, stepping := false } }).showStops).clearDstop).trace 7 0 s.ag.pc 0#64

/-- DEBUG_RESUME (R362). -/
def tryDebugResume (a : Nat) (s : State) : Option State :=
  let t := s.focus a
  if t.job.status ≠ .absent && (t.ag.dbgStopped || t.stopWanted a) then some t.resumeDebug else none
def execDebugResume (a : Nat) (s : State) : Out := passing s (tryDebugResume a s)

/-- A stopped slot may issue one instruction (R362). -/
def State.startStep (s : State) : State :=
  let u := s.account s.pkg.cycle
  { u with ag := { u.ag with stepping := true } }

/-- DEBUG_STEP (R362): a stopped slot may issue one instruction; once that is complete it stops with `0xA3`. -/
def tryDebugStep (a : Nat) (s : State) : Option State :=
  let t := s.focus a
  if !t.live || !t.owned a then none
  else if t.ag.dbgStopped && !t.ag.stepping then some t.startStep
  else if t.ag.stepping && !t.ag.dbgStopped && t.ag.wait = .ready then
    some ((t.account t.pkg.cycle).stopDebug 0xA3#8)
  else none
def execDebugStep (a : Nat) (s : State) : Out := passing s (tryDebugStep a s)

/-- OWN 0 (R362): DSTOP and WATCH go with it, and a step in progress is no longer one. -/
def State.release (s : State) (a : Nat) : State :=
  let t := s.focus a
  let u := if t.ag.dbgStopped then t.resumeDebug else { t with ag := { t.ag with stepping := false } }
  { u with pkg := u.pkg.setBits (u.dbgctl a) 0xD000_0000_0000_0000#64 0#64 }

/-- DEBUG_RELEASE (R362). -/
def tryDebugRelease (a : Nat) (s : State) : Option State :=
  if s.job.status ≠ .absent && s.owned a then some (s.release a) else none
def execDebugRelease (a : Nat) (s : State) : Out := passing s (tryDebugRelease a s)

/-- WATCH_PASS (R366). -/
def tryWatchPass (a : Nat) (s : State) : Option State :=
  if s.job.status = .absent then none
  else some { s with pkg := s.pkg.setBits (s.dbgctl a) 0#64 0x0800_0000_0000_0000#64 }
def execWatchPass (a : Nat) (s : State) : Out := passing s (tryWatchPass a s)

/-- SNAPTRIG and SNAPST (R358, R367). -/
def snapTrig : Nat := 0xFF0_0000_0000
def snapSt : Nat := 0xFF0_0000_0008

/-- SNAPSHOT_REQUEST (R367). -/
def State.requestSnapshot (s : State) (c : Nat) : State :=
  if c < s.pkg.cycle + 4096 || s.pkg.snapshot.isSome then { s with pkg := s.pkg.setReg snapSt 2#64 }
  else { s with pkg := { s.pkg.setReg snapSt 1#64 with snapshot := some c } }
def execSnapshotRequest (c : Nat) (s : State) : Out := .next (s.requestSnapshot c)

/-- Where a counter's snapshot copy stands, if the register at an address is a counter (R359, R361). -/
def snapCopy (pa : Nat) : Option Nat :=
  let off := (pa - obsBase 0) % 0x100_0000
  if pa < obsBase 0 || obsBase 16 ≤ pa then none
  else if off < 0x8_0000 then
    if 0x100 ≤ off % 0x1000 && off % 0x1000 < 0x500 then some (pa + 0x800)
    else if 0x500 ≤ off % 0x1000 && off % 0x1000 < 0x580 then some (pa + 0x800)
    else none
  else if (0x9_0000 ≤ off && off < 0x9_2000) || (0xB_0000 ≤ off && off < 0xB_0080) then
    if off % 0x40 < 0x20 then some (pa + 0x20) else none
  else none

/-- Whether a register is a snapshot copy. -/
def isSnapCopy (pa : Nat) : Bool := (snapCopy (pa - 0x800)) = some pa || (snapCopy (pa - 0x20)) = some pa

/-- Every counter and bin copied, SNAPCYC written (R367). -/
def Pkg.latch (p : Pkg) (at_ : Nat) : Pkg :=
  let kept : Pkg := { p with dev := p.dev.filter (fun x => !isSnapCopy x.1) }
  let copied := p.dev.foldl (fun (q : Pkg) (x : Nat × Word) => match snapCopy x.1 with | some c => q.setReg c x.2 | none => q) kept
  let cores := (List.range 16).flatMap (fun d => (List.range 128).map (fun c => coreBase d c + 0xD80))
  (cores.foldl (fun (q : Pkg) (c : Nat) => q.setReg c (BitVec.ofNat 64 at_)) copied).setReg snapSt 3#64

/-- SNAPSHOT_LATCH (R367): at the cycle asked for. -/
def trySnapshotLatch (s : State) : Option State :=
  match s.pkg.snapshot with
  | some c =>
    if s.pkg.cycle ≠ c then none
    else
      let t := s.accountPackage c
      some { t with pkg := { t.pkg.latch c with snapshot := none } }
  | none => none
def execSnapshotLatch (s : State) : Out := passing s (trySnapshotLatch s)

/-- A slice's replay released for one step: what a write does with MODE off, and DIVERGE set after it (R371). -/
def State.unheld (s : State) (home : Option Nat) (f : State → Option State) : Option State :=
  match home with
  | none => none
  | some h =>
    let c := s.job.sillage h
    let mode := s.pkg.reg c
    (f { s with pkg := s.pkg.setReg c (mode &&& 0x3FFF_FFFF_FFFF_FFFF#64) }).map (fun t =>
      { t with pkg := t.pkg.setReg c (mode ||| 0x2000_0000_0000_0000#64) })

/-- The streaming store of an ended unit of the position in focus that a slice has held for 2^24 cycles, by its index (R45, R371). -/
def State.heldLoose (s : State) : Option (Nat × Option Nat) :=
  ((s.job.looseOf s.agId).zipIdx.find? (fun l =>
    l.1.access.isStore && l.1.access.since + 2 ^ 24 ≤ s.pkg.cycle && s.heldBy l.1.access.by_ l.1.access.loc l.1.access.size)).bind (fun l =>
      match l.1.access.loc with
      | .cell _ home => some (l.2, home)
      | _ => none)

/-- A write held for 2^24 cycles performs (R371): the next one of the request of the agent in focus, its parked operation whose dword
is empty, its oldest such streaming store, or that of an ended unit of its position. -/
def State.holdRelease (s : State) : Option State :=
  let old (since : Nat) : Bool := since + 2 ^ 24 ≤ s.pkg.cycle
  match s.heldLoose with
  | some (i, home) => s.unheld home (fun t => t.performLoose t.agId i)
  | none =>
  match s.ag.wait with
  | .request op va (.cell a home) len since =>
    if old since && s.heldNext op (.cell a home) then
      (s.unheld home (fun t => ({ t with share := some 1 } : State).atHome op va (.cell a home) len since)).map (fun u => { u with share := s.share })
    else none
  | .park .. =>
    (s.job.parked.find? (fun p => p.agent == s.agId && p.ended.isNone && p.op == .stfe && !s.feBit p.cell && old p.tried &&
      s.held (s.parkedWriter p.agent) p.cell 8 p.home)).bind (fun p => s.unheld p.home (fun t => some (t.retryOne p)))
  | _ =>
    match s.firstStreaming (fun x => x.isStore && old x.since && s.heldBy x.by_ x.loc x.size) with
    | none => none
    | some i =>
      match (s.ag.nb[i]?).map (fun (x : Streaming) => x.loc) with
      | some (Loc.cell _ home) => s.unheld home (fun t => t.performStreaming i)
      | _ => none

/-- SILLAGE_HOLD_RELEASE (R371). -/
def trySillageHoldRelease (a : Nat) (s : State) : Option State :=
  let t := s.focus a
  if t.live then
    match (t.account t.pkg.cycle).holdRelease with
    | some u => some u
    | none => none
  else none
def execSillageHoldRelease (a : Nat) (s : State) : Out := passing s (trySillageHoldRelease a s)

/-- Dies in service after step 2 of R376: those whose id has a repair and trim record (R377). -/
def repairedDies : Nat :=
  ((List.range 16).map (fun d => if Config.hasRepairRecord (Config.dieId d) then 2 ^ d else 0)).sum

/-- PACKAGE_RESET (R376): step 1 begins. What the flash holds stays. -/
def execPackageReset (s : State) : Out :=
  .next { State.reset with
    agenda := s.agenda
    free := s.free
    pkg := { Pkg.reset with boot := { Boot.running with step := 1, bootst := 0, diemap := 0, flashBad := s.pkg.boot.flashBad } } }

/-- Numbers of the block-firmware images loaded (R372), and the bytes of one: its sections in the order of their file. The manual does
not say over which bytes a die's hash is: it is over these. DESIGN CHOICE: log entry 115. -/
def Boot.firmwares (b : Boot) : List Nat := ((b.images.filter (fun x => x.1 == 4)).map (fun x => x.2.1)).dedup
def Boot.firmware (b : Boot) (image : Nat) : List Byte :=
  ((b.images.filter (fun x => x.1 == 4 && x.2.1 == image)).map (fun x => x.2.2.2)).flatten

/-- How often a die's hash of an image has differed. -/
def Boot.tries (b : Boot) (die image : Nat) : Nat := (b.attempts.filter (fun x => x == (die, image))).length

/-- Whether a node of the boot tree is out of service: a C-die by DIEMAP, a G-die that has failed an image for good (R375). -/
def Boot.outOf (b : Boot) (die : Nat) : Bool :=
  if die < 16 then field b.diemap die 1 = 0 else b.attempts.any (fun x => x.1 == die && 4 ≤ b.tries die x.2)

/-- Whether loading need not wait for a die's acknowledgement of an image (R375). -/
def Boot.settled (b : Boot) (image die : Nat) : Bool := b.acked.contains (die, image) || b.outOf die

/-- The node that forwards to a C-die (R375): by the boot tree, and G-die d / 4 where there is none. -/
def Boot.source (b : Boot) (die : Nat) : Nat :=
  ((b.tree.find? (fun e => field e.toNat 8 8 = die)).map (fun e => field e.toNat 0 8)).getD (16 + die / 4)

/-- Whether an image has come to a die (R375): to a G-die from the flash, to a C-die once its source has it, or is out of service and
forwards nothing of its own. DESIGN CHOICE: log entry 115. -/
def Boot.forwarded (b : Boot) (image die : Nat) : Bool := 16 ≤ die || b.settled image (b.source die)

/-- Loading ends when every die has acknowledged every image (R375). -/
def Boot.loaded (b : Boot) : Bool := b.firmwares.all (fun n => (List.range 20).all (b.settled n))

/-- A flash section of which both copies fail (R376). -/
def Boot.flashFails (b : Boot) : Bool := b.flashBad.any (fun x => x.2 = 0 && b.flashBad.contains (x.1, 1))

/-- The next step of R376. Step 1 ends when every section of the flash has a copy that holds, which replaces the other; else the
package stays there and reports status 2. Step 2 finds each C-die's repair and trim record; with step 5 `cycle` starts at 0; step 6
runs the commands held (R378) and reports the four capacity-tier sizes (R2). -/
def tryBootStep (s : State) : Option State :=
  let b := s.pkg.boot
  let go (c : Boot) : Option State := some { s with pkg := { s.pkg with boot := c } }
  match b.step with
  | 1 =>
    if b.flashFails then (if b.bootst = 2 then none else go { b with bootst := 2 })
    else go { b with step := 2, bootst := 1, flashBad := [] }
  | 2 => go { b with step := 3, diemap := repairedDies }
  | 3 => go { b with step := 4 }
  | 4 => some { s with pkg := { s.pkg with boot := { b with step := 5 }, cycle := 0 } }
  | 5 =>
    if b.loaded then
      some { s with pkg := { s.pkg with
        boot := { b with step := 6, bootst := 3, ranCommands := b.ranCommands ++ b.heldCommands, heldCommands := [] }
        reports := s.pkg.reports ++ [.capacity ((List.range 4).map Config.captierBytes)] } }
    else none
  | _ => none

/-- A copy of a section of the configuration flash fails (R376). -/
def State.failFlash (s : State) (section_ copy : Nat) : State :=
  { s with pkg := { s.pkg with boot := { s.pkg.boot with flashBad := s.pkg.boot.flashBad ++ [(section_, copy)] } } }

/-- A section of a GXO file (R372). -/
structure GxoSection where
  kind : Nat
  role : Nat
  image : Nat
  low : Nat
  foff : Nat
  size : Nat
  load : Nat
  deriving DecidableEq, Repr

/-- A dword of a file. -/
def fileDword (f : List Byte) (o : Nat) : Nat := natOfBytes ((f.drop o).take 8)

/-- The section at an entry of the section table. -/
def gxoSection (f : List Byte) (o : Nat) : GxoSection :=
  let d := fileDword f o
  { kind := field d 60 4, role := field d 56 4, image := field d 40 16, low := field d 0 40
    foff := fileDword f (o + 8), size := fileDword f (o + 16), load := fileDword f (o + 24) }

/-- Number of sections, offset of the section table and of the signature block (R372). -/
def gxoCount (f : List Byte) : Nat := field (fileDword f 0) 32 16
def gxoTable (f : List Byte) : Nat := fileDword f 8
def gxoSig (f : List Byte) : Nat := fileDword f 16

/-- The sections of a file. -/
def gxoSections (f : List Byte) : List GxoSection :=
  (List.range (gxoCount f)).map (fun i => gxoSection f (gxoTable f + 32 * i))

/-- A header in rule: MAGIC, VERSION, a section table within the file, reserved dwords zero (R372, R373). -/
def gxoHeaderOk (f : List Byte) : Bool :=
  let d := fileDword f 0
  64 ≤ f.length && field d 0 32 = 0x4F_5847 && field d 48 16 = 1 && 1 ≤ gxoCount f && gxoCount f ≤ 4096 &&
    gxoTable f % 8 = 0 && gxoTable f + 32 * gxoCount f ≤ f.length &&
    [24, 32, 40, 48, 56].all (fun o => fileDword f o = 0)

/-- An entry in rule on its own. -/
def GxoSection.ok (x : GxoSection) (len : Nat) : Bool :=
  x.kind ≤ 5 && x.kind ≠ 3 && x.role ≤ 4 && x.low = 0 && x.foff + x.size ≤ len &&
    (x.kind < 4 || x.role = 0) && (x.kind < 2 || x.load = 0)

/-- Contents of a section, and its dwords. -/
def GxoSection.bytes (x : GxoSection) (f : List Byte) : List Byte := (f.drop x.foff).take x.size
def GxoSection.dwords (x : GxoSection) (f : List Byte) : List Word :=
  (List.range (x.size / 8)).map (fun i => BitVec.ofNat 64 (fileDword f (x.foff + 8 * i)))

/-- Reserved fields of the placement table's entries and of the boot tree's edges (R374, R375). -/
def placementOk (ws : List Word) : Bool :=
  ws.zipIdx.all (fun x =>
    if x.2 % 2 = 0 then field x.1.toNat 0 26 = 0 && field x.1.toNat 60 4 ≤ 4 &&
      (if field x.1.toNat 60 4 = 4 then field x.1.toNat 56 4 ≤ 4 else field x.1.toNat 56 4 = 0)
    else field x.1.toNat 0 48 = 0)
def treeOk (ws : List Word) : Bool := ws.all (fun w => field w.toNat 16 48 = 0)

/-- Whether a node's chain of sources in a boot tree ends at a G-die within a number of edges. -/
def rooted (ws : List Word) : Nat → Nat → Bool
  | 0, _ => false
  | n + 1, die =>
    16 ≤ die || match ws.filter (fun w => field w.toNat 8 8 = die) with
      | [w] => rooted ws n (field w.toNat 0 8)
      | _ => false

/-- Whether the edges of a boot tree reach every C-die from a G-die exactly once, with no cycle (R375). -/
def treeSpans (ws : List Word) : Bool :=
  ws.all (fun w => field w.toNat 0 8 < 20 && field w.toNat 8 8 < 16) && (List.range 16).all (rooted ws 17)

/-- Whether two loaded sections of one image overlap (R373): have a byte in common. -/
def GxoSection.clashes (x y : GxoSection) : Bool :=
  x.kind ≤ 1 && y.kind ≤ 1 && x.role = y.role && x.image = y.image && 0 < x.size && 0 < y.size &&
    overlaps x.load x.size y.load y.size

/-- A list in which no two entries clash. -/
def noClash : List GxoSection → Bool
  | [] => true
  | x :: t => t.all (fun y => !x.clashes y) && noClash t

/-- What a signature must cover (R373): the section table and every section, with nothing after the block. -/
def gxoCovered (f : List Byte) : Bool :=
  gxoTable f + 32 * gxoCount f ≤ gxoSig f && (gxoSections f).all (fun x => x.size = 0 || x.foff + x.size ≤ gxoSig f) &&
    f.length = gxoSig f + 96

/-- Whether firmware loads a file (R373). -/
def gxoOk (f : List Byte) : Bool :=
  gxoHeaderOk f &&
    (let xs := gxoSections f
     xs.all (fun x => x.ok f.length) && noClash xs &&
      xs.all (fun x => (x.kind ≠ 4 || placementOk (x.dwords f)) && (x.kind ≠ 5 || treeOk (x.dwords f))) &&
      (gxoSig f = 0 || gxoCovered f) &&
      (xs.all (fun x => x.role < 3) || (gxoSig f ≠ 0 && signatureOk f (gxoSig f))))

/-- A section taken up. A boot tree that breaks R375 is not: what firmware does with one the manual does not say. DESIGN CHOICE: log
entry 94. -/
def Boot.take (f : List Byte) (b : Boot) (x : GxoSection) : Boot :=
  match x.kind with
  | 0 | 1 => { b with images := b.images ++ [(x.role, x.image, x.load, x.bytes f)] }
  | 4 => { b with placement := x.dwords f }
  | 5 => if treeSpans (x.dwords f) then { b with tree := x.dwords f } else b
  | _ => b

/-- Images a file holds take the place of those of the same role and number, whose acknowledgements go (R375). -/
def Boot.clear (b : Boot) (xs : List GxoSection) : Boot :=
  let new (role image : Nat) : Bool := xs.any (fun x => x.kind ≤ 1 && x.role == role && x.image == image)
  { b with
    images := b.images.filter (fun y => !new y.1 y.2.1)
    acked := b.acked.filter (fun y => !new 4 y.2)
    attempts := b.attempts.filter (fun y => !new 4 y.2) }

/-- Whether an entry of the placement table contains a block or core, by its first dword (R374). -/
def placeCovers (d role block die core : Nat) : Bool :=
  field d 60 4 = role && field d 56 4 = block && field d 52 4 ≤ die && die ≤ field d 48 4 &&
    field d 44 4 ≤ core / 8 && core / 8 ≤ field d 40 4 && field d 33 7 ≤ core && core ≤ field d 26 7

/-- The image the first entry that contains a block or core decides for it, if one does (R374). -/
def placed (role block die core : Nat) : List Word → Option Nat
  | d :: e :: t => if placeCovers d.toNat role block die core then some (field e.toNat 48 16) else placed role block die core t
  | _ => none

/-- The image of a role that a core of a virtual die takes: image 0 where no entry covers it (R374). -/
def Boot.imageOf (b : Boot) (role die core : Nat) : Nat := (placed role 0 die core b.placement).getD 0

/-- Load addresses and sizes of an image. -/
def Boot.extent (b : Boot) (role image : Nat) : List (Nat × Nat) :=
  (b.images.filter (fun x => x.1 == role && x.2.1 == image)).map (fun x => (x.2.2.1, x.2.2.2.length))

/-- Whether the images a table places for each of the roles 0 to 3, of those loaded, agree in their load addresses and sizes (R374). -/
def Boot.placesEqual (b : Boot) : Bool :=
  (List.range 4).all (fun role =>
    let named := ((List.range 2048).filterMap (fun i => placed role 0 (i / 128) (i % 128) b.placement)).dedup
    let images := named.filter (fun i => b.extent role i ≠ [])
    images.all (fun i => b.extent role i = b.extent role (images.headD 0)))

/-- Number of a block in the table of block firmware: its kind, die (a G-die g as 16 + g) and core. -/
def blockNumber (block die core : Nat) : Nat := block * 2 ^ 12 + die * 2 ^ 7 + core

/-- The image of the first entry for the management cores, which the G-dies have (R280) and no range of dies names (R374). -/
def managementImage : List Word → Option Nat
  | d :: e :: t => if field d.toNat 60 4 = 4 && field d.toNat 56 4 = 0 then some (field e.toNat 48 16) else managementImage t
  | _ => none

/-- The blocks of a die that the placement table gives an image take it, cluster after cluster; one that no entry covers keeps what it
holds (R374, R375): on a G-die its management cores, on a C-die its conduits, scheduler, base dies and link endpoints. -/
def Boot.placeBlocks (b : Boot) (image die : Nat) : Boot :=
  let put (block core : Nat) (named : Option Nat) (t : Table Nat) : Table Nat :=
    if named = some image then assign (blockNumber block die core) image t else t
  let whole : Table Nat := [2, 3, 4].foldl (fun t block => put block 0 (placed 4 block die 0 b.placement) t) b.blocks
  let all : Table Nat := (List.range 128).foldl (fun t core => put 1 core (placed 4 1 die core b.placement) t) whole
  { b with blocks := if 16 ≤ die then put 0 0 (managementImage b.placement) b.blocks else all }

/-- An image goes into service on a die, or the die out of service: its last attempt has failed. A G-die's host port goes down with it;
a C-die that a job owns goes only by R357. -/
def State.dieFails (s : State) (die : Nat) : State :=
  (if 16 ≤ die then tryHostPortDown (die - 16) s else tryDieOutOfService die s).getD s

/-- BOOT_IMAGE_ACK (R375): a die that an image has come to acknowledges it with its hash. One whose hash differs receives the image
again, up to 3 times. -/
def tryBootImageAck (die image hash : Nat) (s : State) : Option State :=
  let b := s.pkg.boot
  let put (c : Boot) : State := { s with pkg := { s.pkg with boot := c } }
  if b.step < 5 || !b.firmwares.contains image || b.settled image die || !b.forwarded image die then none
  else if sha384 (b.firmware image) = hash then some (put (({ b with acked := b.acked ++ [(die, image)] } : Boot).placeBlocks image die))
  else
    let t := put { b with attempts := b.attempts ++ [(die, image)] }
    some (if b.tries die image < 3 then t else t.dieFails die)
def execBootImageAck (die : Nat) (ack : ImageAck) (s : State) : Out := passing s (tryBootImageAck die ack.image ack.hash s)

/-- A file's sections taken up. The images that a table places for one role must agree (R374); what
firmware does with a table that breaks this the manual does not say: the table it had stays. DESIGN CHOICE: log entry 94. -/
def Boot.load (b : Boot) (f : List Byte) : Boot :=
  let c := (gxoSections f).foldl (Boot.take f) (b.clear (gxoSections f))
  if c.placesEqual then c else { c with placement := b.placement }

/-- GXO_LOAD (R373): a file loaded whole, or nothing of it; the firmware that loads it runs from step 5 of R376 on. -/
def tryGxoLoad (f : List Byte) (s : State) : Option State :=
  if s.pkg.boot.step < 5 then none
  else some (if gxoOk f then { s with pkg := { s.pkg with boot := s.pkg.boot.load f } } else s)
def execGxoLoad (f : List Byte) (s : State) : Out := passing s (tryGxoLoad f s)

/-- Bytes of an image placed on a virtual die, from an address up: at the place there of the die-homed frame that the address maps to
(R55, R374). None where an address maps to no die-homed frame. -/
def State.placeBytes (v : Nat) : Word → List Byte → State → Option State
  | _, [], s => some s
  | va, x :: t, s =>
    match s.hwCell false va 1 with
    | .ok (u, c, some h) =>
      if c < 2 ^ 42 && c / 2 ^ 38 = u.job.pdie (h / 128) then
        State.placeBytes v (va + 1#64) t
          (u.store (engineWriter 0) (movedCell (u.job.pdie (h / 128)) (u.job.pdie v) c) 1 x.toNat (some (v * 128 + h % 128)))
      else none
    | _ => none

/-- A die's copy of an image placed in its stacks (R374), for the job `fjob` names. How the copies of several dies stand at one
virtual address the manual does not say: each stands at the same place of its die. DESIGN CHOICE: log entry 116. -/
def State.placeImage (s : State) (v role : Nat) : Option State :=
  let t := s.focusJob s.pkg.fjob
  let image := t.pkg.boot.imageOf role v 0
  let parts := t.pkg.boot.images.filter (fun x => x.1 == role && x.2.1 == image)
  if t.job.status = .absent || t.job.dies_n ≤ v || 4 ≤ role || parts = [] then none
  else (parts.foldl (fun u x => u.bind (State.placeBytes v (BitVec.ofNat 64 x.2.2.1) x.2.2.2)) (some t)).map (fun u => u.focusJob s.jobNo)

/-- I3C_DYNAMIC_ADDRESS (R378). -/
def execI3cDynamicAddress (a : BitVec 7) (s : State) : Out :=
  .next { s with pkg := { s.pkg with boot := { s.pkg.boot with address := some a } } }

/-- I3C_GETSTATUS (R378): an answer of two bytes, whose value the manual does not give: a free value. DESIGN CHOICE: log entry 117. -/
def execI3cGetstatus (s : State) : Out :=
  let x := (Config.freeValue s.free).toNat
  .next { s with free := s.free + 1
                 pkg := { s.pkg with boot := { s.pkg.boot with answer := [BitVec.ofNat 8 x, BitVec.ofNat 8 (x / 256)] } } }

/-- The registers of the management port as bytes from offset 0 (R378): BOOTST, DIEMAP, MBOX. -/
def Boot.port (b : Boot) : List Byte :=
  let word (x : Nat) : List Byte := (List.range 8).map (fun i => BitVec.ofNat 8 (x / 2 ^ (8 * i)))
  word b.bootst ++ word b.diemap ++ b.mailbox

/-- A private transfer of the port reads or writes (R378): MBOX takes what is written, BOOTST and DIEMAP ignore it. -/
def State.portRead (s : State) (off n : Nat) : State :=
  let b := s.pkg.boot
  { s with pkg := { s.pkg with boot := { b with answer := (List.range n).map (fun i => b.port.getD (off + i) 0#8) } } }
def State.portWrite (s : State) (off : Nat) (bytes : List Byte) : State :=
  let b := s.pkg.boot
  { s with pkg := { s.pkg with boot := { b with mailbox := bytes.zipIdx.foldl (fun m x =>
      if 16 ≤ off + x.2 then m.set (off + x.2 - 16) x.1 else m) b.mailbox } } }

/-- MGMT_MAILBOX_COMMAND (R378): held until the package runs. -/
def tryMgmtMailboxCommand (c : List Byte) (s : State) : Option State :=
  if 256 < c.length then none
  else
    let b := { s.pkg.boot with mailbox := c ++ s.pkg.boot.mailbox.drop c.length }
    some { s with pkg := { s.pkg with boot :=
      if b.bootst = 3 then { b with ranCommands := b.ranCommands ++ [c] } else { b with heldCommands := b.heldCommands ++ [c] } } }
def execMgmtMailboxCommand (c : List Byte) (s : State) : Out := passing s (tryMgmtMailboxCommand c s)

/-- Bits of a register replaced: those of a mask take the value's. -/
def Pkg.putBits (p : Pkg) (pa : Nat) (mask v : Word) : Pkg := p.setReg pa ((p.reg pa &&& ~~~mask) ||| (v &&& mask))

/-- A write of the DBGCTL of the agent in focus (R362): OWN 0 releases it; else DSTOP asks it to stop or resumes it, and with STEP lets
a stopped one issue once. A stop that must wait for a boundary comes as a step of its own. -/
def State.debugWrite (s : State) (v : Word) : State :=
  if v.toNat / 2 ^ 63 = 0 then s.release s.agId
  else if field v.toNat 62 1 = 0 then (if s.ag.dbgStopped || s.ag.stepping || s.stopWanted s.agId then s.resumeDebug else s)
  else if s.ag.dbgStopped then (if field v.toNat 61 1 = 1 && !s.ag.stepping then s.startStep else s)
  else s.askStop

/-- A write of the DBGCTL of a position that no job owns, which is at a boundary (R362): it stops with `0xA4`, or its stop ends. -/
def State.debugIdle (s : State) (pdie pa who : Nat) (v : Word) : State :=
  let stopped : Bool := field (s.pkg.reg pa).toNat 62 1 = 1
  if v.toNat / 2 ^ 63 = 0 || field v.toNat 62 1 = 0 then
    { s with pkg := s.pkg.setBits pa (if v.toNat / 2 ^ 63 = 0 then 0xD200_0000_0000_0000#64 else 0x4200_0000_0000_0000#64) 0#64 }
  else if stopped then s
  else
    { s with pkg := { s.pkg.setBits pa 0x0000_FF00_0000_0000#64 0x4200_A400_0000_0000#64 with
        reports := s.pkg.reports ++ [Report.stopped (who / 2 ^ 15 * 2 ^ 15 + pdie * 2 ^ 11 + who % 2 ^ 11) 0xA4#8] } }

/-- A write of DBGCTL (R362): OWN, WATCH and PASS take their bits; `who` is the agent's number but for its die. -/
def State.writeDbgctl (s : State) (pdie pa who : Nat) (v : Word) : State :=
  let own : Word := if isMasterId who then 0x8000_0000_0000_0000#64 else 0x9000_0000_0000_0000#64
  let bits : Word := if v.toNat / 2 ^ 63 = 0 then 0#64 else v &&& own
  let t := { s with pkg := (s.pkg.putBits pa own bits).setBits pa 0#64 (v &&& 0x0800_0000_0000_0000#64) }
  if t.ownedDies.contains pdie then t.onOwner pdie (fun vd u => (u.focus (who + vd * 2 ^ 11)).debugWrite v) else t.debugIdle pdie pa who v

/-- A write of a core block's register (R359, R362, R363, R365): what a counter has yet to count is counted before EN
changes. -/
def State.writeCore (s : State) (pdie core off : Nat) (v : Word) : State :=
  let pa := coreBase pdie core + off
  let put (t : State) (mask : Word) : State := { t with pkg := t.pkg.putBits pa mask v }
  if off = 0 then
    let t := put (s.settleCore s.pkg.cycle pdie core) 0x8000_0000_0000_0000#64
    if v.toNat % 2 = 1 then t.clearCore pdie core else t
  else if off = 8 then put s 0x8000_0000_0000_0000#64
  else if off = 0x10 then put s 0xFFFE_BF00_0000_0000#64
  else if 0x40 ≤ off && off < 0xB8 then s.writeDbgctl pdie pa (core * 16 + (off - 0x40) / 8) v
  else if 0x600 ≤ off && off < 0x800 then put s 0xFFFF_FFFF_FFFF_FFFF#64
  else s

/-- A write of a slice's sillage control (R369). A replay begins with no record consumed (R371). The manual does not say what a
write of a reserved MODE or an out-of-range LOG2N does: the field keeps its value. DESIGN CHOICE: log entry 91. -/
def State.writeSillage (s : State) (pa off : Nat) (v : Word) : State :=
  match off % 0x40 with
  | 0 =>
    let mode : Word := if v.toNat / 2 ^ 62 = 3 then 0#64 else 0xC000_0000_0000_0000#64
    let size : Word := if 6 ≤ field v.toNat 0 5 && field v.toNat 0 5 ≤ 24 then 0x1F#64 else 0#64
    let replays : Bool := v.toNat / 2 ^ 62 = 2 && (s.pkg.reg pa).toNat / 2 ^ 62 ≠ 2
    { s with pkg := { (s.pkg.putBits pa (mode ||| size) v).setBits pa (v &&& 0x2000_0000_0000_0000#64) 0#64 with
        consumed := if replays then s.pkg.consumed.filter (fun x => !(x.1 == pa)) else s.pkg.consumed } }
  | 8 => { s with pkg := s.pkg.putBits pa 0x000F_FFFF_FFFF_FFFF#64 v }
  | 0x18 => { s with pkg := s.pkg.putBits pa 0xFFFF_FFFF#64 v }
  | _ => s

/-- A write of an observation register (R358): counters and hardware fields ignore it. An out-of-range TRLOG2 leaves the field as
it is. DESIGN CHOICE: log entry 91. -/
def State.writeObs (s : State) (pa : Nat) (v : Word) : State :=
  let pdie := (pa - obsBase 0) / 0x100_0000
  let off := (pa - obsBase 0) % 0x100_0000
  let put (mask : Word) : State := { s with pkg := s.pkg.putBits pa mask v }
  if off < 0x8_0000 then s.writeCore pdie (off / 0x1000) (off % 0x1000) v
  else if off = 0x8_0000 || off = 0x8_0008 then s.writeDbgctl pdie pa (2 ^ 15 + (off - 0x8_0000) / 8 * 16) v
  else if off = 0x8_0100 then put 0x000F_FFFF_FFFF_FFFF#64
  else if off = 0x8_0108 then
    if field v.toNat 0 5 = 0 || (6 ≤ field v.toNat 0 5 && field v.toNat 0 5 ≤ 24) then put 0x1F#64 else s
  else if 0x8_0400 ≤ off && off < 0x8_0480 then put 0x000F_FFFF_FFFF_FFC0#64
  else if 0xA_0000 ≤ off && off < 0xA_2000 then s.writeSillage pa off v
  else s

/-- REGISTER_WRITE (R10): firmware's dword store to a device register. Unassigned, read-only and hardware fields ignore
it. -/
def execRegisterWrite (pa : Nat) (v : Word) (s : State) : Out :=
  .next (
    if pa % 8 ≠ 0 then s
    else if 0xF00_0000_0000 ≤ pa && pa < 0xF00_0000_0000 + 32 * 0x10_0000 then
      match s.writeStackReg pa v with
      | .ok t => t
      | .error _ => s
    else if obsBase 0 ≤ pa && pa < obsBase 16 then s.writeObs pa v
    else if pa = snapTrig then s.requestSnapshot v.toNat
    else s)

/-- Whether DSTOP of a DBGCTL reads 1 (R362): its position is debug-stopped, not merely asked to stop. -/
def State.showsStopped (s : State) (pa : Nat) : Bool :=
  match dbgctlOf pa with
  | none => true
  | some (pdie, who) =>
    match (s.wholeJob :: s.jobs.map (fun x => x.2)).findSome? (fun j => if j.status = .absent then none else (j.vdie pdie).map (fun v => (j, v))) with
    | some (j, v) => (lookup (who + v * 2 ^ 11) j.agents).any (fun a => a.dbgStopped)
    | none => true

/-- Firmware's load of a device register (R358): a core's counters stand as they do at this cycle. SNAPTRIG is written only. -/
def State.loadDevice (s : State) (pa : Nat) : State :=
  let off := (pa - obsBase 0) % 0x100_0000
  let t := if obsBase 0 ≤ pa && pa < obsBase 16 && off < 0x8_0000 then
      s.settleCore s.pkg.cycle ((pa - obsBase 0) / 0x100_0000) (off / 0x1000)
    else s
  let x := t.pkg.reg pa
  { t with pkg := { t.pkg with fwValue :=
      if pa = snapTrig then 0#64 else if t.showsStopped pa then x else x &&& 0xBFFF_FFFF_FFFF_FFFF#64 } }

/-- What firmware sees of a debug-stopped slot: the entry a `slspill` of it would write (R334, R362). -/
def State.stoppedEntry (s : State) : Option (List Word) :=
  if s.job.status ≠ .absent && !isMasterId s.agId && s.ag.occupied && s.ag.dbgStopped && !s.ag.stepping then
    some (s.fibreRecord (fstate 4 5 0 s.agId s.ag.slStopped) ++ s.getWords (s.stackCell s.agId) 64)
  else none

/-- Firmware's read of a dword of it, and its write of one, with the effect of a `slload` into the same slot; FSTATE stays. -/
def State.readStopped (s : State) (a i : Nat) : Option State :=
  (s.focus a).stoppedEntry.map (fun ws => { s with pkg := { s.pkg with fwValue := ws.getD i 0#64 } })
def State.writeStopped (s : State) (a i : Nat) (v : Word) : Option State :=
  let t := s.focus a
  t.stoppedEntry.map (fun ws =>
    let new := if i = 108 then ws else ws.set i v
    let u := { t with ag := { agentOfRecord (new.take 128) a (t.savedInfo []) t.ag with role := t.ag.role, priv := t.ag.priv } }
    State.putWords (engineWriter (coreKey a)) none (u.stackCell a) (new.drop 128) u)

/-- ILLEGAL_ENCODING (R129, R130): the agent in focus stands at a word that is no instruction. -/
def execIllegalEncoding (c : Byte) (s : State) : Out := .next (s.raiseCause c)

end Sys2Proof.Machine
end

