-- ==== Sys2Proof/Machine/Float.lean ====
section
/-! DEFINITION. Scalar floating point (06_scalar_instructions.md R147-R152). -/

namespace Sys2Proof.Machine

/-- Format of a suffix, and what an operand register holds of it (R147). -/
def fsizeFmt : FSize → Fmt
  | .s => fp32
  | .d => fp64
def fbits (p : FSize) (x : Word) : Nat :=
  match p with
  | .s => x.toNat % 2 ^ 32
  | .d => x.toNat
def fval (p : FSize) (x : Word) : FVal := (fsizeFmt p).decode (fbits p x)

/-- An exact result rounded by `rmode` into the format, with its flags (R86, R147). -/
def fround (p : FSize) (rmode : Word) (x : FVal × Word) : Word × Word :=
  let r := roundToFormat x.1 (fsizeFmt p) (rmodeMode rmode) .inf false
  (BitVec.ofNat 64 r.1, x.2 ||| r.2)

/-- Arithmetic results (R148). -/
def faddW (p : FSize) (rm x y : Word) : Word × Word := fround p rm ((fval p x).add (fval p y) (rmodeMode rm))
def fsubW (p : FSize) (rm x y : Word) : Word × Word := fround p rm ((fval p x).add (fval p y).neg (rmodeMode rm))
def fmulW (p : FSize) (rm x y : Word) : Word × Word := fround p rm ((fval p x).mul (fval p y))
def fdivW (p : FSize) (rm x y : Word) : Word × Word := fround p rm ((fval p x).div (fval p y))
def fsqrtW (p : FSize) (rm x : Word) : Word × Word := fround p rm (fval p x).sqrt
def fmaW (p : FSize) (rm x y z : Word) : Word × Word :=
  let m := (fval p x).mul (fval p y)
  let t := m.1.add (fval p z) (rmodeMode rm)
  fround p rm (t.1, m.2 ||| t.2)

/-- Whether a value carries a minus sign. -/
def FVal.isNeg : FVal → Bool
  | .nan _ => false
  | .inf n => n
  | .zero n => n
  | .fin n _ _ => n

/-- x below y, with −0 below +0 (R149). -/
def FVal.below (x y : FVal) : Bool := x.lt y || (x.eqv y && x.isNeg && !y.isNeg)

/-- `fmin` and `fmax` (R149): the operand picked, never rounded. -/
def fminmaxW (p : FSize) (wantMax : Bool) (x y : Word) : Word × Word :=
  let u := fval p x
  let v := fval p y
  let nv := u.sigNV ||| v.sigNV
  let bits (w : Word) : Word := BitVec.ofNat 64 (fbits p w)
  if u.isNan && v.isNan then (BitVec.ofNat 64 (fsizeFmt p).canonNan, nv)
  else if u.isNan then (bits y, nv)
  else if v.isNan then (bits x, nv)
  else if wantMax then (if u.below v then bits y else bits x, nv)
  else (if v.below u then bits y else bits x, nv)

/-- Comparisons (R150): `quiet` comparisons set NV for signalling NaNs only. -/
def fcmpW (p : FSize) (quiet : Bool) (test : FVal → FVal → Bool) (x y : Word) : Word × Word :=
  let u := fval p x
  let v := fval p y
  let nan := u.isNan || v.isNan
  (ofBool (!nan && test u v), if quiet then u.sigNV ||| v.sigNV else flagIf nan flagNV)

/-- KIND of R151. -/
def fkindOf (f : Fmt) (x : FVal) : Nat :=
  match x with
  | .zero _ => 0
  | .fin _ m e => if expOf m e < f.emin then 1 else 2
  | .inf _ => 3
  | .nan sig => if sig then 5 else 4

/-- Whether a value is an integer (R151). -/
def FVal.isInteger : FVal → Bool
  | .zero _ => true
  | .fin _ m e => 0 ≤ e || m % 2 ^ (-e).toNat = 0
  | _ => false

/-- The code `fkind` writes (R151). -/
def fkindW (p : FSize) (x : Word) : Word :=
  let f := fsizeFmt p
  let v := fval p x
  packFields [(fkindOf f v, 0), (field (fbits p x) (f.width - 1) 1, 3), (if v.isInteger then 1 else 0, 4)]

/-- Float to float (R152). -/
def fcvtFF (dst src : FSize) (rm x : Word) : Word × Word := fround dst rm (fval src x, 0#64)

/-- Integer to float (R91, R152). -/
def fcvtIF (dst : FSize) (rm : Word) (v : Int) : Word × Word := fround dst rm (FVal.int v, 0#64)

/-- Float to integer (R91, R152): the value as a 64-bit integer. -/
def fcvtFI (src : FSize) (rm x : Word) (lo hi : Int) : Word × Word :=
  let r := toInteger (fval src x) lo hi (rmodeMode rm)
  (BitVec.ofInt 64 r.1, r.2)

/-- The conversions of `fcvt` (R152). -/
def fcvtW (c : FCvt) (rm x : Word) : Word × Word :=
  let i32 : Int := sx x.toNat 32
  let u32 : Int := (x.toNat % 2 ^ 32 : Nat)
  let i64 : Int := x.toInt
  let u64 : Int := x.toNat
  match c with
  | .sd => fcvtFF .s .d rm x
  | .ds => fcvtFF .d .s rm x
  | .sw => fcvtIF .s rm i32
  | .swu => fcvtIF .s rm u32
  | .sl => fcvtIF .s rm i64
  | .slu => fcvtIF .s rm u64
  | .dw => fcvtIF .d rm i32
  | .dwu => fcvtIF .d rm u32
  | .dl => fcvtIF .d rm i64
  | .dlu => fcvtIF .d rm u64
  | .ws => fcvtFI .s rm x (-(2 ^ 31)) (2 ^ 31 - 1)
  | .wus => fcvtFI .s rm x 0 (2 ^ 32 - 1)
  | .ls => fcvtFI .s rm x (-(2 ^ 63)) (2 ^ 63 - 1)
  | .lus => fcvtFI .s rm x 0 (2 ^ 64 - 1)
  | .wd => fcvtFI .d rm x (-(2 ^ 31)) (2 ^ 31 - 1)
  | .wud => fcvtFI .d rm x 0 (2 ^ 32 - 1)
  | .ld => fcvtFI .d rm x (-(2 ^ 63)) (2 ^ 63 - 1)
  | .lud => fcvtFI .d rm x 0 (2 ^ 64 - 1)

/-- Latencies of R145. -/
def fdivLatency : FSize → Nat
  | .s => 18
  | .d => 27
def fsqrtLatency : FSize → Nat
  | .s => 20
  | .d => 31

/-- Arithmetic (R148). -/
def execFadd (p : FSize) (d a b : Reg) (s : State) : Out := .next (s.fpResult d (faddW p s.ag.rmode (s.g a) (s.g b)))
def execFsub (p : FSize) (d a b : Reg) (s : State) : Out := .next (s.fpResult d (fsubW p s.ag.rmode (s.g a) (s.g b)))
def execFmul (p : FSize) (d a b : Reg) (s : State) : Out := .next (s.fpResult d (fmulW p s.ag.rmode (s.g a) (s.g b)))
def execFdiv (p : FSize) (d a b : Reg) (s : State) : Out :=
  .next (s.longResult (fdivLatency p) d (fdivW p s.ag.rmode (s.g a) (s.g b)))
def execFsqrt (p : FSize) (d a : Reg) (s : State) : Out :=
  .next (s.longResult (fsqrtLatency p) d (fsqrtW p s.ag.rmode (s.g a)))
def execFma (p : FSize) (d a b : Reg) (s : State) : Out :=
  .next (s.fpResult d (fmaW p s.ag.rmode (s.g a) (s.g b) (s.g d)))

/-- Minimum, maximum, comparisons, kind and conversions (R149-R152). -/
def execFmin (p : FSize) (d a b : Reg) (s : State) : Out := .next (s.fpResult d (fminmaxW p false (s.g a) (s.g b)))
def execFmax (p : FSize) (d a b : Reg) (s : State) : Out := .next (s.fpResult d (fminmaxW p true (s.g a) (s.g b)))
def execFcmpeq (p : FSize) (d a b : Reg) (s : State) : Out := .next (s.fpResult d (fcmpW p true FVal.eqv (s.g a) (s.g b)))
def execFcmplt (p : FSize) (d a b : Reg) (s : State) : Out := .next (s.fpResult d (fcmpW p false FVal.lt (s.g a) (s.g b)))
def execFcmple (p : FSize) (d a b : Reg) (s : State) : Out :=
  .next (s.fpResult d (fcmpW p false (fun x y => !y.lt x) (s.g a) (s.g b)))
def execFkind (p : FSize) (d a : Reg) (s : State) : Out := .next (s.result d (fkindW p (s.g a)))
def execFcvt (c : FCvt) (d a : Reg) (s : State) : Out := .next (s.fpResult d (fcvtW c s.ag.rmode (s.g a)))

end Sys2Proof.Machine
end

