-- ==== Sys2Proof/Machine/Vector.lean ====
section
/-! DEFINITION. Vector and mask instructions (08_vector_instructions.md R184-R203). -/

namespace Sys2Proof.Machine

/-- Lanes of a register as numbers, lowest first, and back (R116). -/
def lanesOf (t : LaneTy) (x : VWord) : List Nat := unpackBits t.width t.lanes x.toNat
def ofLanes (w : Nat) (l : List Nat) : VWord := BitVec.ofNat 512 (packBits w l)

/-- Whether a mask makes lane i of n active (R117, R184). -/
def active (m : BitVec 16) (n i : Nat) : Bool := maskBit m (i / (n / 16))

/-- Lane i of a list. -/
def lane (l : List Nat) (i : Nat) : Nat := l.getD i 0

/-- Active lanes replaced by a function of their number, with the flags they raise (R184, R186). -/
def mapLanes (w n : Nat) (m : BitVec 16) (old : VWord) (f : Nat → Nat × Word) : VWord × Word :=
  let o := unpackBits w n old.toNat
  let r := (List.range n).map (fun i => if active m n i then f i else (lane o i, 0#64))
  (ofLanes w (r.map (fun x => x.1)), r.foldl (fun a x => a ||| x.2) 0#64)

/-- A vector result with its flags. -/
def State.vresult (s : State) (d : VReg) (r : VWord × Word) : State := ((s.setV d r.1).orFlags r.2).advance 4

/-- A lane-wise instruction of two sources and the old destination under a mask. -/
def State.vmap3 (s : State) (t : LaneTy) (k d a b : VReg) (f : Nat → Nat → Nat → Nat × Word) : State :=
  let x := lanesOf t (s.v a)
  let y := lanesOf t (s.v b)
  let z := lanesOf t (s.v d)
  s.vresult d (mapLanes t.width t.lanes (s.k k) (s.v d) (fun i => f (lane x i) (lane y i) (lane z i)))

/-- Float format of a lane type (R116). -/
def laneFmt : LaneTy → Fmt
  | .bf16 => bf16
  | .f16 => fp16
  | _ => fp32

/-- Whether a lane type flushes subnormals (R88). -/
def flushes : LaneTy → Bool
  | .bf16 | .f16 => true
  | _ => false

/-- A floating-point lane as an operand (R88). -/
def laneVal (t : LaneTy) (x : Nat) : FVal :=
  let v := (laneFmt t).decode x
  if flushes t then v.flushIn (laneFmt t) else v

/-- A floating-point result rounded into a lane (R87, R188): BF16 by way of FP32. -/
def laneRound (t : LaneTy) (mode : RMode) (x : FVal × Word) : Nat × Word :=
  match t with
  | .bf16 =>
    let r := roundToFormat x.1 fp32 mode .inf false
    let q := roundToFormat (fp32.decode r.1) bf16 .rne .inf true
    (q.1, x.2 ||| r.2 ||| q.2)
  | _ =>
    let r := roundToFormat x.1 (laneFmt t) mode .inf (flushes t)
    (r.1, x.2 ||| r.2)

/-- Integer result of a variant (R187). -/
def intLane (v : VVar) (w : Nat) (x : Int) : Nat × Word :=
  match v with
  | .sat => (low (satS x w) w, 0#64)
  | _ => (low x w, 0#64)

/-- Arithmetic of one lane (R187, R188): integer function or float function. -/
def arith (t : LaneTy) (v : VVar) (mode : RMode) (fi : Int → Int → Int → Int) (ff : FVal → FVal → FVal → FVal × Word)
    (x y z : Nat) : Nat × Word :=
  if t.isFloat then laneRound t mode (ff (laneVal t x) (laneVal t y) (laneVal t z))
  else intLane v t.width (fi (sx x t.width) (sx y t.width) (sx z t.width))

/-- Fused multiply-add on exact values (R148). -/
def fmaVal (mode : RMode) (x y z : FVal) : FVal × Word :=
  let m := x.mul y
  let r := m.1.add z mode
  (r.1, m.2 ||| r.2)

def execVadd (v : VVar) (t : LaneTy) (k d a b : VReg) (s : State) : Out :=
  let mode := rmodeMode s.ag.rmode
  .next (s.vmap3 t k d a b (arith t v mode (fun x y _ => x + y) (fun x y _ => x.add y mode)))
def execVsub (v : VVar) (t : LaneTy) (k d a b : VReg) (s : State) : Out :=
  let mode := rmodeMode s.ag.rmode
  .next (s.vmap3 t k d a b (arith t v mode (fun x y _ => x - y) (fun x y _ => x.add y.neg mode)))
def execVmul (v : VVar) (t : LaneTy) (k d a b : VReg) (s : State) : Out :=
  .next (s.vmap3 t k d a b (arith t v (rmodeMode s.ag.rmode) (fun x y _ => x * y) (fun x y _ => x.mul y)))
def execVfma (v : VVar) (t : LaneTy) (k d a b : VReg) (s : State) : Out :=
  let mode := rmodeMode s.ag.rmode
  .next (s.vmap3 t k d a b (arith t v mode (fun x y z => x * y + z) (fmaVal mode)))

/-- Minimum or maximum of floating-point lanes (R149, R188) on flushed operands. -/
def fminmaxLane (t : LaneTy) (wantMax : Bool) (x y : Nat) : Nat × Word :=
  let f := laneFmt t
  let u := laneVal t x
  let v := laneVal t y
  let nv := u.sigNV ||| v.sigNV
  let bits (w : FVal) (raw : Nat) : Nat := match w with | .zero n => f.sign n | _ => raw
  if u.isNan && v.isNan then (f.canonNan, nv)
  else if u.isNan then (bits v y, nv)
  else if v.isNan then (bits u x, nv)
  else if wantMax then (if u.below v then bits v y else bits u x, nv)
  else (if v.below u then bits v y else bits u x, nv)

/-- Minimum or maximum of one lane (R187). -/
def minmaxLane (t : LaneTy) (v : VVar) (wantMax : Bool) (x y : Nat) : Nat × Word :=
  if t.isFloat then fminmaxLane t wantMax x y
  else
    let less : Bool := match v with
      | .uns => decide (x < y)
      | _ => decide (sx x t.width < sx y t.width)
    (if less = wantMax then y else x, 0#64)

def execVmin (v : VVar) (t : LaneTy) (k d a b : VReg) (s : State) : Out :=
  .next (s.vmap3 t k d a b (fun x y _ => minmaxLane t v false x y))
def execVmax (v : VVar) (t : LaneTy) (k d a b : VReg) (s : State) : Out :=
  .next (s.vmap3 t k d a b (fun x y _ => minmaxLane t v true x y))

/-- `vabs` and `vneg` of one lane (R187, R188): bits for floats. -/
def absLane (t : LaneTy) (v : VVar) (x : Nat) : Nat × Word :=
  if t.isFloat then (x % 2 ^ (t.width - 1), 0#64) else intLane v t.width (sx x t.width).natAbs
def negLane (t : LaneTy) (v : VVar) (x : Nat) : Nat × Word :=
  if t.isFloat then (Nat.xor x (2 ^ (t.width - 1)), 0#64) else intLane v t.width (-(sx x t.width))

def execVabs (v : VVar) (t : LaneTy) (k d a : VReg) (s : State) : Out :=
  .next (s.vmap3 t k d a a (fun x _ _ => absLane t v x))
def execVneg (v : VVar) (t : LaneTy) (k d a : VReg) (s : State) : Out :=
  .next (s.vmap3 t k d a a (fun x _ _ => negLane t v x))

/-- Logic and shifts (R189). -/
def execVand (t : LaneTy) (k d a b : VReg) (s : State) : Out :=
  .next (s.vmap3 t k d a b (fun x y _ => (Nat.land x y, 0#64)))
def execVor (t : LaneTy) (k d a b : VReg) (s : State) : Out :=
  .next (s.vmap3 t k d a b (fun x y _ => (Nat.lor x y, 0#64)))
def execVxor (t : LaneTy) (k d a b : VReg) (s : State) : Out :=
  .next (s.vmap3 t k d a b (fun x y _ => (Nat.xor x y, 0#64)))
def execVsll (t : LaneTy) (k d a b : VReg) (s : State) : Out :=
  .next (s.vmap3 t k d a b (fun x c _ => (if c < t.width then x * 2 ^ c % 2 ^ t.width else 0, 0#64)))
def execVsrl (t : LaneTy) (k d a b : VReg) (s : State) : Out :=
  .next (s.vmap3 t k d a b (fun x c _ => (if c < t.width then x / 2 ^ c else 0, 0#64)))
def execVsra (t : LaneTy) (k d a b : VReg) (s : State) : Out :=
  .next (s.vmap3 t k d a b (fun x c _ => (low (sx x t.width / 2 ^ min c (t.width - 1)) t.width, 0#64)))

/-- One comparison of `vcmp` (R190) with the flags of R150. -/
def cmpLane (c : VCond) (t : LaneTy) (x y : Nat) : Bool × Word :=
  if t.isFloat then
    let u := laneVal t x
    let v := laneVal t y
    let nan := u.isNan || v.isNan
    match c with
    | .eq => (!nan && u.eqv v, u.sigNV ||| v.sigNV)
    | .lt => (!nan && u.lt v, flagIf nan flagNV)
    | _ => (!nan && !v.lt u, flagIf nan flagNV)
  else
    match c with
    | .eq => (x = y, 0#64)
    | .lt => (sx x t.width < sx y t.width, 0#64)
    | .le => (sx x t.width ≤ sx y t.width, 0#64)
    | .ltu => (x < y, 0#64)
    | .leu => (x ≤ y, 0#64)

/-- The mask `vcmp` writes (R190): bit m is the lowest lane it governs. -/
def cmpMask (c : VCond) (t : LaneTy) (m : BitVec 16) (a b : VWord) : BitVec 16 × Word :=
  let x := lanesOf t a
  let y := lanesOf t b
  let r := (List.range 16).map (fun i =>
    if maskBit m i then cmpLane c t (lane x (i * (t.lanes / 16))) (lane y (i * (t.lanes / 16))) else (false, 0#64))
  (BitVec.ofNat 16 (packBits 1 (r.map (fun z => if z.1 then 1 else 0))), r.foldl (fun f z => f ||| z.2) 0#64)

def execVcmp (c : VCond) (t : LaneTy) (k d a b : VReg) (s : State) : Out :=
  let r := cmpMask c t (s.k k) (s.v a) (s.v b)
  .next (((s.setK d r.1).orFlags r.2).advance 4)

/-- `vsel` (R191): the mask selects. -/
def execVsel (t : LaneTy) (k d a b : VReg) (s : State) : Out :=
  let x := lanesOf t (s.v a)
  let y := lanesOf t (s.v b)
  let r := (List.range t.lanes).map (fun i => if active (s.k k) t.lanes i then lane x i else lane y i)
  .next (s.vresult d (ofLanes t.width r, 0#64))

/-- What a `vcvt` format holds: a float format, or an integer of some bits (R192). -/
inductive Elem where
  | float (f : Fmt)
  | int (bits : Nat)
  deriving DecidableEq, Repr

def elemOf : VFmt → Elem
  | .fp32 => .float fp32
  | .bf16 => .float bf16
  | .fp16 => .float fp16
  | .int32 => .int 32
  | .int16 => .int 16
  | .int8 => .int 8
  | .e4m3 => .float e4m3
  | .e5m2 => .float e5m2
  | .e3m2 => .float e3m2
  | .e2m3 => .float e2m3
  | .e2m1 => .float e2m1
  | .int4 => .int 4
  | .bk8 => .int 8
  | .bk4 => .int 4

/-- Flushing of R194, on read and on write, and the overflow behaviour. -/
def fmtFlushes : VFmt → Bool
  | .bf16 | .fp16 | .e4m3 | .e5m2 => true
  | _ => false
def fmtOvf : VFmt → Ovf
  | .e4m3 | .e3m2 | .e2m3 | .e2m1 => .sat
  | _ => .inf

/-- An exact value written into a format (R194). -/
def fmtPut (f : VFmt) (mode : RMode) (x : FVal) : Nat × Word :=
  match elemOf f with
  | .float g => roundToFormat x g mode (fmtOvf f) (fmtFlushes f)
  | .int w =>
    let r := toInteger x (-(2 ^ (w - 1))) (2 ^ (w - 1) - 1) mode
    (low r.1 f.container, r.2)

/-- One element converted from format f to format g (R194). -/
def cvtElem (f g : VFmt) (mode : RMode) (bits : Nat) : Nat × Word :=
  match elemOf f with
  | .float u =>
    let x := u.decode (bits % 2 ^ u.width)
    fmtPut g mode (if fmtFlushes f then x.flushIn u else x)
  | .int w =>
    match elemOf g with
    | .int n => (low (satS (sx bits w) n) g.container, 0#64)
    | .float _ => fmtPut g mode (FVal.int (sx bits w))

/-- Which elements of a block saturate in its conversion (R92, R195). -/
def bkSaturated (v : List FVal) (w : Nat) : List Bool :=
  let b := toBK v w
  v.map (fun x => match x with
    | .fin neg m e => b.1 ≠ 0xFF && 2 ^ (w - 1) - 1 < (roundAt neg m e ((b.1 : Int) - 127) .rne).1
    | _ => false)

/-- The BK register image (R195). -/
def bkImage (b : Nat × List Int × Bool) (w : Nat) : VWord :=
  BitVec.ofNat 512 (packBits w (b.2.1.map (fun q => low q w)) + b.1 * 2 ^ (32 * w))

/-- Element i of a BK register image (R195, R77). -/
def bkElem (w : Nat) (x : VWord) (i : Nat) : FVal :=
  bkValue (bkMantissa (field x.toNat (w * i) w) w) (field x.toNat (32 * w) 8)

/-- Mantissa width of a block format. -/
def bkWidth : VFmt → Nat
  | .bk8 => 8
  | _ => 4

/-- `vcvt` (R192-R195). -/
def execVcvt (toLane : Bool) (f : VFmt) (t : LaneTy) (k d a p : VReg) (s : State) : Out :=
  let n := t.lanes
  let mode := rmodeMode s.ag.rmode
  let src := lanesOf t (s.v a)
  .next (
    if f.isBlock then
      let w := bkWidth f
      if toLane then
        s.vresult d (mapLanes t.width n (s.k k) (s.v d) (fun i => fmtPut t.fmt mode (bkElem w (s.v a) (p.toNat * n + i))))
      else
        let v := (if t = .f32 then src ++ lanesOf t (s.v p) else src).map (laneVal t)
        let sat := bkSaturated v w
        let m := (List.range 16).map (fun i => if sat.getD (2 * i) false || sat.getD (2 * i + 1) false then 1 else 0)
        ((s.setV d (bkImage (toBK v w) w)).setK k (BitVec.ofNat 16 (packBits 1 m))).advance 4
    else
      let c := f.container
      let total := 512 / c
      if toLane then
        let cs := unpackBits c total (s.v a).toNat
        s.vresult d (mapLanes t.width n (s.k k) (s.v d) (fun i => cvtElem f t.fmt mode (lane cs (p.toNat * n + i))))
      else
        let old := unpackBits c total (s.v d).toNat
        let r := (List.range total).map (fun j =>
          if p.toNat * n ≤ j && j < p.toNat * n + n && active (s.k k) n (j - p.toNat * n) then
            cvtElem t.fmt f mode (lane src (j - p.toNat * n))
          else (lane old j, 0#64))
        s.vresult d (ofLanes c (r.map (fun x => x.1)), r.foldl (fun g x => g ||| x.2) 0#64))

/-- Packing (R196). -/
def execVpack4 (d a p : VReg) (s : State) : Out :=
  let half := packBits 4 (unpackBits 8 64 (s.v a).toNat)
  let old := (s.v d).toNat
  .next (s.vresult d (BitVec.ofNat 512 (
    if p = 0#3 then half + old / 2 ^ 256 * 2 ^ 256 else old % 2 ^ 256 + half * 2 ^ 256), 0#64))
def execVunpack4 (signed : Bool) (d a p : VReg) (s : State) : Out :=
  let l := unpackBits 4 64 ((s.v a).toNat / 2 ^ (256 * p.toNat))
  .next (s.vresult d (ofLanes 8 (l.map (fun x => if signed then low (sx x 4) 8 else x)), 0#64))
def execVpack6 (d a : VReg) (s : State) : Out :=
  let l := unpackBits 8 64 (s.v a).toNat
  .next (s.vresult d (BitVec.ofNat 512 (packBits 6 l + (s.v d).toNat / 2 ^ 384 * 2 ^ 384), 0#64))
def execVunpack6 (d a : VReg) (s : State) : Out :=
  .next (s.vresult d (ofLanes 8 (unpackBits 6 64 (s.v a).toNat), 0#64))

/-- Levels of the reduction tree (R95). -/
def treeLevels (t : LaneTy) : Nat := Nat.log2 t.lanes

/-- A reduction's result: lane 0, every other lane zero (R197). -/
def lane0 (w x : Nat) : VWord := BitVec.ofNat 512 (x % 2 ^ w)

/-- Node of `vredsum` (R95, R197), with flags gathered. -/
def sumNode (t : LaneTy) (v : VVar) (x y : Nat × Word) : Nat × Word :=
  let r :=
    if t.isFloat then laneRound t .rne ((laneVal t x.1).add (laneVal t y.1) .rne)
    else intLane v t.width (sx x.1 t.width + sx y.1 t.width)
  (r.1, x.2 ||| y.2 ||| r.2)

def execVredsum (v : VVar) (t : LaneTy) (k d a : VReg) (s : State) : Out :=
  let x := lanesOf t (s.v a)
  let l := (List.range t.lanes).map (fun i =>
    if active (s.k k) t.lanes i then (lane x i, 0#64) else (if t.isFloat then (laneFmt t).sign true else 0, 0#64))
  let r := (treeFold (sumNode t v) (treeLevels t) l).headD (0, 0#64)
  .next (s.vresult d (lane0 t.width r.1, r.2))

/-- Node of `vredmax` (R197): absent inputs are passed over. A lone input meets no operation, so a signalling NaN among the operands
that meets no other sets no flag; R86 may be read to set NV. DESIGN CHOICE: log entry 107. -/
def maxNode (t : LaneTy) (v : VVar) (x y : Option Nat × Word) : Option Nat × Word :=
  match x.1, y.1 with
  | some a, some b =>
    let r := minmaxLane t v true a b
    (some r.1, x.2 ||| y.2 ||| r.2)
  | some a, none => (some a, x.2 ||| y.2)
  | none, b => (b, x.2 ||| y.2)

/-- An operand of a lane type that flushes, as it reads (R88). -/
def flushLane (t : LaneTy) (x : Nat) : Nat :=
  if flushes t && x / 2 ^ (laneFmt t).mbits % 2 ^ (laneFmt t).ebits = 0 then x / 2 ^ (t.width - 1) * 2 ^ (t.width - 1) else x

/-- The root of `vredmax` as written (R197): also one lane alone is an operand and flushed (R88). -/
def maxRoot (t : LaneTy) (v : VVar) (r : Option Nat) : Nat :=
  match r with
  | some x => if t.isFloat && ((laneFmt t).decode x).isNan then (laneFmt t).canonNan else flushLane t x
  | none =>
    if t.isFloat then (laneFmt t).infinity true
    else match v with
      | .uns => 0
      | _ => 2 ^ (t.width - 1)

def execVredmax (v : VVar) (t : LaneTy) (k d a : VReg) (s : State) : Out :=
  let x := lanesOf t (s.v a)
  let l := (List.range t.lanes).map (fun i =>
    (if active (s.k k) t.lanes i then some (lane x i) else none, 0#64))
  let r := (treeFold (maxNode t v) (treeLevels t) l).headD (none, 0#64)
  .next (s.vresult d (lane0 t.width (maxRoot t v r.1), r.2))

/-- ln 2 times 2^256, rounded down. -/
def ln2Fixed : Int := 0xb17217f7d1cf79abc9e3b39803f2f6af40f343267298b62d8a0d175b8baafa2b

/-- Taylor series of e^x at 256 fraction bits: `fuel` more terms, the next being `term`, the k-th. -/
def expSeries (x : Int) : Nat → Nat → Int → Int
  | 0, _, _ => 0
  | fuel + 1, k, term => term + expSeries x fuel (k + 1) (term * x / 2 ^ 256 / (k + 1))

/-- 2^x for a finite value, to 256 fraction bits with a low bit for what follows (R198). -/
def exp2Fin (neg : Bool) (m : Nat) (e : Int) : FVal :=
  if 11 ≤ expOf m e then .fin false 1 (if neg then -5000 else 5000)
  else
    let fixed : Int := signed neg (m * 2 ^ (e + 256).toNat)
    let n := (fixed + 2 ^ 255) / 2 ^ 256
    let f := fixed - n * 2 ^ 256
    if f = 0 then .fin false 1 n
    else .fin false (2 * (expSeries (f * ln2Fixed / 2 ^ 256) 72 0 (2 ^ 256)).toNat + 1) (n - 257)

/-- Exact values of the transcendentals with their flags (R198). -/
def exp2Val (x : FVal) : FVal × Word :=
  match x with
  | .nan sig => (.nan false, flagIf sig flagNV)
  | .zero _ => (.fin false 1 0, 0#64)
  | .inf false => (.inf false, 0#64)
  | .inf true => (.zero false, 0#64)
  | .fin neg m e => (exp2Fin neg m e, 0#64)
def rcpVal (x : FVal) : FVal × Word := (FVal.fin false 1 0).div x
def rsqrtVal (x : FVal) : FVal × Word :=
  match x with
  | .nan sig => (.nan false, flagIf sig flagNV)
  | .zero n => (.inf n, flagDZ)
  | .inf false => (.zero false, 0#64)
  | .inf true => (.nan false, flagNV)
  | .fin true _ _ => (.nan false, flagNV)
  | .fin false m e =>
    let odd : Nat := if e % 2 = 0 then 0 else 1
    let q := m * 2 ^ odd
    let n := 2 ^ 240 / q
    let r := isqrt n 121 0
    (.fin false (2 * r + (if r * r * q = 2 ^ 240 then 0 else 1)) (-((e - odd) / 2) - 121), 0#64)

/-- A transcendental (R198, R199): 30 cycles on a barrel core, at once on a master. -/
def State.vlong (s : State) (t : LaneTy) (k d a : VReg) (f : FVal → FVal × Word) : State :=
  let x := lanesOf t (s.v a)
  let r := mapLanes t.width t.lanes (s.k k) (s.v d) (fun i => laneRound t .rne (f (laneVal t (lane x i))))
  if s.ag.role = .master then s.vresult d r
  else (s.setWait (.long (s.pkg.cycle + 30) (.vec d r.1 r.2))).advance 4

def execVexp2 (t : LaneTy) (k d a : VReg) (s : State) : Out := .next (s.vlong t k d a exp2Val)
def execVrcp (t : LaneTy) (k d a : VReg) (s : State) : Out := .next (s.vlong t k d a rcpVal)
def execVrsqrt (t : LaneTy) (k d a : VReg) (s : State) : Out := .next (s.vlong t k d a rsqrtVal)

/-- Lane moves (R200). -/
def execVbcast (t : LaneTy) (g : Reg) (k d : VReg) (s : State) : Out :=
  .next (s.vmap3 t k d d d (fun _ _ _ => ((s.g g).toNat % 2 ^ t.width, 0#64)))
def execVmovg (t : LaneTy) (g : Reg) (l : BitVec 6) (a : VReg) (s : State) : Out :=
  let x := lane (lanesOf t (s.v a)) l.toNat
  .next (s.result g (if t.isFloat then BitVec.ofNat 64 x else BitVec.ofInt 64 (sx x t.width)))
def execVins (t : LaneTy) (g : Reg) (l : BitVec 6) (d : VReg) (s : State) : Out :=
  let r := (lanesOf t (s.v d)).set l.toNat ((s.g g).toNat % 2 ^ t.width)
  .next (s.vresult d (ofLanes t.width r, 0#64))
def execVperm (t : LaneTy) (k d a b : VReg) (s : State) : Out :=
  let x := lanesOf t (s.v a)
  .next (s.vmap3 t k d a b (fun _ i _ => (lane x (i % t.lanes), 0#64)))

/-- Vector loads and stores (R201): with no active lane nothing is checked. -/
def execVld (t : LaneTy) (g : Reg) (k d : VReg) (s : State) : Out :=
  .next (if s.k k = 0#16 then s.advance 4 else s.access (.vload t k d []) (s.g g) 4)
def execVst (t : LaneTy) (g : Reg) (k d : VReg) (s : State) : Out :=
  .next (if s.k k = 0#16 then s.advance 4 else s.access (.vstore t k d 0) (s.g g) 4)

/-- The watch tests of every active lane's address (R366): the lowest lane that hits; PASS skips all of them. -/
def State.laneWatch (s : State) : List (Nat × Word) → Option Word × State
  | [] => (none, s)
  | (i, va) :: t => ((((i, va) :: t).find? (fun x => (s.watchpoint x.2).1)).map (fun x => x.2), (s.watchpoint va).2)

/-- What `vldx` and `vstx` share (R202): the context, the watch tests, the checks, the streaming accesses to the same
dwords, which a local store performs at once, and the accesses of the lanes. -/
def State.laneAccess (s : State) (f : Form) (op : MemOp) (base : Word) (k b : VReg) : State :=
  if s.ag.role = .master then s.raiseCause 0x0C#8
  else
    let addrs := s.laneAddrs base k b
    match s.laneWatch addrs with
    | (some va, t) => t.raise { cause := 0xA2#8, addr := va }
    | (none, t) =>
      match t.laneCells f addrs with
      | .error e => t.raise e
      | .ok [] => t.advance 4
      | .ok (c :: cells) =>
        let u := t.settle (fun x => (c :: cells).any (fun y => x.touches (.cell y.2 none) 4)) t.ag.nb.length
        if (c :: cells).any (fun y => u.looseAt (.cell y.2 none) 4) then s.yieldTurn u 1
        else u.finish op base (.cell c.2 none) 4 (u.effect (u.share.getD 16) op base (.cell c.2 none) 4)

/-- `vldx` and `vstx` (R202): lanes perform in ascending order. -/
def execVldx (_ : LaneTy) (g : Reg) (k d b : VReg) (s : State) : Out :=
  .next (s.laneAccess .load (.gather b k d []) (s.g g) k b)
def execVstx (_ : LaneTy) (g : Reg) (k d b : VReg) (s : State) : Out :=
  .next (s.laneAccess .store (.scatter b k d 0) (s.g g) k b)

/-- Mask operations (R203). -/
def execKand (d a b : VReg) (s : State) : Out := .next ((s.setK d (s.k a &&& s.k b)).advance 4)
def execKor (d a b : VReg) (s : State) : Out := .next ((s.setK d (s.k a ||| s.k b)).advance 4)
def execKxor (d a b : VReg) (s : State) : Out := .next ((s.setK d (s.k a ^^^ s.k b)).advance 4)
def execKnot (d a : VReg) (s : State) : Out := .next ((s.setK d (~~~s.k a)).advance 4)
def execKpop (g : Reg) (a : VReg) (s : State) : Out :=
  .next (s.result g (BitVec.ofNat 64 ((List.range 16).filter (maskBit (s.k a))).length))
def execKmovToMask (d : VReg) (g : Reg) (s : State) : Out := .next ((s.setK d ((s.g g).setWidth 16)).advance 4)
def execKmovFromMask (g : Reg) (a : VReg) (s : State) : Out := .next (s.result g ((s.k a).zeroExtend 64))

end Sys2Proof.Machine
end

