-- ==== Sys2Proof/Machine/Dispatch.lean ====
section
/-! DEFINITION. The meaning of every row of spec/opcode_table.json: one direct call per constructor. -/

namespace Sys2Proof.Machine

/-- The step a row of the table stands for. -/
def exec (i : Instr) (s : State) : Host.Outcome State Fault Refusal :=
  match i with
  | .add d a b => Sys2Proof.Machine.execAdd d a b s
  | .sub d a b => Sys2Proof.Machine.execSub d a b s
  | .and d a b => Sys2Proof.Machine.execAnd d a b s
  | .or d a b => Sys2Proof.Machine.execOr d a b s
  | .xor d a b => Sys2Proof.Machine.execXor d a b s
  | .andn d a b => Sys2Proof.Machine.execAndn d a b s
  | .orn d a b => Sys2Proof.Machine.execOrn d a b s
  | .sll d a b => Sys2Proof.Machine.execSll d a b s
  | .srl d a b => Sys2Proof.Machine.execSrl d a b s
  | .sra d a b => Sys2Proof.Machine.execSra d a b s
  | .rol d a b => Sys2Proof.Machine.execRol d a b s
  | .ror d a b => Sys2Proof.Machine.execRor d a b s
  | .slt d a b => Sys2Proof.Machine.execSlt d a b s
  | .sltu d a b => Sys2Proof.Machine.execSltu d a b s
  | .min d a b => Sys2Proof.Machine.execMin d a b s
  | .max d a b => Sys2Proof.Machine.execMax d a b s
  | .minu d a b => Sys2Proof.Machine.execMinu d a b s
  | .maxu d a b => Sys2Proof.Machine.execMaxu d a b s
  | .sel d a b => Sys2Proof.Machine.execSel d a b s
  | .mul d a b => Sys2Proof.Machine.execMul d a b s
  | .mulxs d a b => Sys2Proof.Machine.execMulxs d a b s
  | .mulxu d a b => Sys2Proof.Machine.execMulxu d a b s
  | .mulxm d a b => Sys2Proof.Machine.execMulxm d a b s
  | .div d a b => Sys2Proof.Machine.execDiv d a b s
  | .divu d a b => Sys2Proof.Machine.execDivu d a b s
  | .rem d a b => Sys2Proof.Machine.execRem d a b s
  | .remu d a b => Sys2Proof.Machine.execRemu d a b s
  | .clz d a => Sys2Proof.Machine.execClz d a s
  | .ctz d a => Sys2Proof.Machine.execCtz d a s
  | .popc d a => Sys2Proof.Machine.execPopc d a s
  | .bswap d a => Sys2Proof.Machine.execBswap d a s
  | .sextb d a => Sys2Proof.Machine.execSextb d a s
  | .sexth d a => Sys2Proof.Machine.execSexth d a s
  | .sextw d a => Sys2Proof.Machine.execSextw d a s
  | .zextb d a => Sys2Proof.Machine.execZextb d a s
  | .zexth d a => Sys2Proof.Machine.execZexth d a s
  | .zextw d a => Sys2Proof.Machine.execZextw d a s
  | .bfx d a lsb lenm1 => Sys2Proof.Machine.execBfx d a lsb lenm1 s
  | .bfxu d a lsb lenm1 => Sys2Proof.Machine.execBfxu d a lsb lenm1 s
  | .bfi d a lsb lenm1 => Sys2Proof.Machine.execBfi d a lsb lenm1 s
  | .addi d a imm => Sys2Proof.Machine.execAddi d a imm s
  | .andi d a imm => Sys2Proof.Machine.execAndi d a imm s
  | .ori d a imm => Sys2Proof.Machine.execOri d a imm s
  | .xori d a imm => Sys2Proof.Machine.execXori d a imm s
  | .slti d a imm => Sys2Proof.Machine.execSlti d a imm s
  | .sltiu d a imm => Sys2Proof.Machine.execSltiu d a imm s
  | .slli d a sh => Sys2Proof.Machine.execSlli d a sh s
  | .srli d a sh => Sys2Proof.Machine.execSrli d a sh s
  | .srai d a sh => Sys2Proof.Machine.execSrai d a sh s
  | .lui d imm => Sys2Proof.Machine.execLui d imm s
  | .lpc d imm => Sys2Proof.Machine.execLpc d imm s
  | .xset n a => Sys2Proof.Machine.execXset n a s
  | .xget d n => Sys2Proof.Machine.execXget d n s
  | .xli n c imm => Sys2Proof.Machine.execXli n c imm s
  | .ldb d a imm => Sys2Proof.Machine.execLdb d a imm s
  | .ldbu d a imm => Sys2Proof.Machine.execLdbu d a imm s
  | .ldh d a imm => Sys2Proof.Machine.execLdh d a imm s
  | .ldhu d a imm => Sys2Proof.Machine.execLdhu d a imm s
  | .ldw d a imm => Sys2Proof.Machine.execLdw d a imm s
  | .ldwu d a imm => Sys2Proof.Machine.execLdwu d a imm s
  | .ldd d a imm => Sys2Proof.Machine.execLdd d a imm s
  | .stb s_ a imm => Sys2Proof.Machine.execStb s_ a imm s
  | .sth s_ a imm => Sys2Proof.Machine.execSth s_ a imm s
  | .stw s_ a imm => Sys2Proof.Machine.execStw s_ a imm s
  | .std s_ a imm => Sys2Proof.Machine.execStd s_ a imm s
  | .ldwNb d a b off => Sys2Proof.Machine.execLdwNb d a b off s
  | .lddNb d a b off => Sys2Proof.Machine.execLddNb d a b off s
  | .stwNb d a b off => Sys2Proof.Machine.execStwNb d a b off s
  | .stdNb d a b off => Sys2Proof.Machine.execStdNb d a b off s
  | .ldfe d a b off => Sys2Proof.Machine.execLdfe d a b off s
  | .ldff d a b off => Sys2Proof.Machine.execLdff d a b off s
  | .stfe d a b off => Sys2Proof.Machine.execStfe d a b off s
  | .stff d a b off => Sys2Proof.Machine.execStff d a b off s
  | .feclr a b off => Sys2Proof.Machine.execFeclr a b off s
  | .feset a b off => Sys2Proof.Machine.execFeset a b off s
  | .fetst d a b off => Sys2Proof.Machine.execFetst d a b off s
  | .psm d a b => Sys2Proof.Machine.execPsm d a b s
  | .amoadd d a b => Sys2Proof.Machine.execAmoadd d a b s
  | .amoswap d a b => Sys2Proof.Machine.execAmoswap d a b s
  | .amocas d a b => Sys2Proof.Machine.execAmocas d a b s
  | .amomin d a b => Sys2Proof.Machine.execAmomin d a b s
  | .amomax d a b => Sys2Proof.Machine.execAmomax d a b s
  | .amominu d a b => Sys2Proof.Machine.execAmominu d a b s
  | .amomaxu d a b => Sys2Proof.Machine.execAmomaxu d a b s
  | .amoand d a b => Sys2Proof.Machine.execAmoand d a b s
  | .amoor d a b => Sys2Proof.Machine.execAmoor d a b s
  | .amoxor d a b => Sys2Proof.Machine.execAmoxor d a b s
  | .amofadd d a b => Sys2Proof.Machine.execAmofadd d a b s
  | .waitc nl ns nc nt => Sys2Proof.Machine.execWaitc nl ns nc nt s
  | .fence => Sys2Proof.Machine.execFence s
  | .mwaitEq a b => Sys2Proof.Machine.execMwaitEq a b s
  | .mwaitGe a b => Sys2Proof.Machine.execMwaitGe a b s
  | .mwaitNe a b => Sys2Proof.Machine.execMwaitNe a b s
  | .sleep a => Sys2Proof.Machine.execSleep a s
  | .beq a b off => Sys2Proof.Machine.execBeq a b off s
  | .bne a b off => Sys2Proof.Machine.execBne a b off s
  | .blt a b off => Sys2Proof.Machine.execBlt a b off s
  | .bge a b off => Sys2Proof.Machine.execBge a b off s
  | .bltu a b off => Sys2Proof.Machine.execBltu a b off s
  | .bgeu a b off => Sys2Proof.Machine.execBgeu a b off s
  | .jal d off => Sys2Proof.Machine.execJal d off s
  | .jalr d a imm => Sys2Proof.Machine.execJalr d a imm s
  | .spawn t a b => Sys2Proof.Machine.execSpawn t a b s
  | .join => Sys2Proof.Machine.execJoin s
  | .spawnn t a b => Sys2Proof.Machine.execSpawnn t a b s
  | .next => Sys2Proof.Machine.execNext s
  | .ps d n => Sys2Proof.Machine.execPs d n s
  | .psset n a => Sys2Proof.Machine.execPsset n a s
  | .psget d n => Sys2Proof.Machine.execPsget d n s
  | .cancel => Sys2Proof.Machine.execCancel s
  | .fbsave => Sys2Proof.Machine.execFbsave s
  | .fbload a => Sys2Proof.Machine.execFbload a s
  | .fbret a => Sys2Proof.Machine.execFbret a s
  | .cppost n a => Sys2Proof.Machine.execCppost n a s
  | .cpprom d n => Sys2Proof.Machine.execCpprom d n s
  | .cpwait p s_ q => Sys2Proof.Machine.execCpwait p s_ q s
  | .tkpost t l => Sys2Proof.Machine.execTkpost t l s
  | .tkstat d a b => Sys2Proof.Machine.execTkstat d a b s
  | .mspost d a => Sys2Proof.Machine.execMspost d a s
  | .colpost d a b => Sys2Proof.Machine.execColpost d a b s
  | .fadd p d a b => Sys2Proof.Machine.execFadd p d a b s
  | .fsub p d a b => Sys2Proof.Machine.execFsub p d a b s
  | .fmul p d a b => Sys2Proof.Machine.execFmul p d a b s
  | .fdiv p d a b => Sys2Proof.Machine.execFdiv p d a b s
  | .fsqrt p d a => Sys2Proof.Machine.execFsqrt p d a s
  | .fmin p d a b => Sys2Proof.Machine.execFmin p d a b s
  | .fmax p d a b => Sys2Proof.Machine.execFmax p d a b s
  | .fma p d a b => Sys2Proof.Machine.execFma p d a b s
  | .fcmpeq p d a b => Sys2Proof.Machine.execFcmpeq p d a b s
  | .fcmplt p d a b => Sys2Proof.Machine.execFcmplt p d a b s
  | .fcmple p d a b => Sys2Proof.Machine.execFcmple p d a b s
  | .fkind p d a => Sys2Proof.Machine.execFkind p d a s
  | .fcvt c d a => Sys2Proof.Machine.execFcvt c d a s
  | .vadd v t k d a b => Sys2Proof.Machine.execVadd v t k d a b s
  | .vsub v t k d a b => Sys2Proof.Machine.execVsub v t k d a b s
  | .vmul v t k d a b => Sys2Proof.Machine.execVmul v t k d a b s
  | .vfma v t k d a b => Sys2Proof.Machine.execVfma v t k d a b s
  | .vmin v t k d a b => Sys2Proof.Machine.execVmin v t k d a b s
  | .vmax v t k d a b => Sys2Proof.Machine.execVmax v t k d a b s
  | .vabs v t k d a => Sys2Proof.Machine.execVabs v t k d a s
  | .vneg v t k d a => Sys2Proof.Machine.execVneg v t k d a s
  | .vand t k d a b => Sys2Proof.Machine.execVand t k d a b s
  | .vor t k d a b => Sys2Proof.Machine.execVor t k d a b s
  | .vxor t k d a b => Sys2Proof.Machine.execVxor t k d a b s
  | .vsll t k d a b => Sys2Proof.Machine.execVsll t k d a b s
  | .vsrl t k d a b => Sys2Proof.Machine.execVsrl t k d a b s
  | .vsra t k d a b => Sys2Proof.Machine.execVsra t k d a b s
  | .vcmp c t k d a b => Sys2Proof.Machine.execVcmp c t k d a b s
  | .vsel t k d a b => Sys2Proof.Machine.execVsel t k d a b s
  | .vcvt toLane f t k d a p => Sys2Proof.Machine.execVcvt toLane f t k d a p s
  | .vpack4 d a p => Sys2Proof.Machine.execVpack4 d a p s
  | .vunpack4 signed d a p => Sys2Proof.Machine.execVunpack4 signed d a p s
  | .vpack6 d a => Sys2Proof.Machine.execVpack6 d a s
  | .vunpack6 d a => Sys2Proof.Machine.execVunpack6 d a s
  | .vredsum v t k d a => Sys2Proof.Machine.execVredsum v t k d a s
  | .vredmax v t k d a => Sys2Proof.Machine.execVredmax v t k d a s
  | .vexp2 t k d a => Sys2Proof.Machine.execVexp2 t k d a s
  | .vrcp t k d a => Sys2Proof.Machine.execVrcp t k d a s
  | .vrsqrt t k d a => Sys2Proof.Machine.execVrsqrt t k d a s
  | .vbcast t g k d => Sys2Proof.Machine.execVbcast t g k d s
  | .vmovg t g lane a => Sys2Proof.Machine.execVmovg t g lane a s
  | .vins t g lane d => Sys2Proof.Machine.execVins t g lane d s
  | .vperm t k d a b => Sys2Proof.Machine.execVperm t k d a b s
  | .vld t g k d => Sys2Proof.Machine.execVld t g k d s
  | .vst t g k d => Sys2Proof.Machine.execVst t g k d s
  | .vldx t g k d b => Sys2Proof.Machine.execVldx t g k d b s
  | .vstx t g k d b => Sys2Proof.Machine.execVstx t g k d b s
  | .kand d a b => Sys2Proof.Machine.execKand d a b s
  | .kor d a b => Sys2Proof.Machine.execKor d a b s
  | .kxor d a b => Sys2Proof.Machine.execKxor d a b s
  | .knot d a => Sys2Proof.Machine.execKnot d a s
  | .kpop g a => Sys2Proof.Machine.execKpop g a s
  | .kmovToMask d g => Sys2Proof.Machine.execKmovToMask d g s
  | .kmovFromMask g a => Sys2Proof.Machine.execKmovFromMask g a s
  | .mfs d n => Sys2Proof.Machine.execMfs d n s
  | .mts n a => Sys2Proof.Machine.execMts n a s
  | .sys n => Sys2Proof.Machine.execSys n s
  | .brk n => Sys2Proof.Machine.execBrk n s
  | .sret => Sys2Proof.Machine.execSret s
  | .tlbinv a b => Sys2Proof.Machine.execTlbinv a b s
  | .slspill a b => Sys2Proof.Machine.execSlspill a b s
  | .slload a b => Sys2Proof.Machine.execSlload a b s
  | .slstop a => Sys2Proof.Machine.execSlstop a s
  | .slgo a => Sys2Proof.Machine.execSlgo a s
  | .halt => Sys2Proof.Machine.execHalt s
  | .idle => Sys2Proof.Machine.execIdle s
  | .cMv d a => Sys2Proof.Machine.execCMv d a s
  | .cAdd d a => Sys2Proof.Machine.execCAdd d a s
  | .cSub d a => Sys2Proof.Machine.execCSub d a s
  | .cAnd d a => Sys2Proof.Machine.execCAnd d a s
  | .cOr d a => Sys2Proof.Machine.execCOr d a s
  | .cXor d a => Sys2Proof.Machine.execCXor d a s
  | .cAddi d imm => Sys2Proof.Machine.execCAddi d imm s
  | .cLi d imm => Sys2Proof.Machine.execCLi d imm s
  | .cSlli d sh => Sys2Proof.Machine.execCSlli d sh s
  | .cSrli d sh => Sys2Proof.Machine.execCSrli d sh s
  | .cSrai d sh => Sys2Proof.Machine.execCSrai d sh s
  | .cLdd d b off => Sys2Proof.Machine.execCLdd d b off s
  | .cStd s_ b off => Sys2Proof.Machine.execCStd s_ b off s
  | .cBz a off => Sys2Proof.Machine.execCBz a off s
  | .cBnz a off => Sys2Proof.Machine.execCBnz a off s
  | .cJ off => Sys2Proof.Machine.execCJ off s
  | .cJr a => Sys2Proof.Machine.execCJr a s
  | .cNext => Sys2Proof.Machine.execCNext s
  | .cPs d n => Sys2Proof.Machine.execCPs d n s
  | .cNop => Sys2Proof.Machine.execCNop s
  | .illegalEncoding cause => Sys2Proof.Machine.execIllegalEncoding cause s
  | .rotationTurn die core => Sys2Proof.Machine.execRotationTurn die core s
  | .slotDraw agent => Sys2Proof.Machine.execSlotDraw agent s
  | .spawnBroadcast die master => Sys2Proof.Machine.execSpawnBroadcast die master s
  | .chunkRequest die master => Sys2Proof.Machine.execChunkRequest die master s
  | .psWindow spawn => Sys2Proof.Machine.execPsWindow spawn s
  | .psResult agent => Sys2Proof.Machine.execPsResult agent s
  | .basinRefill die => Sys2Proof.Machine.execBasinRefill die s
  | .joinRetire agent => Sys2Proof.Machine.execJoinRetire agent s
  | .nextDrainComplete agent => Sys2Proof.Machine.execNextDrainComplete agent s
  | .longLatencyResult agent => Sys2Proof.Machine.execLongLatencyResult agent s
  | .memoryRequestAtHome agent => Sys2Proof.Machine.execMemoryRequestAtHome agent s
  | .loadReply agent => Sys2Proof.Machine.execLoadReply agent s
  | .streamingAccessPerform agent index => Sys2Proof.Machine.execStreamingAccessPerform agent index s
  | .idleWake agent => Sys2Proof.Machine.execIdleWake agent s
  | .mwaitPoll agent => Sys2Proof.Machine.execMwaitPoll agent s
  | .watchLimit agent => Sys2Proof.Machine.execWatchLimit agent s
  | .sleepWake agent => Sys2Proof.Machine.execSleepWake agent s
  | .waitcComplete agent => Sys2Proof.Machine.execWaitcComplete agent s
  | .fenceComplete agent => Sys2Proof.Machine.execFenceComplete agent s
  | .leaseExpiry master line => Sys2Proof.Machine.execLeaseExpiry master line s
  | .trapRecordPost => Sys2Proof.Machine.execTrapRecordPost s
  | .deferredSupervisorSave agent => Sys2Proof.Machine.execDeferredSupervisorSave agent s
  | .conduitTake die core => Sys2Proof.Machine.execConduitTake die core s
  | .promiseRevision die core seq => Sys2Proof.Machine.execPromiseRevision die core seq s
  | .denseCopy die core seq => Sys2Proof.Machine.execDenseCopy die core seq s
  | .gather die core seq => Sys2Proof.Machine.execGather die core seq s
  | .scatter die core seq => Sys2Proof.Machine.execScatter die core seq s
  | .pooledGather die core seq => Sys2Proof.Machine.execPooledGather die core seq s
  | .rowReplace die core seq => Sys2Proof.Machine.execRowReplace die core seq s
  | .versionWaitWake die core seq => Sys2Proof.Machine.execVersionWaitWake die core seq s
  | .copyResume die core seq => Sys2Proof.Machine.execCopyResume die core seq s
  | .copyCompletion die core => Sys2Proof.Machine.execCopyCompletion die core s
  | .taskDispatch die => Sys2Proof.Machine.execTaskDispatch die s
  | .aclr die list => Sys2Proof.Machine.execAclr die list s
  | .mma die handle => Sys2Proof.Machine.execMma die handle s
  | .applyBlock die handle row => Sys2Proof.Machine.execApplyBlock die handle row s
  | .exponentMessage die handle row => Sys2Proof.Machine.execExponentMessage die handle row s
  | .rdout die handle => Sys2Proof.Machine.execRdout die handle s
  | .asave die handle => Sys2Proof.Machine.execAsave die handle s
  | .aload die list => Sys2Proof.Machine.execAload die list s
  | .afree die handle => Sys2Proof.Machine.execAfree die handle s
  | .groupWatchdog die handle => Sys2Proof.Machine.execGroupWatchdog die handle s
  | .taskResume die handle => Sys2Proof.Machine.execTaskResume die handle s
  | .taskCompletion die list => Sys2Proof.Machine.execTaskCompletion die list s
  | .msRequestStart die stack => Sys2Proof.Machine.execMsRequestStart die stack s
  | .msReduce die stack => Sys2Proof.Machine.execMsReduce die stack s
  | .msFill die stack => Sys2Proof.Machine.execMsFill die stack s
  | .msCopy die stack => Sys2Proof.Machine.execMsCopy die stack s
  | .msFeInit die stack => Sys2Proof.Machine.execMsFeInit die stack s
  | .msResume die stack => Sys2Proof.Machine.execMsResume die stack s
  | .msCompletion die stack => Sys2Proof.Machine.execMsCompletion die stack s
  | .collectiveInstanceStart handle peers => Sys2Proof.Machine.execCollectiveInstanceStart handle peers s
  | .colDenseAllreduce handle => Sys2Proof.Machine.execColDenseAllreduce handle s
  | .colSparseAllreduce handle => Sys2Proof.Machine.execColSparseAllreduce handle s
  | .colBroadcast handle => Sys2Proof.Machine.execColBroadcast handle s
  | .colAllGather handle => Sys2Proof.Machine.execColAllGather handle s
  | .colResume handle => Sys2Proof.Machine.execColResume handle s
  | .colCompletion handle => Sys2Proof.Machine.execColCompletion handle s
  | .colAbort handle => Sys2Proof.Machine.execColAbort handle s
  | .graphUpload value => Sys2Proof.Machine.execGraphUpload value s
  | .runTrigger value => Sys2Proof.Machine.execRunTrigger value s
  | .runCancel value => Sys2Proof.Machine.execRunCancel value s
  | .runStart => Sys2Proof.Machine.execRunStart s
  | .nodeStart => Sys2Proof.Machine.execNodeStart s
  | .nodeCompletion run node => Sys2Proof.Machine.execNodeCompletion run node s
  | .lvlcmdCancel => Sys2Proof.Machine.execLvlcmdCancel s
  | .commCreate addr => Sys2Proof.Machine.execCommCreate addr s
  | .commEnd addr => Sys2Proof.Machine.execCommEnd addr s
  | .pageWalk va kind => Sys2Proof.Machine.execPageWalk va kind s
  | .atsTranslationResponse port pasid page answer => Sys2Proof.Machine.execAtsTranslationResponse port pasid page answer s
  | .priResponse port pasid page answer => Sys2Proof.Machine.execPriResponse port pasid page answer s
  | .priTimeout port pasid page => Sys2Proof.Machine.execPriTimeout port pasid page s
  | .atsInvalidation port pasid page pages => Sys2Proof.Machine.execAtsInvalidation port pasid page pages s
  | .invalidationCompletion port => Sys2Proof.Machine.execInvalidationCompletion port s
  | .hostReadCompletion agent bad => Sys2Proof.Machine.execHostReadCompletion agent bad s
  | .formatWindowArm stack window => Sys2Proof.Machine.execFormatWindowArm stack window s
  | .formatWindowDisarm stack window => Sys2Proof.Machine.execFormatWindowDisarm stack window s
  | .dirtyLogEpochFlip epoch => Sys2Proof.Machine.execDirtyLogEpochFlip epoch s
  | .jobSuspend => Sys2Proof.Machine.execJobSuspend s
  | .virtualDieRemap vdie pdie => Sys2Proof.Machine.execVirtualDieRemap vdie pdie s
  | .jobRestore => Sys2Proof.Machine.execJobRestore s
  | .patrolScrub codeword finding => Sys2Proof.Machine.execPatrolScrub codeword finding s
  | .agentStateUe agent => Sys2Proof.Machine.execAgentStateUe agent s
  | .flitReceive link seq crcOk isVoid payload => Sys2Proof.Machine.execFlitReceive link seq crcOk isVoid payload s
  | .nackReceive link seq copyOk => Sys2Proof.Machine.execNackReceive link seq copyOk s
  | .linkWindowRebuild link => Sys2Proof.Machine.execLinkWindowRebuild link s
  | .transactionRetry agent => Sys2Proof.Machine.execTransactionRetry agent s
  | .dedupExpiry ident => Sys2Proof.Machine.execDedupExpiry ident s
  | .hostPortDown port => Sys2Proof.Machine.execHostPortDown port s
  | .scaleUpPortLaneLoss port lost => Sys2Proof.Machine.execScaleUpPortLaneLoss port lost s
  | .memberPackageLost handle rank => Sys2Proof.Machine.execMemberPackageLost handle rank s
  | .segmentDeliveryFailure handle => Sys2Proof.Machine.execSegmentDeliveryFailure handle s
  | .blockRateLimit block => Sys2Proof.Machine.execBlockRateLimit block s
  | .dieGate pdie => Sys2Proof.Machine.execDieGate pdie s
  | .dieWake pdie => Sys2Proof.Machine.execDieWake pdie s
  | .pseudoChannelRetire stack channel => Sys2Proof.Machine.execPseudoChannelRetire stack channel s
  | .linkLaneRecalibrate link lane => Sys2Proof.Machine.execLinkLaneRecalibrate link lane s
  | .blockFirmwareUpdate block image signed => Sys2Proof.Machine.execBlockFirmwareUpdate block image signed s
  | .dieOutOfService pdie => Sys2Proof.Machine.execDieOutOfService pdie s
  | .obsCounterClear pdie core => Sys2Proof.Machine.execObsCounterClear pdie core s
  | .debugStop agent => Sys2Proof.Machine.execDebugStop agent s
  | .debugResume agent => Sys2Proof.Machine.execDebugResume agent s
  | .debugStep agent => Sys2Proof.Machine.execDebugStep agent s
  | .debugRelease agent => Sys2Proof.Machine.execDebugRelease agent s
  | .watchPass agent => Sys2Proof.Machine.execWatchPass agent s
  | .snapshotRequest cycle => Sys2Proof.Machine.execSnapshotRequest cycle s
  | .snapshotLatch => Sys2Proof.Machine.execSnapshotLatch s
  | .sillageHoldRelease agent => Sys2Proof.Machine.execSillageHoldRelease agent s
  | .packageReset => Sys2Proof.Machine.execPackageReset s
  | .bootImageAck die ack => Sys2Proof.Machine.execBootImageAck die ack s
  | .gxoLoad file => Sys2Proof.Machine.execGxoLoad file s
  | .i3cDynamicAddress addr => Sys2Proof.Machine.execI3cDynamicAddress addr s
  | .i3cGetstatus => Sys2Proof.Machine.execI3cGetstatus s
  | .mgmtMailboxCommand command => Sys2Proof.Machine.execMgmtMailboxCommand command s
  | .registerWrite pa value => Sys2Proof.Machine.execRegisterWrite pa value s
  | .cpwaitPromiseReached agent => Sys2Proof.Machine.execCpwaitPromiseReached agent s
  | .acknowledgementReceive link seq => Sys2Proof.Machine.execAcknowledgementReceive link seq s
  | .blockRateRestore block => Sys2Proof.Machine.execBlockRateRestore block s
  | .jobSaveAbandon => Sys2Proof.Machine.execJobSaveAbandon s
  | .jobStart number dies entry states => Sys2Proof.Machine.execJobStart number dies entry states s
  | .jobEnd => Sys2Proof.Machine.execJobEnd s

end Sys2Proof.Machine
end

