-- ==== Sys2Proof/Machine/Issue.lean ====
section
/-! DEFINITION. Issue of an instruction by the agent in focus: fetch (05_encoding_registers_assembly.md R122;
02_memory_and_ordering.md R51, R67), decode (R129, R130), the registers streaming loads still owe
(07_memory_sync_swarm_instructions.md R161, R162), the turn's class (01_execution_model.md R34), and the trace of an issue
(19_observation_debug.md R363). -/

namespace Sys2Proof.Machine

/-- The g registers an instruction reads or writes. -/
def regsOf : Instr → List Reg
  | .add d a b | .sub d a b | .and d a b | .or d a b | .xor d a b | .andn d a b | .orn d a b | .sll d a b
  | .srl d a b | .sra d a b | .rol d a b | .ror d a b | .slt d a b | .sltu d a b | .min d a b | .max d a b
  | .minu d a b | .maxu d a b | .sel d a b | .mul d a b | .mulxs d a b | .mulxu d a b | .mulxm d a b
  | .div d a b | .divu d a b | .rem d a b | .remu d a b | .ldwNb d a b _ | .lddNb d a b _ | .stwNb d a b _
  | .stdNb d a b _ | .ldfe d a b _ | .ldff d a b _ | .stfe d a b _ | .stff d a b _ | .fetst d a b _
  | .psm d a b | .amoadd d a b | .amoswap d a b | .amocas d a b | .amomin d a b | .amomax d a b
  | .amominu d a b | .amomaxu d a b | .amoand d a b | .amoor d a b | .amoxor d a b | .amofadd d a b
  | .tkstat d a b | .colpost d a b | .fadd _ d a b | .fsub _ d a b | .fmul _ d a b | .fdiv _ d a b
  | .fmin _ d a b | .fmax _ d a b | .fma _ d a b | .fcmpeq _ d a b | .fcmplt _ d a b | .fcmple _ d a b => [d, a, b]
  | .clz d a | .ctz d a | .popc d a | .bswap d a | .sextb d a | .sexth d a | .sextw d a | .zextb d a
  | .zexth d a | .zextw d a | .bfx d a _ _ | .bfxu d a _ _ | .bfi d a _ _ | .addi d a _ | .andi d a _
  | .ori d a _ | .xori d a _ | .slti d a _ | .sltiu d a _ | .slli d a _ | .srli d a _ | .srai d a _
  | .ldb d a _ | .ldbu d a _ | .ldh d a _ | .ldhu d a _ | .ldw d a _ | .ldwu d a _ | .ldd d a _ | .jalr d a _
  | .mspost d a | .fsqrt _ d a | .fkind _ d a | .fcvt _ d a | .cMv d a | .cAdd d a | .cSub d a | .cAnd d a
  | .cOr d a | .cXor d a => [d, a]
  | .lui d _ | .lpc d _ | .xget d _ | .jal d _ | .ps d _ | .psget d _ | .cpprom d _ | .mfs d _ | .cAddi d _
  | .cLi d _ | .cSlli d _ | .cSrli d _ | .cSrai d _ => [d]
  | .xset _ a | .sleep a | .psset _ a | .fbload a | .fbret a | .cppost _ a | .mts _ a | .slstop a | .slgo a
  | .cJr a => [a]
  | .stb s a _ | .sth s a _ | .stw s a _ | .std s a _ => [s, a]
  | .feclr a b _ | .feset a b _ | .mwaitEq a b | .mwaitGe a b | .mwaitNe a b | .beq a b _ | .bne a b _
  | .blt a b _ | .bge a b _ | .bltu a b _ | .bgeu a b _ | .tlbinv a b | .slspill a b | .slload a b => [a, b]
  | .spawn t a b | .spawnn t a b => [t, a, b] ++ (List.range 23).map (fun i => BitVec.ofNat 5 (i + 1))
  | .cpwait p s q => [p, s, q]
  | .tkpost t l => [t, l]
  | .vbcast _ g _ _ | .vmovg _ g _ _ | .vins _ g _ _ | .vld _ g _ _ | .vst _ g _ _ | .vldx _ g _ _ _
  | .vstx _ g _ _ _ | .kpop g _ | .kmovToMask _ g | .kmovFromMask g _ => [g]
  | .cLdd d b _ => [creg d, creg b]
  | .cStd s b _ => [creg s, creg b]
  | .cBz a _ | .cBnz a _ => [creg a]
  | .cPs d _ => [creg d]
  | _ => []

/-- What a fetch gives: a parcel, a cause with the state its walk leaves (R306), or nothing yet because the die that holds it
sleeps (R356). -/
inductive Fetched where
  | parcel (s : State) (x : Nat)
  | trap (s : State) (t : Trap)
  | asleep

/-- One parcel of the instruction at pc (R122). A fetch is checked as one (R51, R53); what a poisoned dword gives a fetch
the manual does not say: the parcel is a free value. -/
def State.fetchParcel (s : State) (va : Word) : Fetched :=
  match s.check s.ag.priv .fetch va 2 with
  | .error t => .trap (s.afterDenied s.ag.priv .fetch va) t
  | .ok (t, .cell a h) =>
    if t.asleep (.cell a h) then .asleep
    else if t.poisoned a then .parcel { t with free := t.free + 1 } ((Config.freeValue t.free).toNat % 2 ^ 16)
    else .parcel t (t.readNat a 2)
  | .ok (t, _) => .trap t (fault1 .fetch 6 0 va)

/-- The instruction at pc: the second parcel is fetched when bit 0 of the first is 1 (R122). -/
def State.fetch (s : State) : Fetched :=
  match s.fetchParcel s.ag.pc with
  | .parcel t x =>
    if x % 2 = 0 then .parcel t x
    else
      match t.fetchParcel (s.ag.pc + 2#64) with
      | .parcel u y => .parcel u (x + y * 2 ^ 16)
      | r => r
  | r => r

/-- The row a fetched word stands for: its instruction, or the raising of its class-0 cause. -/
def rowOf (w : Nat) : Instr :=
  match decodeParcels (w % 2 ^ 16) (w / 2 ^ 16) with
  | .ok i => i
  | .error c => .illegalEncoding c

/-- The data address of an instruction, the lowest active lane's for a vector access (R363). -/
def State.dataAddress (s : State) (i : Instr) : Option Word :=
  match i with
  | .ldb _ a m | .ldbu _ a m | .ldh _ a m | .ldhu _ a m | .ldw _ a m | .ldwu _ a m | .ldd _ a m
  | .stb _ a m | .sth _ a m | .stw _ a m | .std _ a m => some (s.eaImm a m)
  | .ldwNb _ a b o | .lddNb _ a b o | .stwNb _ a b o | .stdNb _ a b o | .ldfe _ a b o | .ldff _ a b o | .stfe _ a b o
  | .stff _ a b o | .feclr a b o | .feset a b o | .fetst _ a b o => some (s.eaIdx a b o)
  | .psm _ a _ | .amoadd _ a _ | .amoswap _ a _ | .amocas _ a _ | .amomin _ a _ | .amomax _ a _ | .amominu _ a _
  | .amomaxu _ a _ | .amoand _ a _ | .amoor _ a _ | .amoxor _ a _ | .amofadd _ a _ | .mwaitEq a _ | .mwaitGe a _
  | .mwaitNe a _ => some (s.g a)
  | .vld t g k _ | .vst t g k _ =>
    ((List.range t.lanes).find? (fun i => maskBit (s.k k) (i * t.width / 32))).map
      (fun i => s.g g + BitVec.ofNat 64 (i * t.width / 8))
  | .vldx _ g k _ b | .vstx _ g k _ b => (s.laneAddrs (s.g g) k b).head?.map (fun x => x.2)
  | .cLdd _ b o | .cStd _ b o => some (s.eaC (creg b) o)
  | .cppost n _ => some (s.mailboxVa n.toNat)
  | .cpprom _ n => some (s.replyVa n.toNat)
  | .cpwait _ a _ | .mspost _ a | .colpost _ a _ => some (s.g a)
  | _ => none

/-- The target of a branch that is taken or of a jump (R143, R144, R363). -/
def State.takenTarget (s : State) (i : Instr) : Option Word :=
  let iff (b : Bool) (x : Word) : Option Word := if b then some x else none
  match i with
  | .beq a b o => iff (s.g a = s.g b) (s.target15 o)
  | .bne a b o => iff (s.g a ≠ s.g b) (s.target15 o)
  | .blt a b o => iff (sltW (s.g a) (s.g b)) (s.target15 o)
  | .bge a b o => iff (!sltW (s.g a) (s.g b)) (s.target15 o)
  | .bltu a b o => iff ((s.g a).toNat < (s.g b).toNat) (s.target15 o)
  | .bgeu a b o => iff ((s.g b).toNat ≤ (s.g a).toNat) (s.target15 o)
  | .jal _ o => some (s.target20 o)
  | .jalr _ a m => iff ((s.eaImm a m).toNat % 2 = 0) (s.eaImm a m)
  | .cBz a o => iff (s.g (creg a) = 0#64) (s.target7 o)
  | .cBnz a o => iff (s.g (creg a) ≠ 0#64) (s.target7 o)
  | .cJ o => some (s.target10 o)
  | .cJr a => iff ((s.g a).toNat % 2 = 0) (s.g a)
  | _ => none

/-- The trace records of an issue: TYPE 0, then 2 or 1 (R363). -/
def State.traceIssue (s : State) (i : Instr) : State :=
  let t := s.trace 0 0 s.ag.pc 0#64
  let u := match s.dataAddress i with | some x => t.trace 2 0 s.ag.pc x | none => t
  match s.takenTarget i with | some x => u.trace 1 0 s.ag.pc x | none => u

/-- An agent has issued one more of the instructions a cause that is owed waits for (log entry 86). -/
def Owed.acted (o : Owed) (a : Nat) : Owed :=
  { o with waiters := o.waiters.map (fun w => if w.agent = a then { w with left := w.left - 1 } else w) }

/-- The turn at this cycle issued (R34, R360); a step of a debugger is used up (R362). A post sent again (R349) is no further issue: its
slot is not ready on message. -/
def State.issued (s : State) : State :=
  let t := if isMasterId s.agId then s
    else if s.transaction.isSome then s.countTurns 2 1
    else (s.countTurns 0 1).countRotation s.pkg.cycle
  let v := { t.setAccounted t.agId (t.pkg.cycle + 1) with ag := { t.ag with aborted := none, forfeits := 0 } }
  let u := ({ v with job := { v.job with owing := v.job.owing.map (fun o => o.acted v.agId) } } : State).setTransaction none
  if t.ag.stepping then (({ u with ag := { u.ag with dbgStopped := false } }).showStops).clearDstop else u

/-- A streaming load that owes one of an instruction's registers. -/
def Streaming.owes (x : Streaming) (rs : List Reg) : Bool := !x.isStore && x.dest ≠ 0#5 && rs.contains x.dest

/-- The agent in focus at a turn: the turns before it accounted for, an instruction that did not issue ready again. -/
def State.atTurn (s : State) : State :=
  let t := s.account s.pkg.cycle
  { t with offered := false, ag := { t.ag with wait := match t.ag.wait with | .again _ | .page .. => .ready | w => w } }

/-- What comes of an offered turn: an instruction to execute, or a state in which none was executed. -/
inductive Prepared where
  | go (i : Instr) (s : State)
  | stop (s : State)

/-- Whether an instruction that names registers fails test 7 or 8 of R130 in the agent in focus: its privilege (R328) or its context
(R15, R202). -/
def State.refusedFirst (s : State) (i : Instr) : Bool :=
  match i with
  | .tlbinv .. | .slspill .. | .slload .. | .slstop .. | .slgo .. => s.ag.priv = .user
  | .spawn .. | .psset .. | .psget .. => s.inSlot
  | .spawnn .. | .ps .. | .cPs .. | .fbload .. | .fbret .. | .cppost .. | .cpprom .. | .cpwait .. | .tkpost .. | .vldx .. | .vstx .. =>
    !s.inSlot
  | _ => false

/-- A turn offered to the agent in focus (R34, R122, R130): the streaming loads that owe the instruction's registers perform
first, and one that failed is reported before it issues (R161, R162), after the tests of R130. A fetch from the local store of a gated
die calls for it (R356). -/
def State.prepare (s : State) : Prepared :=
  match s.atTurn.fetch with
  | .trap t c => .stop (t.issued.raise c)
  | .asleep => .stop ((s.atTurn.callDie (s.job.pdie (field s.ag.pc.toNat 25 4))).loseTurn 1)
  | .parcel t w =>
    let owed (x : Streaming) : Bool := x.owes (if t.refusedFirst (rowOf w) then [] else regsOf (rowOf w))
    let u := t.settle owed t.ag.nb.length
    if (u.firstStreaming owed).isSome then .stop (u.loseTurn 1)
    else
      match u.failedStreaming owed with
      | some c => .stop ((u.issued.dropFailed owed).raise c)
      | none => .go (rowOf w) u

/-- The class of the turn an instruction gave up: it did not issue (R34, R161). -/
def State.gaveUp (s : State) : Option Nat :=
  match s.ag.wait with
  | .again c => some c
  | .page .. => some 1
  | _ => none

/-- The state in which an instruction executes once it issues: traced, but not when its post is only sent again. -/
def State.issues (s : State) (i : Instr) : State := if s.transaction.isSome then s.issued else s.issued.traceIssue i

/-- An offered turn taken: the instruction issues and executes. One that gives its turn up has not issued, and the turn is lost
in its class. -/
def State.takeTurn (s : State) : Out :=
  match s.prepare with
  | .stop t => .next t
  | .go i t =>
    match exec i (t.issues i) with
    | .next u =>
      if u.gaveUp.isSome then
        match exec i t with
        | .next v => .next (v.loseTurn (v.gaveUp.getD 1))
        | r => r
      else .next u.dropDrain
    | r => r

/-- The virtual die a post of an instruction goes to, if it makes one: a tile task's scheduler, the stack of a memory-side request's
destination (R222, R234). -/
def State.postsTo (s : State) (i : Instr) : Option Nat :=
  match i with
  | .tkpost t l =>
    let die := (s.g l).toNat / 64
    if s.inSlot && ownRecord s.agId (s.g t) && die < s.job.dies_n then some die else none
  | .mspost _ a =>
    match s.readBlock (s.g a) with
    | .ok t ws =>
      match t.checkDestination (ws.getD 1 0#64) with
      | .ok (_, key) => some (key / 2)
      | .error _ => none
    | _ => none
  | _ => none

/-- The post that the agent in focus makes at its turn, to another die, is lost on its way (R349): its reply is awaited, and after 2^18
cycles it is sent again. -/
def State.postLost (s : State) : Option State :=
  if !s.hasTurn || !s.canIssue then none
  else
    match s.prepare with
    | .stop _ => none
    | .go i t =>
      match t.postsTo i with
      | none => none
      | some v =>
        let x : Transaction := t.transaction.getD { agent := t.slotPlace t.agId, sent := t.pkg.cycle, retries := 0 }
        if v = vdieOf t.agId then none
        else some (((t.issues i).setTransaction (some { x with sent := t.pkg.cycle })).setWait .lost)

/-- Turns in a row a slot's access to its local store may lose to bank arbitration (R54). -/
def forfeitLimit : Nat := 3

/-- A turn of a slot forfeited (R36, R54, R66): its access to its own local store loses its bank, which happens at most three
times in a row, or a streaming load that owes a register of the instruction at pc has not performed. Who contends for the
bank is not modelled: log entry 96. -/
def State.forfeit (s : State) : Option State :=
  if isMasterId s.agId || !s.hasTurn || !s.canIssue then none
  else
    match s.atTurn.fetch with
    | .parcel t w =>
      let own (va : Word) : Bool := inWindow va && field va.toNat 18 11 = coreKey t.agId
      if (t.firstStreaming (fun x => x.owes (regsOf (rowOf w)))).isSome then some (t.loseTurn 1)
      else if (t.dataAddress (rowOf w)).any own && t.ag.forfeits < forfeitLimit then
        some (({ t with ag := { t.ag with forfeits := t.ag.forfeits + 1 } }).loseTurn 1)
      else none
    | _ => none

end Sys2Proof.Machine
end

