-- ==== Sys2Proof/Machine/Schedule.lean ====
section
/-! DEFINITION. What moves next (01_execution_model.md R34, R37; 15_work_hierarchy_scheduling.md R298). The schedule in
the state, `agenda`, names the moves in the order they come; it may name any order the manual allows. What the manual times
(a turn, a landing, a bound) comes at its cycle whatever the schedule names next. While the schedule is empty the machine
takes one allowed order: a step that is due, else the earliest turn or the cycle at which time alone brings a step about,
whichever comes first, else the passing of a cycle. -/

namespace Sys2Proof.Machine

/-- Whether a row may stand in the schedule: a step of the machine, in range, but for the raising of a class-0 cause, which
only a fetched word brings about (R129). -/
def schedulable (i : Instr) : Bool :=
  i.wf && (i.size == 0) && (match i with | .illegalEncoding _ => false | _ => true)

/-- A turn offered to an agent (R34): it issues at this cycle, ends if its level was cancelled (R45), or sees the record
its `idle` waits for (R330). -/
def State.offer (s : State) (a : Nat) : Option State :=
  let t := s.focus a
  if !t.hasTurn then none
  else if t.canEnd then some t.endTurn
  else if t.ag.wait = .idle && t.job.queued ≠ 0 then some t.idleTurn
  else if t.canIssue then some { t with offered := true }
  else none

/-- Steps an agent's wait, streaming accesses and stops may lead to. -/
def Agent.rows (a : Nat) (x : Agent) : List (State → Option State) :=
  (match x.wait with
    | .ready | .again _ | .page .. | .idle | .halt => []
    | .lost => [tryTransactionRetry a]
    | .request .. => [tryMemoryRequestAtHome a, trySillageHoldRelease a]
    | .reply .. => [tryLoadReply a]
    | .park .. => [tryLoadReply a, tryIdleWake a, trySillageHoldRelease a]
    | .watch .. => [tryLoadReply a, tryMwaitPoll a, tryWatchLimit a]
    | .long .. => [tryLongLatencyResult a]
    | .ps => [tryPsResult a, tryTransactionRetry a]
    | .sleep _ => [trySleepWake a]
    | .cpwait .. => [tryCpwaitPromiseReached a]
    | .waitc .. => [tryWaitcComplete a]
    | .fence | .fbsave | .sysExit => [tryFenceComplete a]
    | .join => [tryJoinRetire a]
    | .next _ => [tryNextDrainComplete a]
    | .room .. => [fun s => s.roomMade a]) ++
  ((x.nb.zipIdx.filter (fun y => !y.1.performed)).map (fun y => tryStreamingAccessPerform a y.2)) ++
  (if x.nb = [] then [] else [trySillageHoldRelease a]) ++
  (if x.deferred.isSome then [tryDeferredSupervisorSave a] else []) ++
  (if x.stepping && !x.dbgStopped then [tryDebugStep a] else [])

/-- Steps of streaming accesses that ended units left behind (R45). -/
def State.looseRows (s : State) : List (State → Option State) :=
  ((s.job.loose.map (fun l => l.agent)).dedup).flatMap (fun a =>
    (List.range (s.job.looseOf a).length).map (fun i => tryStreamingAccessPerform a ((s.agent a).nb.length + i)) ++
      [trySillageHoldRelease a])

/-- Steps of the swarm (R19, R20, R28, R31). -/
def State.swarmRows (s : State) : List (State → Option State) :=
  let dies := List.range s.job.dies_n
  let tops := s.job.spawns.filter (fun x => x.2.root == x.1)
  tops.flatMap (fun x => dies.map (fun d => trySpawnBroadcast d (masterIndex x.2.master))) ++
    s.job.dies.flatMap (fun d => d.2.entries.map (fun e => tryChunkRequest d.1 e.1)) ++
    tops.map (fun x => tryPsWindow x.1) ++ s.job.dies.map (fun d => tryBasinRefill d.1) ++
    s.job.casts.map (fun c => tryCastRetry c.spawn c.die)

/-- The cycle of an agent's next turn (R34): a slot's own, a master's next; a unit that was drawn has none to issue before its
second (R22). -/
def State.turnOf (s : State) (a : Nat) : Nat :=
  let lo := max (max s.pkg.cycle (s.accounted a)) (if (s.agent a).ending then 0 else (s.agent a).notBefore)
  if isMasterId a then lo else lo + (slotOf a + 16 - lo % 16) % 16

/-- Vacant slots of a die that have something to draw (R43), each with the cycle of its turn (R23). -/
def State.drawTurns (s : State) (die : Nat) : List (Nat × (State → Option State)) :=
  ((List.range 2048).filter (fun i =>
    let t := s.focus (die * 2048 + i)
    i % 16 < 15 && t.mayDraw && t.hasWork)).map (fun i => (s.turnOf (die * 2048 + i), trySlotDraw (die * 2048 + i)))

/-- Whether anything is to be drawn on a die. -/
def State.dieWork (s : State) (die : Nat) : Bool :=
  s.job.ready.any (fun r => r.core / 128 == die) || (s.job.again die).isSome || !((s.job.die die).basin ++ (s.job.die die).spilled).isEmpty ||
    (s.job.die die).entries.any (fun e => s.job.drawable e.2)

/-- Steps of the conduits and copies (R207-R221). -/
def State.copyRows (s : State) : List (State → Option State) :=
  s.job.conduits.flatMap (fun c =>
    let d := c.1 / 128
    let k := c.1 % 128
    tryCopyCompletion d k :: c.2.copies.flatMap (fun x =>
      [tryCopyResume d k x.seq, tryVersionWaitWake d k x.seq, tryPromiseRevision d k x.seq, tryDenseCopy d k x.seq,
       tryGather d k x.seq, tryScatter d k x.seq, tryPooledGather d k x.seq, tryRowReplace d k x.seq]))

/-- Steps of the tile engines (R105-R114, R229-R231). -/
def State.tileRows (s : State) : List (State → Option State) :=
  s.job.tiles.flatMap (fun t =>
    let d := t.1
    let lists := (t.2.tasks.map (fun x => x.list)).dedup
    let handles := (t.2.tasks.map (fun x => taskHandle x.record)).dedup
    lists.flatMap (fun l => [tryTaskCompletion d l, tryAclr d l, tryAload d l]) ++
      t.2.accs.flatMap (fun a =>
        [tryMma d a.1] ++
          (List.range a.2.rows.length).flatMap (fun r => [tryExponentMessage d a.1 r, tryApplyBlock d a.1 r]) ++
          [tryRdout d a.1, tryAsave d a.1, tryAfree d a.1, tryGroupWatchdog d a.1]) ++
      handles.map (fun h => tryTaskResume d h) ++ [tryTaskDispatch d])

/-- Steps of the memory-side engines (R236, R237, R298, R308). -/
def State.memSideRows (s : State) : List (State → Option State) :=
  s.job.msEngines.flatMap (fun m =>
    let d := m.1 / 2
    let k := m.1 % 2
    [tryMsCompletion d k, tryMsResume d k, tryMsReduce d k, tryMsFill d k, tryMsCopy d k, tryMsFeInit d k,
     tryMsRequestStart d k])

/-- Steps of the collectives (R244-R248); the peers' posts come from outside, but for a communicator of one rank. -/
def State.collectiveRows (s : State) : List (State → Option State) :=
  s.job.comms.flatMap (fun c =>
    [tryColCompletion c.1, tryColAbort c.1, tryColResume c.1, tryColDenseAllreduce c.1, tryColSparseAllreduce c.1,
     tryColBroadcast c.1, tryColAllGather c.1] ++ (if c.2.size = 1 then [tryCollectiveInstanceStart c.1 []] else [])) ++
  s.job.commands.flatMap (fun va => [tryCommCreate va, tryCommEnd va])

/-- Steps of the graph scheduler (R289-R292, R298). -/
def State.graphRows (s : State) : List (State → Option State) :=
  s.job.runs.flatMap (fun r => (List.range r.nodes.length).map (fun n => tryNodeCompletion r.id n)) ++ [tryRunStart, tryNodeStart]

/-- Whether an access on its way, a fetch or a draw waits for a gated die (R356). -/
def State.callsDie (s : State) (die : Nat) : Bool :=
  s.allAgents.any (fun x =>
    (match x.2.wait with
      | .request _ _ (.cell a _) _ _ => isLocal a && (a - lsBase) / 2 ^ 25 = die
      | _ => false) ||
    (x.2.occupied && inWindow x.2.pc && s.job.pdie (field x.2.pc.toNat 25 4) = die)) ||
    s.job.ready.any (fun r => s.job.pdie (r.core / 128) = die)

/-- A late write of an engine performs (R69), after those of its request to the same dword (R216); a gated die wakes for it. -/
def State.lateOut (s : State) (i : Nat) : Option State :=
  match s.job.late[i]? with
  | none => none
  | some x =>
    if !s.live || x.behind (s.job.late.take i) then none
    else
      let t := if s.asleep (.cell x.cell x.home) then s.wakeFor (.cell x.cell x.home) else s
      some (({ t with job := { t.job with late := t.job.late.eraseIdx i } }).doWrite x)

/-- A record of a core's trace buffer reaches the ring (R364). -/
def State.traceRow (block : Nat) (s : State) : Option State :=
  match s.traceOut block with
  | some t => some t
  | none => none

/-- A cause that a request owes enters containment. -/
def State.owedRow (i : Nat) (s : State) : Option State :=
  match s.live, s.raiseOwed i with
  | true, some t => some t
  | _, _ => none

/-- Steps of engines' late writes, of trace buffers, of an upload that was suspended (R69, R287, R364). -/
def State.laterRows (s : State) : List (State → Option State) :=
  (List.range s.job.late.length).map (fun i t => t.lateOut i) ++ s.pkg.traces.map (fun x => State.traceRow x.1) ++
    (s.job.owing.zipIdx.filter (fun o => s.owedComes o.1)).map (fun o => State.owedRow o.2) ++
    (if s.job.upload.isSome then [tryUploadResume] else [])

/-- Steps that may be due, in the order they are tried. -/
def State.rows (s : State) : List (State → Option State) :=
  s.laterRows ++ s.looseRows ++
    s.allAgents.flatMap (fun x => Agent.rows x.1 x.2) ++
    (if s.job.records.isEmpty then [] else [tryTrapRecordPost]) ++
    s.copyRows ++ s.tileRows ++ s.memSideRows ++ s.collectiveRows ++ s.swarmRows ++ s.graphRows ++
    (if s.job.status = .halting then [tryJobSuspend] else []) ++ (s.pkg.gated.filter s.callsDie).map (fun d => tryDieWake d) ++
    (if s.pkg.boot.step < 6 then [tryBootStep] else [])

/-- Whether a step is offered and changes something. -/
def State.due (s : State) (f : State → Option State) : Bool := (f s).any (fun t => decide (t ≠ s))

/-- The state at a cycle: time does not go back. -/
def State.atCycle (s : State) (c : Nat) : State := { s with pkg := { s.pkg with cycle := max s.pkg.cycle c } }

/-- Whether an agent has a use for its turn. -/
def State.wantsTurn (s : State) (a : Nat) : Bool :=
  let t := s.focus a
  t.live && (t.canEnd || (t.ag.wait = .idle && t.job.queued ≠ 0) || t.canIssue)

/-- Cores of the job with a full mailbox (R207). -/
def State.fullMailboxes (s : State) : List Nat :=
  (s.fe.filterMap (fun d =>
    let a := 8 * d
    if isLocal a && 0x3_E000 ≤ a % 2 ^ 18 && a % 2 ^ 18 < 0x3_E020 then
      (s.job.vdie ((a - lsBase) / 2 ^ 25)).map (fun v => v * 128 + (a - lsBase) / 2 ^ 18 % 128)
    else none)).dedup

/-- The earlier of two timed moves. -/
def earlier (x y : Nat × (State → Option State)) : Nat × (State → Option State) := if y.1 < x.1 then y else x

/-- Turns of agents that will come, each with its cycle. -/
def State.agentTurns (s : State) (masters : Bool) : List (Nat × (State → Option State)) :=
  (s.allAgents.filter (fun x => isMasterId x.1 == masters && (s.atCycle (s.turnOf x.1)).wantsTurn x.1)).map
    (fun x => (s.turnOf x.1, fun t => t.offer x.1))

/-- Turns of conduits with a mailbox to take. -/
def State.conduitTurns (s : State) : List (Nat × (State → Option State)) :=
  (s.fullMailboxes.filter (fun k => s.working && (s.job.conduit k).copies.length < 64)).map
    (fun k => (s.turnOf (16 * k + 15), tryConduitTake (k / 128) (k % 128)))

/-- The first turn of an agent at or after a cycle that has not been taken. -/
def State.turnFrom (s : State) (a c : Nat) : Nat :=
  let lo := max (max c s.pkg.cycle) (s.accounted a)
  if isMasterId a then lo else lo + (slotOf a + 16 - lo % 16) % 16

/-- The cycle at which an agent's wait ends by time alone (R145, R171), or with its turn (R210), or by which its lanes have performed
(R202), and the step that ends it. -/
def State.waitEnds (s : State) (a : Nat) (w : Wait) : Option (Nat × (State → Option State)) :=
  match w with
  | .long d _ => some (d, tryLongLatencyResult a)
  | .sleep c => some (c.toNat, trySleepWake a)
  | .cpwait _ _ c => some (s.turnFrom a c.toNat, tryCpwaitPromiseReached a)
  | .request (.gather ..) _ _ _ c | .request (.scatter ..) _ _ _ c => some (c + 15, tryMemoryRequestAtHome a)
  | _ => none

/-- Cycles after its `spawn` at which a spawn has reached each awake die, and each gated one (R19). -/
def broadcastBound (gated : Bool) : Nat := if gated then 18400 else 400

/-- Broadcasts that have yet to reach a die, with the cycle by which they do (R19): one whose message was lost counts from when it was
sent again, and nothing bounds it while it is lost or its path repairs (R351). -/
def State.broadcastTimes (s : State) : List (Nat × (State → Option State)) :=
  if s.pkg.links.any (fun l => !l.2.resend.isEmpty || !l.2.nacks.isEmpty) then []
  else
    (s.job.spawns.filter (fun x => x.2.root == x.1 && x.2.ended.isNone)).flatMap (fun x =>
      ((s.job.unreached (masterIndex x.2.master) x.1).filter (fun d => !s.job.castLost x.1 d)).map (fun d =>
        let sent := ((s.job.casts.find? (fun c => c.spawn == x.1 && c.die == d)).map (fun c => c.sent)).getD x.2.since
        (sent + broadcastBound (s.pkg.gated.contains (s.job.pdie d)), trySpawnBroadcast d (masterIndex x.2.master))))

/-- What an agent waits for, with the cycle at which it comes: the end of a wait, the retry of a request without a reply (R349), a
debugger's stop once the agent is at a boundary (R362). -/
def State.agentTimes (s : State) (a : Nat) (x : Agent) : List (Nat × (State → Option State)) :=
  (s.waitEnds a x.wait).toList ++
    ((s.focus a).unanswered.map (fun r => (r.sent + 2 ^ 18, tryTransactionRetry a))).toList ++
    (if s.stopWanted a then [(s.pkg.cycle, tryDebugStop a)] else [])

/-- When a parked operation is tried by itself (R164); at once where its dword is empty and a replay that held it lets it go (R371). -/
def State.parkedTime (s : State) (p : Parked) : Nat × (State → Option State) :=
  (if s.released p then s.pkg.cycle else p.tried + 65536, tryIdleWake p.agent)

/-- Waits, polls, retries, limits and revisions of the job in focus that come at a cycle of their own (R28, R105, R145, R164, R170,
R171, R202, R208, R210, R349, R362). -/
def State.waitTimes (s : State) : List (Nat × (State → Option State)) :=
  s.allAgents.flatMap (fun x => s.agentTimes x.1 x.2) ++
    (s.job.psRequests.filter (fun r => r.lost.isNone)).map (fun r => (r.due, tryPsResult r.agent)) ++
    (s.job.parked.filter (fun p => p.ended.isNone)).map s.parkedTime ++
    (s.job.armed.filter (fun w => w.ended.isNone)).flatMap (fun w =>
      (w.since + 2 ^ 32 - w.before, tryWatchLimit w.agent) ::
        (if w.polling then [(w.polled + 1024, tryMwaitPoll w.agent)] else [])) ++
    s.job.conduits.flatMap (fun c => (c.2.copies.filter (fun x => x.promise < 2 ^ 64 - 1)).map (fun x =>
      (x.promise, tryPromiseRevision (c.1 / 128) (c.1 % 128) x.seq))) ++
    s.job.tiles.flatMap (fun t => (t.2.accs.filter (fun a => s.groupWaits t.1 a.2)).map (fun a =>
      (s.pkg.cycle + (2 ^ 24 - s.watchCount t.1 a.2), tryGroupWatchdog t.1 a.1))) ++
    (s.job.casts.filter (fun c => c.lost)).map (fun c => (c.sent + 2 ^ 18, tryCastRetry c.spawn c.die))

/-- Moves of the package that come at a cycle of their own: a page request that nobody has answered (R315), the waking of a die that has
been called for (R356), a snapshot (R367). -/
def State.packageTimes (s : State) : List (Nat × (State → Option State)) :=
  (List.range 4).flatMap (fun port => (s.pkg.sent port).map (fun r => (r.since + 2 ^ 32, tryPriTimeout r.port r.pasid r.page))) ++
    (s.pkg.calls.filter (fun c => s.pkg.gated.contains c.1)).map (fun c => (c.2 + 18000, tryDieWake c.1)) ++
    (s.pkg.snapshot.map (fun c => (c, trySnapshotLatch))).toList

/-- Moves of the job in focus that come at a cycle the manual fixes: turns of slots that are ready (R46) or vacant with work
to draw (R23), the ends of waits, the bounds of a broadcast. -/
def State.jobTimes (s : State) : List (Nat × (State → Option State)) :=
  s.agentTurns false ++ ((List.range s.job.dies_n).filter s.dieWork).flatMap s.drawTurns ++ s.waitTimes ++ s.broadcastTimes

/-- The same of every job, and of the package. -/
def State.times (s : State) : List (Nat × (State → Option State)) :=
  s.jobTimes ++
    s.jobs.flatMap (fun j => (s.focusJob j.1).jobTimes.map (fun x => (x.1, fun t => x.2 (t.focusJob j.1)))) ++
    s.packageTimes

/-- The earliest of some timed moves. -/
def earliest : List (Nat × (State → Option State)) → Option (Nat × (State → Option State))
  | [] => none
  | x :: t => some (t.foldl earlier x)

/-- The next move that comes at its cycle whatever the schedule names. -/
def State.must (s : State) : Option (Nat × (State → Option State)) := earliest (s.times.filter (fun x => (x.2 (s.atCycle x.1)).isSome))

/-- Cycles at which the time alone brings a further step about: the close of a prefix-sum window (R28), a cause owed, the release of a
held write (R371). -/
def State.dueCycles (s : State) : List Nat :=
  (s.job.psRequests.filter (fun r => r.value.isNone)).map (fun r => 16 * (r.window + 1)) ++
    s.job.owing.map (fun o => o.since + 2 ^ 20) ++
    s.job.parked.map (fun p => p.tried + 2 ^ 24) ++
    s.job.loose.map (fun l => l.access.since + 2 ^ 24) ++
    s.allAgents.flatMap (fun x =>
      x.2.nb.map (fun y => y.since + 2 ^ 24) ++ (match x.2.wait with
        | .request _ _ _ _ c => [16 * (c / 16 + 1), c + 2 ^ 24]
        | _ => []))

/-- The next of them. -/
def State.nextDue (s : State) : Option Nat := (s.dueCycles.filter (fun c => s.pkg.cycle < c)).min?

/-- The machine's own choice while the schedule is empty: a cycle, and the move made at it, if there is one. -/
def State.choose (s : State) : Nat × Option (State → Option State) :=
  match s.rows.find? s.due with
  | some f => (s.pkg.cycle, some f)
  | none =>
    match earliest (s.must.toList ++ s.agentTurns true ++ s.conduitTurns), s.nextDue with
    | none, none => (s.pkg.cycle + 1, none)
    | none, some d => (d, none)
    | some x, d => if d.any (fun c => c < x.1) then (d.getD x.1, none) else (x.1, some x.2)

/-- Whether a request is in hand, begun after what it depends on (R68), whose source dwords the engine may read at any instant of its
own (R69): one that follows no version protocol (R218). -/
def Job.reading (j : Job) (request : Nat) : Bool :=
  j.conduits.any (fun c => c.2.copies.any (fun x =>
    (x.by_ c.1).request == request && !x.unread && x.status.isNone && !copyVer x.record)) ||
  j.tiles.any (fun t => t.2.tasks.any (fun x => (x.by_ t.1).request == request && x.dispatched && x.state = 3)) ||
  j.msEngines.any (fun m => m.2.requests.any (fun r => (r.by_ m.1).request == request && r.started && r.status.isNone)) ||
  j.comms.any (fun c => c.2.instances.any (fun i => (i.by_ c.1).request == request && i.started && i.completed = 0))

/-- A source dword read ahead of the step that takes the rest of its chunk (R69). -/
def State.readEarly (s : State) (request chunk cell : Nat) : Option State :=
  if s.live && s.job.reading request && !(s.job.early.any (fun e => e.request == request && e.chunk == chunk && e.dword == cell / 8)) then
    some { s with job := { s.job with early := s.job.early ++
      [{ request := request, chunk := chunk, dword := cell / 8, value := s.readNat (cell / 8 * 8) 8, bad := s.poisoned cell }] } }
  else none

/-- The number that firmware's own agent has while it acts on a job (R280): that of no slot or master. -/
def firmwareId : Nat := 2 ^ 17

/-- What firmware does as an agent at F, which may do everything a supervisor may (R280), on the job `fjob` names: its effect, once it
is complete or while it is reissued; what would raise a cause has none. DESIGN CHOICE: log entry 118. -/
def State.asFirmware (s : State) (f : State → State) : Option State :=
  let t := s.focusJob s.pkg.fjob
  let u := f { t.focus firmwareId with ag := { Agent.vacant with role := .master, priv := .firmware, occupied := true } }
  let back := u.focus t.agId
  let v : State := { back with job := { back.job with agents := remove firmwareId back.job.agents } }
  if t.job.status = .absent || (u.ag.pc = 0#64 && u.ag.wait ≠ .again 1) then none else some (v.focusJob s.jobNo)

/-- Firmware's load and store of memory of that job (R280), under its translation. -/
def State.firmwareLoad (s : State) (va : Word) (size : Nat) : Option State :=
  let t := s.focusJob s.pkg.fjob
  if t.job.status = .absent || !([1, 2, 4, 8].contains size) then none
  else
    match t.check .firmware .load va size with
    | .error _ => none
    | .ok (u, loc) =>
      match u.readAt loc size with
      | some (.ok x, w) => some (({ w with pkg := { w.pkg with fwValue := BitVec.ofNat 64 x } } : State).focusJob s.jobNo)
      | _ => none
def State.firmwareStore (s : State) (va : Word) (size : Nat) (v : Word) : Option State :=
  let t := s.focusJob s.pkg.fjob
  if t.job.status = .absent || !([1, 2, 4, 8].contains size) then none
  else
    match t.check .firmware .store va size with
    | .error _ => none
    | .ok (u, loc) =>
      match u.writeAt (engineWriter 0) loc size v.toNat with
      | some (.ok w) => some (w.focusJob s.jobNo)
      | _ => none

/-- What comes from outside a job or the package. -/
def State.enter (s : State) (x : Input) : Option State :=
  match x with
  | .stateWrite n v => some (s.firmwareWrite n v)
  | .stateRead n => some { s with pkg := { s.pkg with fwValue := s.firmwareRead n } }
  | .deviceLoad pa => some (s.loadDevice pa)
  | .recordRead a i => (s.readStopped a i)
  | .recordWrite a i v => (s.writeStopped a i v)
  | .memoryLoad va size => (s.firmwareLoad va size)
  | .memoryStore va size v => (s.firmwareStore va size v)
  | .slotSpill entry slot => (s.asFirmware (fun t => t.spillSlot entry slot))
  | .slotLoad entry sel => (s.asFirmware (fun t => t.loadSlot entry sel))
  | .slotStop slot => (s.asFirmware (fun t => t.stopSlot slot))
  | .slotGo slot => (s.asFirmware (fun t => t.goSlot slot))
  | .invalidate a b => (s.asFirmware (fun t => t.invalidate a b))
  | .psDelayed a k => (s.delayPs a k)
  | .psLost a => (s.losePs a)
  | .castLost id die => (s.castLost id die)
  | .jobPage off size v => s.writeJobPage off size v
  | .wordError cell home unc => some (s.wordError cell home unc)
  | .panelError die e => some (s.panelError die e)
  | .rowError die h row => some (s.rowError die h row)
  | .spawnError id => (s.spawnError id)
  | .hostDword cell bad => if hostBase ≤ cell then some (s.setPoison cell bad) else none
  | .streamingLost a i => ((s.focus a).streamingLost i)
  | .postLost a => ((s.focus a).postLost)
  | .requestLost kind handle number => (s.requestLost kind handle number)
  | .flashError sec copy => some (s.failFlash sec copy)
  | .placeImage v role => (s.placeImage v role)
  | .portRead off n => some (s.portRead off n)
  | .portWrite off bytes => some (s.portWrite off bytes)
  | .mailboxReport bytes => some (s.portWrite 16 bytes)
  | .writerError die core seq =>
    ((s.job.copy? (die * 128 + core) seq).bind (fun c => s.writerFails (die * 128 + core) c))

/-- A move that is no row of the table, if the state offers it. -/
def State.makeOther (s : State) (m : Move) : Option State :=
  match m with
  | .row _ | .part _ _ => none
  | .turn a => s.offer a
  | .share a n => ({ s with share := some n }).offer a
  | .forfeit a => (s.focus a).forfeit
  | .room a => s.roomMade a
  | .owed i => s.owedRow i
  | .traceOut core => s.traceRow core
  | .earlyRead request chunk cell => s.readEarly request chunk cell
  | .earlyBag die core seq b => (s.earlyBag die core seq b)
  | .lateWrite i => s.lateOut i
  | .upload => tryUploadResume s
  | .boot => tryBootStep s
  | .input x => s.enter x

/-- A move made. One that the state does not offer does not come about. -/
def State.make (s : State) (m : Move) : Out :=
  match m with
  | .row i => if schedulable i then exec i s else .fault .illFormed
  | .part i n => if schedulable i then exec i { s with share := some n } else .fault .illFormed
  | _ => passing s (s.makeOther m)

/-- The schedule's next move, or one whose cycle comes before it. -/
def State.scheduled (s : State) (p : Pending) (rest : List Pending) : Out :=
  match s.must with
  | some (c, f) =>
    if c < p.at_ then passing (s.atCycle c) (f (s.atCycle c))
    else ((({ s with agenda := rest } : State).atCycle p.at_).focusJob p.job).make p.move
  | none => ((({ s with agenda := rest } : State).atCycle p.at_).focusJob p.job).make p.move

/-- The next move made: a turn already offered, the schedule's, or the machine's own. -/
def State.move (s0 : State) : Out :=
  if s0.offered then (if s0.canIssue then s0.takeTurn else .next { s0 with offered := false })
  else
    let s : State := { s0 with share := none }
    match s.agenda with
    | p :: rest => s.scheduled p rest
    | [] =>
      match s.choose with
      | (c, some f) => passing (s.atCycle c) (f (s.atCycle c))
      | (c, none) => .next (s.atCycle c)

/-- Where the fetch of the agent in focus finds byte o of the local store of core 0 (R52). -/
def codeVa : Word := 0x00FF_FF00_0000_0000#64

/-- The agent that executes a placed instruction: the supervisor where only it may, a master's node where only a master
may, else a unit. -/
def placedAgent (w : Nat) : Nat × Agent :=
  let a : Agent := { Agent.vacant with occupied := true, pc := codeVa }
  match rowOf w with
  | .sret | .tlbinv .. | .slspill .. | .slload .. | .slstop .. | .slgo .. | .halt | .idle =>
    (steward, { a with role := .master, priv := .supervisor })
  | .spawn .. | .join | .psset .. | .psget .. => (masterId 1, { a with role := .master })
  | _ => (0, a)

/-- The state with an instruction's bytes placed where the next step fetches: job 0 running on one die, the agent in
place and its turn offered. -/
def State.withCode (s : State) (w : Nat) : State :=
  let p := placedAgent w
  { s with
    ag := p.2, agId := p.1, jobNo := 0, jobs := []
    job := { Job.absent with status := .running, vdcount := 1#64 }
    mem := Memory.writeNat lsBase 4 w s.mem
    poison := eraseNat (lsBase / 8) s.poison
    agenda := [], offered := true, share := none }

end Sys2Proof.Machine
end

