-- ==== Sys2Proof/Machine/Step.lean ====
section
/-! DEFINITION. One step of the machine, and an instruction placed where the next step fetches it. -/

namespace Sys2Proof.Machine

/-- One step: next state, fault or refusal. -/
def step (s : State) : Host.Outcome State Fault Refusal := s.move

/-- The state with the opcode table's bits `w` of a row `nbits` wide placed where the next step fetches. -/
def State.withFetchWord (s : State) (_nbits w : Nat) : State := s.withCode w

end Sys2Proof.Machine
end

