-- ==== Sys2Proof/Safety.lean ====
section
/-! DEFINITION. The terms in which claims about the machine are stated: what an instruction completes with, and frames
that say what it leaves as it was. -/

namespace Sys2Proof.Machine

/-- The instruction's own effect happens: a next state, of which `P` holds. -/
def Completes (i : Instr) (s : State) (P : State → Prop) : Prop := ∃ t, exec i s = .next t ∧ P t

/-- The g registers after a result `v` for register `d`: g0 discards it (R115). -/
def GotG (s t : State) (d : Reg) (v : Word) : Prop := ∀ r, t.g r = if r = d ∧ r ≠ 0#5 then v else s.g r

/-- Every byte of memory, full/empty bit and poison mark reads as before. -/
def SameMemory (s t : State) : Prop :=
  (∀ a, t.readByte a = s.readByte a) ∧ (∀ a, t.feBit a = s.feBit a) ∧ ∀ a, t.poisoned a = s.poisoned a

/-- Nothing but the g registers and the pc of the agent in focus differs. -/
def SameButRegs (s t : State) : Prop :=
  { t with ag := { t.ag with g := s.ag.g, pc := s.ag.pc } } = s ∧ SameMemory s t

/-- The result `v` written to `d`, the pc past the instruction's `n` bytes, and nothing else changed. -/
def Wrote (s : State) (d : Reg) (v : Word) (n : Nat) (t : State) : Prop :=
  GotG s t d v ∧ t.pc = s.pc + BitVec.ofNat 64 n ∧ SameButRegs s t

/-- The same with flags ORed into `rmode` (R85), and nothing else changed. -/
def WroteFlags (s : State) (d : Reg) (v f : Word) (n : Nat) (t : State) : Prop :=
  GotG s t d v ∧ t.pc = s.pc + BitVec.ofNat 64 n ∧ t.ag.rmode = s.ag.rmode ||| f ∧
    { t with ag := { t.ag with g := s.ag.g, pc := s.ag.pc, rmode := s.ag.rmode } } = s ∧ SameMemory s t

/-- Only the pc changes, to `x`. -/
def JumpedTo (s : State) (x : Word) (t : State) : Prop :=
  t.pc = x ∧ (∀ r, t.g r = s.g r) ∧ { t with ag := { t.ag with pc := s.ag.pc } } = s ∧ SameMemory s t

/-- The instruction has issued and its result, held until the cycle `due`, is not written yet (R145): only the pc and what
the agent waits in have changed. -/
def IssuedLong (s : State) (due : Nat) (r : LongResult) (t : State) : Prop :=
  t.pc = s.pc + 4#64 ∧ t.ag.wait = .long due r ∧
    { t with ag := { t.ag with pc := s.ag.pc, wait := s.ag.wait } } = s ∧ SameMemory s t

/-- An xe register written, the pc past the instruction, and nothing else changed. -/
def WroteXe (s : State) (n : VReg) (x : Word) (t : State) : Prop :=
  (∀ r, t.xe r = if r = n then x else s.xe r) ∧ t.pc = s.pc + 4#64 ∧
    { t with ag := { t.ag with xe := s.ag.xe, pc := s.ag.pc } } = s ∧ SameMemory s t

/-- A vector register written with flags ORed into `rmode`, the pc past the instruction, and nothing else changed. -/
def WroteV (s : State) (d : VReg) (x : VWord) (f : Word) (t : State) : Prop :=
  (∀ r, t.v r = if r = d then x else s.v r) ∧ t.pc = s.pc + 4#64 ∧ t.ag.rmode = s.ag.rmode ||| f ∧
    { t with ag := { t.ag with v := s.ag.v, pc := s.ag.pc, rmode := s.ag.rmode } } = s ∧ SameMemory s t

/-- A mask register written, k0 discarding it, with flags ORed into `rmode`, the pc past the instruction, and nothing
else changed (R115). -/
def WroteK (s : State) (d : VReg) (x : BitVec 16) (f : Word) (t : State) : Prop :=
  (∀ r, t.k r = if r = d ∧ r ≠ 0#3 then x else s.k r) ∧ t.pc = s.pc + 4#64 ∧ t.ag.rmode = s.ag.rmode ||| f ∧
    { t with ag := { t.ag with k := s.ag.k, pc := s.ag.pc, rmode := s.ag.rmode } } = s ∧ SameMemory s t

/-- The instruction takes a cause: nothing of its own effect happens, and the machine does what R317 says of the
cause. -/
def Takes (i : Instr) (s : State) (t : Trap) : Prop := exec i s = .next (s.raise t)

/-- The real number a finite value is (R12). -/
def FVal.real : FVal → Rat
  | .fin neg m e => (if neg then -(m : Rat) else m) * 2 ^ e
  | _ => 0

/-- Whether a value is finite: a zero, a subnormal or a normal. -/
def FVal.finite : FVal → Bool
  | .zero _ | .fin .. => true
  | _ => false

/-- A value that is no NaN in the order of the extended reals, where the zeros are equal (R150). -/
def FVal.ext : FVal → WithBot (WithTop Rat)
  | .inf true => ⊥
  | .inf false => ((⊤ : WithTop Rat) : WithBot (WithTop Rat))
  | x => ((x.real : WithTop Rat) : WithBot (WithTop Rat))

/-- The sum of two values of which one at least is infinite and none is a NaN (R148): the sign of the infinity it is, or none where
the pair is invalid. -/
def InfSum (u v : FVal) (sum : Option Bool) : Prop :=
  (∃ m, u = .inf m ∧ v.finite = true ∧ sum = some m) ∨ (∃ n, u.finite = true ∧ v = .inf n ∧ sum = some n) ∨
    ∃ m n, u = .inf m ∧ v = .inf n ∧ sum = if m = n then some m else none

/-- The product of two such values (R148). -/
def InfProd (u v : FVal) (product : Option Bool) : Prop :=
  (∃ m n, u = .inf m ∧ v = .inf n ∧ product = some (m != n)) ∨
  (∃ m, u = .inf m ∧ v.finite = true ∧ product = if v.real = 0 then none else some (m != v.isNeg)) ∨
  ∃ n, u.finite = true ∧ v = .inf n ∧ product = if u.real = 0 then none else some (u.isNeg != n)

/-- A value stands for a positive or negative real `x` in every rounding to at most `n` bits: it lies on the same side of each binary
fraction of so few bits as the real does, `below` saying which of them lie below the real and `at_` which one it is (R86, R89). -/
def Stands (n : Nat) (v : FVal) (below at_ : Rat → Prop) : Prop :=
  v.finite = true ∧ ∀ k e : Int, k.natAbs < 2 ^ n →
    ((k : Rat) * 2 ^ e < v.real ↔ below ((k : Rat) * 2 ^ e)) ∧ (v.real = (k : Rat) * 2 ^ e ↔ at_ ((k : Rat) * 2 ^ e))

/-- A real rounded to an integer by a mode, of two equally near the even one (R89, R90). -/
def RMode.round (mode : RMode) (x : Rat) : Int :=
  match mode with
  | .rdn => ⌊x⌋
  | .rup => ⌈x⌉
  | .rtz => if x < 0 then ⌈x⌉ else ⌊x⌋
  | .rne =>
    if x - ⌊x⌋ < 1 / 2 then ⌊x⌋ else if 1 / 2 < x - ⌊x⌋ then ⌊x⌋ + 1 else if ⌊x⌋ % 2 = 0 then ⌊x⌋ else ⌊x⌋ + 1

/-- Lane i of a register read as lanes of w bits, unsigned and signed (R116). -/
def laneAt (w : Nat) (x : VWord) (i : Nat) : Nat := x.toNat / 2 ^ (w * i) % 2 ^ w
def laneInt (w : Nat) (x : VWord) (i : Nat) : Int := (BitVec.ofNat w (laneAt w x i)).toInt

/-- Whether the mask makes lane i of a type active (R117, R184). -/
def laneOn (t : LaneTy) (m : BitVec 16) (i : Nat) : Bool := m.getLsbD (i * 16 / t.lanes)

/-- A lane-wise result: `R i y f` of every active lane i, its new value y and its flags f, inactive lanes unchanged, the
flags of the active lanes ORed into `rmode`, and nothing else changed (R184, R186). -/
def LaneWise (t : LaneTy) (k d : VReg) (R : Nat → Nat → Word → Prop) (s u : State) : Prop :=
  ∃ (x : VWord) (f : Word) (fl : Nat → Word), WroteV s d x f u ∧
    (∀ i < t.lanes, if laneOn t (s.k k) i then R i (laneAt t.width x i) (fl i)
      else laneAt t.width x i = laneAt t.width (s.v d) i ∧ fl i = 0#64) ∧
    ∀ j : Nat, f.getLsbD j = true ↔ ∃ i < t.lanes, (fl i).getLsbD j = true

/-- The value at place i of level n of the fixed reduction tree: two neighbours of the level below (R95). -/
def treeAt {α : Type} (node : α → α → α) (leaf : Nat → α) : Nat → Nat → α
  | 0, i => leaf i
  | n + 1, i => node (treeAt node leaf n (2 * i)) (treeAt node leaf n (2 * i + 1))

/-- Every list that holds memory is in its one canonical form, and the device registers stand in rising order. -/
def Canonical (s : State) : Prop :=
  Memory.wf s.mem = true ∧ rising 0 s.fe = true ∧ rising 0 s.poison = true ∧
    rising 0 (s.pkg.dev.map (fun x => x.1)) = true

/-- A data access of the agent in focus gets to memory cell `a`, whose home slice is `h`: its watch test does not hit,
every check of R51 passes, leaving the state `u`, the place is awake, no outstanding streaming access stands in its way
(R66), and the schedule has it perform at its issue. -/
def Reaches (s : State) (op : MemOp) (va : Word) (u : State) (a : Nat) (h : Option Nat) : Prop :=
  ∃ w, s.watchpoint va = (false, w) ∧ w.check w.ag.priv op.form va op.size = .ok (u, .cell a h) ∧
    u.asleep (.cell a h) = false ∧ (∀ x ∈ u.ag.nb, x.performed = true ∨ x.touches (.cell a h) op.size = false) ∧
    (∀ l ∈ u.job.loose, l.agent ≠ u.agId ∨ l.access.touches (.cell a h) op.size = false) ∧ u.share = none

/-- Writes at a home are neither logged nor recorded nor replayed: the dirty log is off, and so is the slice's sillage
(R340, R369). -/
def QuietHome (s : State) (h : Option Nat) : Prop :=
  s.job.dlbase.getLsbD 63 = false ∧ ∀ n, h = some n → (s.pkg.reg (s.job.sillage n)).toNat / 2 ^ 62 = 0

/-- `n` bytes from a cell up as a little-endian number (R8). -/
def bytesAt (s : State) (a n : Nat) : Nat := ∑ i ∈ Finset.range n, (s.readByte (a + i)).toNat * 256 ^ i

/-- The `n` bytes from cell `a` up hold the low bytes of `v`, and every other byte reads as before. -/
def Holds (u t : State) (a n v : Nat) : Prop :=
  ∀ b, t.readByte b = if a ≤ b ∧ b < a + n then BitVec.ofNat 8 (v / 256 ^ (b - a)) else u.readByte b

/-- `n` bytes of `v` are stored at cell `a` and the pc moves past the instruction. A whole dword clears its mark of
poison; full/empty bits, registers and all the rest stay, but that a watch of the dword may end (R61, R70, R159). -/
def Stored (u : State) (a n v len : Nat) (t : State) : Prop :=
  Holds u t a n v ∧ (∀ b, t.poisoned b = if n = 8 ∧ b / 8 = a / 8 then false else u.poisoned b) ∧
    t.pc = u.pc + BitVec.ofNat 64 len ∧
    { t with mem := u.mem, poison := u.poison, ag := { t.ag with pc := u.ag.pc }, job := { t.job with armed := u.job.armed } } = u

/-- A full/empty operation that has succeeded at cell `a`: the value for its register, the bit as it leaves it, and the
dword it writes, if it writes one (R62, R163). -/
def FullEmptyDone (u : State) (d : Reg) (v : Word) (a : Nat) (full : Bool) (data : Option Word) (t : State) : Prop :=
  GotG u t d v ∧ t.pc = u.pc + 4#64 ∧ (∀ b, t.feBit b = if b / 8 = a / 8 then full else u.feBit b) ∧
    (match data with
      | some x => Holds u t a 8 x.toNat
      | none => ∀ b, t.readByte b = u.readByte b) ∧
    (∀ b, t.poisoned b = if data.isSome ∧ b / 8 = a / 8 then false else u.poisoned b) ∧
    { t with
      mem := u.mem, fe := u.fe, poison := u.poison, job := { t.job with armed := u.job.armed }
      ag := { t.ag with g := u.ag.g, pc := u.ag.pc, wakes := u.ag.wakes } } = u

/-- The state on which a step about agent `a` acts: that agent in focus, the turns it has lost counted (R34, R360). -/
def State.served (s : State) (a : Nat) : State := (s.focus a).account s.pkg.cycle

/-- The instruction an agent waited in has retired: it is ready, its pc past `n` bytes, and nothing else differs. -/
def WaitOver (t : State) (n : Nat) (u : State) : Prop :=
  u.ag.wait = .ready ∧ u.pc = t.pc + BitVec.ofNat 64 n ∧ { u with ag := { u.ag with wait := t.ag.wait, pc := t.ag.pc } } = t

/-- No parked operation stands at the dword of a cell. -/
def NobodyParked (s : State) (a : Nat) : Prop := ∀ p ∈ s.job.parked, p.ended = none → p.cell / 8 ≠ a / 8

/-- Only the job's work differs: memory, its bits and marks, the package and the agent in focus are as before. -/
def SameButJob (s t : State) : Prop := { t with job := s.job } = s

/-- Places of bytes that are all different, their homes neither logged nor recorded nor replayed. -/
def Apart (s : State) (ss : List Spot) : Prop := (ss.map (fun x => x.1)).Nodup ∧ ∀ x ∈ ss, QuietHome s x.2

/-- Each byte arrives at its place, and every other byte of memory reads as before. -/
def Arrive (u t : State) (ss : List Spot) (bytes : List Nat) : Prop :=
  (∀ i < ss.length, t.readByte (ss.getD i (0, none)).1 = BitVec.ofNat 8 (bytes.getD i 0)) ∧
    ∀ a, (∀ x ∈ ss, x.1 ≠ a) → t.readByte a = u.readByte a

/-- A fetch of the parcel at `va` passes its checks, leaving the state `u`, and reads `x` of a dword that is neither asleep
nor poisoned (R51, R67, R122). -/
def Fetches (s : State) (va : Word) (u : State) (x : Nat) : Prop :=
  ∃ a h, s.check s.ag.priv .fetch va 2 = .ok (u, .cell a h) ∧ u.asleep (.cell a h) = false ∧ u.poisoned a = false ∧
    x = bytesAt u a 2

end Sys2Proof.Machine
end

