-- ==== Sys2Proof/Certificates/Slice0/Obligations.lean ====
section
/-! DEFINITION. What is claimed of the machine, rule by rule of the manual, for the provers. -/

open Sys2Proof Sys2Proof.Machine

/-- R135. -/
def Obligations.RegisterOperationsCompute : Prop :=
  ∀ (d a b : Reg) (s : State),
    let x := s.g a
    let y := s.g b
    let sh := y.toNat % 64
    Completes (.add d a b) s (Wrote s d (BitVec.ofInt 64 (x.toInt + y.toInt)) 4) ∧
    Completes (.sub d a b) s (Wrote s d (BitVec.ofInt 64 (x.toInt - y.toInt)) 4) ∧
    Completes (.and d a b) s (Wrote s d (x &&& y) 4) ∧
    Completes (.or d a b) s (Wrote s d (x ||| y) 4) ∧
    Completes (.xor d a b) s (Wrote s d (x ^^^ y) 4) ∧
    Completes (.andn d a b) s (Wrote s d (x &&& ~~~y) 4) ∧
    Completes (.orn d a b) s (Wrote s d (x ||| ~~~y) 4) ∧
    Completes (.sll d a b) s (Wrote s d (BitVec.ofNat 64 (x.toNat * 2 ^ sh)) 4) ∧
    Completes (.srl d a b) s (Wrote s d (BitVec.ofNat 64 (x.toNat / 2 ^ sh)) 4) ∧
    Completes (.sra d a b) s (Wrote s d (BitVec.ofInt 64 (x.toInt / 2 ^ sh)) 4) ∧
    Completes (.rol d a b) s
      (Wrote s d (if sh = 0 then x else BitVec.ofNat 64 (x.toNat * 2 ^ sh + x.toNat / 2 ^ (64 - sh))) 4) ∧
    Completes (.ror d a b) s
      (Wrote s d (if sh = 0 then x else BitVec.ofNat 64 (x.toNat / 2 ^ sh + x.toNat * 2 ^ (64 - sh))) 4) ∧
    Completes (.slt d a b) s (Wrote s d (if x.toInt < y.toInt then 1#64 else 0#64) 4) ∧
    Completes (.sltu d a b) s (Wrote s d (if x.toNat < y.toNat then 1#64 else 0#64) 4) ∧
    Completes (.min d a b) s (Wrote s d (BitVec.ofInt 64 (min x.toInt y.toInt)) 4) ∧
    Completes (.max d a b) s (Wrote s d (BitVec.ofInt 64 (max x.toInt y.toInt)) 4) ∧
    Completes (.minu d a b) s (Wrote s d (BitVec.ofNat 64 (min x.toNat y.toNat)) 4) ∧
    Completes (.maxu d a b) s (Wrote s d (BitVec.ofNat 64 (max x.toNat y.toNat)) 4) ∧
    Completes (.sel d a b) s (Wrote s d (if s.g d ≠ 0#64 then x else y) 4)

/-- R136: the products are exact. -/
def Obligations.ProductsAreExactHalves : Prop :=
  ∀ (d a b : Reg) (s : State),
    let x := s.g a
    let y := s.g b
    Completes (.mul d a b) s (Wrote s d (BitVec.ofInt 64 (x.toInt * y.toInt)) 4) ∧
    Completes (.mulxs d a b) s (Wrote s d (BitVec.ofInt 64 (x.toInt * y.toInt / 2 ^ 64)) 4) ∧
    Completes (.mulxu d a b) s (Wrote s d (BitVec.ofNat 64 (x.toNat * y.toNat / 2 ^ 64)) 4) ∧
    Completes (.mulxm d a b) s (Wrote s d (BitVec.ofInt 64 (x.toInt * (y.toNat : Int) / 2 ^ 64)) 4)

/-- R136 and R145: on a barrel core the four results come 38 cycles later; a master's come at once. Quotient and remainder
recombine to the dividend, and a nonzero remainder is smaller than the divisor and has the dividend's sign. -/
def Obligations.DivisionsGiveTheTable : Prop :=
  ∀ (d a b : Reg) (s : State),
    let x := s.g a
    let y := s.g b
    let q : Word := if y = 0#64 then 0xFFFF_FFFF_FFFF_FFFF#64
      else if x.toInt = -2 ^ 63 ∧ y.toInt = -1 then x else BitVec.ofInt 64 (x.toInt.tdiv y.toInt)
    let qu : Word := if y = 0#64 then 0xFFFF_FFFF_FFFF_FFFF#64 else BitVec.ofNat 64 (x.toNat / y.toNat)
    let r : Word := if y = 0#64 then x
      else if x.toInt = -2 ^ 63 ∧ y.toInt = -1 then 0#64
      else BitVec.ofInt 64 (x.toInt - y.toInt * x.toInt.tdiv y.toInt)
    let ru : Word := if y = 0#64 then x else BitVec.ofNat 64 (x.toNat - y.toNat * (x.toNat / y.toNat))
    (s.ag.role = .master →
      Completes (.div d a b) s (WroteFlags s d q 0#64 4) ∧ Completes (.divu d a b) s (WroteFlags s d qu 0#64 4) ∧
      Completes (.rem d a b) s (WroteFlags s d r 0#64 4) ∧ Completes (.remu d a b) s (WroteFlags s d ru 0#64 4)) ∧
    (s.ag.role ≠ .master →
      Completes (.div d a b) s (IssuedLong s (s.pkg.cycle + 38) (.gpr d q 0#64)) ∧
      Completes (.divu d a b) s (IssuedLong s (s.pkg.cycle + 38) (.gpr d qu 0#64)) ∧
      Completes (.rem d a b) s (IssuedLong s (s.pkg.cycle + 38) (.gpr d r 0#64)) ∧
      Completes (.remu d a b) s (IssuedLong s (s.pkg.cycle + 38) (.gpr d ru 0#64))) ∧
    (y ≠ 0#64 → q * y + r = x ∧ qu * y + ru = x ∧ r.toInt.natAbs < y.toInt.natAbs ∧ ru.toNat < y.toNat ∧
      (r ≠ 0#64 → (r.toInt < 0 ↔ x.toInt < 0)))

/-- R137. -/
def Obligations.BitCountsAndExtensions : Prop :=
  ∀ (d a : Reg) (s : State),
    let x := s.g a
    Completes (.clz d a) s (fun t => ∃ n ≤ 64, Wrote s d (BitVec.ofNat 64 n) 4 t ∧
      (∀ j < n, x.getLsbD (63 - j) = false) ∧ (n < 64 → x.getLsbD (63 - n) = true)) ∧
    Completes (.ctz d a) s (fun t => ∃ n ≤ 64, Wrote s d (BitVec.ofNat 64 n) 4 t ∧
      (∀ j < n, x.getLsbD j = false) ∧ (n < 64 → x.getLsbD n = true)) ∧
    Completes (.popc d a) s
      (Wrote s d (BitVec.ofNat 64 (Finset.univ.filter (fun i : Fin 64 => x.getLsbD i = true)).card) 4) ∧
    Completes (.bswap d a) s (fun t => ∃ v, Wrote s d v 4 t ∧
      ∀ k < 8, v.toNat / 256 ^ k % 256 = x.toNat / 256 ^ (7 - k) % 256) ∧
    Completes (.sextb d a) s (Wrote s d ((x.setWidth 8).signExtend 64) 4) ∧
    Completes (.sexth d a) s (Wrote s d ((x.setWidth 16).signExtend 64) 4) ∧
    Completes (.sextw d a) s (Wrote s d ((x.setWidth 32).signExtend 64) 4) ∧
    Completes (.zextb d a) s (Wrote s d ((x.setWidth 8).setWidth 64) 4) ∧
    Completes (.zexth d a) s (Wrote s d ((x.setWidth 16).setWidth 64) 4) ∧
    Completes (.zextw d a) s (Wrote s d ((x.setWidth 32).setWidth 64) 4)

/-- R138: fields of `lenm1 + 1` bits at `lsb`, for every pair the encoding admits. -/
def Obligations.BitFieldsExtractAndInsert : Prop :=
  ∀ (d a : Reg) (lsb lenm1 : BitVec 6) (s : State), lsb.toNat + (lenm1.toNat + 1) ≤ 64 →
    let x := s.g a
    let len := lenm1.toNat + 1
    Completes (.bfx d a lsb lenm1) s (Wrote s d (((x >>> lsb.toNat).setWidth len).signExtend 64) 4) ∧
    Completes (.bfxu d a lsb lenm1) s (Wrote s d (((x >>> lsb.toNat).setWidth len).setWidth 64) 4) ∧
    Completes (.bfi d a lsb lenm1) s (fun t => ∃ v, Wrote s d v 4 t ∧ ∀ j < 64,
      v.getLsbD j = if lsb.toNat ≤ j ∧ j < lsb.toNat + len then x.getLsbD (j - lsb.toNat) else (s.g d).getLsbD j)

/-- R139 and R140. -/
def Obligations.ImmediateOperationsCompute : Prop :=
  ∀ (d a : Reg) (i : BitVec 15) (sh : BitVec 6) (s : State),
    let x := s.g a
    let ui : Word := BitVec.ofInt 64 i.toInt
    Completes (.addi d a i) s (Wrote s d (BitVec.ofInt 64 (x.toInt + i.toInt)) 4) ∧
    Completes (.andi d a i) s (Wrote s d (x &&& ui) 4) ∧
    Completes (.ori d a i) s (Wrote s d (x ||| ui) 4) ∧
    Completes (.xori d a i) s (Wrote s d (x ^^^ ui) 4) ∧
    Completes (.slti d a i) s (Wrote s d (if x.toInt < i.toInt then 1#64 else 0#64) 4) ∧
    Completes (.sltiu d a i) s (Wrote s d (if x.toNat < ui.toNat then 1#64 else 0#64) 4) ∧
    Completes (.slli d a sh) s (Wrote s d (BitVec.ofNat 64 (x.toNat * 2 ^ sh.toNat)) 4) ∧
    Completes (.srli d a sh) s (Wrote s d (BitVec.ofNat 64 (x.toNat / 2 ^ sh.toNat)) 4) ∧
    Completes (.srai d a sh) s (Wrote s d (BitVec.ofInt 64 (x.toInt / 2 ^ sh.toNat)) 4)

/-- R141 and R142. -/
def Obligations.ConstantsAndLongImmediates : Prop :=
  ∀ (d a : Reg) (n : VReg) (c : BitVec 2) (i16 : BitVec 16) (i : BitVec 20) (s : State),
    Completes (.lui d i) s (Wrote s d (BitVec.ofInt 64 (i.toInt * 2 ^ 12)) 4) ∧
    Completes (.lpc d i) s (Wrote s d (s.pc + BitVec.ofInt 64 (i.toInt * 2)) 4) ∧
    Completes (.xset n a) s (WroteXe s n (s.g a)) ∧
    Completes (.xget d n) s (Wrote s d (s.xe n) 4) ∧
    Completes (.xli n c i16) s (fun t => ∃ x, WroteXe s n x t ∧ ∀ j < 64,
      x.getLsbD j = if 16 * c.toNat ≤ j ∧ j < 16 * c.toNat + 16 then i16.getLsbD (j - 16 * c.toNat)
        else (s.xe n).getLsbD j)

/-- R143. -/
def Obligations.BranchesGoWhereTheirConditionSays : Prop :=
  ∀ (a b : Reg) (off : BitVec 15) (s : State),
    let x := s.g a
    let y := s.g b
    let away : Word := s.pc + BitVec.ofInt 64 (off.toInt * 2)
    let past : Word := s.pc + 4#64
    Completes (.beq a b off) s (JumpedTo s (if x = y then away else past)) ∧
    Completes (.bne a b off) s (JumpedTo s (if x = y then past else away)) ∧
    Completes (.blt a b off) s (JumpedTo s (if x.toInt < y.toInt then away else past)) ∧
    Completes (.bge a b off) s (JumpedTo s (if y.toInt ≤ x.toInt then away else past)) ∧
    Completes (.bltu a b off) s (JumpedTo s (if x.toNat < y.toNat then away else past)) ∧
    Completes (.bgeu a b off) s (JumpedTo s (if y.toNat ≤ x.toNat then away else past))

/-- R144: the jumps, and the odd target of `jalr`, which changes no register and raises cause 0x0B. -/
def Obligations.JumpsLinkAndRefuseOddTargets : Prop :=
  ∀ (d a : Reg) (off : BitVec 20) (i : BitVec 15) (s : State),
    Completes (.jal d off) s (fun t =>
      GotG s t d (s.pc + 4#64) ∧ t.pc = s.pc + BitVec.ofInt 64 (off.toInt * 2) ∧ SameButRegs s t) ∧
    (let target := s.g a + BitVec.ofInt 64 i.toInt
     (target.getLsbD 0 = false → Completes (.jalr d a i) s (fun t =>
       GotG s t d (s.pc + 4#64) ∧ t.pc = target ∧ SameButRegs s t)) ∧
     (target.getLsbD 0 = true → Takes (.jalr d a i) s { cause := 0x0B#8 }))

/-- R128: each compact form that touches no memory does what its expansion does, but advances by 2; the two branches and
the jumps keep their targets. -/
def Obligations.CompactFormsAreTheirExpansions : Prop :=
  ∀ (d a : Reg) (a3 : BitVec 3) (i5 : BitVec 5) (o7 : BitVec 7) (o10 : BitVec 10) (s : State),
    let x := s.g (BitVec.ofNat 5 (24 + a3.toNat))
    Completes (.cMv d a) s (Wrote s d (s.g a) 2) ∧
    Completes (.cAdd d a) s (Wrote s d (BitVec.ofInt 64 ((s.g d).toInt + (s.g a).toInt)) 2) ∧
    Completes (.cSub d a) s (Wrote s d (BitVec.ofInt 64 ((s.g d).toInt - (s.g a).toInt)) 2) ∧
    Completes (.cAnd d a) s (Wrote s d (s.g d &&& s.g a) 2) ∧
    Completes (.cOr d a) s (Wrote s d (s.g d ||| s.g a) 2) ∧
    Completes (.cXor d a) s (Wrote s d (s.g d ^^^ s.g a) 2) ∧
    Completes (.cAddi d i5) s (Wrote s d (BitVec.ofInt 64 ((s.g d).toInt + i5.toInt)) 2) ∧
    Completes (.cLi d i5) s (Wrote s d (BitVec.ofInt 64 i5.toInt) 2) ∧
    Completes (.cSlli d i5) s (Wrote s d (BitVec.ofNat 64 ((s.g d).toNat * 2 ^ i5.toNat)) 2) ∧
    Completes (.cSrli d i5) s (Wrote s d (BitVec.ofNat 64 ((s.g d).toNat / 2 ^ i5.toNat)) 2) ∧
    Completes (.cSrai d i5) s (Wrote s d (BitVec.ofInt 64 ((s.g d).toInt / 2 ^ i5.toNat)) 2) ∧
    Completes (.cBz a3 o7) s (JumpedTo s (if x = 0#64 then s.pc + BitVec.ofInt 64 (o7.toInt * 2) else s.pc + 2#64)) ∧
    Completes (.cBnz a3 o7) s (JumpedTo s (if x = 0#64 then s.pc + 2#64 else s.pc + BitVec.ofInt 64 (o7.toInt * 2))) ∧
    Completes (.cJ o10) s (JumpedTo s (s.pc + BitVec.ofInt 64 (o10.toInt * 2))) ∧
    ((s.g a).getLsbD 0 = false → Completes (.cJr a) s (JumpedTo s (s.g a))) ∧
    ((s.g a).getLsbD 0 = true → Takes (.cJr a) s { cause := 0x0B#8 }) ∧
    Completes .cNop s (JumpedTo s (s.pc + 2#64))

/-- R147 and R148: sums, differences, products and fused sums of finite operands are one rounding of the exact value by
`rmode`, and an exact zero has the sign IEEE 754 fixes: the terms' own where they agree, else −0 only toward −∞. -/
def Obligations.FloatArithmeticRoundsTheExactValue : Prop :=
  ∀ (p : FSize) (d a b : Reg) (s : State),
    let x := fval p (s.g a)
    let y := fval p (s.g b)
    let z := fval p (s.g d)
    let mode := rmodeMode s.ag.rmode
    let rounds (i : Instr) (exact : Rat) (minus : Bool) : Prop :=
      Completes i s (fun t => ∃ v : FVal, v.finite = true ∧ v.real = exact ∧ (exact = 0 → v = .zero minus) ∧
        let r := roundToFormat v (fsizeFmt p) mode .inf false
        WroteFlags s d (BitVec.ofNat 64 r.1) r.2 4 t)
    let zeroSign (u v : Bool) : Bool := if u = v then u else decide (mode = .rdn)
    x.finite = true → y.finite = true →
      rounds (.fadd p d a b) (x.real + y.real) (zeroSign x.isNeg y.isNeg) ∧
      rounds (.fsub p d a b) (x.real - y.real) (zeroSign x.isNeg (!y.isNeg)) ∧
      rounds (.fmul p d a b) (x.real * y.real) (x.isNeg != y.isNeg) ∧
      (z.finite = true →
        rounds (.fma p d a b) (x.real * y.real + z.real) (zeroSign (x.isNeg != y.isNeg) z.isNeg))

/-- R86 and R148: a NaN operand, or an invalid pair of operands, gives the canonical NaN, whatever the mode; NV is set by
a signalling NaN and by an invalid pair. Every other infinite operand gives an infinity with no flag. -/
def Obligations.FloatArithmeticOnSpecials : Prop :=
  ∀ (p : FSize) (d a b : Reg) (s : State),
    let x := fval p (s.g a)
    let y := fval p (s.g b)
    let nan : Word := BitVec.ofNat 64 (fsizeFmt p).canonNan
    let z := fval p (s.g d)
    let nv := x.sigNV ||| y.sigNV
    let special (r : Option Bool) : State → Prop :=
      match r with
      | none => WroteFlags s d nan flagNV 4
      | some n => WroteFlags s d (BitVec.ofNat 64 ((fsizeFmt p).infinity n)) 0#64 4
    (x.isNan = true ∨ y.isNan = true →
      Completes (.fadd p d a b) s (WroteFlags s d nan nv 4) ∧ Completes (.fsub p d a b) s (WroteFlags s d nan nv 4) ∧
      Completes (.fmul p d a b) s (WroteFlags s d nan nv 4)) ∧
    (∀ r, InfSum x y r → Completes (.fadd p d a b) s (special r)) ∧
    (∀ r, InfSum x y.neg r → Completes (.fsub p d a b) s (special r)) ∧
    (∀ r, InfProd x y r → Completes (.fmul p d a b) s (special r)) ∧
    (x.isNan = true ∨ y.isNan = true →
      Completes (.fma p d a b) s (WroteFlags s d nan (nv ||| z.sigNV) 4)) ∧
    (x.finite = true → y.finite = true → z.isNan = true →
      Completes (.fma p d a b) s (WroteFlags s d nan z.sigNV 4)) ∧
    (InfProd x y none → Completes (.fma p d a b) s (special none)) ∧
    (∀ m, InfProd x y (some m) → z.isNan = true → Completes (.fma p d a b) s (WroteFlags s d nan z.sigNV 4)) ∧
    (∀ m r, InfProd x y (some m) → InfSum (.inf m) z r → Completes (.fma p d a b) s (special r)) ∧
    (∀ n, x.finite = true → y.finite = true → z = .inf n → Completes (.fma p d a b) s (special (some n)))

/-- R145 and R148: quotients and roots. On a barrel core the result comes after the latency of R145, on a master at once;
zero over zero and infinity over infinity are invalid, a finite nonzero value over zero sets DZ, and so on down the
table. A finite quotient, and the root of a positive value, is the one rounding of a value that no binary fraction of the format's
precision and three bits more tells from the exact one. -/
def Obligations.QuotientsAndRootsTakeTheirLatency : Prop :=
  ∀ (p : FSize) (d a b : Reg) (s : State),
    let x := fval p (s.g a)
    let y := fval p (s.g b)
    let nan : Word := BitVec.ofNat 64 (fsizeFmt p).canonNan
    let infinity (n : Bool) : Word := BitVec.ofNat 64 ((fsizeFmt p).infinity n)
    let zero (n : Bool) : Word := BitVec.ofNat 64 ((fsizeFmt p).sign n)
    let bits := (fsizeFmt p).mbits + 3
    let rounds (i : Word → Word → Prop) (v : FVal) : Prop :=
      let r := roundToFormat v (fsizeFmt p) (rmodeMode s.ag.rmode) .inf false
      i (BitVec.ofNat 64 r.1) r.2
    let gives (i : Instr) (latency : Nat) (v f : Word) : Prop :=
      (s.ag.role = .master → Completes i s (WroteFlags s d v f 4)) ∧
      (s.ag.role ≠ .master → Completes i s (IssuedLong s (s.pkg.cycle + latency) (.gpr d v f)))
    let div : Word → Word → Prop := gives (.fdiv p d a b) (match p with | .s => 18 | .d => 27)
    let sqrt : Word → Word → Prop := gives (.fsqrt p d a) (match p with | .s => 20 | .d => 31)
    (∃ v f, div v f) ∧ (∃ v f, sqrt v f) ∧
    (x.finite = true → y.finite = true → x.real ≠ 0 → y.real ≠ 0 → ∃ v : FVal, v.isNeg = (x.isNeg != y.isNeg) ∧
      Stands bits v (fun c => c < x.real / y.real) (fun c => c = x.real / y.real) ∧ rounds div v) ∧
    (∀ n, x = .zero n → y.finite = true → y.real ≠ 0 → div (zero (n != y.isNeg)) 0#64) ∧
    (∀ m, x = .inf m → y.finite = true → div (infinity (m != y.isNeg)) 0#64) ∧
    (∀ n, x.finite = true → y = .inf n → div (zero (x.isNeg != n)) 0#64) ∧
    (x.finite = true → 0 < x.real → ∃ v : FVal,
      Stands bits v (fun c => c < 0 ∨ c * c < x.real) (fun c => 0 < c ∧ c * c = x.real) ∧ rounds sqrt v) ∧
    (x.isNan = true ∨ y.isNan = true → div nan (x.sigNV ||| y.sigNV)) ∧
    (∀ m n, x = .zero m → y = .zero n → div nan flagNV) ∧
    (∀ m n, x = .inf m → y = .inf n → div nan flagNV) ∧
    (∀ n, x.finite = true → x.real ≠ 0 → y = .zero n → div (infinity (x.isNeg != n)) flagDZ) ∧
    (x.isNan = true → sqrt nan x.sigNV) ∧
    (x.isNeg = true → x ≠ .zero true → sqrt nan flagNV) ∧
    (∀ n, x = .zero n → sqrt (zero n) 0#64) ∧
    (x = .inf false → sqrt (infinity false) 0#64)

/-- R149 and R150: comparisons, minimum and maximum in the order of the extended reals, with what they make of NaNs and of
the zeros. -/
def Obligations.FloatComparisonsFollowTheOrder : Prop :=
  ∀ (p : FSize) (d a b : Reg) (s : State),
    let x := fval p (s.g a)
    let y := fval p (s.g b)
    let xb : Word := BitVec.ofNat 64 (fbits p (s.g a))
    let yb : Word := BitVec.ofNat 64 (fbits p (s.g b))
    let nv := x.sigNV ||| y.sigNV
    (x.isNan = true ∨ y.isNan = true →
      Completes (.fcmpeq p d a b) s (WroteFlags s d 0#64 nv 4) ∧
      Completes (.fcmplt p d a b) s (WroteFlags s d 0#64 flagNV 4) ∧
      Completes (.fcmple p d a b) s (WroteFlags s d 0#64 flagNV 4)) ∧
    (x.isNan = false → y.isNan = false →
      Completes (.fcmpeq p d a b) s (fun t => ∃ v, WroteFlags s d v 0#64 4 t ∧ (v = 1#64 ↔ x.ext = y.ext) ∧ v.toNat < 2) ∧
      Completes (.fcmplt p d a b) s (fun t => ∃ v, WroteFlags s d v 0#64 4 t ∧ (v = 1#64 ↔ x.ext < y.ext) ∧ v.toNat < 2) ∧
      Completes (.fcmple p d a b) s (fun t => ∃ v, WroteFlags s d v 0#64 4 t ∧ (v = 1#64 ↔ x.ext ≤ y.ext) ∧ v.toNat < 2) ∧
      Completes (.fmin p d a b) s (fun t => ∃ v, WroteFlags s d v 0#64 4 t ∧
        (x.ext < y.ext → v = xb) ∧ (y.ext < x.ext → v = yb) ∧ (x.ext = y.ext → v = xb ∨ v = yb) ∧
        (x = .zero true → y = .zero false → v = xb) ∧ (x = .zero false → y = .zero true → v = yb)) ∧
      Completes (.fmax p d a b) s (fun t => ∃ v, WroteFlags s d v 0#64 4 t ∧
        (x.ext < y.ext → v = yb) ∧ (y.ext < x.ext → v = xb) ∧ (x.ext = y.ext → v = xb ∨ v = yb) ∧
        (x = .zero true → y = .zero false → v = yb) ∧ (x = .zero false → y = .zero true → v = xb))) ∧
    (x.isNan = true → y.isNan = false →
      Completes (.fmin p d a b) s (WroteFlags s d yb nv 4) ∧ Completes (.fmax p d a b) s (WroteFlags s d yb nv 4)) ∧
    (x.isNan = false → y.isNan = true →
      Completes (.fmin p d a b) s (WroteFlags s d xb nv 4) ∧ Completes (.fmax p d a b) s (WroteFlags s d xb nv 4)) ∧
    (x.isNan = true → y.isNan = true →
      Completes (.fmin p d a b) s (WroteFlags s d (BitVec.ofNat 64 (fsizeFmt p).canonNan) nv 4) ∧
      Completes (.fmax p d a b) s (WroteFlags s d (BitVec.ofNat 64 (fsizeFmt p).canonNan) nv 4))

/-- R151: the code `fkind` writes, read off the encoding's exponent and mantissa fields. -/
def Obligations.FloatKindReadsTheEncoding : Prop :=
  ∀ (p : FSize) (d a : Reg) (s : State),
    let f := fsizeFmt p
    let bits := fbits p (s.g a)
    let ex := bits / 2 ^ f.mbits % 2 ^ f.ebits
    let man := bits % 2 ^ f.mbits
    let kind : Nat :=
      if ex = 0 then (if man = 0 then 0 else 1)
      else if ex = 2 ^ f.ebits - 1 then (if man = 0 then 3 else if man < 2 ^ (f.mbits - 1) then 5 else 4)
      else 2
    Completes (.fkind p d a) s (fun t => ∃ v, Wrote s d v 4 t ∧ v.toNat < 32 ∧ v.toNat % 8 = kind ∧
      v.toNat / 8 % 2 = bits / 2 ^ (f.width - 1) % 2 ∧
      (v.toNat / 16 = 1 ↔ (fval p (s.g a)).finite = true ∧ ∃ n : Int, (fval p (s.g a)).real = n))

/-- R91 and R152: conversions. To an integer: the value rounded by `rmode` and clamped, NV where it had to be clamped and
for a NaN, NX where rounding changed it. From an integer, and between formats: one rounding of the exact value. -/
def Obligations.ConversionsRoundAndClamp : Prop :=
  ∀ (d a : Reg) (s : State),
    let x := s.g a
    let mode := rmodeMode s.ag.rmode
    let toInt (c : FCvt) (p : FSize) (lo hi : Int) : Prop :=
      let v := fval p x
      (v.finite = true → Completes (.fcvt c d a) s (
        let n := mode.round v.real
        WroteFlags s d (BitVec.ofInt 64 (max lo (min n hi)))
          (if n < lo ∨ hi < n then flagNV else if (n : Rat) = v.real then 0#64 else flagNX) 4)) ∧
      (v.isNan = true → Completes (.fcvt c d a) s (WroteFlags s d 0#64 flagNV 4)) ∧
      (v = .inf true → Completes (.fcvt c d a) s (WroteFlags s d (BitVec.ofInt 64 lo) flagNV 4)) ∧
      (v = .inf false → Completes (.fcvt c d a) s (WroteFlags s d (BitVec.ofInt 64 hi) flagNV 4))
    let ofInt (c : FCvt) (f : Fmt) (n : Int) : Prop :=
      Completes (.fcvt c d a) s (fun t => ∃ v : FVal, v.finite = true ∧ v.real = n ∧ v ≠ .zero true ∧
        let r := roundToFormat v f mode .inf false
        WroteFlags s d (BitVec.ofNat 64 r.1) r.2 4 t)
    toInt .ws .s (-2 ^ 31) (2 ^ 31 - 1) ∧ toInt .wus .s 0 (2 ^ 32 - 1) ∧ toInt .ls .s (-2 ^ 63) (2 ^ 63 - 1) ∧
    toInt .lus .s 0 (2 ^ 64 - 1) ∧ toInt .wd .d (-2 ^ 31) (2 ^ 31 - 1) ∧ toInt .wud .d 0 (2 ^ 32 - 1) ∧
    toInt .ld .d (-2 ^ 63) (2 ^ 63 - 1) ∧ toInt .lud .d 0 (2 ^ 64 - 1) ∧
    ofInt .sw fp32 (x.setWidth 32).toInt ∧ ofInt .swu fp32 (x.setWidth 32).toNat ∧ ofInt .sl fp32 x.toInt ∧
    ofInt .slu fp32 x.toNat ∧ ofInt .dw fp64 (x.setWidth 32).toInt ∧ ofInt .dwu fp64 (x.setWidth 32).toNat ∧
    ofInt .dl fp64 x.toInt ∧ ofInt .dlu fp64 x.toNat ∧
    (let r := roundToFormat (fp64.decode x.toNat) fp32 mode .inf false
     Completes (.fcvt .sd d a) s (WroteFlags s d (BitVec.ofNat 64 r.1) r.2 4)) ∧
    (let r := roundToFormat (fp32.decode (x.toNat % 2 ^ 32)) fp64 mode .inf false
     Completes (.fcvt .ds d a) s (WroteFlags s d (BitVec.ofNat 64 r.1) r.2 4))

/-- R187: integer lanes wrap, saturate, or compare as signed or unsigned numbers, and set no flag. -/
def Obligations.VectorIntegerLanes : Prop :=
  ∀ (t : LaneTy) (k d a b : VReg) (s : State), t.isFloat = false →
    let w := t.width
    let x := laneInt w (s.v a)
    let y := laneInt w (s.v b)
    let z := laneInt w (s.v d)
    let ux := laneAt w (s.v a)
    let uy := laneAt w (s.v b)
    let wraps (i : Instr) (f : Nat → Int) : Prop :=
      Completes i s (LaneWise t k d (fun n r g => (r : Int) = f n % 2 ^ w ∧ g = 0#64) s)
    let saturates (i : Instr) (f : Nat → Int) : Prop :=
      wraps i (fun n => max (-2 ^ (w - 1)) (min (f n) (2 ^ (w - 1) - 1)))
    wraps (.vadd .wrap t k d a b) (fun i => x i + y i) ∧ saturates (.vadd .sat t k d a b) (fun i => x i + y i) ∧
    wraps (.vsub .wrap t k d a b) (fun i => x i - y i) ∧ saturates (.vsub .sat t k d a b) (fun i => x i - y i) ∧
    wraps (.vmul .wrap t k d a b) (fun i => x i * y i) ∧ saturates (.vmul .sat t k d a b) (fun i => x i * y i) ∧
    wraps (.vfma .wrap t k d a b) (fun i => x i * y i + z i) ∧
    saturates (.vfma .sat t k d a b) (fun i => x i * y i + z i) ∧
    wraps (.vmin .wrap t k d a b) (fun i => min (x i) (y i)) ∧ wraps (.vmax .wrap t k d a b) (fun i => max (x i) (y i)) ∧
    wraps (.vmin .uns t k d a b) (fun i => min (ux i) (uy i)) ∧ wraps (.vmax .uns t k d a b) (fun i => max (ux i) (uy i)) ∧
    wraps (.vabs .wrap t k d a) (fun i => |x i|) ∧ saturates (.vabs .sat t k d a) (fun i => |x i|) ∧
    wraps (.vneg .wrap t k d a) (fun i => -x i) ∧ saturates (.vneg .sat t k d a) (fun i => -x i)

/-- R188: floating-point lanes: the exact value of flushed operands, rounded by MODE into FP32 or FP16, or into FP32 and
then to nearest into BF16; a NaN operand gives the canonical NaN. Minimum and maximum write the chosen operand, a flushed
one as the zero of its sign; `vabs` and `vneg` act on bits. -/
def Obligations.VectorFloatLanes : Prop :=
  ∀ (t : LaneTy) (k d a b : VReg) (s : State), t.isFloat = true →
    let w := t.width
    let mode := rmodeMode s.ag.rmode
    let x (i : Nat) := laneVal t (laneAt w (s.v a) i)
    let y (i : Nat) := laneVal t (laneAt w (s.v b) i)
    let z (i : Nat) := laneVal t (laneAt w (s.v d) i)
    let rounded (exact : Rat) (minus : Bool) (r : Nat) (g : Word) : Prop :=
      ∃ v : FVal, v.finite = true ∧ v.real = exact ∧ (exact = 0 → v = .zero minus) ∧ laneRound t mode (v, 0#64) = (r, g)
    let zeroSign (u v : Bool) : Bool := if u = v then u else decide (mode = .rdn)
    let nan := (laneFmt t).canonNan
    let special (res : Option Bool) (r : Nat) (g : Word) : Prop :=
      match res with
      | none => r = nan ∧ g = flagNV
      | some n => r = (laneFmt t).infinity n ∧ g = 0#64
    let two (i : Instr) (exact : Nat → Rat) (minus : Nat → Bool) (infinite : Nat → Option Bool → Prop) : Prop :=
      Completes i s (LaneWise t k d (fun n r g =>
        ((x n).finite = true → (y n).finite = true → rounded (exact n) (minus n) r g) ∧
        (∀ res, infinite n res → special res r g) ∧
        ((x n).isNan = true ∨ (y n).isNan = true → r = nan ∧ g = (x n).sigNV ||| (y n).sigNV)) s)
    let chosen (v : FVal) (raw r : Nat) : Prop :=
      (∀ m, v = .zero m → r = (laneFmt t).sign m) ∧ ((∀ m, v ≠ .zero m) → r = raw)
    let picks (i : Instr) (first : Nat → Prop) (second : Nat → Prop) : Prop :=
      Completes i s (LaneWise t k d (fun n r g =>
        g = (x n).sigNV ||| (y n).sigNV ∧
        ((x n).isNan = true → (y n).isNan = true → r = nan) ∧
        ((x n).isNan = true → (y n).isNan = false → chosen (y n) (laneAt w (s.v b) n) r) ∧
        ((x n).isNan = false → (y n).isNan = true → chosen (x n) (laneAt w (s.v a) n) r) ∧
        ((x n).isNan = false → (y n).isNan = false →
          (first n → chosen (x n) (laneAt w (s.v a) n) r) ∧ (second n → chosen (y n) (laneAt w (s.v b) n) r) ∧
          ((x n).ext = (y n).ext → chosen (x n) (laneAt w (s.v a) n) r ∨ chosen (y n) (laneAt w (s.v b) n) r))) s)
    let less (u v : FVal) : Prop := u.ext < v.ext ∨ (u = .zero true ∧ v = .zero false)
    two (.vadd .wrap t k d a b) (fun i => (x i).real + (y i).real) (fun i => zeroSign (x i).isNeg (y i).isNeg)
      (fun i => InfSum (x i) (y i)) ∧
    two (.vsub .wrap t k d a b) (fun i => (x i).real - (y i).real) (fun i => zeroSign (x i).isNeg (!(y i).isNeg))
      (fun i => InfSum (x i) (y i).neg) ∧
    two (.vmul .wrap t k d a b) (fun i => (x i).real * (y i).real) (fun i => (x i).isNeg != (y i).isNeg)
      (fun i => InfProd (x i) (y i)) ∧
    Completes (.vfma .wrap t k d a b) s (LaneWise t k d (fun n r g =>
      ((x n).finite = true → (y n).finite = true → (z n).finite = true →
        rounded ((x n).real * (y n).real + (z n).real) (zeroSign ((x n).isNeg != (y n).isNeg) (z n).isNeg) r g) ∧
      (InfProd (x n) (y n) none → r = nan ∧ g = flagNV) ∧
      (∀ m res, InfProd (x n) (y n) (some m) → InfSum (.inf m) (z n) res → special res r g) ∧
      (∀ m, (x n).finite = true → (y n).finite = true → z n = .inf m → special (some m) r g) ∧
      ((x n).finite = true ∧ (y n).finite = true ∨ (∃ m, InfProd (x n) (y n) (some m)) → (z n).isNan = true →
        r = nan ∧ g = (z n).sigNV) ∧
      ((x n).isNan = true ∨ (y n).isNan = true → r = nan ∧ g = (x n).sigNV ||| (y n).sigNV ||| (z n).sigNV)) s) ∧
    picks (.vmin .wrap t k d a b) (fun n => less (x n) (y n)) (fun n => less (y n) (x n)) ∧
    picks (.vmax .wrap t k d a b) (fun n => less (y n) (x n)) (fun n => less (x n) (y n)) ∧
    Completes (.vabs .wrap t k d a) s (LaneWise t k d (fun n r g =>
      r = laneAt w (s.v a) n % 2 ^ (w - 1) ∧ g = 0#64) s) ∧
    Completes (.vneg .wrap t k d a) s (LaneWise t k d (fun n r g =>
      r = (laneAt w (s.v a) n + 2 ^ (w - 1)) % 2 ^ w ∧ g = 0#64) s)

/-- R189 and R191: bitwise lanes, the shifts with counts of any size, and `vsel`, whose mask selects. -/
def Obligations.VectorLogicShiftsAndSelect : Prop :=
  ∀ (t : LaneTy) (k d a b : VReg) (s : State),
    let w := t.width
    let x := laneAt w (s.v a)
    let c := laneAt w (s.v b)
    let gives (i : Instr) (f : Nat → Nat) : Prop :=
      Completes i s (LaneWise t k d (fun n r g => r = f n ∧ g = 0#64) s)
    gives (.vand t k d a b) (fun i => x i &&& c i) ∧
    gives (.vor t k d a b) (fun i => x i ||| c i) ∧
    gives (.vxor t k d a b) (fun i => x i ^^^ c i) ∧
    (t.isFloat = false →
      gives (.vsll t k d a b) (fun i => if c i < w then x i * 2 ^ c i % 2 ^ w else 0) ∧
      gives (.vsrl t k d a b) (fun i => if c i < w then x i / 2 ^ c i else 0) ∧
      gives (.vsra t k d a b) (fun i => (laneInt w (s.v a) i / 2 ^ min (c i) (w - 1) % 2 ^ w).toNat)) ∧
    Completes (.vsel t k d a b) s (fun u => ∃ r, WroteV s d r 0#64 u ∧ ∀ i < t.lanes,
      laneAt w r i = if laneOn t (s.k k) i then x i else c i)

/-- R190: bit m of the destination mask is the comparison of the lowest lane that bit m governs, 0 where that lane is
inactive; the flags are those of the compared lanes alone. -/
def Obligations.VectorComparisonsWriteAMask : Prop :=
  ∀ (t : LaneTy) (k d a b : VReg) (s : State),
    let w := t.width
    let low (m : Nat) : Nat := m * (t.lanes / 16)
    let writes (i : Instr) (holds : Nat → Prop) (flags : Nat → Word) : Prop :=
      Completes i s (fun u => ∃ r f, WroteK s d r f u ∧
        (∀ m < 16, r.getLsbD m = true ↔ (s.k k).getLsbD m = true ∧ holds (low m)) ∧
        ∀ j : Nat, f.getLsbD j = true ↔ ∃ m < 16, (s.k k).getLsbD m = true ∧ (flags (low m)).getLsbD j = true)
    let x := laneInt w (s.v a)
    let y := laneInt w (s.v b)
    let u (i : Nat) := laneVal t (laneAt w (s.v a) i)
    let v (i : Nat) := laneVal t (laneAt w (s.v b) i)
    let ordered (i : Nat) : Prop := (u i).isNan = false ∧ (v i).isNan = false
    let invalid (i : Nat) : Word := if (u i).isNan = true ∨ (v i).isNan = true then flagNV else 0#64
    (t.isFloat = false →
      writes (.vcmp .eq t k d a b) (fun i => x i = y i) (fun _ => 0#64) ∧
      writes (.vcmp .lt t k d a b) (fun i => x i < y i) (fun _ => 0#64) ∧
      writes (.vcmp .le t k d a b) (fun i => x i ≤ y i) (fun _ => 0#64) ∧
      writes (.vcmp .ltu t k d a b) (fun i => laneAt w (s.v a) i < laneAt w (s.v b) i) (fun _ => 0#64) ∧
      writes (.vcmp .leu t k d a b) (fun i => laneAt w (s.v a) i ≤ laneAt w (s.v b) i) (fun _ => 0#64)) ∧
    (t.isFloat = true →
      writes (.vcmp .eq t k d a b) (fun i => ordered i ∧ (u i).ext = (v i).ext) (fun i => (u i).sigNV ||| (v i).sigNV) ∧
      writes (.vcmp .lt t k d a b) (fun i => ordered i ∧ (u i).ext < (v i).ext) invalid ∧
      writes (.vcmp .le t k d a b) (fun i => ordered i ∧ (u i).ext ≤ (v i).ext) invalid)

/-- R193 and R194: element i of a conversion moves between lane i and container `p × n + i`; its value is converted by
one rounding, by the clamp of R91, or by saturation or sign extension. -/
def Obligations.VectorConversionsMoveElements : Prop :=
  ∀ (f : VFmt) (t : LaneTy) (k d a p : VReg) (s : State), f.isBlock = false → f.ok t = true →
    p.toNat < t.width / f.container →
    let c := f.container
    let mode := rmodeMode s.ag.rmode
    let value (g : VFmt) (bits : Nat) : FVal :=
      match elemOf g with
      | .float h =>
        let v := h.decode (bits % 2 ^ h.width)
        if fmtFlushes g ∧ bits / 2 ^ h.mbits % 2 ^ h.ebits = 0 then .zero v.isNeg else v
      | .int _ => .zero false
    let number (g : VFmt) (bits : Nat) : Int :=
      match elemOf g with
      | .float _ => 0
      | .int n => (BitVec.ofNat n bits).toInt
    let converts (src dst : VFmt) (bits r : Nat) (g : Word) : Prop :=
      match elemOf src, elemOf dst with
      | .float _, .float h => roundToFormat (value src bits) h mode (fmtOvf dst) (fmtFlushes dst) = (r, g)
      | .int _, .float h => ∃ v : FVal, v.finite = true ∧ v.real = number src bits ∧ v ≠ .zero true ∧
          roundToFormat v h mode (fmtOvf dst) (fmtFlushes dst) = (r, g)
      | .int _, .int n => g = 0#64 ∧
          (r : Int) = max (-2 ^ (n - 1)) (min (number src bits) (2 ^ (n - 1) - 1)) % 2 ^ dst.container
      | .float _, .int n =>
          let v := value src bits
          let lo : Int := -2 ^ (n - 1)
          let hi : Int := 2 ^ (n - 1) - 1
          (v.finite = true →
            (r : Int) = max lo (min (mode.round v.real) hi) % 2 ^ dst.container ∧
            g = if mode.round v.real < lo ∨ hi < mode.round v.real then flagNV
              else if (mode.round v.real : Rat) = v.real then 0#64 else flagNX) ∧
          (v.isNan = true → r = 0 ∧ g = flagNV) ∧
          (∀ m, v = .inf m → (r : Int) = (if m then lo else hi) % 2 ^ dst.container ∧ g = flagNV)
    Completes (.vcvt true f t k d a p) s (LaneWise t k d (fun i r g =>
      converts f t.fmt (laneAt c (s.v a) (p.toNat * t.lanes + i)) r g) s) ∧
    Completes (.vcvt false f t k d a p) s (fun u => ∃ (x : VWord) (fl : Word) (g : Nat → Word), WroteV s d x fl u ∧
      (∀ j < 512 / c,
        let i := j - p.toNat * t.lanes
        if p.toNat * t.lanes ≤ j ∧ i < t.lanes ∧ laneOn t (s.k k) i then
          converts t.fmt f (laneAt t.width (s.v a) i) (laneAt c x j) (g j)
        else laneAt c x j = laneAt c (s.v d) j ∧ g j = 0#64) ∧
      ∀ j : Nat, fl.getLsbD j = true ↔ ∃ i < 512 / c, (g i).getLsbD j = true)

/-- R77, R92 and R195: 32 elements become one BK block. A NaN or infinity gives exponent byte 0xFF, all zeros byte 0; else the
exponent is the largest element's, less `w - 2` and clamped, every mantissa the nearest even integer, clamped, and a bit of
the saturation mask says where clamping was needed. Back to lanes, an element is its mantissa times the shared power of
two, rounded by MODE; the most negative encoding stands for the next, and exponent byte 0xFF for a NaN. -/
def Obligations.VectorBlocksShareAnExponent : Prop :=
  ∀ (f : VFmt) (t : LaneTy) (k d a b : VReg) (s : State), f.isBlock = true → t.isFloat = true →
    let w := if f = .bk8 then 8 else 4
    let v (i : Nat) : FVal :=
      laneVal t (if i < t.lanes then laneAt t.width (s.v a) i else laneAt t.width (s.v b) (i - t.lanes))
    let lim : Int := 2 ^ (w - 1) - 1
    ((t ≠ .f32 → b = 0#3) → Completes (.vcvt false f t k d a b) s (fun u => ∃ (x : VWord) (m : BitVec 16) (e : Nat) (q : Nat → Int),
      (∀ r, u.v r = if r = d then x else s.v r) ∧ (∀ r, u.k r = if r = k ∧ r ≠ 0#3 then m else s.k r) ∧
      u.pc = s.pc + 4#64 ∧ { u with ag := { u.ag with v := s.ag.v, k := s.ag.k, pc := s.ag.pc } } = s ∧ SameMemory s u ∧
      (∀ i < 32, laneInt w x i = q i) ∧ laneAt 8 x (4 * w) = e ∧ (∀ i < 64, 4 * w < i → laneAt 8 x i = 0) ∧
      ((∃ i < 32, (v i).finite = false) → e = 0xFF ∧ (∀ i < 32, q i = 0) ∧ m = 0#16) ∧
      ((∀ i < 32, ∃ n, v i = .zero n) → e = 0 ∧ (∀ i < 32, q i = 0) ∧ m = 0#16) ∧
      ∀ (top : Int) (j : Nat), (∀ i < 32, (v i).finite = true) → j < 32 → (2 : Rat) ^ top ≤ |(v j).real| →
        (∀ i < 32, |(v i).real| < 2 ^ (top + 1)) →
        let ex : Int := max (-127) (min (top - (w - 2)) 127)
        let n (i : Nat) : Int := RMode.round .rne ((v i).real / 2 ^ ex)
        (e : Int) = ex + 127 ∧ (∀ i < 32, q i = max (-lim) (min (n i) lim)) ∧
        ∀ l < 16, m.getLsbD l = true ↔ lim < |n (2 * l)| ∨ lim < |n (2 * l + 1)|)) ∧
    (b.toNat * t.lanes < 32 →
      Completes (.vcvt true f t k d a b) s (LaneWise t k d (fun i r g =>
        let q : Int := max (-(2 ^ (w - 1) - 1)) (laneInt w (s.v a) (b.toNat * t.lanes + i))
        let e := laneAt 8 (s.v a) (4 * w)
        if e = 0xFF then r = (laneFmt t).canonNan ∧ g = 0#64
        else ∃ v : FVal, v.finite = true ∧ v.real = q * 2 ^ ((e : Int) - 127) ∧ v ≠ .zero true ∧
          roundToFormat v (laneFmt t) (rmodeMode s.ag.rmode) .inf (flushes t) = (r, g)) s))

/-- R79, R80 and R196: nibbles and 6-bit elements packed and unpacked. -/
def Obligations.VectorPackingMovesBits : Prop :=
  ∀ (d a p : VReg) (s : State), p.toNat < 2 →
    let x := s.v a
    let h := 256 * p.toNat
    Completes (.vpack4 d a p) s (fun u => ∃ r, WroteV s d r 0#64 u ∧ ∀ j < 512,
      r.getLsbD j = if h ≤ j ∧ j < h + 256 then x.getLsbD (8 * ((j - h) / 4) + (j - h) % 4) else (s.v d).getLsbD j) ∧
    Completes (.vunpack4 false d a p) s (fun u => ∃ r, WroteV s d r 0#64 u ∧ ∀ i < 64,
      laneAt 8 r i = laneAt 4 x (64 * p.toNat + i)) ∧
    Completes (.vunpack4 true d a p) s (fun u => ∃ r, WroteV s d r 0#64 u ∧ ∀ i < 64,
      laneInt 8 r i = laneInt 4 x (64 * p.toNat + i)) ∧
    Completes (.vpack6 d a) s (fun u => ∃ r, WroteV s d r 0#64 u ∧ ∀ j < 512,
      r.getLsbD j = if j < 384 then x.getLsbD (8 * (j / 6) + j % 6) else (s.v d).getLsbD j) ∧
    Completes (.vunpack6 d a) s (fun u => ∃ r, WroteV s d r 0#64 u ∧ ∀ i < 64, laneAt 8 r i = laneAt 6 x i)

/-- R95 and R197: reductions by the fixed tree, the result in lane 0 and zero in every other lane. -/
def Obligations.VectorReductionsFollowTheTree : Prop :=
  ∀ (t : LaneTy) (k d a : VReg) (s : State),
    let w := t.width
    let levels := Nat.log2 t.lanes
    let x := laneInt w (s.v a)
    let ux := laneAt w (s.v a)
    let on := laneOn t (s.k k)
    let reduces (i : Instr) (P : Nat → Word → Prop) : Prop :=
      Completes i s (fun u => ∃ (r : VWord) (f : Word), WroteV s d r f u ∧ (∀ i < t.lanes, 0 < i → laneAt w r i = 0) ∧
        P (laneAt w r 0) f)
    let fv := laneVal t
    (t.isFloat = false →
      reduces (.vredsum .wrap t k d a) (fun r f => f = 0#64 ∧
        (r : Int) = (∑ i ∈ Finset.range t.lanes, if on i then x i else 0) % 2 ^ w) ∧
      reduces (.vredsum .sat t k d a) (fun r f => f = 0#64 ∧
        (r : Int) = treeAt (fun m n => max (-2 ^ (w - 1)) (min (m + n) (2 ^ (w - 1) - 1)))
          (fun i => if on i then x i else 0) levels 0 % 2 ^ w) ∧
      reduces (.vredmax .wrap t k d a) (fun r f => f = 0#64 ∧ ∃ n : Int, (r : Int) = n % 2 ^ w ∧
        (∀ i < t.lanes, on i → x i ≤ n) ∧ ((∃ i < t.lanes, on i ∧ x i = n) ∨ n = -2 ^ (w - 1))) ∧
      reduces (.vredmax .uns t k d a) (fun r f => f = 0#64 ∧
        (∀ i < t.lanes, on i → ux i ≤ r) ∧ ((∃ i < t.lanes, on i ∧ ux i = r) ∨ r = 0))) ∧
    (t.isFloat = true →
      reduces (.vredsum .wrap t k d a) (fun r f =>
        let node (m n : Nat × Word) : Nat × Word :=
          let q := laneRound t .rne ((fv m.1).add (fv n.1) .rne)
          (q.1, m.2 ||| n.2 ||| q.2)
        (r, f) = treeAt node (fun i => (if on i then ux i else 2 ^ (w - 1), 0#64)) levels 0) ∧
      reduces (.vredmax .wrap t k d a) (fun r f =>
        (f = 0#64 ∨ f = flagNV) ∧
        ((∀ i < t.lanes, on i → (fv (ux i)).sigNV = 0#64) → f = 0#64) ∧
        ((∀ i < t.lanes, on i = false) → r = (laneFmt t).infinity true) ∧
        ((∃ i < t.lanes, on i) → (∀ i < t.lanes, on i → (fv (ux i)).isNan = true) → r = (laneFmt t).canonNan) ∧
        ((∃ i < t.lanes, on i ∧ (fv (ux i)).isNan = false) →
          (fv r).isNan = false ∧
          (∃ i < t.lanes, on i ∧ (fv (ux i)).isNan = false ∧ (fv (ux i)).ext = (fv r).ext) ∧
          ∀ i < t.lanes, on i → (fv (ux i)).isNan = false → (fv (ux i)).ext ≤ (fv r).ext)))

/-- R198 and R199: the transcendentals; a barrel core's result comes 30 cycles later, a master's at once. A finite `vrcp` or `vrsqrt` is
the rounding to nearest of a value that no binary fraction of 26 bits tells from the exact one, into FP32 or FP16, or into FP32 and then
BF16 (R87). What value stands for 2^a when it is no binary fraction is the model's choice, of log entry 70. -/
def Obligations.VectorTranscendentalsTakeTheirLatency : Prop :=
  ∀ (t : LaneTy) (k d a : VReg) (s : State), t.isFloat = true →
    let w := t.width
    let x (i : Nat) := laneVal t (laneAt w (s.v a) i)
    let f := laneFmt t
    let lanes (R : Nat → Nat → Word → Prop) (r : VWord) (g : Word) : Prop :=
      ∃ fl : Nat → Word,
        (∀ i < t.lanes, if laneOn t (s.k k) i then R i (laneAt w r i) (fl i)
          else laneAt w r i = laneAt w (s.v d) i ∧ fl i = 0#64) ∧
        ∀ j : Nat, g.getLsbD j = true ↔ ∃ i < t.lanes, (fl i).getLsbD j = true
    let rounds (v : FVal) (r : Nat) (g : Word) : Prop := laneRound t .rne (v, 0#64) = (r, g)
    let gives (i : Instr) (R : Nat → Nat → Word → Prop) : Prop :=
      (s.ag.role = .master → Completes i s (fun u => ∃ r g, WroteV s d r g u ∧ lanes R r g)) ∧
      (s.ag.role ≠ .master →
        Completes i s (fun u => ∃ r g, IssuedLong s (s.pkg.cycle + 30) (.vec d r g) u ∧ lanes R r g))
    gives (.vexp2 t k d a) (fun i r g =>
      ((x i).isNan = true → r = f.canonNan ∧ g = (x i).sigNV) ∧
      (∀ m, x i = .zero m → (f.decode r).real = 1 ∧ g = 0#64) ∧
      (x i = .inf false → r = f.infinity false ∧ g = 0#64) ∧ (x i = .inf true → r = 0 ∧ g = 0#64) ∧
      ((x i).finite = true → rounds (exp2Val (x i)).1 r g) ∧
      (∀ n : Int, (x i).finite = true → (x i).real = n → f.emin ≤ n → n ≤ f.emax → (f.decode r).real = 2 ^ n ∧ g = 0#64)) ∧
    gives (.vrcp t k d a) (fun i r g =>
      ((x i).isNan = true → r = f.canonNan ∧ g = (x i).sigNV) ∧
      (∀ m, x i = .zero m → r = f.infinity m ∧ g = flagDZ) ∧
      (∀ m, x i = .inf m → r = f.sign m ∧ g = 0#64) ∧
      ((x i).finite = true → (x i).real ≠ 0 → ∃ v : FVal, v.isNeg = (x i).isNeg ∧
        Stands 26 v (fun c => c < 1 / (x i).real) (fun c => c = 1 / (x i).real) ∧ rounds v r g) ∧
      (∀ n : Int, (x i).finite = true → (x i).real = 2 ^ n → f.emin ≤ -n → -n ≤ f.emax →
        (f.decode r).real = 2 ^ (-n) ∧ g = 0#64)) ∧
    gives (.vrsqrt t k d a) (fun i r g =>
      ((x i).isNan = true → r = f.canonNan ∧ g = (x i).sigNV) ∧
      (∀ m, x i = .zero m → r = f.infinity m ∧ g = flagDZ) ∧
      (x i = .inf false → r = 0 ∧ g = 0#64) ∧
      ((x i).finite = true → 0 < (x i).real → ∃ v : FVal,
        Stands 26 v (fun c => c < 0 ∨ c * c * (x i).real < 1) (fun c => 0 < c ∧ c * c * (x i).real = 1) ∧ rounds v r g) ∧
      ((x i).isNeg = true → (∀ m, x i ≠ .zero m) → (x i).isNan = false → r = f.canonNan ∧ g = flagNV) ∧
      (∀ n : Int, (x i).finite = true → (x i).real = 2 ^ (2 * n) → f.emin ≤ -n → -n ≤ f.emax →
        (f.decode r).real = 2 ^ (-n) ∧ g = 0#64))

/-- R200 and R203: lane moves, and the mask operations. -/
def Obligations.LaneMovesAndMasks : Prop :=
  ∀ (t : LaneTy) (k d a b : VReg) (g : Reg) (l : BitVec 6) (s : State),
    let w := t.width
    Completes (.vbcast t g k d) s (LaneWise t k d (fun _ r f => r = (s.g g).toNat % 2 ^ w ∧ f = 0#64) s) ∧
    Completes (.vperm t k d a b) s (LaneWise t k d (fun i r f =>
      r = laneAt w (s.v a) (laneAt w (s.v b) i % t.lanes) ∧ f = 0#64) s) ∧
    (l.toNat < t.lanes →
      Completes (.vmovg t g l a) s (fun u => ∃ v, Wrote s g v 4 u ∧
        (t.isFloat = true → v.toNat = laneAt w (s.v a) l.toNat) ∧
        (t.isFloat = false → v.toInt = laneInt w (s.v a) l.toNat)) ∧
      Completes (.vins t g l d) s (fun u => ∃ r, WroteV s d r 0#64 u ∧ ∀ i < t.lanes,
        laneAt w r i = if i = l.toNat then (s.g g).toNat % 2 ^ w else laneAt w (s.v d) i)) ∧
    Completes (.kand d a b) s (WroteK s d (s.k a &&& s.k b) 0#64) ∧
    Completes (.kor d a b) s (WroteK s d (s.k a ||| s.k b) 0#64) ∧
    Completes (.kxor d a b) s (WroteK s d (s.k a ^^^ s.k b) 0#64) ∧
    Completes (.knot d a) s (WroteK s d (~~~s.k a) 0#64) ∧
    Completes (.kpop g a) s
      (Wrote s g (BitVec.ofNat 64 (Finset.univ.filter (fun i : Fin 16 => (s.k a).getLsbD i = true)).card) 4) ∧
    Completes (.kmovToMask d g) s (WroteK s d ((s.g g).setWidth 16) 0#64) ∧
    Completes (.kmovFromMask g a) s (Wrote s g ((s.k a).setWidth 64) 4)

/-- R158 and R159: a load whose access gets to memory writes the bytes there, sign- or zero-extended; on a poisoned
dword it writes nothing and raises "poisoned load". -/
def Obligations.LoadsReadTheirBytes : Prop :=
  ∀ (d a : Reg) (i : BitVec 15) (d3 b3 : BitVec 3) (o4 : BitVec 4) (s u : State) (c : Nat) (h : Option Nat),
    let creg (r : BitVec 3) : Reg := BitVec.ofNat 5 (24 + r.toNat)
    let va : Word := s.g a + BitVec.ofInt 64 i.toInt
    let loads (x : Instr) (va : Word) (len n : Nat) (signed : Bool) (d : Reg) : Prop :=
      Reaches s (.load n signed d) va u c h →
        (u.poisoned c = false → Completes x s (Wrote u d
          (if signed then (BitVec.ofNat (8 * n) (bytesAt u c n)).signExtend 64 else BitVec.ofNat 64 (bytesAt u c n)) len)) ∧
        (u.poisoned c = true → exec x s = .next (u.raise { cause := 0x60#8, addr := va &&& ~~~7#64 }))
    loads (.ldb d a i) va 4 1 true d ∧ loads (.ldbu d a i) va 4 1 false d ∧ loads (.ldh d a i) va 4 2 true d ∧
    loads (.ldhu d a i) va 4 2 false d ∧ loads (.ldw d a i) va 4 4 true d ∧ loads (.ldwu d a i) va 4 4 false d ∧
    loads (.ldd d a i) va 4 8 false d ∧
    loads (.cLdd d3 b3 o4) (s.g (creg b3) + BitVec.ofNat 64 (8 * o4.toNat)) 2 8 false (creg d3)

/-- R158, R159 and R61: a store whose access gets to memory writes its bytes there and nothing else; a whole dword clears
its mark of poison, a narrower store leaves it. Where the dirty log or the slice's sillage is on, R340 and R370 add to
this. -/
def Obligations.StoresWriteTheirBytesAlone : Prop :=
  ∀ (r a : Reg) (i : BitVec 15) (r3 b3 : BitVec 3) (o4 : BitVec 4) (s u : State) (c : Nat) (h : Option Nat),
    let creg (r : BitVec 3) : Reg := BitVec.ofNat 5 (24 + r.toNat)
    let va : Word := s.g a + BitVec.ofInt 64 i.toInt
    let stores (x : Instr) (va : Word) (len n : Nat) (r : Reg) : Prop :=
      Reaches s (.store n (s.g r)) va u c h → Completes x s (Stored u c n (s.g r).toNat len)
    Canonical u → QuietHome u h →
      stores (.stb r a i) va 4 1 r ∧ stores (.sth r a i) va 4 2 r ∧ stores (.stw r a i) va 4 4 r ∧
      stores (.std r a i) va 4 8 r ∧
      stores (.cStd r3 b3 o4) (s.g (creg b3) + BitVec.ofNat 64 (8 * o4.toNat)) 2 8 (creg r3)

/-- R62 and R163: a full/empty operation whose requirement is met; none parks on the dword, whose bit may change, and it is no
mailbox that a `cppost` filled. One whose requirement is not met parks, while the owner's table has room (R63). -/
def Obligations.FullEmptyOperationsMoveTheBit : Prop :=
  ∀ (d a b : Reg) (off : BitVec 6) (s u : State) (c : Nat) (h : Option Nat),
    let va : Word := s.g a + s.g b + BitVec.ofNat 64 (8 * off.toNat)
    let word : Word := BitVec.ofNat 64 (bytesAt u c 8)
    let x := s.g d
    let room : Prop :=
      (u.job.parked.filter (fun p => p.ended.isNone && u.owner p.cell p.home == u.owner c h)).length <
        (if isLocal c then 32 else 64)
    let parks (i : Instr) (op : MemOp) : Prop :=
      Completes i s (fun t => t.pc = u.pc ∧ t.ag.wait = .park op va 4 ∧ SameMemory u t ∧
        { t with ag := { t.ag with wait := u.ag.wait }, job := { t.job with parked := u.job.parked } } = u)
    let does (i : Instr) (op : MemOp) (d : Reg) (v : Word) (full : Bool) (data : Option Word) : Prop :=
      Reaches s op va u c h → Completes i s (FullEmptyDone u d v c full data)
    Canonical u → QuietHome u h → NobodyParked u c → u.withdraw c = u →
      (u.feBit c = true → u.poisoned c = false →
        does (.ldfe d a b off) (.fe .ldfe d 0#64) d word false none ∧
        does (.ldff d a b off) (.fe .ldff d 0#64) d word true none) ∧
      (u.feBit c = false → room →
        (Reaches s (.fe .ldfe d 0#64) va u c h → parks (.ldfe d a b off) (.fe .ldfe d 0#64)) ∧
        (Reaches s (.fe .ldff d 0#64) va u c h → parks (.ldff d a b off) (.fe .ldff d 0#64))) ∧
      (u.feBit c = false → does (.stfe d a b off) (.fe .stfe 0#5 x) 0#5 0#64 true (some x)) ∧
      (u.feBit c = true → room → Reaches s (.fe .stfe 0#5 x) va u c h → parks (.stfe d a b off) (.fe .stfe 0#5 x)) ∧
      does (.stff d a b off) (.fe .stff 0#5 x) 0#5 0#64 true (some x) ∧
      does (.feclr a b off) (.fe .feclr 0#5 0#64) 0#5 0#64 false none ∧
      does (.feset a b off) (.fe .feset 0#5 0#64) 0#5 0#64 true none ∧
      does (.fetst d a b off) (.fe .fetst d 0#64) d (if u.feBit c then 1#64 else 0#64) (u.feBit c) none

/-- R165 and R166: at one instant the register gets the old dword and memory the new one; a failed compare writes nothing,
and a poisoned dword raises "poisoned atomic" and changes nothing. A `psm` adds as `amoadd` does, but goes to a dword outside
a local store as a request through the merge stages. -/
def Obligations.AtomicsSwapOldForNew : Prop :=
  ∀ (d a b : Reg) (s u : State) (c : Nat) (h : Option Nat),
    let v := s.g b
    let e := s.g d
    let old : Word := BitVec.ofNat 64 (bytesAt u c 8)
    let atomic (i : Instr) (f : AmoOp) (P : State → Prop) : Prop :=
      Reaches s (.amo f d v e) (s.g a) u c h →
        (u.poisoned c = true → exec i s = .next (u.raise { cause := 0x61#8, addr := s.g a &&& ~~~7#64 })) ∧
        (u.poisoned c = false → Completes i s P)
    let writes (new : Word) (t : State) : Prop :=
      GotG u t d old ∧ t.pc = u.pc + 4#64 ∧ Holds u t c 8 new.toNat ∧ (∀ b, t.feBit b = u.feBit b) ∧
        (∀ b, t.poisoned b = u.poisoned b) ∧
        { t with mem := u.mem, poison := u.poison, job := { t.job with armed := u.job.armed }
                 ag := { t.ag with g := u.ag.g, pc := u.ag.pc } } = u
    Canonical u → QuietHome u h →
      (isLocal c = true → atomic (.psm d a b) .psm (writes (old + v))) ∧
      (isLocal c = false → Reaches s (.amo .psm d v e) (s.g a) u c h → Completes (.psm d a b) s (fun t =>
        t.pc = u.pc ∧ t.ag.wait = .request (.amo .psm d v e) (s.g a) (.cell c h) 4 u.pkg.cycle ∧
          { t with ag := { t.ag with wait := u.ag.wait } } = u)) ∧
      atomic (.amoadd d a b) .add (writes (old + v)) ∧
      atomic (.amoswap d a b) .swap (writes v) ∧
      atomic (.amocas d a b) .cas (fun t => if old = e then writes v t else Wrote u d old 4 t) ∧
      atomic (.amomin d a b) .min (writes (BitVec.ofInt 64 (min old.toInt v.toInt))) ∧
      atomic (.amomax d a b) .max (writes (BitVec.ofInt 64 (max old.toInt v.toInt))) ∧
      atomic (.amominu d a b) .minu (writes (BitVec.ofNat 64 (min old.toNat v.toNat))) ∧
      atomic (.amomaxu d a b) .maxu (writes (BitVec.ofNat 64 (max old.toNat v.toNat))) ∧
      atomic (.amoand d a b) .and (writes (old &&& v)) ∧ atomic (.amoor d a b) .or (writes (old ||| v)) ∧
      atomic (.amoxor d a b) .xor (writes (old ^^^ v)) ∧
      atomic (.amofadd d a b) .fadd (fun t => ∃ new : Word, writes new t ∧
        let x := fp64.decode old.toNat
        let y := fp64.decode v.toNat
        (x.isNan = true ∨ y.isNan = true → new.toNat = fp64.canonNan) ∧
        (x.finite = true → y.finite = true → ∃ z : FVal, z.finite = true ∧ z.real = x.real + y.real ∧
          (z.real = 0 → z = .zero (x.isNeg && y.isNeg)) ∧ new.toNat = (roundToFormat z fp64 .rne .inf false).1))

/-- R160 and R161: a streaming access that passes its checks is outstanding and counted, with its data read at issue;
with 16 counted the turn is forfeited, not ready on memory; one that fails a check raises its cause and never becomes outstanding. -/
def Obligations.StreamingAccessesBecomeOutstanding : Prop :=
  ∀ (d a b : Reg) (off : BitVec 6) (s : State),
    let va : Word := s.g a + s.g b + BitVec.ofNat 64 (8 * off.toNat)
    let streams (i : Instr) (isStore : Bool) (size : Nat) : Prop :=
      (16 ≤ s.ag.nb.length → exec i s = .next (s.setWait (.again 1))) ∧
      ∀ w, s.ag.nb.length < 16 → s.watchpoint va = (false, w) →
        (∀ t, w.check w.ag.priv (if isStore then .nbStore else .nbLoad) va size = .error t → exec i s = .next (w.raise t)) ∧
        ∀ u loc, w.check w.ag.priv (if isStore then .nbStore else .nbLoad) va size = .ok (u, loc) →
          Completes i s (fun t =>
            t.pc = u.pc + 4#64 ∧ (∀ r, t.g r = u.g r) ∧ SameMemory u t ∧
            (∃ x : Streaming, t.ag.nb = u.ag.nb ++ [x] ∧ x.isStore = isStore ∧ x.size = size ∧ x.va = va ∧ x.loc = loc ∧
              x.dest = d ∧ x.data = s.g d ∧ x.since = s.pkg.cycle ∧ x.performed = false ∧ x.failed = none ∧
              x.by_.kind = 0 ∧ x.by_.pc = s.pc ∧ x.by_.agent = s.agId) ∧
            { t with ag := { t.ag with pc := u.ag.pc, nb := u.ag.nb } } = u)
    streams (.ldwNb d a b off) false 4 ∧ streams (.lddNb d a b off) false 8 ∧
    streams (.stwNb d a b off) true 4 ∧ streams (.stdNb d a b off) true 8

/-- R168, R169, R170 and R171: the waits. Each completes when its condition holds, moving the pc alone, and otherwise
stays at its instruction and waits; a full watch table makes an `mwait` poll. -/
def Obligations.WaitsCompleteWhenTheyMay : Prop :=
  ∀ (a b : Reg) (nl ns nc nt : BitVec 5) (s : State),
    let done (t : State) : Prop :=
      t.pc = s.pc + 4#64 ∧ t.ag.wait = .ready ∧ { t with ag := { t.ag with pc := s.ag.pc, wait := s.ag.wait } } = s
    let waits (w : Wait) (t : State) : Prop := t.ag.wait = w ∧ { t with ag := { t.ag with wait := s.ag.wait } } = s
    ((∀ x ∈ s.ag.nb, x.failed = none) →
      (if s.ag.nbload ≤ nl.toNat ∧ s.ag.nbstore ≤ ns.toNat ∧ s.cpout s.ag ≤ nc.toNat ∧ s.tkout s.ag ≤ nt.toNat then
        Completes (.waitc nl ns nc nt) s done
      else Completes (.waitc nl ns nc nt) s (waits (.waitc nl.toNat ns.toNat nc.toNat nt.toNat))) ∧
      (if s.ag.nb = [] then Completes .fence s done else Completes .fence s (waits .fence))) ∧
    ((s.g a).toNat ≤ s.pkg.cycle → Completes (.sleep a) s (JumpedTo s (s.pc + 4#64))) ∧
    (s.pkg.cycle < (s.g a).toNat → Completes (.sleep a) s (waits (.sleep (s.g a)))) ∧
    ∀ (u : State) (c : Nat) (h : Option Nat),
      let v := s.g b
      let word : Word := BitVec.ofNat 64 (bytesAt u c 8)
      let watches (i : Instr) (w : WatchTest) (holds : Prop) : Prop :=
        Reaches s (.watch w v) (s.g a) u c h → u.poisoned c = false →
          (holds → Completes i s (fun t => t.pc = u.pc + 4#64 ∧ SameMemory u t ∧
            { t with ag := { t.ag with pc := u.ag.pc, waited := u.ag.waited } } = u)) ∧
          (¬holds → Completes i s (fun t => t.pc = u.pc ∧ t.ag.wait = .watch (.watch w v) (s.g a) 4 ∧ SameMemory u t ∧
            ∃ e : Armed, t.job.armed = u.job.armed ++ [e] ∧ e.agent = u.agId ∧ e.test = w ∧ e.v = v ∧
              e.loc = .cell c h ∧ e.ended = none ∧
              (e.polling = true ↔ 64 ≤ (u.job.armed.filter (fun p => p.ended.isNone && !p.polling &&
                u.tableOf p.loc == some (u.owner c h))).length)))
      watches (.mwaitEq a b) .eq (word = v) ∧ watches (.mwaitGe a b) .ge (v.toNat ≤ word.toNat) ∧
      watches (.mwaitNe a b) .ne (word ≠ v)

/-- R48, R51, R52 and R53: the checks of an access in their order, and where a window address leads. A passed check leaves
every register as it was, and but for cached entries and a walker's write of the entry it used, with what follows that
write at its home, it leaves everything (R304, R306). -/
def Obligations.ChecksComeInTheirOrder : Prop :=
  ∀ (s : State) (p : Priv) (f : Form) (va : Word) (z : Nat), z ∈ [1, 2, 4, 8] →
    let x := va.toNat
    let code (reason : Nat) : Byte :=
      BitVec.ofNat 8 (0x20 + reason + 8 * (match f.kind with | .load => 0 | .store => 1 | .fetch => 2 | .engine => 3))
    let fails (reason subr : Nat) : Prop := s.check p f va z = .error { cause := code reason, subr := subr, addr := va }
    let offset := x % 2 ^ 18
    (if x / 2 ^ 56 ≠ 0 ∧ x / 2 ^ 56 ≠ 0xFF then fails 2 0
    else if p = .user ∧ x / 2 ^ 56 = 0xFF then fails 3 0
    else if f ≠ .fetch ∧ x % z ≠ 0 then fails 4 0
    else x / 2 ^ 32 = 0xFFFF00 →
      if x / 2 ^ 29 % 8 ≠ 0 ∨ s.job.dies_n ≤ x / 2 ^ 25 % 16 then fails 5 0
      else if systemArea offset f then
        s.check p f va z = .ok (s, .cell (lsCell (s.job.pdie (x / 2 ^ 25 % 16)) (x / 2 ^ 18 % 128) offset) none)
      else fails 5 1) ∧
    ∀ u loc, s.check p f va z = .ok (u, loc) →
      u.ag = s.ag ∧ { u with mem := s.mem, job := { u.job with tlb := s.job.tlb, armed := s.job.armed } } = s

/-- R184 and R201: a vector load and store touch the bytes of active lanes alone, and check nothing when there are
none; the lowest poisoned dword with an active byte raises "poisoned load" with the register as it was. -/
def Obligations.VectorLoadsAndStoresTouchActiveLanes : Prop :=
  ∀ (t : LaneTy) (g : Reg) (k d : VReg) (s u : State) (c : Nat) (h : Option Nat),
    let on (i : Nat) : Bool := (s.k k).getLsbD i
    (s.k k = 0#16 →
      Completes (.vld t g k d) s (JumpedTo s (s.pc + 4#64)) ∧ Completes (.vst t g k d) s (JumpedTo s (s.pc + 4#64))) ∧
    (s.k k ≠ 0#16 → Reaches s (.vload t k d []) (s.g g) u c h → (∀ i < 16, on i → u.poisoned (c + 4 * i) = false) →
      Completes (.vld t g k d) s (fun w => ∃ x, WroteV u d x 0#64 w ∧ ∀ i < 16,
        laneAt 32 x i = if on i then bytesAt u (c + 4 * i) 4 else laneAt 32 (s.v d) i)) ∧
    (Reaches s (.vload t k d []) (s.g g) u c h → ∀ i < 8, on (2 * i) ∨ on (2 * i + 1) → u.poisoned (c + 8 * i) = true →
      (∀ j < i, on (2 * j) ∨ on (2 * j + 1) → u.poisoned (c + 8 * j) = false) →
      exec (.vld t g k d) s = .next (u.raise { cause := 0x60#8, addr := s.g g + BitVec.ofNat 64 (8 * i) }) ∧ ∀ r, u.v r = s.v r) ∧
    (s.k k ≠ 0#16 → Reaches s (.vstore t k d 0) (s.g g) u c h → Canonical u → QuietHome u h →
      Completes (.vst t g k d) s (fun w =>
        (∀ b, w.readByte b = if c ≤ b ∧ b < c + 64 ∧ on ((b - c) / 4) then BitVec.ofNat 8 (laneAt 8 (s.v d) (b - c))
          else u.readByte b) ∧
        (∀ b, w.poisoned b = if ∃ j < 8, b / 8 = c / 8 + j ∧ on (2 * j) ∧ on (2 * j + 1) then false else u.poisoned b) ∧
        w.pc = u.pc + 4#64 ∧
        { w with mem := u.mem, poison := u.poison, ag := { w.ag with pc := u.ag.pc }
                 job := { w.job with armed := u.job.armed } } = u))

/-- R202: gathers and scatters of 4-byte lanes in the slot's own local store, lanes in ascending order; a master cannot
execute them, the lowest failing lane decides the cause, and a poisoned dword under a lane of a gather raises "poisoned load" with the
register as it was. -/
def Obligations.IndexedLanesStayInTheirLocalStore : Prop :=
  ∀ (t : LaneTy) (g : Reg) (k d b : VReg) (s : State) (off : Nat → Nat),
    let on (i : Nat) : Bool := (s.k k).getLsbD i
    let va (i : Nat) : Word := s.g g + BitVec.ofNat 64 (laneAt 32 (s.v b) i)
    let cell (i : Nat) : Nat := lsCell (s.job.pdie (s.agId / 2 ^ 11 % 16)) (s.agId / 16 % 128) (off i)
    let quiet : Prop := ∀ i < 16, on i → s.watchpoint (va i) = (false, s)
    let free : Prop := (∀ x ∈ s.ag.nb, x.performed = true ∨ ∀ i < 16, on i → x.touches (.cell (cell i) none) 4 = false) ∧
      (∀ l ∈ s.job.loose, l.agent ≠ s.agId) ∧ s.share = none ∧ s.pkg.gated.contains (s.job.pdie (s.agId / 2 ^ 11 % 16)) = false
    (s.ag.role = .master →
      Takes (.vldx t g k d b) s { cause := 0x0C#8 } ∧ Takes (.vstx t g k d b) s { cause := 0x0C#8 }) ∧
    (s.ag.role ≠ .master → quiet →
      (∀ i < 16, on i → (∀ j < i, on j → ∃ o, s.laneCheck .load (va j) = .ok o) →
        ∀ e, s.laneCheck .load (va i) = .error e → Takes (.vldx t g k d b) s e) ∧
      (∀ i < 16, on i → (∀ j < i, on j → ∃ o, s.laneCheck .store (va j) = .ok o) →
        ∀ e, s.laneCheck .store (va i) = .error e → Takes (.vstx t g k d b) s e) ∧
      (free → (∀ i < 16, on i → s.laneCheck .load (va i) = .ok (off i) ∧ s.poisoned (cell i) = false) →
        Completes (.vldx t g k d b) s (fun w => ∃ x, WroteV s d x 0#64 w ∧ ∀ i < 16,
          laneAt 32 x i = if on i then bytesAt s (cell i) 4 else laneAt 32 (s.v d) i)) ∧
      (free → (∀ i < 16, on i → s.laneCheck .load (va i) = .ok (off i)) → ∀ i < 16, on i → s.poisoned (cell i) = true →
        (∀ j < i, on j → s.poisoned (cell j) = false) → Takes (.vldx t g k d b) s { cause := 0x60#8, addr := va i &&& ~~~7#64 }) ∧
      (free → Canonical s → (∀ i < 16, on i → s.laneCheck .store (va i) = .ok (off i)) →
        Completes (.vstx t g k d b) s (fun w =>
          (∀ i < 16, on i → (∀ j < 16, i < j → on j → cell j ≠ cell i) → bytesAt w (cell i) 4 = laneAt 32 (s.v d) i) ∧
          (∀ a, (∀ i < 16, on i → a < cell i ∨ cell i + 4 ≤ a) → w.readByte a = s.readByte a) ∧
          (∀ a, w.poisoned a = s.poisoned a) ∧ w.pc = s.pc + 4#64 ∧
          { w with mem := s.mem, ag := { w.ag with pc := s.ag.pc }, job := { w.job with armed := s.job.armed } } = s)))

/-- R14, R15, R16, R18, R24, R25 and R174: `spawn` launches a range with its broadcast state, stops on an empty one, or raises
what R16's table gives;
`join` waits until the spawn is complete, then says how it ended. -/
def Obligations.SpawnLaunchesAndJoinWaits : Prop :=
  ∀ (t a b : Reg) (s : State),
    let lo := (s.g a).toNat
    let hi := (s.g b).toNat
    let odd : Bool := (s.g t).getLsbD 0
    let id := s.job.nextSpawn
    let launched (P : Spawn → Prop) (u : State) : Prop :=
      (∃ sp, lookup id u.job.spawns = some sp ∧ P sp) ∧ u.ag.spawnid = BitVec.ofNat 64 id ∧ u.job.nextSpawn = id + 1 ∧
        u.pc = s.pc + 4#64 ∧ (∀ r, u.g r = s.g r) ∧ SameMemory s u ∧
        { u with ag := { u.ag with spawnid := s.ag.spawnid, pc := s.ag.pc }
                 job := { u.job with spawns := s.job.spawns, nextSpawn := id } } = s
    (s.ag.role ≠ .master → Takes (.spawn t a b) s { cause := 0x0C#8 } ∧ Takes .join s { cause := 0x0C#8 }) ∧
    (s.ag.role = .master → s.ag.spawnid ≠ 0#64 → Takes (.spawn t a b) s { cause := 0x44#8 }) ∧
    (s.ag.role = .master → s.ag.spawnid = 0#64 →
      if odd then Takes (.spawn t a b) s { cause := 0x0B#8 }
      else if hi < lo then Completes (.spawn t a b) s (JumpedTo s (s.pc + 4#64))
      else if 2 ^ 40 < hi - lo + 1 then Takes (.spawn t a b) s { cause := 0x45#8 }
      else Completes (.spawn t a b) s (launched (fun sp =>
        sp.lo = lo ∧ sp.hi = hi ∧ sp.nextChunk = lo ∧ sp.target = s.g t ∧ sp.rmode = s.ag.rmode ∧
        sp.upentry = s.ag.upentry ∧ sp.fibpool = s.ag.fibpool ∧ sp.homeDie = s.agId / 2 ^ 11 % 16 ∧ sp.root = id ∧
        sp.parent = id ∧ sp.master = s.agId ∧ sp.units = 0 ∧ sp.requests = 0 ∧ sp.ended = none ∧ sp.args.length = 23 ∧
        (∀ i < 23, sp.args.getD i 0#64 = s.g (BitVec.ofNat 5 (i + 1))) ∧
        (∀ n : Fin 8, sp.ps[n] = (lookup n.val s.ag.psInit).getD 0#64)))) ∧
    (s.ag.role = .master → s.ag.nb = [] →
      (s.ag.spawnid = 0#64 → lookup 0 s.job.spawns = none → Completes .join s (fun u =>
        u.ag.joinst = 0#64 ∧ u.pc = s.pc + 4#64 ∧ (∀ r, u.g r = s.g r) ∧ SameMemory s u)) ∧
      ∀ sp, lookup s.ag.spawnid.toNat s.job.spawns = some sp →
        (s.job.complete s.ag.spawnid.toNat sp = true → Completes .join s (fun u =>
          u.ag.joinst = (match sp.ended with
            | none => if sp.contained then 2#64 else 0#64
            | some .cancelled => 1#64
            | some .contained => 2#64) ∧
          u.ag.psLast = sp.ps ∧ u.ag.spawnid = 0#64 ∧ u.job.spawns = remove s.ag.spawnid.toNat s.job.spawns ∧
          u.pc = s.pc + 4#64 ∧ (∀ r, u.g r = s.g r) ∧ SameMemory s u)) ∧
        (s.job.complete s.ag.spawnid.toNat sp = false → Completes .join s (fun u =>
          u.ag.wait = .join ∧ { u with ag := { u.ag with wait := s.ag.wait } } = s)))

/-- R15, R30, R31 and R16: `spawnn` puts a child record at the head of the die's basin; an empty range creates nothing,
and with no room the cause is 0x46. -/
def Obligations.NestedSpawnsEnterTheBasin : Prop :=
  ∀ (t a b : Reg) (s : State) (p : Spawn),
    let lo := (s.g a).toNat
    let hi := (s.g b).toNat
    let id := s.job.nextSpawn
    let die := s.agId / 2 ^ 11 % 16
    (s.ag.role = .master → Takes (.spawnn t a b) s { cause := 0x0C#8 }) ∧
    (s.ag.role ≠ .master → lookup s.ag.spawnid.toNat s.job.spawns = some p →
      if (s.g t).getLsbD 0 then Takes (.spawnn t a b) s { cause := 0x0B#8 }
      else if hi < lo then Completes (.spawnn t a b) s (JumpedTo s (s.pc + 4#64))
      else if 2 ^ 40 < hi - lo + 1 then Takes (.spawnn t a b) s { cause := 0x45#8 }
      else
        (s.job.basinRoom die = false → Takes (.spawnn t a b) s { cause := 0x46#8 }) ∧
        (s.job.basinRoom die = true → Completes (.spawnn t a b) s (fun u =>
          u.pc = s.pc + 4#64 ∧ (∀ r, u.g r = s.g r) ∧ (u.job.die die).basin.head? = some id ∧ u.job.nextSpawn = id + 1 ∧
          ∃ sp, lookup id u.job.spawns = some sp ∧ sp.lo = lo ∧ sp.hi = hi ∧ sp.nextChunk = lo ∧ sp.target = s.g t ∧
            sp.rmode = s.ag.rmode ∧ sp.upentry = p.upentry ∧ sp.fibpool = p.fibpool ∧ sp.parent = s.ag.spawnid.toNat ∧
            sp.root = p.root ∧ (∀ i < 23, sp.args.getD i 0#64 = s.g (BitVec.ofNat 5 (i + 1))))))

/-- R27, R28, R29 and R177: a `ps` joins the window of R28 with the low 16 bits of its register, the requests standing in the order of
their windows and, within one, of their global slot indexes; requests that take effect give the sums before them, in that order; a
master's `psset` and `psget` act on the next spawn's registers, or on the live ones after the earlier windows. That a master's access is
at the home die in the window of its issue is the model's choice (log entry 104). -/
def Obligations.PrefixSumsTakeTheirTurn : Prop :=
  ∀ (d a : Reg) (n : VReg) (d3 n3 : BitVec 3) (s : State),
    let root := ((lookup s.ag.spawnid.toNat s.job.spawns).map (fun sp => sp.root)).getD 0
    let home := ((lookup root s.job.spawns).map (fun sp => sp.homeDie)).getD 0
    let before (x y : PsRequest) : Prop := x.window < y.window ∨ (x.window = y.window ∧ x.agent ≤ y.agent)
    let joins (len : Nat) (d : Reg) (n : Nat) (t : State) : Prop :=
      t.pc = s.pc + BitVec.ofNat 64 len ∧ t.ag.wait = .ps ∧ (∀ r, t.g r = s.g r) ∧ SameMemory s t ∧
      (s.job.psRequests.Pairwise before → t.job.psRequests.Pairwise before) ∧
      ∃ r : PsRequest, t.job.psRequests.Perm (r :: s.job.psRequests) ∧
        r.agent = s.agId ∧ r.spawn = root ∧ r.n = n ∧ r.d = d ∧ r.value = none ∧ r.lost = none ∧
        r.amount = (s.g d).toNat % 2 ^ 16 ∧
        (home = s.agId / 2 ^ 11 % 16 → r.window = s.pkg.cycle / 16 ∧ r.due = s.pkg.cycle + 24) ∧
        (home ≠ s.agId / 2 ^ 11 % 16 → r.window = (s.pkg.cycle + 48) / 16 ∧ r.due = s.pkg.cycle + 112)
    (s.ag.role = .master → Takes (.ps d n) s { cause := 0x0C#8 } ∧ Takes (.cPs d3 n3) s { cause := 0x0C#8 }) ∧
    (s.ag.role ≠ .master →
      Completes (.ps d n) s (joins 4 d n.toNat) ∧
      Completes (.cPs d3 n3) s (joins 2 (BitVec.ofNat 5 (24 + d3.toNat)) n3.toNat) ∧
      Takes (.psset n a) s { cause := 0x0C#8 } ∧ Takes (.psget d n) s { cause := 0x0C#8 }) ∧
    (s.ag.role = .master → s.ag.spawnid = 0#64 →
      Completes (.psset n a) s (fun t => lookup n.toNat t.ag.psInit = some (s.g a) ∧ t.pc = s.pc + 4#64 ∧
        { t with ag := { t.ag with psInit := s.ag.psInit, pc := s.ag.pc } } = s) ∧
      Completes (.psget d n) s (Wrote s d ((lookup n.toNat s.ag.psInit).getD s.ag.psLast[n.toFin]) 4)) ∧
    (s.ag.role = .master → s.ag.spawnid ≠ 0#64 → ∀ sp,
      lookup s.ag.spawnid.toNat (s.psWindows s.ag.spawnid.toNat (s.pkg.cycle / 16)).job.spawns = some sp →
      Completes (.psset n a) s (fun t => t.pc = s.pc + 4#64 ∧ (∀ r, t.g r = s.g r) ∧
        lookup s.ag.spawnid.toNat t.job.spawns = some { sp with ps := sp.ps.set n.toFin (s.g a) }) ∧
      Completes (.psget d n) s (fun t => GotG s t d sp.ps[n.toFin] ∧ t.pc = s.pc + 4#64)) ∧
    ∀ (rs : List PsRequest) (id bound : Nat) (i : Fin 8) (ps : Vector Word 8),
      (∀ r ∈ rs, r.spawn = id ∧ r.value = none ∧ r.lost ≠ some .request ∧ r.window < bound ∧ r.n = i.val) →
      let sum (k : Nat) : Word := ps[i] + BitVec.ofNat 64 ((rs.take k).map (fun r => r.amount)).sum
      (applyPs id bound rs ps).2 = ps.set i (sum rs.length) ∧
        ∀ k < rs.length, ((applyPs id bound rs ps).1[k]?).bind (fun r => r.value) = some (sum k)

/-- R15, R45, R176 and R178: `next` retires the unit and leaves a slot that draws nothing vacant; it waits for streaming
accesses. `cancel` marks its spawn and ends the unit at its next turn; a master with no spawn cancels nothing. -/
def Obligations.UnitsRetireAndCancel : Prop :=
  ∀ (s : State) (sp : Spawn),
    let id := s.ag.spawnid.toNat
    let die := s.agId / 2 ^ 11 % 16
    let idle : Prop := (∀ r ∈ s.job.ready, r.core ≠ coreKey s.agId) ∧ (s.job.die die).basin = [] ∧
      (s.job.die die).spilled = [] ∧ (s.job.die die).entries = [] ∧ s.job.again die = none
    let retires (i : Instr) : Prop := Completes i s (fun t =>
      t.ag.occupied = false ∧ t.ag.nb = [] ∧ t.agId = s.agId ∧ (∀ r, t.g r = 0#64) ∧ (∀ a, t.feBit a = s.feBit a) ∧
      (s.ag.role = .unit → lookup id s.job.spawns = some sp → sp.root = id → s.job.orphan sp = false →
        lookup id t.job.spawns = some { sp with units := sp.units - 1 }) ∧
      (s.ag.role = .runtime → t.job = s.job))
    let waits (len : Nat) (i : Instr) : Prop := Completes i s (fun t =>
      t.ag.wait = .next len ∧ { t with ag := { t.ag with wait := s.ag.wait } } = s)
    (s.ag.role = .master → Takes .next s { cause := 0x0C#8 } ∧ Takes .cNext s { cause := 0x0C#8 }) ∧
    (s.ag.role ≠ .master → s.ag.nb = [] → idle → retires .next ∧ retires .cNext) ∧
    (s.ag.role ≠ .master → s.ag.nb ≠ [] → (∀ x ∈ s.ag.nb, x.failed = none) → waits 4 .next ∧ waits 2 .cNext) ∧
    (s.ag.role = .master → s.ag.spawnid = 0#64 → Completes .cancel s (JumpedTo s (s.pc + 4#64))) ∧
    (s.ag.spawnid ≠ 0#64 ∨ s.ag.role ≠ .master → lookup id s.job.spawns = some sp → Completes .cancel s (fun t =>
      t.pc = s.pc + 4#64 ∧ (∀ r, t.g r = s.g r) ∧ (∀ x, lookup id t.job.spawns = some x → x.ended ≠ none) ∧
      (∀ x ∈ t.job.dies, id ∉ x.2.basin ∧ id ∉ x.2.spilled ∧ ∀ e ∈ x.2.entries, e.2.spawn ≠ id) ∧
      (s.ag.role ≠ .master → s.ag.occupied = true → t.ag.ending = true)))

/-- R38, R42, R179 and R180: `fbsave` writes the unit's record with the pc of the next instruction and enters the upcall
runtime with the spawn's arguments, the entry in g24, the cause in g25 and address 0 in g26. -/
def Obligations.FibreSaveEntersTheRuntime : Prop :=
  ∀ (s u : State) (sp : Spawn) (entry : Word) (cell : Nat) (home : Option Nat),
    (s.ag.role = .master → Takes .fbsave s { cause := 0x0C#8 }) ∧
    (s.ag.role = .runtime → Takes .fbsave s { cause := 0x47#8 }) ∧
    (s.ag.role = .unit → s.ag.nb = [] → lookup s.ag.spawnid.toNat s.job.spawns = some sp →
      (sp.upentry = 0#64 → exec .fbsave s = .next ((s.setWait .ready).raise { cause := 0x48#8 })) ∧
      (sp.upentry ≠ 0#64 →
        ((s.setWait .ready).freePoolEntry sp.fibpool (poolSize sp.fibpool) 0 = none →
          exec .fbsave s = .next ((s.setWait .ready).raise { cause := 0x49#8 })) ∧
        ((s.setWait .ready).freePoolEntry sp.fibpool (poolSize sp.fibpool) 0 = some (entry, cell, home, u) →
          Completes .fbsave s (fun t =>
            t.ag.role = .runtime ∧ t.pc = sp.upentry ∧ t.ag.occupied = true ∧ t.ag.wait = .ready ∧ t.ag.rmode = sp.rmode ∧
            (∀ i < 23, t.g (BitVec.ofNat 5 (i + 1)) = sp.args.getD i 0#64) ∧ t.g 24#5 = entry ∧ t.g 25#5 = 0x42#64 ∧
            t.g 26#5 = 0#64 ∧ t.g 30#5 = stackTop s.agId ∧ t.ag.upcause = 0x42#64 ∧ t.ag.upaddr = 0#64 ∧
            (∃ f, lookup entry.toNat t.job.fibres = some f ∧ f.spawn = s.ag.spawnid.toNat ∧ f.uid = s.ag.uid) ∧
            (Canonical u → QuietHome u home →
              t.readWord (cell + 0x350) = s.pc + 4#64 ∧ t.readWord (cell + 0x358) = s.ag.rmode ∧
              t.readWord (cell + 0x368) = s.ag.tid ∧ t.readWord (cell + 0x370) = s.ag.spawnid ∧
              (∀ i < 32, t.readWord (cell + 0x200 + 8 * i) = s.g (BitVec.ofNat 5 i)) ∧
              (∀ i < 8, t.readWord (cell + 0x300 + 8 * i) = s.xe (BitVec.ofNat 3 i)) ∧
              ∀ i < 64, t.readWord (cell + 8 * i) = BitVec.ofNat 64 (laneAt 64 (s.v (BitVec.ofNat 3 (i / 8))) (i % 8)))))))

/-- R39, R40, R181 and R182: `fbload` puts a saved fibre of this core into the slot, at its recorded pc and with g30 moved
with its slot; `fbret` makes a held fibre ready on its home core. -/
def Obligations.FibresComeBack : Prop :=
  ∀ (a : Reg) (s u : State) (st core cell : Nat) (home : Option Nat) (f : FibreInfo),
    let entry := s.g a
    (s.ag.role = .master → Takes (.fbload a) s { cause := 0x0C#8 } ∧ Takes (.fbret a) s { cause := 0x0C#8 }) ∧
    (s.ag.role = .unit → Takes (.fbload a) s { cause := 0x47#8 } ∧ Takes (.fbret a) s { cause := 0x47#8 }) ∧
    (s.ag.role = .runtime → s.fibreAt entry = none →
      Takes (.fbload a) s { cause := 0x47#8 } ∧ Takes (.fbret a) s { cause := 0x47#8 }) ∧
    (s.ag.role = .runtime → s.fibreAt entry = some (st, core) →
      (st ≠ 2 → Takes (.fbret a) s { cause := 0x47#8 }) ∧
      (st = 2 → Completes (.fbret a) s (fun t => t.pc = s.pc + 4#64 ∧ (∀ r, t.g r = s.g r) ∧
        t.job.ready = s.job.ready ++ [{ core := core, entry := entry }])) ∧
      (¬((st = 2 ∨ st = 3) ∧ core = coreKey s.agId) → Takes (.fbload a) s { cause := 0x47#8 }) ∧
      (st = 2 ∨ st = 3 → core = coreKey s.agId → s.ag.nb = [] → lookup entry.toNat s.job.fibres = some f →
        s.hwCell false entry 2048 = .ok (u, cell, home) → (∀ i < 192, u.poisoned (cell + 8 * i) = false) →
        (u.readWord (cell + 0x360)).toNat / 2 ^ 60 = st → recordBody false (u.getWords cell 192) = f.image → f.runtime = false →
        Completes (.fbload a) s (fun t =>
          let w (off : Nat) : Word := u.readWord (cell + off)
          let moved : Word := BitVec.ofNat 64 512 *
            (BitVec.ofNat 64 (s.agId % 16) - BitVec.ofNat 64 ((w 0x360).toNat / 2 ^ 29 % 16))
          t.ag.role = .unit ∧ t.ag.occupied = true ∧ t.pc = w 0x350 ∧ t.ag.rmode = w 0x358 &&& 0x1F3#64 ∧ t.ag.tid = w 0x368 ∧
          t.ag.spawnid = w 0x370 ∧ t.ag.upaddr = w 0x378 ∧ t.ag.wait = .ready ∧ t.ag.uid = f.uid ∧
          (∀ i < 32, 0 < i → i ≠ 30 → t.g (BitVec.ofNat 5 i) = w (0x200 + 8 * i)) ∧ t.g 30#5 = w (0x200 + 8 * 30) + moved ∧
          t.job.fibres = remove entry.toNat s.job.fibres ∧ ∀ r ∈ t.job.ready, r.entry ≠ entry)))

/-- R206, R209 and R210: `cppost` fills its mailbox with the record's address and is counted, `cpprom` empties its reply
word, and `cpwait` completes when the stamp holds the copy's number, or raises "promise missed". -/
def Obligations.CopiesArePostedAndAwaited : Prop :=
  ∀ (n : BitVec 2) (d a p r q : Reg) (s u : State) (c : Nat) (h : Option Nat),
    let key := s.agId / 16 % 2 ^ 11
    let box : Word := BitVec.ofNat 64 (0x00FF_FF00_0003_E000 + key * 2 ^ 18 + 8 * n.toNat)
    let reply : Word := box + 0x20#64
    let seq := (s.g q).toNat % 2 ^ 40
    let idle : Prop := ∀ x ∈ u.job.parked, x.ended = none → x.cell / 8 ≠ c / 8
    let own : Prop := (s.g a).toNat / 2 ^ 18 = 0x00FF_FF00_0000_0000 / 2 ^ 18 + key ∧ (s.g a).toNat % 2 ^ 18 < 0x3_C000 ∧
      (s.g a).toNat % 64 = 0
    (s.ag.role = .master → Takes (.cppost n a) s { cause := 0x0C#8 } ∧ Takes (.cpprom d n) s { cause := 0x0C#8 } ∧
      Takes (.cpwait p r q) s { cause := 0x0C#8 }) ∧
    (s.ag.role ≠ .master →
      (¬own → Takes (.cppost n a) s { cause := 0x80#8, addr := s.g a }) ∧
      (own → Reaches s (.post n.toNat (s.g a)) box u c h → u.feBit c = false → Canonical u → QuietHome u h → idle →
        Completes (.cppost n a) s (fun t =>
          t.pc = u.pc + 4#64 ∧ (∀ r, t.g r = u.g r) ∧ Holds u t c 8 (s.g a).toNat ∧
          (∀ b, t.feBit b = if b / 8 = c / 8 then true else u.feBit b) ∧
          lookup n.toNat (t.job.conduit key).posters = some u.poster ∧ (t.job.conduit key).seq = (u.job.conduit key).seq ∧
          (t.job.conduit key).copies = (u.job.conduit key).copies)) ∧
      (Reaches s (.fe .ldfe d 0#64) reply u c h → u.feBit c = true → u.poisoned c = false → Canonical u → idle →
        Completes (.cpprom d n) s (FullEmptyDone u d (BitVec.ofNat 64 (bytesAt u c 8)) c false none)) ∧
      (Reaches s (.stamp seq) (s.g r) u c h → u.poisoned c = false → (s.g p).toNat ≤ s.pkg.cycle →
        (bytesAt u c 8 % 2 ^ 40 = seq → Completes (.cpwait p r q) s (JumpedTo u (u.pc + 4#64))) ∧
        (bytesAt u c 8 % 2 ^ 40 ≠ seq → exec (.cpwait p r q) s = .next (u.raise { cause := 0x41#8, addr := s.g r }))) ∧
      (s.pkg.cycle < (s.g p).toNat → Reaches s (.stamp seq) (s.g r) u c h →
        Completes (.cpwait p r q) s (fun t => t.ag.wait = .cpwait (.stamp seq) (s.g r) (s.g p) ∧ t.pc = u.pc ∧
          { t with ag := { t.ag with wait := u.ag.wait } } = u)))

/-- R222, R232, R234 and R241: posts to the tile scheduler, a memory-side queue and a communicator give the request its
number and queue it behind those posted before; a full queue makes the agent wait, not ready on message, a gated die's
scheduler wakes first (R356), and a record or list out of rule raises its cause and posts nothing. The address that a bad task list is
raised with is the model's choice (log entry 106). -/
def Obligations.PostsQueueTheirRequests : Prop :=
  ∀ (d a b : Reg) (s : State),
    let die := (s.g a).toNat / 64
    let list := (s.g a).toNat % 64
    let own : Prop := (s.g d).toNat / 2 ^ 18 = 0x00FF_FF00_0000_0000 / 2 ^ 18 + s.agId / 16 % 2 ^ 11 ∧
      (s.g d).toNat % 2 ^ 18 < 0x3_C000 ∧ (s.g d).toNat % 64 = 0
    let ticket := (lookup list (s.job.tile die).tickets).getD 1
    let asleep : Prop := s.job.pdie die ∈ s.pkg.gated
    let x := (s.g a).toNat
    let sel := (s.g b).toNat
    let n := s.job.dies_n
    (s.ag.role = .master → Takes (.tkpost d a) s { cause := 0x0C#8 }) ∧
    (s.ag.role ≠ .master →
      (¬own → Takes (.tkpost d a) s { cause := 0x83#8, addr := s.g d }) ∧
      (own → n ≤ die → Takes (.tkpost d a) s { cause := 0x84#8, addr := s.g d }) ∧
      (own → die < n → asleep → exec (.tkpost d a) s = .next ((s.wakeDie (s.job.pdie die)).setWait (.again 2))) ∧
      (own → die < n → ¬asleep → 1024 ≤ (s.job.tile die).tasks.length → exec (.tkpost d a) s = .next (s.setWait (.again 2))) ∧
      (own → die < n → ¬asleep → (s.job.tile die).tasks.length < 1024 → Completes (.tkpost d a) s (fun t =>
        GotG s t d (BitVec.ofNat 64 ticket) ∧ t.pc = s.pc + 4#64 ∧
        lookup list (t.job.tile die).tickets = some (ticket + 1) ∧
        ∃ k : Task, (t.job.tile die).tasks = (s.job.tile die).tasks ++ [k] ∧ k.list = list ∧ k.ticket = ticket ∧
          k.state = 1 ∧ k.dispatched = false ∧ k.poster = s.poster ∧ k.record = s.record8 (s.windowCellOf (s.g d))))) ∧
    (let acc (e h : Nat) : Option Acc := lookup h (s.job.tile e).accs
     let gives (v : Nat → Word) (bound : Nat) : Prop :=
       (x < bound → Completes (.tkstat d a b) s (Wrote s d (v x) 4)) ∧
       (bound ≤ x → Takes (.tkstat d a b) s { cause := 0x8C#8 })
     (sel = 0 → gives (fun i => ((acc (i / 256) (i % 256)).map Acc.dword0).getD 0#64) (256 * n)) ∧
     (sel = 1 → gives (fun i => ((acc (i / 256) (i % 256)).map Acc.dword1).getD 0#64) (256 * n)) ∧
     (sel = 2 → gives (fun i => BitVec.ofNat 64 ((lookup (i % 64) (s.job.tile (i / 64)).timelines).getD 0)) (64 * n)) ∧
     (sel = 3 → gives (fun i => s.job.timelineVa (8 * i)) (64 * n)) ∧
     (sel = 4 → gives (fun i => s.job.timelineVa (0x2000 + 8 * i)) (32 * n)) ∧
     (5 ≤ sel → Takes (.tkstat d a b) s { cause := 0x8C#8 })) ∧
    (∀ s1 t, s.readBlock (s.g a) = .trap s1 t → exec (.mspost d a) s = .next (s1.raise t)) ∧
    (∀ t, s.readBlock (s.g a) = .again t → exec (.mspost d a) s = .next t) ∧
    (∀ s1 ws, s.readBlock (s.g a) = .ok s1 ws →
      let daddr := ws.getD 1 0#64
      (∀ t, s1.check s1.ag.priv .store daddr 1 = .error t → t.cause ≠ 0x63#8 → exec (.mspost d a) s = .next (s1.raise t)) ∧
      (∀ t, s1.check s1.ag.priv .store daddr 1 = .error t → t.cause = 0x63#8 →
        exec (.mspost d a) s = .next (s1.raise { cause := 0x2E#8, addr := daddr })) ∧
      ∀ s2 l, s1.check s1.ag.priv .store daddr 1 = .ok (s2, l) →
        ((∀ c, l = .cell c none → isLocal c = true) → exec (.mspost d a) s = .next (s1.raise { cause := 0x2E#8, addr := daddr })) ∧
        ∀ c, l = .cell c none → isLocal c = false →
          let key := (s2.job.vdie (c / 2 ^ 38)).getD 0 * 2 + c / 2 ^ 37 % 2
          let m := s2.job.msEngine key
          let queue := (ws.getD 0 0#64).toNat / 2 ^ 32 % 16
          let seq := (lookup queue m.seqs).getD 1
          (32 ≤ (m.requests.filter (fun r => r.queue = queue)).length →
            exec (.mspost d a) s = .next (s2.setWait (.room (.memSide d ws key) 4))) ∧
          ((m.requests.filter (fun r => r.queue = queue)).length < 32 → Completes (.mspost d a) s (fun t =>
            GotG s2 t d (BitVec.ofNat 64 seq) ∧ t.pc = s2.pc + 4#64 ∧ SameMemory s2 t ∧
            lookup queue (t.job.msEngine key).seqs = some (seq + 1) ∧
            ∃ r : MsRequest, (t.job.msEngine key).requests = m.requests ++ [r] ∧ r.queue = queue ∧ r.seq = seq ∧
              r.block = ws ∧ r.started = false ∧ r.poster = s2.poster))) ∧
    (∀ s1 ws c, s.readBlock (s.g a) = .ok s1 ws → sel < 256 → lookup sel s.job.comms = some c →
      lookup sel s1.job.comms = some c → 16 ≤ c.instances.length ∨ s1.job.status ≠ .running →
      exec (.colpost d a b) s = .next (s1.setWait (.room (.collective d ws sel) 4))) ∧
    (∀ s1 ws c, s.readBlock (s.g a) = .ok s1 ws → sel < 256 → lookup sel s.job.comms = some c →
      lookup sel s1.job.comms = some c → s1.job.status = .running → c.instances.length < 16 →
      Completes (.colpost d a b) s (fun t =>
        GotG s1 t d (BitVec.ofNat 64 (c.seq + 1)) ∧ t.pc = s1.pc + 4#64 ∧ SameMemory s1 t ∧
        ∃ c' i, lookup sel t.job.comms = some c' ∧ c'.seq = c.seq + 1 ∧ c'.instances = c.instances ++ [i] ∧
          i.seq = c.seq + 1 ∧ i.record = ws ∧ i.started = false ∧ i.poster = s1.poster)) ∧
    (∀ c, sel < 256 → lookup sel s.job.comms = some c →
      (∀ s1 t, s.readBlock (s.g a) = .trap s1 t → exec (.colpost d a b) s = .next (s1.raise t)) ∧
      (∀ t, s.readBlock (s.g a) = .again t → exec (.colpost d a b) s = .next t)) ∧
    (∀ s1 ws, s.readBlock (s.g a) = .ok s1 ws → 256 ≤ sel ∨ lookup sel s.job.comms = none →
      exec (.colpost d a b) s = .next ((s.watchpoint (s.g a)).2.raise { cause := 0x8E#8 }))

/-- R6, R85, R118, R119, R153, R283, R296 and R297: what `mfs` reads and what `mts` does, by number, context and privilege. That
`ferlimit` keeps the low 32 bits of a value and refuses one whose low 32 bits are 0 is the model's choice (log entry 68). -/
def Obligations.NamedStatesReadAndWrite : Prop :=
  ∀ (d a : Reg) (n : BitVec 12) (s : State),
    let x := s.g a
    let no := n.toNat
    let special : Prop := 0x400 ≤ no ∧ no ≤ 0x40F
    let kind := s.job.lvlsel.toNat / 2 ^ 61
    let id := s.job.lvlsel.toNat % 2 ^ 48
    let reads (m : Nat) (v : Word) : Prop := no = m → Completes (.mfs d n) s (Wrote s d v 4)
    let writes (m : Nat) : Prop := no = m → s.job.refuses m x = false →
      Completes (.mts n a) s (fun t => t.named m = x &&& nsMask m ∧ t.pc = s.pc + 4#64 ∧ (∀ r, t.g r = s.g r) ∧
        SameMemory s t ∧ ∀ k, k ≠ m → k ≠ 0x40C → t.named k = s.named k)
    let refused (m : Nat) (bad : Prop) : Prop := no = m → bad → Takes (.mts n a) s { cause := 0x0D#8 }
    let fixed (m : Nat) : Prop := no = m → Takes (.mts n a) s { cause := 0x0E#8 }
    (14 < no → ¬special → no ≠ 0x800 → no ≠ 0x801 →
      Takes (.mfs d n) s { cause := 0x0A#8 } ∧ Takes (.mts n a) s { cause := 0x0A#8 }) ∧
    ((special ∧ s.ag.priv = .user) ∨ ((no = 0x800 ∨ no = 0x801) ∧ s.ag.priv ≠ .firmware) →
      Takes (.mfs d n) s { cause := 0x09#8 } ∧ Takes (.mts n a) s { cause := 0x09#8 }) ∧
    reads 0 (BitVec.ofNat 64 s.pkg.cycle) ∧ reads 2 (BitVec.ofNat 64 s.agId) ∧ reads 3 s.ag.spawnid ∧
    reads 4 s.ag.rmode ∧ reads 6 s.ag.upentry ∧ reads 9 s.ag.fibpool ∧ reads 10 s.job.ferlimit ∧
    reads 11 (BitVec.ofNat 64 s.ag.nbload) ∧ reads 12 (BitVec.ofNat 64 s.ag.nbstore) ∧
    reads 13 (BitVec.ofNat 64 (s.cpout s.ag)) ∧ reads 14 (BitVec.ofNat 64 (s.tkout s.ag)) ∧
    (s.ag.role = .master → reads 1 0#64 ∧ reads 5 s.ag.joinst ∧ reads 7 0#64 ∧ reads 8 0#64) ∧
    (s.ag.role ≠ .master → reads 1 s.ag.tid ∧ reads 5 0#64 ∧ reads 7 s.ag.upcause ∧ reads 8 s.ag.upaddr) ∧
    (s.ag.priv = .supervisor →
      reads 0x400 s.job.jobid ∧ reads 0x401 s.job.vdcount ∧ reads 0x402 s.job.sqbase ∧ reads 0x403 s.job.sqhead ∧
      reads 0x404 s.job.sqtail ∧ reads 0x405 s.job.basinov ∧ reads 0x406 s.job.sfibarea ∧ reads 0x407 s.job.tlarea ∧
      reads 0x408 s.job.ptroot ∧ reads 0x409 s.job.dlbase ∧ reads 0x40A s.job.jobpol ∧ reads 0x40B s.job.lvlsel ∧
      reads 0x40D 0#64 ∧ reads 0x40F 0#64 ∧
      (let queued (p : Nat) : Nat := (s.job.runs.filter (fun r => !r.started && r.prio == p)).length
       let flying : Nat := (s.job.runs.filter (fun r => r.started)).length
       reads 0x40E (BitVec.ofNat 64 (queued 0 + 2 ^ 8 * queued 1 + 2 ^ 16 * queued 2 + 2 ^ 24 * queued 3 + 2 ^ 32 * flying))) ∧
      (s.levelCount kind id = none → reads 0x40C 0xFFFF_FFFF_FFFF_FFFF#64) ∧
      (∀ c, s.levelCount kind id = some c → reads 0x40C (BitVec.ofNat 64 c)) ∧
      (∀ r, kind = 1 → s.job.run? id = some r → r.started = true →
        reads 0x40C (BitVec.ofNat 64 (r.nodes.filter (fun n => !n.final)).length)) ∧
      (kind = 3 → lookup id s.job.spawns = none → reads 0x40C 0xFFFF_FFFF_FFFF_FFFF#64) ∧
      (kind = 4 → id < 2 ^ 15 → (s.agent id).occupied = true → (s.agent id).role = .unit →
        reads 0x40C (BitVec.ofNat 64 (1 + (s.agent id).nb.length)))) ∧
    (∀ m ∈ [0, 1, 2, 3, 5, 7, 8, 11, 12, 13, 14], fixed m) ∧
    (s.ag.role ≠ .master → fixed 6 ∧ fixed 9) ∧ (s.ag.priv = .user → fixed 10) ∧
    (s.ag.priv = .supervisor → ∀ m ∈ [0x400, 0x401, 0x404, 0x40C, 0x40E], fixed m) ∧
    (no = 4 → Completes (.mts n a) s (fun t => t.ag.rmode = x &&& 0x1F3#64 ∧ t.pc = s.pc + 4#64 ∧
      { t with ag := { t.ag with rmode := s.ag.rmode, pc := s.ag.pc } } = s ∧ SameMemory s t)) ∧
    (s.ag.role = .master → writes 6 ∧ writes 9 ∧
      refused 6 (x ≠ 0#64 ∧ (2 ^ 56 ≤ x.toNat ∨ x.getLsbD 0 = true)) ∧ refused 9 (20 < x.toNat / 2 ^ 59)) ∧
    (s.ag.priv = .supervisor →
      (∀ m ∈ [10, 0x402, 0x403, 0x405, 0x406, 0x407, 0x408, 0x409, 0x40A, 0x40B], writes m) ∧
      refused 10 (x.toNat % 2 ^ 32 = 0) ∧ refused 0x40B (4 < x.toNat / 2 ^ 61) ∧ refused 0x40D (1 < x.toNat) ∧
      (no = 0x40D → x = 0#64 → Completes (.mts n a) s (JumpedTo s (s.pc + 4#64))) ∧
      (no = 0x40D → x = 1#64 →
        (s.levelCount kind id = none → Completes (.mts n a) s (JumpedTo s (s.pc + 4#64))) ∧
        (kind = 0 → Completes (.mts n a) s (fun t => t.job = Job.absent ∧ t.ag = Agent.vacant)) ∧
        (kind = 1 → s.levelCount kind id ≠ none → exec (.mts n a) s = .next ((s.advance 4).cancelRun id)) ∧
        (kind = 3 → s.levelCount kind id ≠ none → Completes (.mts n a) s (fun t => t.pc = s.pc + 4#64 ∧ (∀ r, t.g r = s.g r) ∧
          ∀ y, lookup id t.job.spawns = some y → y.ended ≠ none)) ∧
        (kind = 4 → id < 2 ^ 15 → id ≠ s.agId → (s.agent id).occupied = true → (s.agent id).role = .unit →
          Completes (.mts n a) s (fun t => t.agent id = { s.agent id with ending := true } ∧ t.pc = s.pc + 4#64 ∧
            (∀ b, b ≠ id → b ≠ s.agId → t.agent b = s.agent b) ∧ SameMemory s t))) ∧
      (no = 0x40F → ∀ s1 ws s2 c h, s.readBlock x = .ok s1 ws → s1.check s1.ag.priv .store (x + 24#64) 8 = .ok (s2, .cell c h) →
        let handle := commHandle ws
        let wrote (stat : Nat) (t : State) : Prop := t.readWord c = BitVec.ofNat 64 stat ∧ t.pc = s2.pc + 4#64 ∧ ∀ r, t.g r = s2.g r
        (∀ v tree, commOp ws = 1 → commCreateOk ws = true → lookup handle s2.job.comms = none →
          State.engReads { request := requestId 7 handle 0, chunk := 0, priv := .user }
            (items (ws.getD 2 0#64) 8 (commSize ws + commNodes ws)) s2 = .ok v tree →
          Canonical v → QuietHome v h → Completes (.mts n a) s (fun t => wrote 1 t ∧
            ∃ m, lookup handle t.job.comms = some m ∧ m.rank = commRank ws ∧ m.size = commSize ws ∧ m.nnode = commNodes ws ∧
              m.threshold = commThreshold ws ∧ m.seq = 0 ∧ m.instances = [] ∧ m.tree = tree.map (BitVec.ofNat 64))) ∧
        (∀ m, commOp ws = 2 → commReservedOk ws = true → lookup handle s2.job.comms = some m →
          (m.instances = [] → Canonical s2 → QuietHome s2 h → Completes (.mts n a) s (fun t => wrote 1 t ∧
            t.job.comms = remove handle s2.job.comms)) ∧
          (m.instances ≠ [] → Completes (.mts n a) s (fun t => t.ag.wait = .again 1 ∧ t.pc = s2.pc ∧
            lookup handle t.job.comms = some { m with ending := true }))) ∧
        ((commOp ws ≠ 1 ∧ commOp ws ≠ 2) ∨ (commOp ws = 1 ∧ (commCreateOk ws = false ∨ lookup handle s2.job.comms ≠ none)) ∨
            (commOp ws = 2 ∧ (commReservedOk ws = false ∨ lookup handle s2.job.comms = none)) →
          Canonical s2 → QuietHome s2 h → Completes (.mts n a) s (fun t => wrote 4 t ∧ t.job.comms = s2.job.comms))))

/-- R155, R156 and R14: a supervisor call and a breakpoint raise their causes with the pc of the next instruction and
their operand; node exit ends the node on its master. -/
def Obligations.SystemCallsAndBreakpoints : Prop :=
  ∀ (n : BitVec 12) (s : State),
    let past : State := { s with ag := { s.ag with pc := s.ag.pc + 4#64 } }
    (n ≠ 0#12 → exec (.sys n) s = .next (past.raise { cause := 0xA0#8, info := n.setWidth 64 })) ∧
    exec (.brk n) s = .next (past.raise { cause := 0xA1#8, addr := s.ag.pc, info := n.setWidth 64 }) ∧
    (s.ag.role ≠ .master → Takes (.sys 0#12) s { cause := 0x0C#8 }) ∧
    (s.ag.role = .master → s.ag.spawnid ≠ 0#64 → Takes (.sys 0#12) s { cause := 0x44#8 }) ∧
    (s.ag.role = .master → s.ag.spawnid = 0#64 → s.ag.nb = [] → s.ag.priv = .user →
      Completes (.sys 0#12) s (fun t => t.ag.occupied = false ∧ SameMemory s t ∧
        t.job.node? s.ag.run s.ag.node = (s.job.node? s.ag.run s.ag.node).map (fun x => { x with st := .exited s.agId })))

/-- R280 and R328-R334: at U every privileged instruction raises 0x08; at S each has its effect: of `sret` every disposition of every
kind of record. The order of the conditions of `slspill` and `slload` is the model's choice (log entry 44). -/
def Obligations.PrivilegedInstructionsAct : Prop :=
  ∀ (a b : Reg) (s : State),
    let x := s.g a
    let y := s.g b
    let slot := x.toNat
    let kept := s.job.tlb.filter (fun e => !s.inScope x y e)
    let drain := s.drainOf s.ag.pc x y (s.job.tlb.filter (s.inScope x y))
    let done (P : State → Prop) (t : State) : Prop := t.pc = s.pc + 4#64 ∧ (∀ r, t.g r = s.g r) ∧ P t
    (s.ag.priv = .user → ∀ i ∈ [Instr.sret, .tlbinv a b, .slspill a b, .slload a b, .slstop a, .slgo a, .halt, .idle],
      Takes i s { cause := 0x08#8 }) ∧
    (s.ag.priv = .supervisor →
      Completes .halt s (done (fun t => t.ag.wait = .halt ∧ t.job.status = .halting ∧ SameMemory s t)) ∧
      (s.job.queued ≠ 0 → Completes .idle s (done (fun t => t.ag.wait = .ready ∧ SameMemory s t))) ∧
      (s.job.queued = 0 → Completes .idle s (fun t => t.ag.wait = .idle ∧ { t with ag := { t.ag with wait := s.ag.wait } } = s) ∧
        Completes .sret s (JumpedTo s (s.pc + 4#64))) ∧
      (∀ u cell h, s.job.queued ≠ 0 → s.hwCell false (s.job.recordVa s.job.sqhead.toNat) 64 = .ok (u, cell, h) →
        (∀ i < 8, u.poisoned (cell + 8 * i) = false) → u.job.status ≠ .absent →
        let r0 := (u.readWord cell).toNat
        let disp := r0 / 2 ^ 60
        let kind := r0 / 2 ^ 56 % 16
        let handle := (u.readWord (cell + 24)).toNat
        let entry := u.readWord (cell + 40)
        let number := entry.toNat
        let cause : Trap := { cause := BitVec.ofNat 8 r0, subr := r0 / 2 ^ 52 % 16, addr := u.readWord (cell + 16) }
        let v := u.advance 4
        let head : Word := BitVec.ofNat 64 ((s.job.sqhead.toNat + 1) % 2 ^ 32)
        let retires (P : State → Prop) : Prop := Completes .sret s (done (fun t => t.job.sqhead = head ∧ P t))
        let retired (w : State) : State :=
          if w.job.status = .absent then w
          else { w with job := { w.job with sqhead := BitVec.ofNat 64 ((w.job.sqhead.toNat + 1) % 2 ^ 32) } }
        (disp = 0 ∨ 4 ≤ disp ∨ 7 ≤ kind → retires (fun t => SameMemory u t ∧ t.job.fibres = u.job.fibres ∧ t.job.spawns = u.job.spawns ∧
          t.job.ready = u.job.ready ∧ t.job.runs = u.job.runs)) ∧
        (∀ f st, kind ≤ 1 → u.savedState entry = some st → st = 4 ∨ (kind = 0 ∧ st = 1) → lookup entry.toNat u.job.fibres = some f →
          f.spawn ≠ 0 →
          (disp = 1 →
            (let w := v.setNotice entry 1
             exec .sret s = .next (retired ((if st = 4 then w.takeImage entry else w).pushReady (w.homeCore entry) entry))) ∧
            retires (fun t => ∃ core, t.job.ready = s.job.ready ++ [{ core := core, entry := entry }])) ∧
          (disp = 2 → retires (fun t => lookup entry.toNat t.job.fibres = none ∧ (∀ r ∈ t.job.ready, r.entry ≠ entry) ∧
            (f.runtime = true → t.job.spawns = u.job.spawns) ∧
            ∀ sp, f.runtime = false → lookup f.spawn u.job.spawns = some sp → sp.root = f.spawn → u.job.orphan sp = false →
              lookup f.spawn t.job.spawns = some { sp with units := sp.units - 1 }) ∧
            exec .sret s = .next (retired ((v.setNotice entry 2).discardFibre number))) ∧
          (disp = 3 → exec .sret s = .next (retired (v.containEntry entry cause)))) ∧
        (∀ f, kind = 2 → u.savedState entry = some 5 → lookup entry.toNat u.job.fibres = some f → f.spawn = 0 →
          (∀ w fs, disp = 1 → (v.setNotice entry 1).hwRead (entry + 0x360#64) = .ok (w, fs) →
            let m := 2 ^ 15 + fs.toNat / 2 ^ 40 % 16 * 2 ^ 11 + fs.toNat / 2 ^ 33 % 128 * 16
            exec .sret s = .next (retired ((v.setNotice entry 1).within m (fun z => z.restore entry)))) ∧
          (disp = 2 → exec .sret s = .next (retired ((v.setNotice entry 2).endMaster entry f))) ∧
          (disp = 3 → exec .sret s = .next (retired (v.containEntry entry cause)))) ∧
        (let key := handle / 2 ^ 10 % 16 * 128 + handle % 2 ^ 10
         ∀ c, kind = 3 → u.job.copy? key number = some c → c.hold = .suspended →
          (disp = 1 → retires (fun t => t.job.copy? key number = some { c with hold := .serviced })) ∧
          (disp = 2 → c.status = none → retires (fun t =>
            (t.job.copy? key number).map (fun z => (z.status, z.hold)) = some (some 3, .going)))) ∧
        (let die := handle / 2 ^ 10 % 16
         ∀ k, kind = 4 → u.job.task? die (handle % 2 ^ 10) number = some k → k.hold = .suspended →
          (disp = 1 → retires (fun t => t.job.task? die (handle % 2 ^ 10) number = some { k with hold := .serviced })) ∧
          (disp = 2 → taskOp k.record = 4 → retires (fun t =>
            (t.job.task? die (handle % 2 ^ 10) number).map (fun z => (z.state, z.cause)) = some (9, cause.cause.toNat)))) ∧
        (let key := handle / 2 ^ 10 % 16 * 2 + handle % 2 ^ 10 / 16
         let named (t : State) : Option MsRequest :=
          (t.job.msEngine key).requests.find? (fun r => r.queue == handle % 2 ^ 10 % 16 && r.seq == number)
         ∀ r, kind = 5 → named u = some r → r.hold = .suspended →
          (disp = 1 → retires (fun t => named t = some { r with hold := .serviced })) ∧
          (disp = 2 → r.status = none → retires (fun t => (named t).map (fun z => (z.status, z.hold)) = some (some 3, .going)))) ∧
        (let named (t : State) : Option Instance :=
          (lookup handle t.job.comms).bind (fun c => c.instances.find? (fun i => i.seq == number))
         ∀ i, kind = 6 → named u = some i → i.hold = .suspended → disp = 1 →
          retires (fun t => named t = some { i with hold := .serviced })) ∧
        (∀ l, 3 ≤ kind → kind ≤ 6 → disp = 3 →
          let named (z : Nat × Nat × Nat × Level) : Bool := z.1 == kind && z.2.1 == handle && z.2.2.1 == number
          u.job.recorded.find? named = some (kind, handle, number, l) →
          exec .sret s = .next (retired
            ((({ v with job := { v.job with recorded := v.job.recorded.eraseP named } } : State).endSuspended kind handle number
              cause.cause.toNat).containAt cause l)))) ∧
      (∀ w n c h u, s.hwCell true (w + 0x3A8#64) 8 = .ok (u, c, h) → Canonical u → QuietHome u h → n < 16 →
        Holds u (s.setNotice w n) c 8 (n * 2 ^ 60)) ∧
      (tlbinvOk y = false → Takes (.tlbinv a b) s { cause := 0x0D#8 }) ∧
      (tlbinvOk y = true → (∀ z ∈ s.allAgents, z.2.nb = []) → s.job.drain = none →
        (s.drains drain = true → Completes (.tlbinv a b) s (fun t => t.ag.wait = .again 1 ∧ t.pc = s.pc ∧ t.job.tlb = kept ∧
          t.job.drain = some drain ∧ SameMemory s t)) ∧
        (s.drains drain = false → Completes (.tlbinv a b) s (done (fun t => t.job.tlb = kept ∧ SameMemory s t ∧
          { t with ag := { t.ag with pc := s.ag.pc }, job := { t.job with tlb := s.job.tlb } } = s))) ∧
        (y = 0x4000_0000_0000_0000#64 → kept = [])) ∧
      (∀ d, tlbinvOk y = true → (∀ z ∈ s.allAgents, z.2.nb = []) → s.job.drain = some d → d.pc = s.ag.pc → d.a = x → d.b = y →
        (s.drains d = true → Completes (.tlbinv a b) s (fun t => t.ag.wait = .again 1 ∧ { t with ag := { t.ag with wait := s.ag.wait } } = s)) ∧
        (s.drains d = false → Completes (.tlbinv a b) s (done (fun t => t.job.drain = none ∧ t.job.tlb = s.job.tlb ∧ SameMemory s t)))) ∧
      (s.job.slotOk x = false → Takes (.slstop a) s { cause := 0x0D#8 } ∧ Takes (.slgo a) s { cause := 0x0D#8 }) ∧
      (s.job.slotOk x = true → s.agId = steward → s.job.status ≠ .absent →
        Completes (.slgo a) s (done (fun t => (t.agent slot).slStopped = false ∧ (t.agent slot).pc = (s.agent slot).pc)) ∧
        (∀ u, (s.focus slot).quiet = some u → Completes (.slstop a) s (done (fun t =>
          (t.agent slot).slStopped = true ∧ (t.agent slot).pc = (s.agent slot).pc)))) ∧
      (s.job.slotOk y = false → Takes (.slspill a b) s { cause := 0x0D#8 }) ∧
      (s.job.slotOk y = true → s.agId = steward → x.toNat % 2048 = 0 → inPool s.job.sfibarea x = true → ∀ u f,
        s.hwRead (x + 0x360#64) = .ok (u, f) →
        (f.toNat / 2 ^ 60 ≠ 0 → exec (.slspill a b) s = .next (u.raise { cause := 0x47#8 })) ∧
        (f.toNat / 2 ^ 60 = 0 →
          ((u.agent y.toNat).occupied = false → Completes (.slspill a b) s (JumpedTo u (u.pc + 4#64))) ∧
          ((u.agent y.toNat).occupied = true → ∀ v cell h w, u.hwCell true x 2048 = .ok (v, cell, h) →
            (v.focus y.toNat).quiet = some w → Completes (.slspill a b) s (done (fun t =>
              (t.agent y.toNat).occupied = false ∧ (lookup x.toNat t.job.fibres).isSome = true))))) ∧
      (s.savedState x = none → Takes (.slload a b) s { cause := 0x47#8 } ∨ Takes (.slload a b) s { cause := 0x0D#8 }) ∧
      (∀ st, s.savedState x = some st →
        (y.toNat / 2 ^ 62 = 3 → Takes (.slload a b) s { cause := 0x0D#8 }) ∧
        (st ≠ 5 → y.toNat < 2 ^ 16 → s.job.slotOk y = true → (s.agent y.toNat).occupied = false → s.job.posting y.toNat = false →
          coreKey y.toNat = s.homeCore x →
          exec (.slload a b) s = .next ((s.within y.toNat (fun u => u.restore x)).advance 4)) ∧
        (y = 0x4000_0000_0000_0000#64 → st = 1 ∨ st = 4 → Completes (.slload a b) s (done (fun t =>
          ∃ core, t.job.ready = s.job.ready ++ [{ core := core, entry := x }]))) ∧
        (y = 0x8000_0000_0000_0000#64 → exec (.slload a b) s = .next ((s.endEntry x).advance 4))))

/-- R40, R42 and R317: a unit's page fault, its full/empty limit, a missed promise, or a breakpoint with no debugger,
enters the upcall runtime in the unit's slot, with the unit held in the entry of its pool. -/
def Obligations.UnitCausesEnterTheRuntime : Prop :=
  ∀ (s u : State) (t : Trap) (sp : Spawn) (entry : Word) (cell : Nat) (home : Option Nat),
    let fault : Prop := t.cause.toNat / 32 = 1 ∧ t.cause.toNat % 8 < 2
    s.ag.role = .unit → s.ag.ending = false → s.ag.nb = [] → s.trace 3 t.cause.toNat s.ag.pc 0#64 = s →
    (fault ∨ t.cause = 0x40#8 ∨ t.cause = 0x41#8 ∨ (t.cause = 0xA1#8 ∧ s.owned s.agId = false)) →
    lookup s.ag.spawnid.toNat s.job.spawns = some sp → sp.upentry ≠ 0#64 →
    ({ s with ag := { s.ag with upaddr := t.addr, wait := .ready, deferred := none } } : State).freePoolEntry sp.fibpool
      (poolSize sp.fibpool) 0 = some (entry, cell, home, u) →
    let r := s.raise t
    r.ag.role = .runtime ∧ r.pc = sp.upentry ∧ r.ag.occupied = true ∧ r.ag.wait = .ready ∧ r.ag.rmode = sp.rmode ∧
      (∀ i < 23, r.g (BitVec.ofNat 5 (i + 1)) = sp.args.getD i 0#64) ∧ r.g 24#5 = entry ∧
      r.g 25#5 = BitVec.ofNat 64 t.cause.toNat ∧ r.g 26#5 = t.addr ∧ r.g 30#5 = stackTop s.agId ∧
      (∀ i, r.v i = 0#512) ∧ (∀ i, r.xe i = 0#64) ∧
      r.ag.upcause = BitVec.ofNat 64 t.cause.toNat ∧ r.ag.upaddr = t.addr ∧
      (∃ f, lookup entry.toNat r.job.fibres = some f ∧ f.spawn = s.ag.spawnid.toNat ∧ f.runtime = false) ∧
      (¬fault → Canonical u → QuietHome u home →
        r.readWord (cell + 0x350) = s.pc ∧ ∀ i < 32, r.readWord (cell + 0x200 + 8 * i) = s.g (BitVec.ofNat 5 i))

/-- R317, R318, R320 and R321: a cause on the supervisor path saves the agent in `sfibarea`, leaves a slot vacant or a
master reserved, and posts one record; with no free entry the agent stays, and a cause at S is firmware's. DBGCTL shows the stop (R362).
The cause of an agent whose level was cancelled goes with it (R45). A record goes to the tail of the queue, or waits while the queue is
full. -/
def Obligations.OtherCausesGoToTheSupervisor : Prop :=
  ∀ (s u : State) (t : Trap) (entry : Word) (cell : Nat) (home : Option Nat) (rec : List Word),
    let c := t.cause.toNat
    let upcall : Prop := (c / 32 = 1 ∧ c % 8 < 2) ∨ c = 0x40 ∨ c = 0x41 ∨ c = 0x42 ∨ (c = 0xA1 ∧ s.owned s.agId = false)
    let contained : Prop := c / 32 = 3 ∨ c / 32 = 4 ∨ c = 0xA5 ∨ c = 0xA6
    let s1 : State := { s with ag := { s.ag with upaddr := t.addr, wait := .ready, deferred := none } }
    let kind := match s.ag.role with | .unit => 0 | .runtime => 1 | .master => 2
    let st := match s.ag.role with | .master => 5 | _ => 4
    let origin := match s.ag.role with | .unit => 3 | .runtime => 4 | .master => 7
    (s.ag.ending = true → s.raise t = { s with ag := { s.ag with wait := .ready, deferred := none } }) ∧
    (s.ag.ending = false → s.ag.nb = [] → s.trace 3 c s.ag.pc 0#64 = s → t.since = none →
      ¬(s.owned s.agId = true ∧ s.ag.role ≠ .runtime ∧ 0xA1 ≤ c ∧ c ≤ 0xA4) →
      (s.ag.role = .unit → (¬upcall ∧ ¬contained) ∨
        (upcall ∧ ∃ sp, lookup s.ag.spawnid.toNat s.job.spawns = some sp ∧ sp.upentry = 0#64)) →
      (s.ag.priv = .supervisor → s.ag.role = .master →
        (s.raise t).ag.wait = .halt ∧ (s.raise t).job.fwCause = some t ∧
        (s.raise t).job.status = if s.job.status = .running then .halting else s.job.status) ∧
      (s.ag.priv = .user → poolSize s.job.sfibarea ≠ 0 →
        (s1.freeAreaEntry (poolSize s.job.sfibarea) 0 = .ok none →
          s.raise t = State.showSince
            { s1 with ag := { s1.ag with deferred := some { t with since := some s.pkg.cycle, toArea := true } } } s1) ∧
        (s1.freeAreaEntry (poolSize s.job.sfibarea) 0 = .ok (some (entry, cell, home, u)) →
          ∃ w : State,
            s.raise t = (w.postRecord [BitVec.ofNat 64 (kind * 2 ^ 56 + t.subr * 2 ^ 52 + c), s.pc, t.addr,
              BitVec.ofNat 64 s.agId, s.ag.spawnid, entry, t.info, BitVec.ofNat 64 s.pkg.cycle]).showSince s1 ∧
            (s.ag.role ≠ .master → w.ag.occupied = false) ∧
            (s.ag.role = .master → w.ag.reserved = true ∧ w.ag.pc = s.pc) ∧
            (∃ f, lookup entry.toNat w.job.fibres = some f ∧ (f.runtime = true ↔ s.ag.role = .runtime)) ∧
            (Canonical u → QuietHome u home →
              w.readWord (cell + 0x350) = s.pc ∧ (∀ i < 32, w.readWord (cell + 0x200 + 8 * i) = s.g (BitVec.ofNat 5 i)) ∧
              (w.readWord (cell + 0x360)).toNat / 2 ^ 60 = st ∧ (w.readWord (cell + 0x360)).toNat / 2 ^ 56 % 16 = origin ∧
              (w.readWord (cell + 0x360)).toNat / 2 ^ 48 % 256 = c)))) ∧
    (s.job.records = [] →
      (s.job.queueSize = 0 → (s.postRecord rec).job.fwCause ≠ none ∧ (s.postRecord rec).job.sqtail = s.job.sqtail) ∧
      (s.job.queueSize ≠ 0 → s.job.queued = s.job.queueSize →
        s.postRecord rec = { s with job := { s.job with records := [rec] } }) ∧
      (s.job.queueSize ≠ 0 → s.job.queued ≠ s.job.queueSize → rec.length = 8 →
        ({ s with job := { s.job with records := [rec] } } : State).hwCell true (s.job.recordVa s.job.sqtail.toNat) 64 =
          .ok (u, cell, home) →
        (s.postRecord rec).job.records = [] ∧
        (s.postRecord rec).job.sqtail = BitVec.ofNat 64 ((s.job.sqtail.toNat + 1) % 2 ^ 32) ∧
        (Canonical u → QuietHome u home → ∀ i < 8, (s.postRecord rec).readWord (cell + 8 * i) = rec.getD i 0#64)))

/-- R28, R63, R64, R66, R70, R145, R158, R164, R168, R170, R171, R175, R176 and R210: what an agent waits for comes when
it may, and does then what the instruction was to do; the wait of an agent whose level was cancelled is abandoned (R45). That a request
performs and its reply lands in two steps (log entry 9), and that the expiry of a lease changes nothing (log entry 15), are the model's
choices. -/
def Obligations.WaitsEndWhenTheirTimeComes : Prop :=
  ∀ (a : Nat) (s : State),
    let x := s.agent a
    let f := s.focus a
    let t := s.served a
    let now := s.pkg.cycle
    let die := a / 2 ^ 11 % 16
    s.live = true →
      (x.ending = true → exec (.loadReply a) s = .next s ∧ exec (.watchLimit a) s = .next s ∧ exec (.fenceComplete a) s = .next s ∧
        exec (.waitcComplete a) s = .next s ∧ exec (.sleepWake a) s = .next s ∧ exec (.cpwaitPromiseReached a) s = .next s ∧
        exec (.joinRetire a) s = .next s ∧ exec (.nextDrainComplete a) s = .next s ∧ exec (.longLatencyResult a) s = .next s) ∧
      (x.occupied = true → x.ending = false →
        (∀ due d v fl, x.wait = .long due (.gpr d v fl) → due ≤ now → Completes (.longLatencyResult a) s (fun u =>
          GotG t u d v ∧ u.ag.rmode = t.ag.rmode ||| fl ∧ u.ag.wait = .ready ∧
          { u with ag := { u.ag with g := t.ag.g, rmode := t.ag.rmode, wait := t.ag.wait } } = t)) ∧
        (∀ due d v fl, x.wait = .long due (.vec d v fl) → due ≤ now → Completes (.longLatencyResult a) s (fun u =>
          (∀ r, u.v r = if r = d then v else t.v r) ∧ u.ag.rmode = t.ag.rmode ||| fl ∧ u.ag.wait = .ready ∧
          { u with ag := { u.ag with v := t.ag.v, rmode := t.ag.rmode, wait := t.ag.wait } } = t)) ∧
        (∀ c, x.wait = .sleep c → c.toNat ≤ now → Completes (.sleepWake a) s (WaitOver t 4)) ∧
        (∀ nl ns nc nt, x.wait = .waitc nl ns nc nt → (∀ y ∈ x.nb, y.failed = none) → x.nbload ≤ nl → x.nbstore ≤ ns →
          s.cpout x ≤ nc → s.tkout x ≤ nt → Completes (.waitcComplete a) s (WaitOver t 4)) ∧
        (x.wait = .fence → x.nb = [] → Completes (.fenceComplete a) s (WaitOver t 4)) ∧
        (∀ op va target seq w c h, x.wait = .cpwait op va target → op = .stamp seq →
          let u := t.account (now + 1)
          (now < target.toNat ∨ t.hasTurn = false → exec (.cpwaitPromiseReached a) s = .next s) ∧
          (target.toNat ≤ now → t.hasTurn = true → (u.setWait .ready).check x.priv .load va 8 = .ok (w, .cell c h) →
            w.asleep (.cell c h) = false → w.ag.nb = [] → (∀ l ∈ w.job.loose, l.agent ≠ a) → w.share = none → w.poisoned c = false →
            (bytesAt w c 8 % 2 ^ 40 = seq → Completes (.cpwaitPromiseReached a) s (JumpedTo w (w.pc + 4#64))) ∧
            (bytesAt w c 8 % 2 ^ 40 ≠ seq →
              exec (.cpwaitPromiseReached a) s = .next (w.raise { cause := 0x41#8, addr := va })))) ∧
        (∀ sp, x.wait = .join → x.nb = [] → lookup x.spawnid.toNat s.job.spawns = some sp →
          s.job.complete x.spawnid.toNat sp = true → Completes (.joinRetire a) s (fun u =>
            u.ag.joinst = (match sp.ended with
            | none => if sp.contained then 2#64 else 0#64
            | some .cancelled => 1#64
            | some .contained => 2#64) ∧
            u.ag.psLast = sp.ps ∧ u.ag.spawnid = 0#64 ∧ u.job.spawns = remove x.spawnid.toNat s.job.spawns ∧
            u.ag.wait = .ready ∧ u.pc = t.pc + 4#64 ∧ (∀ r, u.g r = t.g r) ∧ SameMemory t u)) ∧
        (∀ n, x.wait = .next n → x.nb = [] → (∀ r ∈ s.job.ready, r.core ≠ coreKey a) → (s.job.die die).basin = [] →
          (s.job.die die).spilled = [] → (s.job.die die).entries = [] → s.job.again die = none → Completes (.nextDrainComplete a) s (fun u =>
            u.agId = a ∧ u.ag.occupied = false ∧ u.ag.wait = .ready ∧ ∀ r, u.g r = 0#64))) ∧
      (∀ (id : Nat) (sp : Spawn) (i : Fin 8), s.job.psRequests ≠ [] →
        (∀ r ∈ s.job.psRequests, r.spawn = id ∧ r.value = none ∧ r.lost ≠ some .request ∧ r.window < now / 16 ∧ r.n = i.val) →
        lookup id s.job.spawns = some sp → Completes (.psWindow id) s (fun u =>
          let before (k : Nat) : Word := sp.ps[i] + BitVec.ofNat 64 ((s.job.psRequests.take k).map (fun r => r.amount)).sum
          lookup id u.job.spawns = some { sp with ps := sp.ps.set i (before s.job.psRequests.length) } ∧
          (∀ k < s.job.psRequests.length, (u.job.psRequests[k]?).bind (fun r => r.value) = some (before k)) ∧
          u.ag = s.ag ∧ SameMemory s u)) ∧
      (∀ r v, s.job.psRequests.find? (fun r => r.agent == a) = some r → x.wait = .ps → r.due = now → r.lost = none → r.value = some v →
        Completes (.psResult a) s (fun u => GotG t u r.d v ∧ u.ag.wait = .ready ∧ u.pc = t.pc ∧
          (∀ y ∈ u.job.psRequests, y.agent ≠ a) ∧ SameMemory t u)) ∧
      (∀ n sg d va c h len since, x.wait = .request (.load n sg d) va (.cell c h) len since → s.share = none → t.asleep (.cell c h) = false →
        t.poisoned c = false → Completes (.memoryRequestAtHome a) s (fun u =>
          u.ag.wait = .reply d (landed n sg (t.readNat c n)) ∧ u.pc = t.pc + BitVec.ofNat 64 len ∧ (∀ r, u.g r = t.g r) ∧
          SameMemory t u)) ∧
      (∀ n v va c h len since, x.wait = .request (.store n v) va (.cell c h) len since → s.share = none → t.asleep (.cell c h) = false →
        Canonical t → QuietHome t h → Completes (.memoryRequestAtHome a) s (fun u =>
          u.ag.wait = .reply 0#5 0#64 ∧ u.pc = t.pc + BitVec.ofNat 64 len ∧ (∀ r, u.g r = t.g r) ∧ Holds t u c n v.toNat ∧
          ∀ b, u.feBit b = t.feBit b)) ∧
      (∀ d v, x.wait = .reply d v → x.ending = false → Completes (.loadReply a) s (fun u =>
        GotG t u d v ∧ u.ag.wait = .ready ∧ u.pc = t.pc ∧ u.job = t.job ∧ SameMemory t u)) ∧
      (∀ o d v va len p y, x.wait = .park (.fe o d v) va len → s.job.parked.find? (fun p => p.agent == a) = some p →
        p.ended = some (.ok y) → x.ending = false → Completes (.loadReply a) s (fun u =>
          GotG t u d y ∧ u.ag.wait = .ready ∧ u.ag.wakes = 0 ∧ u.pc = t.pc + BitVec.ofNat 64 len ∧
          (∀ q ∈ u.job.parked, q.agent ≠ a) ∧ SameMemory t u)) ∧
      (∀ i y c h, x.nb[i]? = some y → y.performed = false → y.loc = .cell c h → olderSame x.nb i = none →
        (y.isStore = false → f.poisoned c = false → Completes (.streamingAccessPerform a i) s (fun u =>
          GotG f u y.dest (landed y.size true (f.readNat c y.size)) ∧ u.pc = f.pc ∧ (x.nb = [y] → u.ag.nb = []) ∧
          SameMemory f u)) ∧
        (y.isStore = true → Canonical f → QuietHome f h → Completes (.streamingAccessPerform a i) s (fun u =>
          Holds f u c y.size y.data.toNat ∧ u.pc = f.pc ∧ (∀ r, u.g r = f.g r) ∧ (x.nb = [y] → u.ag.nb = []) ∧
          ∀ b, u.feBit b = f.feBit b))) ∧
      (∀ p, s.job.parked.find? (fun p => p.agent == a && p.ended.isNone) = some p → p.tried + 65536 ≤ now →
        (p.op = .ldfe ∨ p.op = .ldff → s.feBit p.cell = false → Completes (.idleWake a) s (fun u =>
          SameButJob s u ∧ { u.job with parked := s.job.parked } = s.job ∧
          u.job.parked = s.job.parked.map (fun y => if y.agent = a then
            { p with
              wakes := p.wakes + 1, tried := now
              ended := if s.job.ferlimit.toNat ≤ p.wakes + 1 then some (.error 0x40#8) else none }
            else y))) ∧
        (p.op = .ldff → p.post = none → s.feBit p.cell = true → s.poisoned p.cell = false → Completes (.idleWake a) s (fun u =>
          SameButJob s u ∧ { u.job with parked := s.job.parked } = s.job ∧
          u.job.parked = s.job.parked.map (fun y => if y.agent = a then
            { p with tried := now, ended := some (.ok (s.readWord p.cell)) } else y)))) ∧
      (∀ p c h, s.job.armed.find? (fun p => p.agent == a && p.polling && p.ended.isNone) = some p → p.polled + 1024 ≤ now →
        p.loc = .cell c h → s.poisoned c = false → Completes (.mwaitPoll a) s (fun u =>
          SameButJob s u ∧ { u.job with armed := s.job.armed } = s.job ∧
          u.job.armed = s.job.armed.map (fun y => if y.agent = a then
            { p with polled := now, ended := if p.test.holds (s.readWord (c / 8 * 8)) p.v then some none else none } else y))) ∧
      (∀ op va len p, x.wait = .watch op va len → s.job.armed.find? (fun p => p.agent == a && p.ended.isNone) = some p →
        x.ending = false → 2 ^ 32 ≤ now - p.since + p.before → ∃ w : State, exec (.watchLimit a) s = .next (w.raise { cause := 0x43#8, addr := va }) ∧
          w.ag = { t.ag with waited := 0 } ∧ SameMemory t w ∧ ∀ q ∈ w.job.armed, q.agent ≠ a) ∧
      ∀ m line, exec (.leaseExpiry m line) s = .next s

/-- R19, R20, R22, R31, R32, R34, R43, R129, R318, R320, R287, R288, R289, R291, R292, R295, R296 and R298: turns, draws and
records of the machine's own making, and the steps of the graph scheduler. The clauses on a cancelled queued run, which raises RUNDONE
(log entry 40), on the bytes a graph takes of 4 MiB (log entry 47), on `lvlcmd` at the job and at a unit (log entry 50), on the chunk
held ahead (log entry 52), on the turns of slot 15 (log entry 100) and on the order in which a broadcast reaches dies (log entry 113) are
the model's choice. -/
def Obligations.TurnsDrawsAndRunsMoveOn : Prop :=
  ∀ (s : State),
    let now := s.pkg.cycle
    (∀ die core, die < 16 → core < 128 → die < s.job.dies_n →
      let a := die * 2 ^ 11 + core * 16 + now % 16
      let t := s.focus a
      t.hasTurn = true →
        (now % 16 = 15 → s.conduitBusy (die * 128 + core) = true → exec (.rotationTurn die core) s = .next s) ∧
        (now % 16 = 15 → s.conduitBusy (die * 128 + core) = false → Completes (.rotationTurn die core) s (fun u =>
          u.accounted a = now + 1 ∧ u.agId = s.agId ∧ u.ag = s.ag ∧ SameMemory s u)) ∧
        (now % 16 ≠ 15 → t.canEnd = false → t.canIssue = true → exec (.rotationTurn die core) s = .next { t with offered := true }) ∧
        (now % 16 ≠ 15 → t.canEnd = false → t.canIssue = false → Completes (.rotationTurn die core) s (fun u =>
          u.accounted a = now + 1 ∧ u.agId = a ∧ u.ag = s.agent a ∧ SameMemory s u))) ∧
    (∀ a sp,
      let die := a / 2 ^ 11 % 16
      let begins (u : State) (id n : Nat) : Prop :=
        u.agId = a ∧ u.ag.occupied = true ∧ u.ag.role = .unit ∧ u.ag.priv = .user ∧ u.ag.wait = .ready ∧ u.pc = sp.target ∧
        u.ag.rmode = sp.rmode ∧ u.ag.tid = BitVec.ofNat 64 n ∧ u.ag.spawnid = BitVec.ofNat 64 id ∧
        u.ag.notBefore = now + 32 ∧ u.g 24#5 = BitVec.ofNat 64 n ∧ u.g 30#5 = stackTop a ∧ ∀ i < 23, u.g (BitVec.ofNat 5 (i + 1)) = sp.args.getD i 0#64
      die < s.job.dies_n → (s.focus a).hasTurn = true → (s.focus a).mayDraw = true → (∀ r ∈ s.job.ready, r.core ≠ coreKey a) →
        s.job.again die = none →
        (∀ m e, (s.job.die die).basin ++ (s.job.die die).spilled = [] → (s.job.die die).entries = [(m, e)] →
          lookup e.spawn s.job.spawns = some sp → sp.ended = none → sp.redraw = [] → e.next ≤ e.last →
          Completes (.slotDraw a) s (fun u => begins u e.spawn e.next ∧
            lookup m (u.job.die die).entries = some { e with next := e.next + 1 } ∧
            lookup e.spawn u.job.spawns = some { sp with units := sp.units + 1 })) ∧
        (∀ id rest, (s.job.die die).basin ++ (s.job.die die).spilled = id :: rest → lookup id s.job.spawns = some sp →
          sp.redraw = [] → sp.nextChunk ≤ sp.hi → Completes (.slotDraw a) s (fun u => begins u id sp.nextChunk ∧
            lookup id u.job.spawns = some { sp with nextChunk := sp.nextChunk + 1, units := sp.units + 1 }))) ∧
    (∀ die m id sp, s.job.spawnOf m = some (id, sp) → s.job.status = .running → die < s.job.dies_n →
      (∀ e, lookup m (s.job.die die).entries = some e → e.spawn ≠ id) →
      s.job.castLost id die = false →
      (∀ d < die, s.job.holdsSpawn d m id = false → s.job.castLost id d = true ∨
        (s.job.pdie d ∈ s.pkg.gated ∧ s.job.pdie die ∉ s.pkg.gated)) → Completes (.spawnBroadcast die m) s (fun u =>
        lookup m (u.job.die die).entries = some { spawn := id, next := 1, last := 0, further := none } ∧
        s.job.pdie die ∉ u.pkg.gated ∧ u.ag = s.ag ∧ u.job.spawns = s.job.spawns ∧ SameMemory s u)) ∧
    (∀ die m e sp, lookup m (s.job.die die).entries = some e → lookup e.spawn s.job.spawns = some sp →
      s.job.status = .running → sp.ended = none → sp.nextChunk ≤ sp.hi → e.further = none →
      let last := min (sp.nextChunk + 63) sp.hi
      Completes (.chunkRequest die m) s (fun u =>
        lookup e.spawn u.job.spawns = some { sp with nextChunk := last + 1 } ∧
        lookup m (u.job.die die).entries = some (if e.last < e.next then { e with next := sp.nextChunk, last := last }
          else { e with further := some (sp.nextChunk, last) }) ∧ SameButJob s u)) ∧
    (∀ die id rest, (s.job.die die).spilled = id :: rest → s.live = true → (s.job.die die).basin.length < 256 →
      Completes (.basinRefill die) s (fun u => (u.job.die die).basin = (s.job.die die).basin ++ [id] ∧
        (u.job.die die).spilled = rest ∧ SameButJob s u)) ∧
    (∀ r rest u cell home, s.job.records = r :: rest → r.length = 8 → s.live = true → s.job.queueSize ≠ 0 →
      s.job.queued ≠ s.job.queueSize → s.hwCell true (s.job.recordVa s.job.sqtail.toNat) 64 = .ok (u, cell, home) →
      Canonical u → QuietHome u home → Completes .trapRecordPost s (fun t =>
        (∀ i < 8, t.readWord (cell + 8 * i) = r.getD i 0#64) ∧ t.job.records = rest ∧
        t.job.sqtail = BitVec.ofNat 64 ((u.job.sqtail.toNat + 1) % 2 ^ 32) ∧ t.ag = u.ag)) ∧
    (∀ a c, (s.agent a).deferred = some c → s.live = true →
      let u := if c.toArea then (s.served a).deliverSupervisor c else (s.served a).raise c
      u.ag.deferred = none ∨ u.job.fwCause ≠ s.job.fwCause → exec (.deferredSupervisorSave a) s = .next u) ∧
    (∀ c, Takes (.illegalEncoding c) s { cause := c }) ∧
    (s.answers = true →
      (∀ v : Word,
        let id := v.toNat / 2 ^ 51 % 2 ^ 8
        let ends (u : State) (res : Nat) : Prop := u.job.gstat = BitVec.ofNat 64 (res * 2 ^ 60 + id) ∧ u.job.upload = none
        ((∃ r ∈ s.job.runs, r.graph = id) → Completes (.graphUpload v) s (fun u => ends u 2 ∧ u.job.graphs = s.job.graphs)) ∧
        ((∀ r ∈ s.job.runs, r.graph ≠ id) → s.job.graphPosting = true → exec (.graphUpload v) s =
          .next { s with job := { s.job with upload := some (v, addr6 v) } }) ∧
        ((∀ r ∈ s.job.runs, r.graph ≠ id) → s.job.graphPosting = false → ∀ s1 head, State.engReads schedulerChunk (items (addr6 v) 8 8) s = .ok s1 head →
          let n := head.getD 0 0 / 2 ^ 48 % 2 ^ 16
          let e := head.getD 0 0 / 2 ^ 32 % 2 ^ 16
          (n = 0 → Completes (.graphUpload v) s (fun u => ends u 1 ∧ u.job.graphs = remove id s1.job.graphs)) ∧
          (4096 < n ∨ (n ≠ 0 ∧ 16384 < e) → Completes (.graphUpload v) s (fun u => ends u 4 ∧ u.job.graphs = s1.job.graphs)) ∧
          (1 ≤ n → n ≤ 4096 → e ≤ 16384 → ∀ s2 body,
            State.engReads schedulerChunk (items (addr6 v + 64#64) 8 (4 * n + e)) s1 = .ok s2 body →
            let g := graphOf head body
            let held := ((remove id s2.job.graphs).map (fun x => x.2.bytes)).sum + (s2.jobs.map (fun x => x.2.graphBytes)).sum
            (g.ok head = false → Completes (.graphUpload v) s (fun u => ends u 4 ∧ u.job.graphs = s2.job.graphs)) ∧
            (g.ok head = true → 2 ^ 22 < held + g.bytes → Completes (.graphUpload v) s (fun u =>
              ends u 3 ∧ u.job.graphs = s2.job.graphs)) ∧
            (g.ok head = true → held + g.bytes ≤ 2 ^ 22 → Completes (.graphUpload v) s (fun u =>
              ends u 1 ∧ lookup id u.job.graphs = some g))))) ∧
      (∀ v : Word,
        let id := v.toNat / 2 ^ 51 % 2 ^ 8
        let prio := v.toNat / 2 ^ 62
        let fits : Prop := v.toNat / 2 ^ 59 % 8 = 0 ∧ (s.job.runs.filter (fun r => !r.started && r.prio == prio)).length < 64
        (∀ g, lookup id s.job.graphs = some g → fits → Completes (.runTrigger v) s (fun u =>
          (∃ r : Run, u.job.runs = s.job.runs ++ [r] ∧ r.id = s.job.nextRun ∧ r.prio = prio ∧ r.graph = id ∧
            r.plist = addr6 v ∧ r.started = false ∧ r.nodes.length = g.nodes.length) ∧
          u.job.nextRun = s.job.nextRun + 1 ∧ SameButJob s u)) ∧
        (lookup id s.job.graphs = none ∨ ¬fits → Completes (.runTrigger v) s (fun u =>
          u.job.runRefused = min (s.job.runRefused + 1) 0xFFFF ∧ u.job.runs = s.job.runs ∧ SameButJob s u))) ∧
      (∀ v : Word, s.job.run? (v.toNat % 2 ^ 48) = none → exec (.runCancel v) s = .next s) ∧
      (∀ (v : Word) r, s.job.run? (v.toNat % 2 ^ 48) = some r → r.started = false → s.job.graphPosting = false →
        ((lookup r.graph s.job.graphs).map (fun g => g.donea)).getD 0#64 = 0#64 → Completes (.runCancel v) s (fun u =>
          u.job.runs = s.job.runs.filter (fun q => !(q.id == r.id)) ∧ u.job.runDone = s.job.runDone + 1 ∧ SameButJob s u)) ∧
      (∀ run node r n m, s.job.run? run = some r → r.nodes[node]? = some n → r.started = true → r.patched = none →
        n.st = .exited m → n.requests = 0 → n.ending = false → s.job.spawnless run node = true → s.graphWorks = true →
        (∀ o ∈ s.job.owing, ¬(o.run = run ∧ o.node = node)) →
        (∀ (k : Nat) (x : RunNode), k ≠ node → r.nodes[k]? = some x → x.final = true) →
        ((lookup r.graph s.job.graphs).map (fun g => g.donea)).getD 0#64 = 0#64 →
        Completes (.nodeCompletion run node) s (fun u =>
          u.job.runs = s.job.runs.filter (fun q => !(q.id == run)) ∧ u.job.runDone = s.job.runDone + 1 ∧ SameButJob s u)) ∧
      (s.levelCount s.job.selected.1 s.job.selected.2 = none → exec .lvlcmdCancel s = .next s) ∧
      (s.job.selected.1 = 0 → Completes .lvlcmdCancel s (fun u => u.job = Job.absent ∧ u.ag = Agent.vacant)) ∧
      (∀ a, s.job.selected = (4, a) → a < 2 ^ 15 → (s.agent a).occupied = true → (s.agent a).role = .unit →
        Completes .lvlcmdCancel s (fun u => u.agent a = { s.agent a with ending := true } ∧
          (∀ b, b ≠ a → u.agent b = s.agent b) ∧ SameMemory s u))) ∧
    (s.job.status = .running → s.job.graphPosting = false →
      (∀ r g, (∀ q ∈ s.job.runs, q.patched = none) → s.job.nextToStart = some r → s.job.run? r.id = some r →
        lookup r.graph s.job.graphs = some g → r.plist = 0#64 → g.donea = 0#64 → (∀ n ∈ g.nodes, n.conditional = false) →
        Completes .runStart s (fun u => u.job.lastRun = r.id ∧
          (∀ q, u.job.run? r.id = some q → q.started = true ∧ q.patched = none) ∧
          ∀ (k : Nat) (x : RunNode), k < g.nodes.length → g.into k = [] → r.nodes[k]? = some x → x.st = .waiting →
            (u.job.node? r.id k).map (fun y => y.st) = some (.ready now))) ∧
      (∀ p c run node n m g, firstNode s.job.readyNodes = some (p, c, run, node) → s.job.node? run node = some n →
        1 ≤ m → m < 2 * s.job.dies_n → s.masterFree m = true → (∀ k, 1 ≤ k → k < m → s.masterFree k = false) →
        s.job.graphNode run node = some g → Completes .nodeStart s (fun u =>
          let x := u.agent (masterId m)
          x.occupied = true ∧ x.role = .master ∧ x.priv = .user ∧ x.wait = .ready ∧ x.pc = g.entry ∧
          (∀ i : Fin 32, x.g[i] = if i.val = 1 then g.args else if i.val = 2 then BitVec.ofNat 64 run else 0#64) ∧
          u.job.node? run node = some { n with st := .running (masterId m) } ∧ SameMemory s u)))

/-- R207, R208, R212, R215, R216, R217, R218, R219, R220, R221, R234, R236, R237 and R298: what a conduit does with a mailbox
whose record it refuses, rejects or takes; the bytes each copy operation moves, stamps and promises; and the lines of a
memory-side request. The places of the bytes are the model's, from the record and layouts; a page that is missing, poisoned bytes
and watches of other agents have statements and effects of their own. Promises modulo 2^64 (log 22), one chunk, index, bag or line a
step (log 25), bytes at one offset in the order of their lines (log 24), a versioned write of one step (log 23), one request of a
stack at a time (log 30), and a take as an issued turn of its conduit (log 100) are the model's choices. -/
def Obligations.EnginesMoveTheirBytes : Prop :=
  ∀ (s : State), s.job.status = .running → s.share = none →
    let now := s.pkg.cycle
    (∀ die core seq (c : Copy),
      let key := die * 128 + core
      let r := c.record
      let q := c.by_ key
      let op := (r.getD 0 0#64).toNat / 2 ^ 60
      let w (i : Nat) : Word := r.getD i 0#64
      let versioned : Bool := (w 0).getLsbD 56
      let done (full cost : Nat) : Copy :=
        { c with progress := c.progress + 1, spent := c.spent + cost, attempts := 0, writing := none
                 status := if c.progress + 1 = full then some 1 else none }
      let moves (i : Instr) (u : State) (src dst : List (Word × Nat)) (full cost : Nat) : Prop :=
        ∀ u1 ls u2 ss bytes u3, State.engLocs q src u = .ok u1 ls → State.engSpots q dst u1 = .ok u2 ss →
          State.readLocs q ls u2 = (some bytes, u3) → u3.job.writing q.request = false → Canonical u3 → Apart u3 ss →
          Completes i s (fun t => Arrive u3 t ss bytes ∧ t.job.copy? key seq = some (done full cost))
      s.job.copy? key seq = some c →
        (c.status = none → c.hold = .going → c.waitVersion = none → c.unread = false → c.writing = none →
          s.conduitWorks key = true →
          (op = 0 →
            let a := layoutOf c.src
            let b := layoutOf c.dst
            let ms := (List.range (min 256 (b.allBytes - 256 * c.progress))).map (fun i => b.moved (256 * c.progress + i))
            moves (.denseCopy die core seq) s (ms.map (fun m => (a.addr (w 1) m, 1))) (ms.map (fun m => (b.addr (w 2) m, 1)))
              b.chunks 1) ∧
          (op = 1 → versioned = false → ∀ u x, s.engRead q (w 4 + BitVec.ofNat 64 (4 * c.progress)) 4 = .ok u x →
            moves (.gather die core seq) u (rowItems (w 1) (rowBytes r) x) (rowItems (w 2) (rowBytes r) c.progress)
              (copyCount r) (rowCost r)) ∧
          (op = 2 → versioned = false → ∀ u x, s.engRead q (w 4 + BitVec.ofNat 64 (4 * c.progress)) 4 = .ok u x →
            moves (.scatter die core seq) u (rowItems (w 1) (rowBytes r) c.progress) (rowItems (w 2) (rowBytes r) x)
              (copyCount r) (rowCost r)) ∧
          (op = 3 → lookup c.progress c.bags = none → ∀ u lo hi u1 rows u2 ss,
            State.engReads q (items (w 5 + BitVec.ofNat 64 (4 * c.progress)) 4 2) s = .ok u [lo, hi] →
            State.bagRows key c q ((List.range (hi - lo)).map (fun i => lo + i)) u = .ok u1 rows →
            State.engSpots q (rowItems (w 2) (bagBytes r) c.progress) u1 = .ok u2 ss → u2.job.writing q.request = false →
            Canonical u2 → Apart u2 ss → Completes (.pooledGather die core seq) s (fun t => Arrive u2 t ss (poolRows r rows) ∧
              t.job.copy? key seq = some (done (copyCount r) ((hi - lo) * rowCost r)))) ∧
          (op = 4 → ∀ u1 ls bytes u2 u3 va home ss,
            let x := (w 4).toNat % 2 ^ 32
            State.engLocs q (rowItems (w 1) (rowBytes r) 0) s = .ok u1 ls → State.readLocs q ls u1 = (some bytes, u2) →
            State.engSpots q ((w 6 + BitVec.ofNat 64 (8 * x), 8) :: rowItems (w 2) (rowBytes r) x) u2 = .ok u3 ((va, home) :: ss) →
            va < hostBase → va % 8 = 0 → u3.poisoned va = false → u3.readNat va 8 % 2 = 0 → Canonical u3 → Apart u3 ss →
            QuietHome u3 home → (∀ y ∈ ss, y.1 / 8 ≠ va / 8) → Completes (.rowReplace die core seq) s (fun t =>
              (∀ i < ss.length, t.readByte (ss.getD i (0, none)).1 = BitVec.ofNat 8 (bytes.getD i 0)) ∧
              t.readWord va = u3.readWord va + 2#64 ∧
              (∀ a, a / 8 ≠ va / 8 → (∀ y ∈ ss, y.1 ≠ a) → t.readByte a = u3.readByte a) ∧
              t.job.copy? key seq = some (done 1 (rowCost r))))) ∧
        (∀ va u v, c.waitVersion = some va → s.engRead q va 8 = .ok u v → v % 2 = 0 →
          Completes (.versionWaitWake die core seq) s (fun t => t.job.copy? key seq = some { c with waitVersion := none } ∧
            SameButJob s t)) ∧
        (c.hold = .serviced → Completes (.copyResume die core seq) s (fun t =>
          t.job.copy? key seq = some { c with hold := .going } ∧ SameButJob s t)) ∧
        (c.promise ≤ s.pkg.cycle → c.spent ≤ c.cost → c.cost < 2 ^ 64 →
          (∀ x ∈ (s.job.conduit key).copies, x.box = c.box → x.seq ≤ seq) → Canonical s → QuietHome s none →
          NobodyParked s (s.replyCell key c.box) → s.replyCell key c.box % 8 = 0 →
          Completes (.promiseRevision die core seq) s (fun t =>
            let n := (c.promise + 2048 + 16 * (c.cost - c.spent)) % 2 ^ 64
            t.job.copy? key seq = some { c with promise := n } ∧ t.readWord (s.replyCell key c.box) = BitVec.ofNat 64 n ∧
            t.feBit (s.replyCell key c.box) = true ∧
            ∀ a, a / 8 ≠ s.replyCell key c.box / 8 → t.readByte a = s.readByte a))) ∧
    (∀ die core (c : Copy) rest st u cell home,
      let key := die * 128 + core
      let stamp := st * 2 ^ 60 + c.progress % 2 ^ 20 * 2 ^ 40 + c.seq % 2 ^ 40
      (s.job.conduit key).copies = c :: rest → (∀ x ∈ rest, x.seq ≠ c.seq) → c.status = some st → c.hold = .going →
      c.cause = none → c.noStamp = false → st < 4 → s.conduitWorks key = true → s.job.writing (c.by_ key).request = false →
      s.engSpotAs .engFlag (c.by_ key) (c.record.getD 3 0#64) 8 = .ok u (cell, home) → cell % 8 = 0 → Canonical u →
      QuietHome u home → NobodyParked u cell → cell / 8 ≠ u.counterCell key / 8 → u.counterCell key % 8 = 0 →
      Completes (.copyCompletion die core) s (fun t =>
        t.readWord cell = BitVec.ofNat 64 stamp ∧ t.feBit cell = true ∧ t.readWord (u.counterCell key) = BitVec.ofNat 64 c.seq ∧
        (t.job.conduit key).copies = rest ∧
        ∀ a, a / 8 ≠ cell / 8 → a / 8 ≠ u.counterCell key / 8 → t.readByte a = u.readByte a)) ∧
    (∀ die core box,
      let key := die * 128 + core
      let from_ := s.mailboxCell key box
      let ga := s.readWord from_
      s.mayTake key = true → s.nextMailbox key = some box → ownRecordOf key ga = false → Canonical s → QuietHome s none →
      NobodyParked s from_ → NobodyParked s (s.replyCell key box) → from_ / 8 ≠ s.replyCell key box / 8 →
      Completes (.conduitTake die core) s (fun t =>
        t.feBit from_ = false ∧ t.readWord (s.replyCell key box) = 0xFFFF_FFFF_FFFF_FFFF#64 ∧
        t.feBit (s.replyCell key box) = true ∧ (t.job.conduit key).lastBox = box ∧
        (t.job.conduit key).seq = (s.job.conduit key).seq + 1 ∧ t.mayTake key = false ∧
        ∃ c : Copy, (t.job.conduit key).copies = (s.job.conduit key).copies ++ [c] ∧ c.seq = (s.job.conduit key).seq + 1 ∧
          c.noStamp = true ∧ c.status = some 4 ∧ c.cause = some { cause := 0x80#8, addr := ga })) ∧
    (∀ die core box,
      let key := die * 128 + core
      let from_ := s.mailboxCell key box
      let ga := s.readWord from_
      let d := s.job.conduit key
      let n := d.seq + 1
      let (p, s1) := (s.conduitTurn key).emptyMailbox key box
      let r := s.record8 (s.windowCellOf ga)
      let s2 := s1.store (engineWriter key) (s.windowCellOf ga) 8 (dw r 0 / 2 ^ 40 * 2 ^ 40 + n % 2 ^ 40) none
      let last := (d.copies.getLast?.map (fun c => c.promise)).getD 0
      let copy (a b : List Word) (promise cost : Nat) (status : Option Nat) (cause : Option Trap) : Copy :=
        { seq := n, box := box, recAddr := ga, record := r, src := a, dst := b, poster := p, promise := promise, unread := false
          progress := 0, attempts := 0, waitVersion := none, writing := none, bags := [], hold := .going, cost := cost, spent := 0
          status := status, cause := cause, noStamp := false }
      let q : Chunk := { request := requestId 3 (conduitHandle key) n, chunk := 0, priv := p.priv }
      let takes (t : State) (c : Copy) : Prop :=
        Canonical t → QuietHome t none → NobodyParked t (s.replyCell key box) → Completes (.conduitTake die core) s (fun u =>
          s2.feBit from_ = false ∧ s2.readNat (s.windowCellOf ga) 8 = dw r 0 / 2 ^ 40 * 2 ^ 40 + n % 2 ^ 40 ∧
          u.readWord (s.replyCell key box) = BitVec.ofNat 64 c.promise ∧ u.feBit (s.replyCell key box) = true ∧
          (∀ a, a / 8 ≠ s.replyCell key box / 8 → u.readByte a = t.readByte a ∧ u.feBit a = t.feBit a) ∧
          (u.job.conduit key).lastBox = box ∧ (u.job.conduit key).seq = n ∧ u.mayTake key = false ∧
          (u.job.conduit key).copies = d.copies ++ [c])
      s.mayTake key = true → s.nextMailbox key = some box → ownRecordOf key ga = true → Canonical s → QuietHome s none →
      NobodyParked s from_ →
        (∀ t, s2.takeReads q r = .ok t none → takes t (copy [] []
          (if usable (r.getD 3 0#64) then (now + 2048) % 2 ^ 64 else 2 ^ 64 - 1) 0 (some 4) (some { cause := 0x81#8 }))) ∧
        ∀ t a b cost, s2.takeReads q r = .ok t (some (a, b, cost)) →
          takes t (copy a b ((max now last + 2048 + 16 * cost) % 2 ^ 64) cost none none)) ∧
    (∀ die stack (r : MsRequest),
      let key := die * 2 + stack
      let m := s.job.msEngine key
      (m.active = none → m.next = some r → s.msWorks key r = true → Completes (.msRequestStart die stack) s (fun t =>
        (t.job.msEngine key).lastQueue = r.queue ∧ SameButJob s t ∧
        (t.job.msEngine key).active = some (if msBlockOk r.block then { r with started := true, status := none, cause := none }
          else { r with started := true, status := some 4, cause := some { cause := 0x8D#8 } }))) ∧
      (m.active = some r →
        let p := r.poster.priv
        let op := (r.block.getD 0 0#64).toNat / 2 ^ 60
        let off : Word := BitVec.ofNat 64 (64 * r.progress)
        let to_ : Word := r.block.getD 1 0#64 + off
        let done (sat : Bool) : MsRequest :=
          { r with progress := r.progress + 1, isat := r.isat || sat
                   status := if r.progress + 1 = msLines r.block then some 1 else none }
        let clean (v : State) (a : Nat) : Prop := ∀ i < 8, v.poisoned (a + 8 * i) = false
        (r.status = none → r.hold = .going → s.msWorks key r = true → s.job.writing (r.by_ key).request = false →
          ∀ u d, s.msLine key p .engWrite to_ = .ok u d → d % 64 = 0 → Canonical u → QuietHome u none → u.job.early = [] →
          (op = 1 → Completes (.msFill die stack) s (fun t => (∀ i < 8, t.readWord (d + 8 * i) = r.block.getD 2 0#64) ∧
            (∀ a, a / 64 ≠ d / 64 → t.readByte a = u.readByte a) ∧ (t.job.msEngine key).active = some (done false))) ∧
          (op = 2 → ∀ u1 a, State.msLinesAt key p [r.block.getD 2 0#64 + off] u = .ok u1 [a] → clean u1 a →
            Canonical u1 → QuietHome u1 none → u1.job.early = [] → Completes (.msCopy die stack) s (fun t =>
              (∀ i < 8, t.readWord (d + 8 * i) = u1.readWord (a + 8 * i)) ∧
              (∀ b, b / 64 ≠ d / 64 → t.readByte b = u1.readByte b) ∧ (t.job.msEngine key).active = some (done false))) ∧
          (op = 0 → r.sources ≠ [] → ∀ u1 as, State.msLinesAt key p (r.sources.map (fun v => v + off)) u = .ok u1 as →
            as.length ≤ 8 → (∀ a ∈ as, clean u1 a) → Canonical u1 → QuietHome u1 none → u1.job.early = [] →
            let leaf (e i : Nat) : Option Nat × Bool := ((as[i]?).map (fun a => u1.readNat (a + 4 * e) 4), false)
            let out (e : Nat) : Option Nat × Bool := treeAt (msNode (msInt r.block)) (leaf e) 3 0
            Completes (.msReduce die stack) s (fun t =>
              (∀ e < 16, t.readNat (d + 4 * e) 4 =
                let x := (out e).1.getD 0
                if msInt r.block = false ∧ (fp32.decode x).isNan = true then fp32.canonNan else x) ∧
              (∀ b, b / 64 ≠ d / 64 → t.readByte b = u1.readByte b) ∧
              (t.job.msEngine key).active = some (done ((List.range 16).any (fun e => (out e).2))))) ∧
          (op = 3 → (∀ i < 8, NobodyParked u (d + 8 * i)) → Completes (.msFeInit die stack) s (fun t =>
            (∀ b, t.feBit b = if b / 64 = d / 64 then (r.block.getD 0 0#64).getLsbD 55 else u.feBit b) ∧
            (∀ b, t.readByte b = u.readByte b) ∧ (t.job.msEngine key).active = some (done false)))) ∧
        (r.hold = .serviced → Completes (.msResume die stack) s (fun t =>
          (t.job.msEngine key).active = some { r with hold := .going } ∧ SameButJob s t)) ∧
        (∀ st u a home, r.status = some st → r.hold = .going → r.written = 0 → r.cause = none → r.block.getD 5 0#64 = 0#64 →
          s.msWorks key r = true → s.job.writing (r.by_ key).request = false →
          usable (r.block.getD 3 0#64) = true → s.engSpotAs .engFlag (r.by_ key) (r.block.getD 3 0#64) 8 = .ok u (a, home) →
          NobodyParked u a → Canonical u → Completes (.msCompletion die stack) s (fun t =>
            (∀ b, t.feBit b = if b / 8 = a / 8 then true else u.feBit b) ∧
            lookup r.queue (t.job.msEngine key).timelines = some r.seq ∧
            ∀ x ∈ (t.job.msEngine key).requests, ¬(x.queue = r.queue ∧ x.seq = r.seq)))))

/-- R96, R97, R98, R100, R101, R104, R105, R106, R107, R109, R110, R112, R113, R114, R224, R226, R227, R229, R230, R231,
R239, R244, R245, R246, R248, R297, R353 and R354: tile tasks from dispatch to completion, the K-block step of a tile row, and
collectives from their start to their completion. A block that loses no bit adds to each column exactly its partial. The lowest
free engines (log 27), ALOAD and ASAVE row by row with the key of the image (log 28), one dispatch of a die a cycle (log 29),
instances that do not overlap (log 31), WORDS rounded up (log 32), commCreate and commEnd as the commands of firmware's write of
comctl (log 53), and the places of an image's rows (log 88) are the model's choices. -/
def Obligations.TileTasksAndCollectivesAct : Prop :=
  ∀ (s : State), s.share = none →
    let cycle := s.pkg.cycle
    (∀ die list (t : Task),
      let r := t.record
      let h := taskHandle r
      let tile := s.job.tile die
      let now (u : State) : Option Task := u.job.task? die t.list t.ticket
      let acc (u : State) : Option Acc := lookup h (u.job.tile die).accs
      let ended (u : State) (st cause : Nat) : Prop := (now u).map (fun x => (x.state, x.cause)) = some (st, cause)
      let nobody : Prop := ∀ x ∈ tile.tasks, x.state ≠ 2
      let image (off : Nat) : Word := r.getD 2 0#64 + BitVec.ofNat 64 off
      s.job.task? die t.list t.ticket = some t →
        (s.job.status = .running → die < s.job.dies_n → tile.dispatchedAt ≠ some cycle → s.nextList die = some (list, t) →
          let valid := s.job.taskOk die r ((lookup h tile.accs).map (fun a => a.gr))
          let taken : Task := { t with dispatched := true, state := 3 }
          (valid = false → Canonical s → QuietHome s none → Completes (.taskDispatch die) s (fun u => ended u 6 0x85 ∧
            u.readWord (t.recAddr + 56) = BitVec.ofNat 64 (6 * 2 ^ 60 + 0x85 * 2 ^ 40 + t.blocks * 2 ^ 16))) ∧
          (valid = true → taskOp r = 0 ∨ taskOp r = 4 → Completes (.taskDispatch die) s (fun u => now u = some taken)) ∧
          (valid = true → taskOp r ≠ 0 → taskOp r ≠ 4 → nobody → lookup h tile.accs = none →
            Completes (.taskDispatch die) s (fun u => ended u 6 0x88)) ∧
          (∀ a, valid = true → taskOp r ≠ 0 → taskOp r ≠ 4 → nobody → lookup h tile.accs = some a → a.current = none →
            a.held = [] → a.skipped = [] → a.nextKey = taskKey r → Completes (.taskDispatch die) s (fun u => now u = some taken ∧
              acc u = some { a with current := some (t.list, t.ticket), watchdog := 0, counted := cycle
                                    rows := a.rows.map (fun x => { x with block := 0, told := false }) }))) ∧
        (s.tilesWork die list = true → s.allocating die list 0 = some t →
          (lookup h tile.accs ≠ none → Completes (.aclr die list) s (fun u => ended u 6 0x89)) ∧
          (lookup h tile.accs = none → taskGr r * taskGc r ≤ tile.free.length → Completes (.aclr die list) s (fun u =>
            ended u 5 t.cause ∧ ∃ a, acc u = some a ∧ a.gr = taskGr r ∧ a.gc = taskGc r ∧
              a.aln = taskAln r ∧ a.nextKey = taskKey r ∧ a.incoming = 0 ∧ a.carry = 0 ∧ a.sat = false ∧ a.rovf = false ∧
              a.current = none ∧ a.held = [] ∧ a.engines = tile.free.take (taskGr r * taskGc r) ∧
              a.rows.length = 64 * taskGr r ∧
              ∀ x ∈ a.rows, x.x = -32768 ∧ x.h = 47 ∧ x.nan = false ∧ x.lost = false ∧ x.m = List.replicate (128 * taskGc r) 0))) ∧
        (s.tilesWork die list = true → s.allocating die list 4 = some t →
          (lookup h tile.accs ≠ none → Completes (.aload die list) s (fun u => ended u 6 0x89)) ∧
          (∀ u bytes bad, lookup h tile.accs = none → t.header = [] → s.engBytes (t.by_ die) (image 0) 16 = .ok u (bytes, bad) →
            let ws := unpackBits 64 2 (ofByteNats bytes)
            let d1 := ws.getD 1 0
            let fits : Prop := d1 / 2 ^ 34 % 4 ≠ 0 ∧ d1 / 2 ^ 32 % 4 ≠ 0 ∧ d1 / 2 ^ 36 % 2 ^ 12 = 0 ∧ d1 / 2 ^ 5 % 2 ^ 27 = 0 ∧ d1 % 2 = 0
            (bad ≠ [] → Completes (.aload die list) s (fun v => ended v 9 0x62)) ∧
            (bad = [] → ¬fits → Completes (.aload die list) s (fun v => ended v 6 0x8A)) ∧
            (bad = [] → fits → Completes (.aload die list) s (fun v => now v = some { t with header := ws.map (BitVec.ofNat 64) }))) ∧
          (∀ u bytes bad, lookup h tile.accs = none → t.header ≠ [] →
            let d0 := (t.header.getD 0 0#64).toNat
            let d1 := (t.header.getD 1 0#64).toNat
            let gc := d1 / 2 ^ 32 % 4
            let gr := d1 / 2 ^ 34 % 4
            let size := 8 * (1 + 128 * gc)
            gr * gc ≤ tile.free.length → s.engBytes (t.by_ die) (image (16 + t.row * size)) size = .ok u (bytes, bad) →
              let row := rowOfImage (unpackBits 64 (size / 8) (ofByteNats bytes))
              (bad ≠ [] → Completes (.aload die list) s (fun v => ended v 9 0x62)) ∧
              (bad = [] → row = none → Completes (.aload die list) s (fun v => ended v 6 0x8A)) ∧
              (∀ x, bad = [] → row = some x → t.row + 1 < 64 * gr → Completes (.aload die list) s (fun v =>
                now v = some { t with row := t.row + 1, loaded := t.loaded ++ [x] })) ∧
              (∀ x, bad = [] → row = some x → 64 * gr ≤ t.row + 1 → Completes (.aload die list) s (fun v =>
                ended v 5 t.cause ∧ ∃ a, acc v = some a ∧ a.rows = t.loaded ++ [x] ∧ a.gr = gr ∧ a.gc = gc ∧
                  a.aln = d1.testBit 3 ∧ a.sat = d1.testBit 1 ∧ a.rovf = d1.testBit 2 ∧
                  a.nextKey = d1 / 2 ^ 48 % 2 ^ 16 ∧ a.incoming = d0 / 2 ^ 32 ∧ a.carry = d0 % 2 ^ 32 ∧ a.current = none ∧
                  a.engines = tile.free.take (gr * gc))))) ∧
        (s.job.status = .running → tile.tasks.find? (fun x => x.state == 4 && x.hold == .serviced && taskHandle x.record == h) = some t →
          Completes (.taskResume die h) s (fun u => now u = some { t with state := 3, hold := .going })) ∧
        (s.tilesWork die list = true → (s.finished die list).getLast? = some t → (∀ x ∈ tile.tasks, x.list = list → x.state ≠ 2) →
          (∀ x ∈ tile.tasks, x.list = list → 5 ≤ x.state → x.trap = none) → Completes (.taskCompletion die list) s (fun u =>
            lookup list (u.job.tile die).timelines = some t.ticket ∧
            (u.job.tile die).tasks = tile.tasks.filter (fun x => !(x.list == list && x.ticket ≤ t.ticket))))) ∧
    (∀ die h op (a : Acc) (t : Task),
      let r := t.record
      let now (u : State) : Option Task := u.job.task? die t.list t.ticket
      let acc (u : State) : Option Acc := lookup h (u.job.tile die).accs
      let base := r.getD 2 0#64
      s.inHand die h op = some (a, t) →
        (op = 1 → t.row = 0 → ∀ u, State.loadPanels die t (a.column r) (s.tick die h) = .ok u () → Completes (.mma die h) s (fun v =>
          (now v).map (fun x => (x.row, x.state)) = some (1, 3) ∧
          ∀ e ∈ a.column r, ∃ p, lookup e.1 (v.job.tile die).panels = some p ∧ p.addr = base ∧ p.fmt = taskBfmt r ∧
            p.aux = r.getD 3 0#64 ∧ (a.engines.Nodup → p.col = e.2))) ∧
        (∀ i x, op = 1 → a.rows[i]? = some x → a.rowReady t i = true → s.watchExpired die a = false →
          (1 < a.gc → x.told = false → Completes (.exponentMessage die h i) s (fun u => SameButJob s u ∧
            (acc u).bind (fun b => b.rows[i]?) = some { x with told := true })) ∧
          (a.gc = 1 ∨ x.told = true → a.held = [] →
            let (xa, qa, _, bad) := s.aBlockAt die t (i - taskRow0 r) x.block
            let cols := ((a.engines.drop (i / 64 * a.gc)).take a.gc).flatMap (fun e =>
              ((lookup e (s.job.tile die).panels).map (fun p => p.cols)).getD [])
            let blocks := cols.map (fun c => c.getD x.block { x := 0xFF, q := [], bad := true })
            let bad' := bad || blocks.any (fun y => y.bad)
            (bad' = true → Completes (.applyBlock die h i) s (fun u => (now u).map (fun y => (y.state, y.cause)) = some (9, 0x62))) ∧
            (bad' = false → Completes (.applyBlock die h i) s (fun u =>
              (acc u).bind (fun b => b.rows[i]?) =
                some { (applyBlock a.aln (taskPa r) xa qa blocks x).1 with block := x.block + 1, told := false } ∧
              (acc u).map (fun b => b.watchdog) = some 0)))) ∧
        (op = 1 → a.held = [] → s.groupWaits die a = true → 2 ^ 24 ≤ s.watchCount die a → Completes (.groupWatchdog die h) s (fun u =>
          (now u).map (fun y => (y.state, y.cause)) = some (8, 0x8B) ∧
          (acc u).map (fun b => (b.current, b.nextKey)) = some (none, (taskKey r + 1) % 2 ^ 16))) ∧
        (op = 2 → ∀ x, a.rows[taskRow0 r + t.row]? = some x →
          let bytes := (x.readout (taskRfmt r) (taskNanOvf r)).1
          ∀ u ss, State.engSpots (t.by_ die) (items (base + BitVec.ofNat 64 (t.row * (r.getD 3 0#64).toNat)) 1 bytes.length) s = .ok u ss →
            (t.row + 1 ≠ taskRows r → u.job.writing (t.by_ die).request = false → Canonical u → Apart u ss → Completes (.rdout die h) s (fun v =>
              Arrive u v ss bytes ∧ now v = some { t with row := t.row + 1 })) ∧
            (t.row + 1 = taskRows r → a.held = [] → Completes (.rdout die h) s (fun v => (now v).map (fun y => y.state) = some 5))) ∧
        (op = 3 → ∀ x, a.rows[t.row]? = some x →
          let head := if t.row = 0 then unpackBits 8 8 a.dword0.toNat ++ unpackBits 8 8 a.dword1.toNat else []
          let bytes := head ++ x.raw.flatMap (unpackBits 8 8)
          let off := if t.row = 0 then 0 else 16 + t.row * (8 * (1 + 128 * a.gc))
          ∀ u ss, State.engSpots (t.by_ die) (items (base + BitVec.ofNat 64 off) 1 bytes.length) s = .ok u ss →
            (t.row + 1 ≠ a.rows.length → u.job.writing (t.by_ die).request = false → Canonical u → Apart u ss → Completes (.asave die h) s (fun v =>
              Arrive u v ss bytes ∧ now v = some { t with row := t.row + 1 })) ∧
            (t.row + 1 = a.rows.length → a.held = [] → Completes (.asave die h) s (fun v => (now v).map (fun y => y.state) = some 5))) ∧
        (op = 5 → a.held = [] → (∀ x ∈ (s.job.tile die).tasks, x.state ≠ 2) → Completes (.afree die h) s (fun u =>
          (now u).map (fun y => y.state) = some 5 ∧ (u.job.tile die).accs = remove h (s.job.tile die).accs))) ∧
    (∀ (aln : Bool) (pa xa : Nat) (qa : List Int) (cols : List PanelBlock) (row : AccRow),
      let p (c : PanelBlock) : Int := (List.zipWith (fun x y => x * y) qa c.q).sum
      let e (c : PanelBlock) : Int := (xa : Int) + (c.x : Int) - 254
      let out := applyBlock aln pa xa qa cols row
      (row.nan = true → out = (row, false, false)) ∧
      (row.nan = false → xa = 255 ∨ (∃ c ∈ cols, c.x = 255) → out = ({ row with nan := true }, false, false)) ∧
      (row.nan = false → xa ≠ 255 → (∀ c ∈ cols, c.x ≠ 255 ∧ p c = 0) → out = (row, false, false)) ∧
      (out.1.nan = false → out.1.lost = false → row.m.length = cols.length → (row.x = -32768 → ∀ v ∈ row.m, v = 0) →
        ∀ (j : Nat) (c : PanelBlock), cols[j]? = some c →
          (out.1.m.getD j 0 : Rat) * 2 ^ out.1.x = (row.m.getD j 0 : Rat) * 2 ^ row.x + (p c : Rat) * 2 ^ e c)) ∧
    (∀ h (c : Comm) (i : Instance), s.colHead h = some (c, i) →
      let head (u : State) : Option Instance := (u.colHead h).map (fun x => x.2)
      (∀ peers : List PeerPost, s.colWorks h = true → i.started = false → i.status = 0 →
        peers.map (fun p => p.rank) = (List.range c.size).filter (fun r => r ≠ c.rank) →
        let own := colRecordOk i.record c.rank c.size
        let agree := peers.all (fun p => colRecordOk p.record p.rank c.size && colAgree i.record p.record)
        Completes (.collectiveInstanceStart h peers) s (fun u => SameButJob s u ∧ head u = some (
          let j := { i with started := true, peers := peers }
          let refused (st : Nat) (cause : Byte) : Instance :=
            { j with status := st, causes := i.causes ++ [{ cause := cause }], result := [], bad := [], words := 0, hold := .going }
          if !own then refused 4 0x8F#8 else if !agree then refused 6 0x90#8 else j))) ∧
      (∀ u own, s.colWorks h = true → i.started = true → i.status = 0 → i.hold = .going → s.ownPost h c i = .ok u own →
        let posts := orderPosts c.size (own :: i.peers)
        let x := c.compute i.record posts
        let runs (y : Instr) : Prop :=
          ((∀ p ∈ i.peers, p.refused = false) → Completes y s (fun t => head t = some { i with
            status := if posts.any peerPoisoned then 2 else if x.stopped.isSome then 5 else 1
            flags := x.flags, bandnw := x.stopped.getD 0, result := x.bytes, bad := x.bad, words := (x.bytes.length + 7) / 8
            causes := if peerPoisoned own then [{ cause := 0x62#8 }] else [] })) ∧
          ((∃ p ∈ i.peers, p.refused = true) → Completes y s (fun t => (head t).map (fun j => j.status) = some 3))
        (colOp i.record = 0 → runs (.colDenseAllreduce h)) ∧ (colOp i.record = 1 → runs (.colSparseAllreduce h)) ∧
        (colOp i.record = 2 → runs (.colBroadcast h) ∧ ∀ q, posts.find? (fun q => q.rank == colRoot i.record) = some q →
          x.bytes = q.bytes.map (fun b => b.toNat)) ∧
        (colOp i.record = 3 → runs (.colAllGather h) ∧ x.bytes = (posts.map (fun q => q.bytes.map (fun b => b.toNat))).flatten)) ∧
      (s.colWorking = true → i.hold = .serviced → Completes (.colResume h) s (fun u =>
        head u = some { i with hold := .going } ∧ SameButJob s u)) ∧
      (∀ u a ha v b hb, s.colWorks h = true → s.job.writing (i.by_ h).request = false → i.status ≠ 0 → i.hold = .going →
        i.completed = 1 → i.causes = [] → colUsable i.record = true →
        s.engSpotAs .engWrite (i.by_ h) (i.record.getD 6 0#64) 8 = .ok u (a, ha) → a % 8 = 0 → Canonical u →
        QuietHome u ha →
        let w := (u.store i.poster.writer a 8 (colstat i) ha).onInstance h i.seq (fun x => { x with completed := 2 })
        w.engSpotAs .engFlag (i.by_ h) (i.record.getD 6 0#64 + 8#64) 8 = .ok v (b, hb) → b % 8 = 0 → Canonical v →
        QuietHome v hb → NobodyParked v b → Completes (.colCompletion h) s (fun t =>
          w.readWord a = BitVec.ofNat 64 (colstat i) ∧ (∀ y, y / 8 ≠ a / 8 → w.readByte y = u.readByte y) ∧
          (∃ x : State, x.readWord b = BitVec.ofNat 64 i.seq ∧ x.feBit b = true ∧
            (∀ y, y / 8 ≠ b / 8 → x.readByte y = v.readByte y) ∧ SameMemory (x.writeTimeline (0x3000 + 8 * h) i.seq) t) ∧
          ∀ d, lookup h t.job.comms = some d → ∀ y ∈ d.instances, y.seq ≠ i.seq)) ∧
      (s.colWorking = true → i.started = true → i.abortable = true → Completes (.segmentDeliveryFailure h) s (fun u =>
        SameButJob s u ∧ (head u).map (fun x => (x.status, x.causes)) = some (7, i.causes ++ [{ cause := 0x91#8 }])))) ∧
    (∀ h (c : Comm), lookup h s.job.comms = some c → s.colWorking = true → c.ending = true ∨ c.lost ≠ [] →
      (∃ i ∈ c.instances, i.abortable = true) → Completes (.colAbort h) s (fun u => SameButJob s u ∧
        ∃ d, lookup h u.job.comms = some d ∧ d.instances.length = c.instances.length ∧ ∀ i ∈ d.instances, i.abortable = false)) ∧
    (∀ h rank (c : Comm), lookup h s.job.comms = some c → rank < c.size → rank ≠ c.rank → rank ∉ c.lost →
      Completes (.memberPackageLost h rank) s (fun u => SameButJob s u ∧ ∃ d, lookup h u.job.comms = some d ∧
        d.lost = rank :: c.lost ∧ d.instances.length = c.instances.length ∧ ∀ i ∈ d.instances, i.abortable = false)) ∧
    (∀ va u cell home, s.job.status = .running → s.hwCell true va 64 = .ok (u, cell, home) →
      (∀ i < 8, u.poisoned (cell + 8 * i) = false) →
      let b := u.getWords cell 8
      let q : Chunk := { request := requestId 7 (commHandle b) 0, chunk := 0, priv := .user }
      (∀ v tree, commOp b = 1 → commCreateOk b = true → lookup (commHandle b) u.job.comms = none →
        State.engReads q (items (b.getD 2 0#64) 8 (commSize b + commNodes b)) u = .ok v tree →
        Completes (.commCreate va) s (fun t => ∃ c, lookup (commHandle b) t.job.comms = some c ∧ c.rank = commRank b ∧
          c.size = commSize b ∧ c.threshold = commThreshold b ∧ c.nnode = commNodes b ∧ c.seq = 0 ∧ c.instances = [] ∧
          c.tree = tree.map (BitVec.ofNat 64))) ∧
      (∀ c, commOp b = 2 → commReservedOk b = true → lookup (commHandle b) u.job.comms = some c →
        (c.instances = [] → Completes (.commEnd va) s (fun t => t.job.comms = remove (commHandle b) u.job.comms)) ∧
        (c.instances ≠ [] → Completes (.commEnd va) s (fun t => va ∈ t.job.commands ∧
          lookup (commHandle b) t.job.comms = some { c with ending := true }))))

/-- R57, R58, R220, R282, R293, R304, R306, R310, R314, R315, R316, R335, R336, R337, R338, R340 and R345: walks, host
translations, format windows, and what firmware does with a job. The supervisor's registers of 0 at its start (log 2), the halting
state between a suspension asked for and made (log 42), a walk ahead of any access (log 55), one request and one outcome for the
accesses that wait for a page (log 57), the records of a context image (log 98), and the numbers and memory a new job finds (logs 1
and 112) are the model's choices. -/
def Obligations.TranslationsAndJobsChange : Prop :=
  ∀ (s : State), s.share = none →
    let now := s.pkg.cycle
    (s.live = true → ∀ va k, canonical va = true → inWindow va = false →
      (∀ t, s.walk (formOfKind k) va = .error t → exec (.pageWalk va k) s = .next s) ∧
      (∀ e, s.walk (formOfKind k) va = .ok e → Canonical s → QuietHome s none → Completes (.pageWalk va k) s (fun u =>
        e.t.pte.getLsbD 62 = true ∧ (k = .store → e.t.pte.getLsbD 63 = true) ∧ e.t ∈ u.job.tlb ∧
        e.t.vpn = va.toNat % 2 ^ 57 / 2 ^ pageShift e.t.size ∧
        (match e.wrote with
          | some a => Holds s u a 8 e.t.pte.toNat
          | none => ∀ a, u.readByte a = s.readByte a) ∧ u.ag = s.ag))) ∧
    (∀ port pasid page r, s.pkg.ats.find? (fun r => r.names port pasid page) = some r →
      (∀ h rd wr, (if r.write then wr else rd) = true → Completes (.atsTranslationResponse port pasid page (.grant h rd wr)) s (fun u =>
        u.pkg.ats = s.pkg.ats.filter (fun x => !(x == r)) ∧ u.pkg.pri = s.pkg.pri ∧
        (∃ e ∈ u.pkg.atc, e.port = port ∧ e.pasid = pasid ∧ e.page = page ∧ e.hostPage = h ∧ e.r = rd ∧ e.w = wr) ∧
        { u with pkg := s.pkg } = s)) ∧
      (∀ h rd wr, (if r.write then wr else rd) = false → r.retry = false →
        Completes (.atsTranslationResponse port pasid page (.grant h rd wr)) s (fun u =>
          u.pkg.ats = s.pkg.ats.filter (fun x => !(x == r)) ∧ u.pkg.pri = s.pkg.pri ++ [{ r with since := now }] ∧
          { u with pkg := s.pkg } = s)) ∧
      exec (.atsTranslationResponse port pasid page .abort) s =
        .next (({ s with pkg := { s.pkg with ats := s.pkg.ats.filter (fun x => !(x == r)) } }).refusePage r)) ∧
    (∀ port pasid page r, (s.pkg.sent port).find? (fun r => r.names port pasid page) = some r →
      (now < r.since + 2 ^ 32 →
        Completes (.priResponse port pasid page .success) s (fun u =>
          u.pkg.ats = s.pkg.ats ++ [{ r with retry := true, since := now }] ∧ { u with pkg := s.pkg } = s) ∧
        exec (.priResponse port pasid page .invalid) s = .next (({ s with pkg := s.pkg.endPri r }).refusePage r) ∧
        exec (.priResponse port pasid page .failure) s = .next (({ s with pkg := s.pkg.endPri r }).refusePage r)) ∧
      (r.since + 2 ^ 32 ≤ now → exec (.priTimeout port pasid page) s = .next (({ s with pkg := s.pkg.endPri r }).refusePage r))) ∧
    (∀ (p : Bool → Loc → Bool) op va loc len since, s.ag.wait = .request op va loc len since → s.ag.nb = [] → s.ag.ending = false →
      p op.form.writes loc = true → s.refuseHere p =
        (s.account now).raise { cause := if op.form.writes then 0x2F#8 else 0x27#8, subr := 2, addr := va }) ∧
    (∀ port pasid page pages, port ∉ s.pkg.portsDown →
      let hit (e : AtcEntry) : Prop := e.port = port ∧ (∀ q, pasid = some q → e.pasid = q) ∧ page ≤ e.page ∧ e.page < page + pages
      Completes (.atsInvalidation port pasid page pages) s (fun u =>
        (∀ e, e ∈ u.pkg.atc ↔ e ∈ s.pkg.atc ∧ ¬hit e) ∧ u.pkg.invalidating = s.pkg.invalidating ++ [(port, s.hostWrites)] ∧
        { u with pkg := { u.pkg with atc := s.pkg.atc, invalidating := s.pkg.invalidating } } = s)) ∧
    (∀ port x, s.pkg.invalidating.find? (fun y => y.1 == port) = some x → (∀ w ∈ s.hostWrites, w ∉ x.2) →
      Completes (.invalidationCompletion port) s (fun u => u.pkg.invalidating = s.pkg.invalidating.erase x ∧
      { u with pkg := { u.pkg with invalidating := s.pkg.invalidating } } = s)) ∧
    (∀ a n sg d va port pasid iova len since c,
      let t := s.served a
      s.live = true → t.ag.wait = .request (.load n sg d) va (.host port pasid iova) len since →
      t.ag.ending = false → t.pkg.hostCell port pasid iova false = some c →
      (t.poisoned c = false → Completes (.hostReadCompletion a false) s (fun u =>
        u.ag.wait = .reply d (landed n sg (t.readNat c n)) ∧ u.pc = t.pc + BitVec.ofNat 64 len ∧ (∀ r, u.g r = t.g r) ∧
        SameMemory t u)) ∧
      ∃ w : State, exec (.hostReadCompletion a true) s = .next (w.raise (loadTrap 0x60#8 va)) ∧
        w.ag = { t.ag with wait := .ready } ∧ SameMemory t w) ∧
    (∀ stack w, s.job.pdies.contains (stack / 2) = true → w < 8 → Canonical s →
      let x := s.pkg.window stack w
      let end_ := x.view + x.blocks * (x.viewBytes + 1)
      let discards (u : State) : Prop := ∀ l ∈ u.pkg.viewLines, ¬(x.view / 64 ≤ l.1 ∧ l.1 * 64 < end_)
      (x.armed = false → s.job.mayArm x = true → Completes (.formatWindowArm stack w) s (fun u =>
        u.pkg.window stack w = { x with armed := true } ∧ discards u ∧ { u with pkg := s.pkg } = s)) ∧
      (x.armed = false → s.job.mayArm x = false → exec (.formatWindowArm stack w) s = .next s) ∧
      (x.armed = true → Completes (.formatWindowDisarm stack w) s (fun u =>
        u.pkg.window stack w = { x with armed := false } ∧ discards u ∧ { u with pkg := s.pkg } = s))) ∧
    (∀ epoch, s.job.status ≠ .absent → s.job.dlbase.getLsbD 62 ≠ epoch → (∀ x ∈ s.allAgents, x.2.nb = []) →
      exec (.dirtyLogEpochFlip epoch) s =
        .next { s with job := { s.job with dlbase := s.job.dlbase ^^^ 0x4000_0000_0000_0000#64 } }) ∧
    (∀ number dies entry,
      let t := s.focusJob number
      t.job.status = .absent → t.pkg.boot.bootst = 3 → dies.Nodup → dies.length ≤ 16 → (∀ d ∈ dies, d < 16) →
      (∀ d ∈ dies, t.pkg.inService d = true ∧ d ∉ t.ownedDies) →
      (∀ x ∈ t.pkg.dev, ∀ d who, dbgctlOf x.1 = some (d, who) → d ∈ dies → x.2.getLsbD 62 = false) →
      Completes (.jobStart number dies entry []) s (fun u =>
        u.job.status = .running ∧ u.jobNo = number ∧ u.job.jobid = BitVec.ofNat 64 number ∧
        u.job.vdcount = BitVec.ofNat 64 dies.length ∧ (∀ (v d : Nat), dies[v]? = some d → u.job.pdie v = d) ∧
        u.agId = 2 ^ 15 ∧ u.ag = { Agent.vacant with role := .master, priv := .supervisor, occupied := true, pc := entry } ∧
        u.job.agents = [] ∧ u.job.runs = [] ∧ u.job.graphs = [] ∧ u.job.conduits = [] ∧
        (∀ a, inConduitTimeline dies a = true → u.readByte a = 0#8) ∧
        (∀ a, isLocal a = true → (a - lsBase) / 2 ^ 25 ∈ dies → feDefault (a / 8) = false → u.feBit a = false) ∧
        ∀ d ∈ dies, d ∉ u.pkg.gated)) ∧
    (s.job.status ≠ .absent → Completes .jobEnd s (fun u =>
      u.job = Job.absent ∧ u.ag = Agent.vacant ∧ u.jobs = s.jobs ∧ SameMemory s u)) ∧
    (s.job.status = .running → Completes .jobSuspend s (fun u =>
      u.job.status = .halting ∧ { u with job := { u.job with status := .running, tiles := s.job.tiles } } = s)) ∧
    (s.job.status = .halting → Completes .jobSaveAbandon s (fun u =>
      u.job.status = .running ∧ { u with job := { u.job with status := .halting, tiles := s.job.tiles } } = s)) ∧
    (∀ t, s.job.status = .halting → (∀ c ∈ s.job.comms, c.2.instances = []) → s.job.midWrite = false → s.job.loose = [] → s.allQuiet = some t →
      Completes .jobSuspend s (fun u => u.job.status = .suspended ∧ u.job.saved ≠ none ∧
        ∀ l ∈ u.pkg.viewLines, l.1 * 64 / 2 ^ 38 ∉ u.job.pdies)) ∧
    (∀ v q, v < 16 → q < 16 → s.job.status = .suspended → v < s.job.dies_n → q ∉ s.ownedDies → s.pkg.inService q = true →
      Canonical s → Completes (.virtualDieRemap v q) s (fun u =>
        (∀ i < 16, u.job.pdie i = if i = v then q else s.job.pdie i) ∧ u.job.status = .suspended ∧ u.pkg.cycle = now ∧
        (∀ o < 2 ^ 25, u.readByte (lsBase + q * 2 ^ 25 + o) = s.readByte (lsBase + s.job.pdie v * 2 ^ 25 + o)) ∧
        ∀ p < 16, p ≠ q → ∀ o < 2 ^ 25, u.readByte (lsBase + p * 2 ^ 25 + o) = s.readByte (lsBase + p * 2 ^ 25 + o))) ∧
    (∀ old c, s.job.status = .suspended → s.job.saved = some (old, c) → (∀ d ∈ s.job.pdies, s.pkg.inService d = true) →
      s.job.image = [] → s.job.conduits = [] → s.job.queueSize ≠ 0 → s.job.queued = s.job.queueSize →
      Completes .jobRestore s (fun u =>
        u.job.status = .running ∧ u.job.saved = none ∧ u.job.tlb = [] ∧ u.pkg.atc = [] ∧ u.ag = s.ag ∧ SameMemory s u ∧
        u.job.records = s.job.records ++ [[BitVec.ofNat 64 (9 * 2 ^ 56 + 0xA7), 0#64, old, s.job.vdmap, 0#64, 0#64,
          BitVec.ofNat 64 c, BitVec.ofNat 64 now]]))

/-- R343, R344, R346, R347, R348, R349, R352, R353, R355, R356 and R357: scrubbing, link retry, transactions, ports, rate
limits, gated dies and service. A flit taken from its sender and received in one step (log 54), what counts as the idleness of a die
(log 56), the owner of an agent-state error (log 58) and the retry of a request whose reply is lost (log 59) are the model's
choices. -/
def Obligations.FaultsAreContainedAndBlocksServiced : Prop :=
  ∀ (s : State),
    let now := s.pkg.cycle
    (∀ codeword,
      let a := 32 * codeword
      let c := 0xF10_0000_0000 + a / 2 ^ 38 * 0x100_0000 + 0xB_0000 + 0x40 * (a / 2 ^ 37 % 2)
      a < 2 ^ 42 → Canonical s →
        exec (.patrolScrub codeword .clean) s = .next s ∧
        Completes (.patrolScrub codeword .corrected) s (fun u => u.pkg.reg c = s.pkg.reg c + 1#64 ∧ { u with pkg := s.pkg } = s) ∧
        Completes (.patrolScrub codeword .uncorrectable) s (fun u => u.pkg.reg (c + 8) = s.pkg.reg (c + 8) + 4#64 ∧
          (∀ b, u.poisoned b = if b / 32 = codeword then true else s.poisoned b) ∧
          { u with poison := s.poison, pkg := s.pkg } = s)) ∧
    (∀ a u, s.live = true → (s.agent a).occupied = true → (s.focus a).quiet = some u → u.ag.role = .unit →
      exec (.agentStateUe a) s = .next (((u.account u.pkg.cycle).giveUp).raise { cause := 0xA5#8, slot := some a })) ∧
    (∀ link,
      let l := s.pkg.link link
      let same (u : State) : Prop := { u with pkg := { u.pkg with links := s.pkg.links } } = s
      (∀ payload, l.nextSend < 4096 → l.resend = [] → flitAfter l.acked l.nextSend < 1024 → l.held = [] → l.expected = l.nextSend →
        Completes (.flitReceive link l.nextSend true false payload) s (fun u =>
          let m := u.pkg.link link
          m.delivered = l.delivered ++ [payload] ∧ m.expected = (l.nextSend + 1) % 4096 ∧ m.nextSend = (l.nextSend + 1) % 4096 ∧
          m.replay = l.replay ++ [(l.nextSend, payload)] ∧ l.nextSend ∉ m.nacks ∧ same u) ∧
        Completes (.flitReceive link l.nextSend false false payload) s (fun u =>
          let m := u.pkg.link link
          m.delivered = l.delivered ∧ m.expected = l.expected ∧ m.nextSend = (l.nextSend + 1) % 4096 ∧
          m.replay = l.replay ++ [(l.nextSend, payload)] ∧ l.nextSend ∈ m.nacks ∧ same u)) ∧
      (∀ seq copyOk, seq ∈ l.nacks → (lookup seq l.replay).isSome = true → Completes (.nackReceive link seq copyOk) s (fun u =>
        u.pkg.link link = { l with nacks := l.nacks.erase seq, resend := l.resend ++ [(seq, !copyOk)] } ∧ same u)) ∧
      (∀ seq, flitAfter l.acked seq < flitAfter l.acked l.expected → Completes (.acknowledgementReceive link seq) s (fun u =>
        let m := u.pkg.link link
        m.acked = (seq + 1) % 4096 ∧ m.delivered = l.delivered ∧ m.nextSend = l.nextSend ∧
        (∀ x ∈ m.replay, x ∈ l.replay ∧ flitAfter m.acked x.1 < flitAfter m.acked l.nextSend) ∧ same u)) ∧
      Completes (.linkWindowRebuild link) s (fun u =>
        let m := u.pkg.link link
        m.acked = l.expected ∧ m.expected = l.expected ∧ m.nextSend = l.nextSend ∧ m.delivered = l.delivered ∧ m.resend = [] ∧
        (∀ i < flitAfter l.expected l.nextSend, let k := (l.expected + i) % 4096
          (∀ x ∈ l.held, x.1 ≠ k) → k ∈ m.nacks) ∧ same u)) ∧
    (∀ a d v x,
      let t := s.focus a
      s.live = true → (s.agent a).wait = .reply d v → t.transaction = some x → x.sent + 2 ^ 18 ≤ now →
        (x.retries < 3 → Completes (.transactionRetry a) s (fun u =>
          u.transaction = some { x with sent := now, retries := x.retries + 1 } ∧ u.ag = t.ag ∧ u.job = t.job ∧ SameMemory t u)) ∧
        (3 ≤ x.retries → ∃ w : State, exec (.transactionRetry a) s = .next (w.raise { cause := 0xA6#8 }) ∧
          w.ag = { t.ag with wait := .ready } ∧ w.transaction = none ∧ SameMemory t w)) ∧
    (∀ ident c, (ident, c) ∈ s.pkg.dedup → c + 2 ^ 21 ≤ now → (∀ x ∈ s.pkg.dedup, x.1 = ident → x.2 = c) →
      exec (.dedupExpiry ident) s = .next { s with pkg := { s.pkg with dedup := s.pkg.dedup.erase (ident, c) } }) ∧
    (∀ port, port ∉ s.pkg.portsDown → ∃ w : State,
      exec (.hostPortDown port) s = .next (w.refuseAll (fun _ l => l.atPort port)) ∧ port ∈ w.pkg.portsDown ∧
      (∀ e ∈ w.pkg.atc, e.port ≠ port) ∧ (∀ r ∈ w.pkg.ats ++ w.pkg.pri, r.port ≠ port) ∧
      w.pkg.reports = s.pkg.reports ++ [.portDown port] ∧ { w with pkg := s.pkg } = s) ∧
    (∀ port lost,
      let lanes := (lookup port s.pkg.lanes).getD 8
      1 ≤ lost → lanes ≠ 0 → Completes (.scaleUpPortLaneLoss port lost) s (fun u =>
        lookup port u.pkg.lanes = some (if lanes = 8 ∧ lost ≤ 4 then 4 else 0) ∧
        { u with pkg := { u.pkg with lanes := s.pkg.lanes } } = s)) ∧
    (∀ b, (b ∉ s.pkg.slowed → exec (.blockRateLimit b) s = .next { s with pkg := { s.pkg with slowed := s.pkg.slowed ++ [b] } }) ∧
      (b ∈ s.pkg.slowed → exec (.blockRateRestore b) s = .next { s with pkg := { s.pkg with slowed := s.pkg.slowed.erase b } })) ∧
    (∀ d, d ∉ s.pkg.gated → s.pkg.inService d = true → (lookup d s.pkg.leftAt).getD 0 + 2 ^ 22 ≤ now →
      ((s.job.vdie d = none ∧ ∀ x ∈ s.jobs, d ∉ x.2.pdies) ∨ ∃ v, s.job.vdie d = some v ∧ s.live = true ∧ s.dieIdle v = true) →
      Completes (.dieGate d) s (fun u => d ∈ u.pkg.gated ∧ lookup d u.pkg.gatedAt = some now ∧
        (∀ x ∈ u.pkg.viewLines, x.1 * 64 / 2 ^ 38 ≠ d) ∧ (∀ x ∈ u.pkg.epochs, x.1 * 64 / 2 ^ 38 ≠ d) ∧
        (∀ x ∈ u.pkg.viewLines, s.job.vdie d ≠ some (s.job.partitionHash (x.1 * 64) / 128)) ∧ { u with pkg := s.pkg } = s)) ∧
    (∀ d, d ∈ s.pkg.gated → Completes (.dieWake d) s (fun u => d ∉ u.pkg.gated ∧ (∀ e, e ≠ d → (e ∈ u.pkg.gated ↔ e ∈ s.pkg.gated)) ∧
      { u with pkg := s.pkg } = s)) ∧
    (∀ stack c, (stack, c) ∉ s.pkg.retired → Completes (.pseudoChannelRetire stack c) s (fun u =>
      u.pkg.retired = s.pkg.retired ++ [(stack, c)] ∧
      u.pkg.reports = s.pkg.reports ++
        (if 2 ≤ (s.pkg.retired.filter (fun x => x.1 == stack)).length then [.channelLost stack c] else []) ∧
      { u with pkg := { u.pkg with retired := s.pkg.retired, reports := s.pkg.reports } } = s)) ∧
    (∀ link lane, exec (.linkLaneRecalibrate link lane) s = .next s) ∧
    (∀ block image, exec (.blockFirmwareUpdate block image false) s = .next s ∧
      Completes (.blockFirmwareUpdate block image true) s (fun u => lookup block u.pkg.boot.blocks = some image ∧
        { u with pkg := { u.pkg with boot := { u.pkg.boot with blocks := s.pkg.boot.blocks } } } = s)) ∧
    (∀ d < 16, s.pkg.inService d = true → d ∉ s.ownedDies → Completes (.dieOutOfService d) s (fun u =>
      (∀ e < 16, u.pkg.inService e = (e != d && s.pkg.inService e)) ∧
      { u with pkg := { u.pkg with boot := { u.pkg.boot with diemap := s.pkg.boot.diemap } } } = s))

/-- R10, R309, R359, R360, R362, R366, R367, R371, R372, R373, R375, R376 and R378: counters, debug stops, snapshots,
replay, package reset, boot, images, the management port, and writes of device registers. Memory, bits and marks empty after a
package reset (log 4), what a file is refused for (log 61), the fields of DBGCTL and a stop that waits for its boundary (log 62), the
place of a latch in its cycle (log 71), the bytes a die's hash is over and the forwarding to it (log 115), and an answer of two free
bytes (log 117) are the model's choices. -/
def Obligations.ObservationAndBootAct : Prop :=
  ∀ (s : State),
    let now := s.pkg.cycle
    Canonical s →
    (∀ pdie core, pdie < 16 → core < 128 →
      let b := 0xF10_0000_0000 + 0x100_0000 * pdie + 0x1000 * core
      Completes (.obsCounterClear pdie core) s (fun u =>
        (∀ off, 0x100 ≤ off → off < 0x580 → u.pkg.reg (b + off) = 0#64) ∧
        (∀ pa, pa < b + 0x100 ∨ b + 0x580 ≤ pa → u.pkg.reg pa = s.pkg.reg pa) ∧ SameMemory s u ∧ u.pkg.cycle = now)) ∧
    (∀ a,
      let t := s.focus a
      let reg (u : State) : Nat := (u.pkg.reg (s.dbgctl a)).toNat
      agentOk a = true → s.job.status = .running →
        (∀ u, s.owned a = true → (s.agent a).dbgStopped = false → t.quiet = some u → Completes (.debugStop a) s (fun v =>
          v.ag.dbgStopped = true ∧ v.ag.wait = .ready ∧ v.pc = u.pc ∧ (∀ r, v.g r = u.g r) ∧ reg v / 2 ^ 40 % 2 ^ 8 = 0xA4 ∧
          (reg v).testBit 62 = true ∧ (reg v).testBit 57 = true)) ∧
        (s.owned a = true → (s.agent a).dbgStopped = false → s.stopWanted a = false → t.quiet = none →
          Completes (.debugStop a) s (fun v => v.ag = t.ag ∧ v.stopWanted a = true ∧ (reg v).testBit 62 = true ∧
            (∀ i, i ≠ 62 → (reg v).testBit i = (reg s).testBit i) ∧ SameMemory t v)) ∧
        ((s.agent a).dbgStopped = true → Completes (.debugResume a) s (fun v =>
          v.ag.dbgStopped = false ∧ v.pc = t.pc ∧ (∀ r, v.g r = t.g r) ∧ (reg v).testBit 62 = false ∧
          (reg v).testBit 57 = ((s.agent a).slStopped || (s.agent a).reserved || (s.agent a).deferred.isSome))) ∧
        (s.owned a = true → (s.agent a).dbgStopped = true → (s.agent a).stepping = false → Completes (.debugStep a) s (fun v =>
          v.ag = { t.ag with stepping := true } ∧ SameMemory t v)) ∧
        (s.owned a = true → (s.agent a).dbgStopped = false → (s.agent a).stepping = true → (s.agent a).wait = .ready →
          Completes (.debugStep a) s (fun v => v.ag.dbgStopped = true ∧ v.ag.stepping = false ∧ v.pc = t.pc ∧
            reg v / 2 ^ 40 % 2 ^ 8 = 0xA3 ∧ (reg v).testBit 62 = true)) ∧
        (s.owned a = true → Completes (.debugRelease a) s (fun v => v.ag.dbgStopped = false ∧ v.pc = t.pc ∧
          (reg v).testBit 63 = false ∧ (reg v).testBit 62 = false ∧ (reg v).testBit 60 = false)) ∧
        Completes (.watchPass a) s (fun v => (reg v).testBit 59 = true ∧ (∀ i, i ≠ 59 → (reg v).testBit i = (reg s).testBit i) ∧
          { v with pkg := s.pkg } = s)) ∧
    (∀ c : Nat,
      let taken (i : Instr) : Prop := Completes i s (fun u =>
        u.pkg.snapshot = some c ∧ u.pkg.reg 0xFF0_0000_0008 = 1#64 ∧ { u with pkg := s.pkg } = s)
      let refused (i : Instr) : Prop := Completes i s (fun u =>
        u.pkg.snapshot = s.pkg.snapshot ∧ u.pkg.reg 0xFF0_0000_0008 = 2#64 ∧ { u with pkg := s.pkg } = s)
      (now + 4096 ≤ c → s.pkg.snapshot = none → taken (.snapshotRequest c) ∧
        (c < 2 ^ 64 → taken (.registerWrite 0xFF0_0000_0000 (BitVec.ofNat 64 c)))) ∧
      (c < now + 4096 ∨ s.pkg.snapshot ≠ none → refused (.snapshotRequest c) ∧
        (c < 2 ^ 64 → refused (.registerWrite 0xFF0_0000_0000 (BitVec.ofNat 64 c)))) ∧
      (s.pkg.snapshot = some c → c = now → Completes .snapshotLatch s (fun u =>
        u.pkg.snapshot = none ∧ u.pkg.reg 0xFF0_0000_0008 = 3#64 ∧
        (∀ die < 16, ∀ core < 128,
          u.pkg.reg (0xF10_0000_0000 + 0x100_0000 * die + 0x1000 * core + 0xD80) = BitVec.ofNat 64 c) ∧
        ∀ pa cp, snapCopy pa = some cp → u.pkg.reg cp = (s.accountPackage c).pkg.reg pa))) ∧
    (∀ a v va c h len since,
      let t := s.served a
      let ctl := s.job.sillage h
      s.live = true → t.ag.wait = .request (.store 8 v) va (.cell c (some h)) len since → since + 2 ^ 24 ≤ now →
      t.heldLoose = none → t.heldAt 0 (.cell c (some h)) 8 = true → t.asleep (.cell c (some h)) = false → s.job.dlbase.getLsbD 63 = false →
      s.share = none → h < 2 ^ 11 → Canonical t → Completes (.sillageHoldRelease a) s (fun u =>
        u.ag.wait = .reply 0#5 0#64 ∧ u.pc = t.pc + BitVec.ofNat 64 len ∧ Holds t u c 8 v.toNat ∧
        (u.pkg.reg ctl).getLsbD 61 = true ∧ (u.pkg.reg ctl).toNat / 2 ^ 62 = (t.pkg.reg ctl).toNat / 2 ^ 62)) ∧
    Completes .packageReset s (fun u =>
      u.ag = Agent.vacant ∧ u.job = Job.absent ∧ u.jobs = [] ∧ u.mem = [] ∧ u.fe = [] ∧ u.poison = [] ∧ u.pkg.cycle = 0 ∧
      u.pkg.dev = [] ∧
      u.pkg.boot = { Boot.running with step := 1, bootst := 0, diemap := 0, flashBad := s.pkg.boot.flashBad }) ∧
    (let b := s.pkg.boot
     let same (u : State) : Prop := { u with pkg := { u.pkg with boot := b, reports := s.pkg.reports } } = s
     let steps (P : State → Prop) : Prop := ∃ u, tryBootStep s = some u ∧ P u
     (b.step = 1 → b.flashFails = true → b.bootst ≠ 2 → steps (fun u => u.pkg.boot = { b with bootst := 2 } ∧ same u)) ∧
     (b.step = 1 → b.flashFails = false → steps (fun u =>
       u.pkg.boot = { b with step := 2, bootst := 1, flashBad := [] } ∧ same u)) ∧
     (b.step = 5 → (∀ n ∈ b.firmwares, ∀ die < 20, b.settled n die = true) → steps (fun u => same u ∧ u.pkg.boot.step = 6 ∧
       u.pkg.boot.bootst = 3 ∧ u.pkg.reports = s.pkg.reports ++ [.capacity ((List.range 4).map Config.captierBytes)] ∧
       u.pkg.boot.heldCommands = [] ∧ u.pkg.boot.ranCommands = b.ranCommands ++ b.heldCommands)) ∧
     (∀ die image hash, 5 ≤ b.step → image ∈ b.firmwares → b.settled image die = false → b.forwarded image die = true →
       (sha384 (b.firmware image) = hash → Completes (.bootImageAck die ⟨image, hash⟩) s (fun u => same u ∧
         u.pkg.boot.settled image die = true ∧ { u.pkg.boot with acked := b.acked, blocks := b.blocks } = b ∧
         (∀ n, lookup n u.pkg.boot.blocks = lookup n b.blocks ∨ lookup n u.pkg.boot.blocks = some image) ∧
         (die < 16 → ∀ core < 128, placed 4 1 die core b.placement = some image →
           lookup (blockNumber 1 die core) u.pkg.boot.blocks = some image) ∧
         (16 ≤ die → managementImage b.placement = some image → lookup (blockNumber 0 die 0) u.pkg.boot.blocks = some image))) ∧
       (sha384 (b.firmware image) ≠ hash →
         let failed : Boot := { b with attempts := b.attempts ++ [(die, image)] }
         (b.tries die image < 3 → Completes (.bootImageAck die ⟨image, hash⟩) s (fun u => u.pkg.boot = failed ∧ same u)) ∧
         (3 ≤ b.tries die image → die < 16 → die ∉ s.ownedDies → Completes (.bootImageAck die ⟨image, hash⟩) s (fun u =>
           u.pkg.boot = { failed with diemap := b.diemap - 2 ^ die } ∧ same u)) ∧
         (3 ≤ b.tries die image → 16 ≤ die → die - 16 ∈ s.pkg.portsDown → Completes (.bootImageAck die ⟨image, hash⟩) s (fun u =>
           u.pkg.boot = failed ∧ u.pkg.boot.settled image die = true ∧ same u)))) ∧
     (∀ f,
       let new (role image : Nat) : Bool := (gxoSections f).any (fun x => x.kind ≤ 1 && x.role == role && x.image == image)
       (gxoOk f = false ∨ b.step < 5 → exec (.gxoLoad f) s = .next s) ∧
       (gxoOk f = true → 5 ≤ b.step → Completes (.gxoLoad f) s (fun u => same u ∧
         u.pkg.boot.images = b.images.filter (fun y => !new y.1 y.2.1) ++
           ((gxoSections f).filter (fun x => x.kind ≤ 1)).map (fun x => (x.role, x.image, x.load, x.bytes f))))) ∧
     (∀ addr, exec (.i3cDynamicAddress addr) s = .next { s with pkg := { s.pkg with boot := { b with address := some addr } } }) ∧
     (∃ x y : Byte, exec .i3cGetstatus s =
       .next { s with free := s.free + 1, pkg := { s.pkg with boot := { b with answer := [x, y] } } }) ∧
     (∀ c : List Byte, c.length ≤ 256 → Completes (.mgmtMailboxCommand c) s (fun u => same u ∧
       u.pkg.boot.mailbox.take c.length = c ∧
       (b.bootst = 3 → u.pkg.boot.ranCommands = b.ranCommands ++ [c] ∧ u.pkg.boot.heldCommands = b.heldCommands) ∧
       (b.bootst ≠ 3 → u.pkg.boot.heldCommands = b.heldCommands ++ [c] ∧ u.pkg.boot.ranCommands = b.ranCommands)))) ∧
    (∀ (pa : Nat) (v : Word), (pa % 8 ≠ 0 → exec (.registerWrite pa v) s = .next s) ∧
      (∀ stack w, stack < 32 → w < 8 → pa = fwBase stack w + 8 → (s.pkg.window stack w).armed = false →
        Completes (.registerWrite pa v) s (fun u => u.pkg.reg pa = v &&& 0x000F_FFFF_FFFF_FFC0#64 ∧
          (∀ x, x ≠ pa → u.pkg.reg x = s.pkg.reg x) ∧ { u with pkg := s.pkg } = s)) ∧
      (∀ pdie core off, pdie < 16 → core < 128 → 0x100 ≤ off → off < 0x580 →
        pa = 0xF10_0000_0000 + 0x100_0000 * pdie + 0x1000 * core + off → exec (.registerWrite pa v) s = .next s))

/-- R4, R10, R61, R119, R359, R376: what reset leaves. No job is live, every agent slot is vacant, `cycle` is 0,
every bit is full but those of the mailboxes and reply words of the 2,048 local stores, and every register of a core's
observation block holds its reset value, which is 0 but for EN of OBSCTL. Model's choice: unlisted memory reads as 0 and no dword is
poisoned (log entry 1), the registers of a vacant slot are 0 (log entry 2), and the boot sequence has ended, BOOTST 3, with every die in
service (log entry 4). -/
def Obligations.ResetHoldsWhatTheSpecGives : Prop :=
  Canonical State.reset ∧ State.reset.job.status = .absent ∧ State.reset.jobs = [] ∧ State.reset.ag.occupied = false ∧
    (∀ a, (State.reset.agent a).occupied = false) ∧ State.reset.pkg.cycle = 0 ∧
    (∀ r, State.reset.g r = 0#64) ∧ State.reset.pc = 0#64 ∧ State.reset.ag.rmode = 0#64 ∧
    (∀ a, State.reset.readByte a = 0#8) ∧ (∀ a, State.reset.poisoned a = false) ∧
    (∀ a, a < lsBase ∨ lsBase + 2 ^ 29 ≤ a → State.reset.feBit a = true) ∧
    (∀ pdie < 16, ∀ core < 128, ∀ off < 2 ^ 18,
      State.reset.feBit (lsBase + pdie * 2 ^ 25 + core * 2 ^ 18 + off) = decide (off < 0x3E000 ∨ 0x3E040 ≤ off)) ∧
    State.reset.pkg.boot.step = 6 ∧ State.reset.pkg.boot.bootst = 3 ∧
    (∀ die < 16, State.reset.pkg.boot.diemap.testBit die = true) ∧
    (∀ pdie < 16, ∀ core < 128,
      State.reset.pkg.reg (0xF10_0000_0000 + 0x100_0000 * pdie + 0x1000 * core) = 0x8000_0000_0000_0000#64 ∧
        ∀ off, 0 < off → off < 0x1000 → State.reset.pkg.reg (0xF10_0000_0000 + 0x100_0000 * pdie + 0x1000 * core + off) = 0#64)

/-- R34, R122, R129, R130, R161, R363: a turn offered to an agent that may issue executes the instruction at its pc, one
parcel or two as bit 0 of the first says, on the state of the fetch with the turn counted and the issue traced, neither of
which touches what an instruction reads; one that gives its turn up has not issued, and the turn is lost in its class; bytes that
encode nothing raise their cause; and a move the schedule gives does its row, unless one that the manual times comes before it. That
a schedule names the moves, and what comes before them (log 6), what a refused fetch keeps of its walk (log 11), the instructions that
give their turn up and its class (log 60), and what a turn counts for a cause that is owed (log 86) are the model's choices. -/
def Obligations.AStepRunsTheDecodedInstruction : Prop :=
  ∀ (s : State),
    let s0 := s.atTurn
    let runs (u : State) (i : Instr) : Prop := (u.refusedFirst i = true ∨ ∀ x ∈ u.ag.nb, x.owes (regsOf i) = false) →
      (∀ v, exec i (u.issues i) = .next v → v.gaveUp = none → step s = .next v.dropDrain) ∧
      (∀ v v', exec i (u.issues i) = .next v → v.gaveUp ≠ none → exec i u = .next v' →
        step s = .next (v'.loseTurn (v'.gaveUp.getD 1)))
    let ran (u : State) (d : Decoded) : Prop :=
      match d with
      | .ok i => runs u i
      | .error c => runs u (.illegalEncoding c)
    let refused (t : State) (va : Word) : Prop :=
      (∀ c, t.check t.ag.priv .fetch va 2 = .error c → step s = .next ((t.afterDenied t.ag.priv .fetch va).issued.raise c)) ∧
      (∀ u a h, t.check t.ag.priv .fetch va 2 = .ok (u, .cell a h) → u.asleep (.cell a h) = true →
        step s = .next ((s0.callDie (s.job.pdie (s.pc.toNat / 2 ^ 25 % 2 ^ 4))).loseTurn 1))
    (s.offered = true → s.canIssue = true →
      (∀ u x, Fetches s0 s.pc u x → x % 2 = 0 → ran u (decodeParcels x 0)) ∧
      (∀ t x, Fetches s0 s.pc t x → x % 2 = 1 →
        (∀ u y, Fetches t (s.pc + 2#64) u y → ran u (decodeParcels x y)) ∧ refused t (s.pc + 2#64)) ∧
      refused s0 s.pc) ∧
    (s.offered = true → s.canIssue = false → step s = .next { s with offered := false }) ∧
    (∀ i, let v := s.issues i
      (∀ r, v.g r = s.g r) ∧ v.pc = s.pc ∧ { v.job with owing := s.job.owing } = s.job ∧ v.jobs = s.jobs ∧ v.agId = s.agId ∧ v.fe = s.fe ∧
        v.poison = s.poison ∧ v.pkg.cycle = s.pkg.cycle ∧
        { v.ag with aborted := s.ag.aborted, forfeits := s.ag.forfeits, dbgStopped := s.ag.dbgStopped } = s.ag ∧
        ∀ a, v.readByte a = s.readByte a) ∧
    (∀ p rest, let t : State := { s with share := none }
      s.offered = false → s.agenda = p :: rest → (∀ x, t.must = some x → p.at_ ≤ x.1) → ∀ i, p.move = .row i →
      (schedulable i = true → step s = exec i ((({ t with agenda := rest } : State).atCycle p.at_).focusJob p.job)) ∧
      (schedulable i = false → step s = .fault .illFormed))

/-- R122 to R128: words written out bit by bit from the encodings of the manual decode to what they stand for, and words
that encode nothing to their class-0 cause. -/
def Obligations.TheSpecsWordsDecode : Prop :=
  decodeWord 0x000E6281 = .ok (.add 5#5 6#5 7#5) ∧ decodeWord 0xFFFA4289 = .ok (.addi 5#5 4#5 0x7FFD#15) ∧
    decodeWord 0x25906287 = .ok (.bfxu 5#5 6#5 8#6 11#6) ∧ decodeWord 0x0021ED2D = .ok (.ldd 26#5 30#5 16#15) ∧
    decodeWord 0xFFF00D43 = .ok (.bne 26#5 0#5 0x7FF8#15) ∧ decodeWord 0x000411D1 = .ok (.spawn 3#5 1#5 2#5) ∧
    decodeWord 0x00B5CDD5 = .ok (.cpwait 27#5 28#5 26#5) ∧ decodeWord 0x004E62D7 = .ok (.fadd .d 5#5 6#5 7#5) ∧
    decodeWord 0x181A68E1 = .ok (.vfma .wrap .f32 2#3 1#3 2#3 3#3) ∧ decodeWord 0x20086071 = .ok (.mts 4#12 6#5) ∧
    decodeParcel 0x62C4 = .ok (.cLdd 2#3 6#3 2#4) ∧ decodeParcels 0x9000 0 = .ok .cNext ∧
    decodeWord 0x00400A51 = .error 0x06#8

/-- R122 to R134: decoding undoes encoding, for every well-formed instruction that has an encoding and every value of its
operands. -/
def Obligations.DecodingUndoesEncoding : Prop :=
  ∀ i : Instr, i.wf = true → i.size ≠ 0 → decodeBytes (encode i) = .ok (i, [])

/-- The model's own invariant: whatever a step does, the lists that hold memory, its bits and its marks keep their one
canonical form, so equal memories stay equal data. -/
def Obligations.EveryStepKeepsMemoryCanonical : Prop :=
  ∀ s t : State, Canonical s → step s = .next t → Canonical t
end

