-- ==== Sys2Proof/Laws/State.lean ====
section
/-! SUPPORT. What each update of a register, of the pc, of the flags or of the wait leaves of the rest: one lemma per
field per update, all by `rfl` or one case split, so that no later proof unfolds a record update. -/

namespace Sys2Proof.Machine

/-- A register read after a write of one (R115). -/
theorem g_setG (s : State) (d r : Reg) (v : Word) :
    (s.setG d v).g r = if r = d ∧ r ≠ 0#5 then v else s.g r := by
  unfold State.setG State.g
  by_cases hr : r = 0#5
  · simp [hr]
  · by_cases hd : d = 0#5
    · have : ¬ r = d := fun e => hr (e.trans hd)
      simp [hd, hr]
    · by_cases e : r = d
      · subst e; simp [hr]
      · have ne : d.toNat ≠ r.toNat := fun h => e (BitVec.eq_of_toNat_eq h).symm
        simp [hd, hr, e, Vector.getElem_set_ne _ _ ne]

@[simp] theorem g_zero (s : State) : s.g 0#5 = 0#64 := rfl
@[simp] theorem setG_zero (s : State) (v : Word) : s.setG 0#5 v = s := rfl
@[simp] theorem k_zero (s : State) : s.k 0#3 = 0xFFFF#16 := rfl
@[simp] theorem setK_zero (s : State) (x : BitVec 16) : s.setK 0#3 x = s := rfl

/-- A vector register read after a write of one. -/
theorem v_setV (s : State) (d r : VReg) (x : VWord) : (s.setV d x).v r = if r = d then x else s.v r := by
  unfold State.setV State.v
  by_cases e : r = d
  · subst e; simp
  · have ne : d.toNat ≠ r.toNat := fun h => e (BitVec.eq_of_toNat_eq h).symm
    simp [e, Vector.getElem_set_ne _ _ ne]

/-- An xe register read after a write of one. -/
theorem xe_setXe (s : State) (d r : VReg) (x : Word) : (s.setXe d x).xe r = if r = d then x else s.xe r := by
  unfold State.setXe State.xe
  by_cases e : r = d
  · subst e; simp
  · have ne : d.toNat ≠ r.toNat := fun h => e (BitVec.eq_of_toNat_eq h).symm
    simp [e, Vector.getElem_set_ne _ _ ne]

/-- A mask register read after a write of one (R115). -/
theorem k_setK (s : State) (d r : VReg) (x : BitVec 16) :
    (s.setK d x).k r = if r = d ∧ r ≠ 0#3 then x else s.k r := by
  unfold State.setK State.k
  by_cases hr : r = 0#3
  · simp [hr]
  · by_cases hd : d = 0#3
    · simp [hd, hr]
    · by_cases e : r = d
      · subst e; simp [hr]
      · have ne : d.toNat ≠ r.toNat := fun h => e (BitVec.eq_of_toNat_eq h).symm
        simp [hd, hr, e, Vector.getElem_set_ne _ _ ne]

/-- Writing a g register changes that file only. -/
theorem setG_frame (s : State) (d : Reg) (v : Word) :
    s.setG d v = { s with ag := { s.ag with g := (s.setG d v).ag.g } } := by
  unfold State.setG; split <;> rfl

/-- Writing a mask register changes that file only. -/
theorem setK_frame (s : State) (d : VReg) (x : BitVec 16) :
    s.setK d x = { s with ag := { s.ag with k := (s.setK d x).ag.k } } := by
  unfold State.setK; split <;> rfl

@[simp] theorem setG_agId (s : State) (d : Reg) (v : Word) : (s.setG d v).agId = s.agId := by unfold State.setG; split <;> rfl
@[simp] theorem setG_job (s : State) (d : Reg) (v : Word) : (s.setG d v).job = s.job := by unfold State.setG; split <;> rfl
@[simp] theorem setG_jobNo (s : State) (d : Reg) (v : Word) : (s.setG d v).jobNo = s.jobNo := by unfold State.setG; split <;> rfl
@[simp] theorem setG_jobs (s : State) (d : Reg) (v : Word) : (s.setG d v).jobs = s.jobs := by unfold State.setG; split <;> rfl
@[simp] theorem setG_mem (s : State) (d : Reg) (v : Word) : (s.setG d v).mem = s.mem := by unfold State.setG; split <;> rfl
@[simp] theorem setG_fe (s : State) (d : Reg) (v : Word) : (s.setG d v).fe = s.fe := by unfold State.setG; split <;> rfl
@[simp] theorem setG_poison (s : State) (d : Reg) (v : Word) : (s.setG d v).poison = s.poison := by unfold State.setG; split <;> rfl
@[simp] theorem setG_pkg (s : State) (d : Reg) (v : Word) : (s.setG d v).pkg = s.pkg := by unfold State.setG; split <;> rfl
@[simp] theorem setG_agenda (s : State) (d : Reg) (v : Word) : (s.setG d v).agenda = s.agenda := by unfold State.setG; split <;> rfl
@[simp] theorem setG_offered (s : State) (d : Reg) (v : Word) : (s.setG d v).offered = s.offered := by unfold State.setG; split <;> rfl
@[simp] theorem setG_free (s : State) (d : Reg) (v : Word) : (s.setG d v).free = s.free := by unfold State.setG; split <;> rfl
@[simp] theorem setG_share (s : State) (d : Reg) (v : Word) : (s.setG d v).share = s.share := by unfold State.setG; split <;> rfl
@[simp] theorem setG_ag_role (s : State) (d : Reg) (v : Word) : (s.setG d v).ag.role = s.ag.role := by unfold State.setG; split <;> rfl
@[simp] theorem setG_ag_priv (s : State) (d : Reg) (v : Word) : (s.setG d v).ag.priv = s.ag.priv := by unfold State.setG; split <;> rfl
@[simp] theorem setG_ag_occupied (s : State) (d : Reg) (v : Word) : (s.setG d v).ag.occupied = s.ag.occupied := by unfold State.setG; split <;> rfl
@[simp] theorem setG_ag_pc (s : State) (d : Reg) (v : Word) : (s.setG d v).ag.pc = s.ag.pc := by unfold State.setG; split <;> rfl
@[simp] theorem setG_ag_v (s : State) (d : Reg) (v : Word) : (s.setG d v).ag.v = s.ag.v := by unfold State.setG; split <;> rfl
@[simp] theorem setG_ag_k (s : State) (d : Reg) (v : Word) : (s.setG d v).ag.k = s.ag.k := by unfold State.setG; split <;> rfl
@[simp] theorem setG_ag_xe (s : State) (d : Reg) (v : Word) : (s.setG d v).ag.xe = s.ag.xe := by unfold State.setG; split <;> rfl
@[simp] theorem setG_ag_rmode (s : State) (d : Reg) (v : Word) : (s.setG d v).ag.rmode = s.ag.rmode := by unfold State.setG; split <;> rfl
@[simp] theorem setG_ag_tid (s : State) (d : Reg) (v : Word) : (s.setG d v).ag.tid = s.ag.tid := by unfold State.setG; split <;> rfl
@[simp] theorem setG_ag_spawnid (s : State) (d : Reg) (v : Word) : (s.setG d v).ag.spawnid = s.ag.spawnid := by unfold State.setG; split <;> rfl
@[simp] theorem setG_ag_joinst (s : State) (d : Reg) (v : Word) : (s.setG d v).ag.joinst = s.ag.joinst := by unfold State.setG; split <;> rfl
@[simp] theorem setG_ag_upentry (s : State) (d : Reg) (v : Word) : (s.setG d v).ag.upentry = s.ag.upentry := by unfold State.setG; split <;> rfl
@[simp] theorem setG_ag_fibpool (s : State) (d : Reg) (v : Word) : (s.setG d v).ag.fibpool = s.ag.fibpool := by unfold State.setG; split <;> rfl
@[simp] theorem setG_ag_upcause (s : State) (d : Reg) (v : Word) : (s.setG d v).ag.upcause = s.ag.upcause := by unfold State.setG; split <;> rfl
@[simp] theorem setG_ag_upaddr (s : State) (d : Reg) (v : Word) : (s.setG d v).ag.upaddr = s.ag.upaddr := by unfold State.setG; split <;> rfl
@[simp] theorem setG_ag_nb (s : State) (d : Reg) (v : Word) : (s.setG d v).ag.nb = s.ag.nb := by unfold State.setG; split <;> rfl
@[simp] theorem setG_ag_wait (s : State) (d : Reg) (v : Word) : (s.setG d v).ag.wait = s.ag.wait := by unfold State.setG; split <;> rfl
@[simp] theorem setG_ag_wakes (s : State) (d : Reg) (v : Word) : (s.setG d v).ag.wakes = s.ag.wakes := by unfold State.setG; split <;> rfl
@[simp] theorem setG_ag_waited (s : State) (d : Reg) (v : Word) : (s.setG d v).ag.waited = s.ag.waited := by unfold State.setG; split <;> rfl
@[simp] theorem setG_ag_aborted (s : State) (d : Reg) (v : Word) : (s.setG d v).ag.aborted = s.ag.aborted := by unfold State.setG; split <;> rfl
@[simp] theorem setG_ag_slStopped (s : State) (d : Reg) (v : Word) : (s.setG d v).ag.slStopped = s.ag.slStopped := by unfold State.setG; split <;> rfl
@[simp] theorem setG_ag_dbgStopped (s : State) (d : Reg) (v : Word) : (s.setG d v).ag.dbgStopped = s.ag.dbgStopped := by unfold State.setG; split <;> rfl
@[simp] theorem setG_ag_reserved (s : State) (d : Reg) (v : Word) : (s.setG d v).ag.reserved = s.ag.reserved := by unfold State.setG; split <;> rfl
@[simp] theorem setG_ag_ending (s : State) (d : Reg) (v : Word) : (s.setG d v).ag.ending = s.ag.ending := by unfold State.setG; split <;> rfl
@[simp] theorem setG_ag_stepping (s : State) (d : Reg) (v : Word) : (s.setG d v).ag.stepping = s.ag.stepping := by unfold State.setG; split <;> rfl
@[simp] theorem setG_ag_deferred (s : State) (d : Reg) (v : Word) : (s.setG d v).ag.deferred = s.ag.deferred := by unfold State.setG; split <;> rfl
@[simp] theorem setG_ag_serving (s : State) (d : Reg) (v : Word) : (s.setG d v).ag.serving = s.ag.serving := by unfold State.setG; split <;> rfl
@[simp] theorem setG_ag_uid (s : State) (d : Reg) (v : Word) : (s.setG d v).ag.uid = s.ag.uid := by unfold State.setG; split <;> rfl
@[simp] theorem setG_ag_run (s : State) (d : Reg) (v : Word) : (s.setG d v).ag.run = s.ag.run := by unfold State.setG; split <;> rfl
@[simp] theorem setG_ag_node (s : State) (d : Reg) (v : Word) : (s.setG d v).ag.node = s.ag.node := by unfold State.setG; split <;> rfl
@[simp] theorem setG_ag_notBefore (s : State) (d : Reg) (v : Word) : (s.setG d v).ag.notBefore = s.ag.notBefore := by unfold State.setG; split <;> rfl
@[simp] theorem setG_ag_leftAt (s : State) (d : Reg) (v : Word) : (s.setG d v).ag.leftAt = s.ag.leftAt := by unfold State.setG; split <;> rfl
@[simp] theorem setG_ag_forfeits (s : State) (d : Reg) (v : Word) : (s.setG d v).ag.forfeits = s.ag.forfeits := by unfold State.setG; split <;> rfl
@[simp] theorem setG_ag_psInit (s : State) (d : Reg) (v : Word) : (s.setG d v).ag.psInit = s.ag.psInit := by unfold State.setG; split <;> rfl
@[simp] theorem setG_ag_psLast (s : State) (d : Reg) (v : Word) : (s.setG d v).ag.psLast = s.ag.psLast := by unfold State.setG; split <;> rfl

@[simp] theorem setV_agId (s : State) (d : VReg) (x : VWord) : (s.setV d x).agId = s.agId := rfl
@[simp] theorem setV_job (s : State) (d : VReg) (x : VWord) : (s.setV d x).job = s.job := rfl
@[simp] theorem setV_jobNo (s : State) (d : VReg) (x : VWord) : (s.setV d x).jobNo = s.jobNo := rfl
@[simp] theorem setV_jobs (s : State) (d : VReg) (x : VWord) : (s.setV d x).jobs = s.jobs := rfl
@[simp] theorem setV_mem (s : State) (d : VReg) (x : VWord) : (s.setV d x).mem = s.mem := rfl
@[simp] theorem setV_fe (s : State) (d : VReg) (x : VWord) : (s.setV d x).fe = s.fe := rfl
@[simp] theorem setV_poison (s : State) (d : VReg) (x : VWord) : (s.setV d x).poison = s.poison := rfl
@[simp] theorem setV_pkg (s : State) (d : VReg) (x : VWord) : (s.setV d x).pkg = s.pkg := rfl
@[simp] theorem setV_agenda (s : State) (d : VReg) (x : VWord) : (s.setV d x).agenda = s.agenda := rfl
@[simp] theorem setV_offered (s : State) (d : VReg) (x : VWord) : (s.setV d x).offered = s.offered := rfl
@[simp] theorem setV_free (s : State) (d : VReg) (x : VWord) : (s.setV d x).free = s.free := rfl
@[simp] theorem setV_share (s : State) (d : VReg) (x : VWord) : (s.setV d x).share = s.share := rfl
@[simp] theorem setV_ag_role (s : State) (d : VReg) (x : VWord) : (s.setV d x).ag.role = s.ag.role := rfl
@[simp] theorem setV_ag_priv (s : State) (d : VReg) (x : VWord) : (s.setV d x).ag.priv = s.ag.priv := rfl
@[simp] theorem setV_ag_occupied (s : State) (d : VReg) (x : VWord) : (s.setV d x).ag.occupied = s.ag.occupied := rfl
@[simp] theorem setV_ag_pc (s : State) (d : VReg) (x : VWord) : (s.setV d x).ag.pc = s.ag.pc := rfl
@[simp] theorem setV_ag_g (s : State) (d : VReg) (x : VWord) : (s.setV d x).ag.g = s.ag.g := rfl
@[simp] theorem setV_ag_k (s : State) (d : VReg) (x : VWord) : (s.setV d x).ag.k = s.ag.k := rfl
@[simp] theorem setV_ag_xe (s : State) (d : VReg) (x : VWord) : (s.setV d x).ag.xe = s.ag.xe := rfl
@[simp] theorem setV_ag_rmode (s : State) (d : VReg) (x : VWord) : (s.setV d x).ag.rmode = s.ag.rmode := rfl
@[simp] theorem setV_ag_tid (s : State) (d : VReg) (x : VWord) : (s.setV d x).ag.tid = s.ag.tid := rfl
@[simp] theorem setV_ag_spawnid (s : State) (d : VReg) (x : VWord) : (s.setV d x).ag.spawnid = s.ag.spawnid := rfl
@[simp] theorem setV_ag_joinst (s : State) (d : VReg) (x : VWord) : (s.setV d x).ag.joinst = s.ag.joinst := rfl
@[simp] theorem setV_ag_upentry (s : State) (d : VReg) (x : VWord) : (s.setV d x).ag.upentry = s.ag.upentry := rfl
@[simp] theorem setV_ag_fibpool (s : State) (d : VReg) (x : VWord) : (s.setV d x).ag.fibpool = s.ag.fibpool := rfl
@[simp] theorem setV_ag_upcause (s : State) (d : VReg) (x : VWord) : (s.setV d x).ag.upcause = s.ag.upcause := rfl
@[simp] theorem setV_ag_upaddr (s : State) (d : VReg) (x : VWord) : (s.setV d x).ag.upaddr = s.ag.upaddr := rfl
@[simp] theorem setV_ag_nb (s : State) (d : VReg) (x : VWord) : (s.setV d x).ag.nb = s.ag.nb := rfl
@[simp] theorem setV_ag_wait (s : State) (d : VReg) (x : VWord) : (s.setV d x).ag.wait = s.ag.wait := rfl
@[simp] theorem setV_ag_wakes (s : State) (d : VReg) (x : VWord) : (s.setV d x).ag.wakes = s.ag.wakes := rfl
@[simp] theorem setV_ag_waited (s : State) (d : VReg) (x : VWord) : (s.setV d x).ag.waited = s.ag.waited := rfl
@[simp] theorem setV_ag_aborted (s : State) (d : VReg) (x : VWord) : (s.setV d x).ag.aborted = s.ag.aborted := rfl
@[simp] theorem setV_ag_slStopped (s : State) (d : VReg) (x : VWord) : (s.setV d x).ag.slStopped = s.ag.slStopped := rfl
@[simp] theorem setV_ag_dbgStopped (s : State) (d : VReg) (x : VWord) : (s.setV d x).ag.dbgStopped = s.ag.dbgStopped := rfl
@[simp] theorem setV_ag_reserved (s : State) (d : VReg) (x : VWord) : (s.setV d x).ag.reserved = s.ag.reserved := rfl
@[simp] theorem setV_ag_ending (s : State) (d : VReg) (x : VWord) : (s.setV d x).ag.ending = s.ag.ending := rfl
@[simp] theorem setV_ag_stepping (s : State) (d : VReg) (x : VWord) : (s.setV d x).ag.stepping = s.ag.stepping := rfl
@[simp] theorem setV_ag_deferred (s : State) (d : VReg) (x : VWord) : (s.setV d x).ag.deferred = s.ag.deferred := rfl
@[simp] theorem setV_ag_serving (s : State) (d : VReg) (x : VWord) : (s.setV d x).ag.serving = s.ag.serving := rfl
@[simp] theorem setV_ag_uid (s : State) (d : VReg) (x : VWord) : (s.setV d x).ag.uid = s.ag.uid := rfl
@[simp] theorem setV_ag_run (s : State) (d : VReg) (x : VWord) : (s.setV d x).ag.run = s.ag.run := rfl
@[simp] theorem setV_ag_node (s : State) (d : VReg) (x : VWord) : (s.setV d x).ag.node = s.ag.node := rfl
@[simp] theorem setV_ag_notBefore (s : State) (d : VReg) (x : VWord) : (s.setV d x).ag.notBefore = s.ag.notBefore := rfl
@[simp] theorem setV_ag_leftAt (s : State) (d : VReg) (x : VWord) : (s.setV d x).ag.leftAt = s.ag.leftAt := rfl
@[simp] theorem setV_ag_forfeits (s : State) (d : VReg) (x : VWord) : (s.setV d x).ag.forfeits = s.ag.forfeits := rfl
@[simp] theorem setV_ag_psInit (s : State) (d : VReg) (x : VWord) : (s.setV d x).ag.psInit = s.ag.psInit := rfl
@[simp] theorem setV_ag_psLast (s : State) (d : VReg) (x : VWord) : (s.setV d x).ag.psLast = s.ag.psLast := rfl

@[simp] theorem setK_agId (s : State) (d : VReg) (x : BitVec 16) : (s.setK d x).agId = s.agId := by unfold State.setK; split <;> rfl
@[simp] theorem setK_job (s : State) (d : VReg) (x : BitVec 16) : (s.setK d x).job = s.job := by unfold State.setK; split <;> rfl
@[simp] theorem setK_jobNo (s : State) (d : VReg) (x : BitVec 16) : (s.setK d x).jobNo = s.jobNo := by unfold State.setK; split <;> rfl
@[simp] theorem setK_jobs (s : State) (d : VReg) (x : BitVec 16) : (s.setK d x).jobs = s.jobs := by unfold State.setK; split <;> rfl
@[simp] theorem setK_mem (s : State) (d : VReg) (x : BitVec 16) : (s.setK d x).mem = s.mem := by unfold State.setK; split <;> rfl
@[simp] theorem setK_fe (s : State) (d : VReg) (x : BitVec 16) : (s.setK d x).fe = s.fe := by unfold State.setK; split <;> rfl
@[simp] theorem setK_poison (s : State) (d : VReg) (x : BitVec 16) : (s.setK d x).poison = s.poison := by unfold State.setK; split <;> rfl
@[simp] theorem setK_pkg (s : State) (d : VReg) (x : BitVec 16) : (s.setK d x).pkg = s.pkg := by unfold State.setK; split <;> rfl
@[simp] theorem setK_agenda (s : State) (d : VReg) (x : BitVec 16) : (s.setK d x).agenda = s.agenda := by unfold State.setK; split <;> rfl
@[simp] theorem setK_offered (s : State) (d : VReg) (x : BitVec 16) : (s.setK d x).offered = s.offered := by unfold State.setK; split <;> rfl
@[simp] theorem setK_free (s : State) (d : VReg) (x : BitVec 16) : (s.setK d x).free = s.free := by unfold State.setK; split <;> rfl
@[simp] theorem setK_share (s : State) (d : VReg) (x : BitVec 16) : (s.setK d x).share = s.share := by unfold State.setK; split <;> rfl
@[simp] theorem setK_ag_role (s : State) (d : VReg) (x : BitVec 16) : (s.setK d x).ag.role = s.ag.role := by unfold State.setK; split <;> rfl
@[simp] theorem setK_ag_priv (s : State) (d : VReg) (x : BitVec 16) : (s.setK d x).ag.priv = s.ag.priv := by unfold State.setK; split <;> rfl
@[simp] theorem setK_ag_occupied (s : State) (d : VReg) (x : BitVec 16) : (s.setK d x).ag.occupied = s.ag.occupied := by unfold State.setK; split <;> rfl
@[simp] theorem setK_ag_pc (s : State) (d : VReg) (x : BitVec 16) : (s.setK d x).ag.pc = s.ag.pc := by unfold State.setK; split <;> rfl
@[simp] theorem setK_ag_g (s : State) (d : VReg) (x : BitVec 16) : (s.setK d x).ag.g = s.ag.g := by unfold State.setK; split <;> rfl
@[simp] theorem setK_ag_v (s : State) (d : VReg) (x : BitVec 16) : (s.setK d x).ag.v = s.ag.v := by unfold State.setK; split <;> rfl
@[simp] theorem setK_ag_xe (s : State) (d : VReg) (x : BitVec 16) : (s.setK d x).ag.xe = s.ag.xe := by unfold State.setK; split <;> rfl
@[simp] theorem setK_ag_rmode (s : State) (d : VReg) (x : BitVec 16) : (s.setK d x).ag.rmode = s.ag.rmode := by unfold State.setK; split <;> rfl
@[simp] theorem setK_ag_tid (s : State) (d : VReg) (x : BitVec 16) : (s.setK d x).ag.tid = s.ag.tid := by unfold State.setK; split <;> rfl
@[simp] theorem setK_ag_spawnid (s : State) (d : VReg) (x : BitVec 16) : (s.setK d x).ag.spawnid = s.ag.spawnid := by unfold State.setK; split <;> rfl
@[simp] theorem setK_ag_joinst (s : State) (d : VReg) (x : BitVec 16) : (s.setK d x).ag.joinst = s.ag.joinst := by unfold State.setK; split <;> rfl
@[simp] theorem setK_ag_upentry (s : State) (d : VReg) (x : BitVec 16) : (s.setK d x).ag.upentry = s.ag.upentry := by unfold State.setK; split <;> rfl
@[simp] theorem setK_ag_fibpool (s : State) (d : VReg) (x : BitVec 16) : (s.setK d x).ag.fibpool = s.ag.fibpool := by unfold State.setK; split <;> rfl
@[simp] theorem setK_ag_upcause (s : State) (d : VReg) (x : BitVec 16) : (s.setK d x).ag.upcause = s.ag.upcause := by unfold State.setK; split <;> rfl
@[simp] theorem setK_ag_upaddr (s : State) (d : VReg) (x : BitVec 16) : (s.setK d x).ag.upaddr = s.ag.upaddr := by unfold State.setK; split <;> rfl
@[simp] theorem setK_ag_nb (s : State) (d : VReg) (x : BitVec 16) : (s.setK d x).ag.nb = s.ag.nb := by unfold State.setK; split <;> rfl
@[simp] theorem setK_ag_wait (s : State) (d : VReg) (x : BitVec 16) : (s.setK d x).ag.wait = s.ag.wait := by unfold State.setK; split <;> rfl
@[simp] theorem setK_ag_wakes (s : State) (d : VReg) (x : BitVec 16) : (s.setK d x).ag.wakes = s.ag.wakes := by unfold State.setK; split <;> rfl
@[simp] theorem setK_ag_waited (s : State) (d : VReg) (x : BitVec 16) : (s.setK d x).ag.waited = s.ag.waited := by unfold State.setK; split <;> rfl
@[simp] theorem setK_ag_aborted (s : State) (d : VReg) (x : BitVec 16) : (s.setK d x).ag.aborted = s.ag.aborted := by unfold State.setK; split <;> rfl
@[simp] theorem setK_ag_slStopped (s : State) (d : VReg) (x : BitVec 16) : (s.setK d x).ag.slStopped = s.ag.slStopped := by unfold State.setK; split <;> rfl
@[simp] theorem setK_ag_dbgStopped (s : State) (d : VReg) (x : BitVec 16) : (s.setK d x).ag.dbgStopped = s.ag.dbgStopped := by unfold State.setK; split <;> rfl
@[simp] theorem setK_ag_reserved (s : State) (d : VReg) (x : BitVec 16) : (s.setK d x).ag.reserved = s.ag.reserved := by unfold State.setK; split <;> rfl
@[simp] theorem setK_ag_ending (s : State) (d : VReg) (x : BitVec 16) : (s.setK d x).ag.ending = s.ag.ending := by unfold State.setK; split <;> rfl
@[simp] theorem setK_ag_stepping (s : State) (d : VReg) (x : BitVec 16) : (s.setK d x).ag.stepping = s.ag.stepping := by unfold State.setK; split <;> rfl
@[simp] theorem setK_ag_deferred (s : State) (d : VReg) (x : BitVec 16) : (s.setK d x).ag.deferred = s.ag.deferred := by unfold State.setK; split <;> rfl
@[simp] theorem setK_ag_serving (s : State) (d : VReg) (x : BitVec 16) : (s.setK d x).ag.serving = s.ag.serving := by unfold State.setK; split <;> rfl
@[simp] theorem setK_ag_uid (s : State) (d : VReg) (x : BitVec 16) : (s.setK d x).ag.uid = s.ag.uid := by unfold State.setK; split <;> rfl
@[simp] theorem setK_ag_run (s : State) (d : VReg) (x : BitVec 16) : (s.setK d x).ag.run = s.ag.run := by unfold State.setK; split <;> rfl
@[simp] theorem setK_ag_node (s : State) (d : VReg) (x : BitVec 16) : (s.setK d x).ag.node = s.ag.node := by unfold State.setK; split <;> rfl
@[simp] theorem setK_ag_notBefore (s : State) (d : VReg) (x : BitVec 16) : (s.setK d x).ag.notBefore = s.ag.notBefore := by unfold State.setK; split <;> rfl
@[simp] theorem setK_ag_leftAt (s : State) (d : VReg) (x : BitVec 16) : (s.setK d x).ag.leftAt = s.ag.leftAt := by unfold State.setK; split <;> rfl
@[simp] theorem setK_ag_forfeits (s : State) (d : VReg) (x : BitVec 16) : (s.setK d x).ag.forfeits = s.ag.forfeits := by unfold State.setK; split <;> rfl
@[simp] theorem setK_ag_psInit (s : State) (d : VReg) (x : BitVec 16) : (s.setK d x).ag.psInit = s.ag.psInit := by unfold State.setK; split <;> rfl
@[simp] theorem setK_ag_psLast (s : State) (d : VReg) (x : BitVec 16) : (s.setK d x).ag.psLast = s.ag.psLast := by unfold State.setK; split <;> rfl

@[simp] theorem setXe_agId (s : State) (d : VReg) (x : Word) : (s.setXe d x).agId = s.agId := rfl
@[simp] theorem setXe_job (s : State) (d : VReg) (x : Word) : (s.setXe d x).job = s.job := rfl
@[simp] theorem setXe_jobNo (s : State) (d : VReg) (x : Word) : (s.setXe d x).jobNo = s.jobNo := rfl
@[simp] theorem setXe_jobs (s : State) (d : VReg) (x : Word) : (s.setXe d x).jobs = s.jobs := rfl
@[simp] theorem setXe_mem (s : State) (d : VReg) (x : Word) : (s.setXe d x).mem = s.mem := rfl
@[simp] theorem setXe_fe (s : State) (d : VReg) (x : Word) : (s.setXe d x).fe = s.fe := rfl
@[simp] theorem setXe_poison (s : State) (d : VReg) (x : Word) : (s.setXe d x).poison = s.poison := rfl
@[simp] theorem setXe_pkg (s : State) (d : VReg) (x : Word) : (s.setXe d x).pkg = s.pkg := rfl
@[simp] theorem setXe_agenda (s : State) (d : VReg) (x : Word) : (s.setXe d x).agenda = s.agenda := rfl
@[simp] theorem setXe_offered (s : State) (d : VReg) (x : Word) : (s.setXe d x).offered = s.offered := rfl
@[simp] theorem setXe_free (s : State) (d : VReg) (x : Word) : (s.setXe d x).free = s.free := rfl
@[simp] theorem setXe_share (s : State) (d : VReg) (x : Word) : (s.setXe d x).share = s.share := rfl
@[simp] theorem setXe_ag_role (s : State) (d : VReg) (x : Word) : (s.setXe d x).ag.role = s.ag.role := rfl
@[simp] theorem setXe_ag_priv (s : State) (d : VReg) (x : Word) : (s.setXe d x).ag.priv = s.ag.priv := rfl
@[simp] theorem setXe_ag_occupied (s : State) (d : VReg) (x : Word) : (s.setXe d x).ag.occupied = s.ag.occupied := rfl
@[simp] theorem setXe_ag_pc (s : State) (d : VReg) (x : Word) : (s.setXe d x).ag.pc = s.ag.pc := rfl
@[simp] theorem setXe_ag_g (s : State) (d : VReg) (x : Word) : (s.setXe d x).ag.g = s.ag.g := rfl
@[simp] theorem setXe_ag_v (s : State) (d : VReg) (x : Word) : (s.setXe d x).ag.v = s.ag.v := rfl
@[simp] theorem setXe_ag_k (s : State) (d : VReg) (x : Word) : (s.setXe d x).ag.k = s.ag.k := rfl
@[simp] theorem setXe_ag_rmode (s : State) (d : VReg) (x : Word) : (s.setXe d x).ag.rmode = s.ag.rmode := rfl
@[simp] theorem setXe_ag_tid (s : State) (d : VReg) (x : Word) : (s.setXe d x).ag.tid = s.ag.tid := rfl
@[simp] theorem setXe_ag_spawnid (s : State) (d : VReg) (x : Word) : (s.setXe d x).ag.spawnid = s.ag.spawnid := rfl
@[simp] theorem setXe_ag_joinst (s : State) (d : VReg) (x : Word) : (s.setXe d x).ag.joinst = s.ag.joinst := rfl
@[simp] theorem setXe_ag_upentry (s : State) (d : VReg) (x : Word) : (s.setXe d x).ag.upentry = s.ag.upentry := rfl
@[simp] theorem setXe_ag_fibpool (s : State) (d : VReg) (x : Word) : (s.setXe d x).ag.fibpool = s.ag.fibpool := rfl
@[simp] theorem setXe_ag_upcause (s : State) (d : VReg) (x : Word) : (s.setXe d x).ag.upcause = s.ag.upcause := rfl
@[simp] theorem setXe_ag_upaddr (s : State) (d : VReg) (x : Word) : (s.setXe d x).ag.upaddr = s.ag.upaddr := rfl
@[simp] theorem setXe_ag_nb (s : State) (d : VReg) (x : Word) : (s.setXe d x).ag.nb = s.ag.nb := rfl
@[simp] theorem setXe_ag_wait (s : State) (d : VReg) (x : Word) : (s.setXe d x).ag.wait = s.ag.wait := rfl
@[simp] theorem setXe_ag_wakes (s : State) (d : VReg) (x : Word) : (s.setXe d x).ag.wakes = s.ag.wakes := rfl
@[simp] theorem setXe_ag_waited (s : State) (d : VReg) (x : Word) : (s.setXe d x).ag.waited = s.ag.waited := rfl
@[simp] theorem setXe_ag_aborted (s : State) (d : VReg) (x : Word) : (s.setXe d x).ag.aborted = s.ag.aborted := rfl
@[simp] theorem setXe_ag_slStopped (s : State) (d : VReg) (x : Word) : (s.setXe d x).ag.slStopped = s.ag.slStopped := rfl
@[simp] theorem setXe_ag_dbgStopped (s : State) (d : VReg) (x : Word) : (s.setXe d x).ag.dbgStopped = s.ag.dbgStopped := rfl
@[simp] theorem setXe_ag_reserved (s : State) (d : VReg) (x : Word) : (s.setXe d x).ag.reserved = s.ag.reserved := rfl
@[simp] theorem setXe_ag_ending (s : State) (d : VReg) (x : Word) : (s.setXe d x).ag.ending = s.ag.ending := rfl
@[simp] theorem setXe_ag_stepping (s : State) (d : VReg) (x : Word) : (s.setXe d x).ag.stepping = s.ag.stepping := rfl
@[simp] theorem setXe_ag_deferred (s : State) (d : VReg) (x : Word) : (s.setXe d x).ag.deferred = s.ag.deferred := rfl
@[simp] theorem setXe_ag_serving (s : State) (d : VReg) (x : Word) : (s.setXe d x).ag.serving = s.ag.serving := rfl
@[simp] theorem setXe_ag_uid (s : State) (d : VReg) (x : Word) : (s.setXe d x).ag.uid = s.ag.uid := rfl
@[simp] theorem setXe_ag_run (s : State) (d : VReg) (x : Word) : (s.setXe d x).ag.run = s.ag.run := rfl
@[simp] theorem setXe_ag_node (s : State) (d : VReg) (x : Word) : (s.setXe d x).ag.node = s.ag.node := rfl
@[simp] theorem setXe_ag_notBefore (s : State) (d : VReg) (x : Word) : (s.setXe d x).ag.notBefore = s.ag.notBefore := rfl
@[simp] theorem setXe_ag_leftAt (s : State) (d : VReg) (x : Word) : (s.setXe d x).ag.leftAt = s.ag.leftAt := rfl
@[simp] theorem setXe_ag_forfeits (s : State) (d : VReg) (x : Word) : (s.setXe d x).ag.forfeits = s.ag.forfeits := rfl
@[simp] theorem setXe_ag_psInit (s : State) (d : VReg) (x : Word) : (s.setXe d x).ag.psInit = s.ag.psInit := rfl
@[simp] theorem setXe_ag_psLast (s : State) (d : VReg) (x : Word) : (s.setXe d x).ag.psLast = s.ag.psLast := rfl

@[simp] theorem setPc_agId (s : State) (x : Word) : (s.setPc x).agId = s.agId := rfl
@[simp] theorem setPc_job (s : State) (x : Word) : (s.setPc x).job = s.job := rfl
@[simp] theorem setPc_jobNo (s : State) (x : Word) : (s.setPc x).jobNo = s.jobNo := rfl
@[simp] theorem setPc_jobs (s : State) (x : Word) : (s.setPc x).jobs = s.jobs := rfl
@[simp] theorem setPc_mem (s : State) (x : Word) : (s.setPc x).mem = s.mem := rfl
@[simp] theorem setPc_fe (s : State) (x : Word) : (s.setPc x).fe = s.fe := rfl
@[simp] theorem setPc_poison (s : State) (x : Word) : (s.setPc x).poison = s.poison := rfl
@[simp] theorem setPc_pkg (s : State) (x : Word) : (s.setPc x).pkg = s.pkg := rfl
@[simp] theorem setPc_agenda (s : State) (x : Word) : (s.setPc x).agenda = s.agenda := rfl
@[simp] theorem setPc_offered (s : State) (x : Word) : (s.setPc x).offered = s.offered := rfl
@[simp] theorem setPc_free (s : State) (x : Word) : (s.setPc x).free = s.free := rfl
@[simp] theorem setPc_share (s : State) (x : Word) : (s.setPc x).share = s.share := rfl
@[simp] theorem setPc_ag_role (s : State) (x : Word) : (s.setPc x).ag.role = s.ag.role := rfl
@[simp] theorem setPc_ag_priv (s : State) (x : Word) : (s.setPc x).ag.priv = s.ag.priv := rfl
@[simp] theorem setPc_ag_occupied (s : State) (x : Word) : (s.setPc x).ag.occupied = s.ag.occupied := rfl
@[simp] theorem setPc_ag_g (s : State) (x : Word) : (s.setPc x).ag.g = s.ag.g := rfl
@[simp] theorem setPc_ag_v (s : State) (x : Word) : (s.setPc x).ag.v = s.ag.v := rfl
@[simp] theorem setPc_ag_k (s : State) (x : Word) : (s.setPc x).ag.k = s.ag.k := rfl
@[simp] theorem setPc_ag_xe (s : State) (x : Word) : (s.setPc x).ag.xe = s.ag.xe := rfl
@[simp] theorem setPc_ag_rmode (s : State) (x : Word) : (s.setPc x).ag.rmode = s.ag.rmode := rfl
@[simp] theorem setPc_ag_tid (s : State) (x : Word) : (s.setPc x).ag.tid = s.ag.tid := rfl
@[simp] theorem setPc_ag_spawnid (s : State) (x : Word) : (s.setPc x).ag.spawnid = s.ag.spawnid := rfl
@[simp] theorem setPc_ag_joinst (s : State) (x : Word) : (s.setPc x).ag.joinst = s.ag.joinst := rfl
@[simp] theorem setPc_ag_upentry (s : State) (x : Word) : (s.setPc x).ag.upentry = s.ag.upentry := rfl
@[simp] theorem setPc_ag_fibpool (s : State) (x : Word) : (s.setPc x).ag.fibpool = s.ag.fibpool := rfl
@[simp] theorem setPc_ag_upcause (s : State) (x : Word) : (s.setPc x).ag.upcause = s.ag.upcause := rfl
@[simp] theorem setPc_ag_upaddr (s : State) (x : Word) : (s.setPc x).ag.upaddr = s.ag.upaddr := rfl
@[simp] theorem setPc_ag_nb (s : State) (x : Word) : (s.setPc x).ag.nb = s.ag.nb := rfl
@[simp] theorem setPc_ag_wait (s : State) (x : Word) : (s.setPc x).ag.wait = s.ag.wait := rfl
@[simp] theorem setPc_ag_wakes (s : State) (x : Word) : (s.setPc x).ag.wakes = s.ag.wakes := rfl
@[simp] theorem setPc_ag_waited (s : State) (x : Word) : (s.setPc x).ag.waited = s.ag.waited := rfl
@[simp] theorem setPc_ag_aborted (s : State) (x : Word) : (s.setPc x).ag.aborted = s.ag.aborted := rfl
@[simp] theorem setPc_ag_slStopped (s : State) (x : Word) : (s.setPc x).ag.slStopped = s.ag.slStopped := rfl
@[simp] theorem setPc_ag_dbgStopped (s : State) (x : Word) : (s.setPc x).ag.dbgStopped = s.ag.dbgStopped := rfl
@[simp] theorem setPc_ag_reserved (s : State) (x : Word) : (s.setPc x).ag.reserved = s.ag.reserved := rfl
@[simp] theorem setPc_ag_ending (s : State) (x : Word) : (s.setPc x).ag.ending = s.ag.ending := rfl
@[simp] theorem setPc_ag_stepping (s : State) (x : Word) : (s.setPc x).ag.stepping = s.ag.stepping := rfl
@[simp] theorem setPc_ag_deferred (s : State) (x : Word) : (s.setPc x).ag.deferred = s.ag.deferred := rfl
@[simp] theorem setPc_ag_serving (s : State) (x : Word) : (s.setPc x).ag.serving = s.ag.serving := rfl
@[simp] theorem setPc_ag_uid (s : State) (x : Word) : (s.setPc x).ag.uid = s.ag.uid := rfl
@[simp] theorem setPc_ag_run (s : State) (x : Word) : (s.setPc x).ag.run = s.ag.run := rfl
@[simp] theorem setPc_ag_node (s : State) (x : Word) : (s.setPc x).ag.node = s.ag.node := rfl
@[simp] theorem setPc_ag_notBefore (s : State) (x : Word) : (s.setPc x).ag.notBefore = s.ag.notBefore := rfl
@[simp] theorem setPc_ag_leftAt (s : State) (x : Word) : (s.setPc x).ag.leftAt = s.ag.leftAt := rfl
@[simp] theorem setPc_ag_forfeits (s : State) (x : Word) : (s.setPc x).ag.forfeits = s.ag.forfeits := rfl
@[simp] theorem setPc_ag_psInit (s : State) (x : Word) : (s.setPc x).ag.psInit = s.ag.psInit := rfl
@[simp] theorem setPc_ag_psLast (s : State) (x : Word) : (s.setPc x).ag.psLast = s.ag.psLast := rfl

@[simp] theorem advance_agId (s : State) (n : Nat) : (s.advance n).agId = s.agId := rfl
@[simp] theorem advance_job (s : State) (n : Nat) : (s.advance n).job = s.job := rfl
@[simp] theorem advance_jobNo (s : State) (n : Nat) : (s.advance n).jobNo = s.jobNo := rfl
@[simp] theorem advance_jobs (s : State) (n : Nat) : (s.advance n).jobs = s.jobs := rfl
@[simp] theorem advance_mem (s : State) (n : Nat) : (s.advance n).mem = s.mem := rfl
@[simp] theorem advance_fe (s : State) (n : Nat) : (s.advance n).fe = s.fe := rfl
@[simp] theorem advance_poison (s : State) (n : Nat) : (s.advance n).poison = s.poison := rfl
@[simp] theorem advance_pkg (s : State) (n : Nat) : (s.advance n).pkg = s.pkg := rfl
@[simp] theorem advance_agenda (s : State) (n : Nat) : (s.advance n).agenda = s.agenda := rfl
@[simp] theorem advance_offered (s : State) (n : Nat) : (s.advance n).offered = s.offered := rfl
@[simp] theorem advance_free (s : State) (n : Nat) : (s.advance n).free = s.free := rfl
@[simp] theorem advance_share (s : State) (n : Nat) : (s.advance n).share = s.share := rfl
@[simp] theorem advance_ag_role (s : State) (n : Nat) : (s.advance n).ag.role = s.ag.role := rfl
@[simp] theorem advance_ag_priv (s : State) (n : Nat) : (s.advance n).ag.priv = s.ag.priv := rfl
@[simp] theorem advance_ag_occupied (s : State) (n : Nat) : (s.advance n).ag.occupied = s.ag.occupied := rfl
@[simp] theorem advance_ag_g (s : State) (n : Nat) : (s.advance n).ag.g = s.ag.g := rfl
@[simp] theorem advance_ag_v (s : State) (n : Nat) : (s.advance n).ag.v = s.ag.v := rfl
@[simp] theorem advance_ag_k (s : State) (n : Nat) : (s.advance n).ag.k = s.ag.k := rfl
@[simp] theorem advance_ag_xe (s : State) (n : Nat) : (s.advance n).ag.xe = s.ag.xe := rfl
@[simp] theorem advance_ag_rmode (s : State) (n : Nat) : (s.advance n).ag.rmode = s.ag.rmode := rfl
@[simp] theorem advance_ag_tid (s : State) (n : Nat) : (s.advance n).ag.tid = s.ag.tid := rfl
@[simp] theorem advance_ag_spawnid (s : State) (n : Nat) : (s.advance n).ag.spawnid = s.ag.spawnid := rfl
@[simp] theorem advance_ag_joinst (s : State) (n : Nat) : (s.advance n).ag.joinst = s.ag.joinst := rfl
@[simp] theorem advance_ag_upentry (s : State) (n : Nat) : (s.advance n).ag.upentry = s.ag.upentry := rfl
@[simp] theorem advance_ag_fibpool (s : State) (n : Nat) : (s.advance n).ag.fibpool = s.ag.fibpool := rfl
@[simp] theorem advance_ag_upcause (s : State) (n : Nat) : (s.advance n).ag.upcause = s.ag.upcause := rfl
@[simp] theorem advance_ag_upaddr (s : State) (n : Nat) : (s.advance n).ag.upaddr = s.ag.upaddr := rfl
@[simp] theorem advance_ag_nb (s : State) (n : Nat) : (s.advance n).ag.nb = s.ag.nb := rfl
@[simp] theorem advance_ag_wait (s : State) (n : Nat) : (s.advance n).ag.wait = s.ag.wait := rfl
@[simp] theorem advance_ag_wakes (s : State) (n : Nat) : (s.advance n).ag.wakes = s.ag.wakes := rfl
@[simp] theorem advance_ag_waited (s : State) (n : Nat) : (s.advance n).ag.waited = s.ag.waited := rfl
@[simp] theorem advance_ag_aborted (s : State) (n : Nat) : (s.advance n).ag.aborted = s.ag.aborted := rfl
@[simp] theorem advance_ag_slStopped (s : State) (n : Nat) : (s.advance n).ag.slStopped = s.ag.slStopped := rfl
@[simp] theorem advance_ag_dbgStopped (s : State) (n : Nat) : (s.advance n).ag.dbgStopped = s.ag.dbgStopped := rfl
@[simp] theorem advance_ag_reserved (s : State) (n : Nat) : (s.advance n).ag.reserved = s.ag.reserved := rfl
@[simp] theorem advance_ag_ending (s : State) (n : Nat) : (s.advance n).ag.ending = s.ag.ending := rfl
@[simp] theorem advance_ag_stepping (s : State) (n : Nat) : (s.advance n).ag.stepping = s.ag.stepping := rfl
@[simp] theorem advance_ag_deferred (s : State) (n : Nat) : (s.advance n).ag.deferred = s.ag.deferred := rfl
@[simp] theorem advance_ag_serving (s : State) (n : Nat) : (s.advance n).ag.serving = s.ag.serving := rfl
@[simp] theorem advance_ag_uid (s : State) (n : Nat) : (s.advance n).ag.uid = s.ag.uid := rfl
@[simp] theorem advance_ag_run (s : State) (n : Nat) : (s.advance n).ag.run = s.ag.run := rfl
@[simp] theorem advance_ag_node (s : State) (n : Nat) : (s.advance n).ag.node = s.ag.node := rfl
@[simp] theorem advance_ag_notBefore (s : State) (n : Nat) : (s.advance n).ag.notBefore = s.ag.notBefore := rfl
@[simp] theorem advance_ag_leftAt (s : State) (n : Nat) : (s.advance n).ag.leftAt = s.ag.leftAt := rfl
@[simp] theorem advance_ag_forfeits (s : State) (n : Nat) : (s.advance n).ag.forfeits = s.ag.forfeits := rfl
@[simp] theorem advance_ag_psInit (s : State) (n : Nat) : (s.advance n).ag.psInit = s.ag.psInit := rfl
@[simp] theorem advance_ag_psLast (s : State) (n : Nat) : (s.advance n).ag.psLast = s.ag.psLast := rfl

@[simp] theorem orFlags_agId (s : State) (f : Word) : (s.orFlags f).agId = s.agId := rfl
@[simp] theorem orFlags_job (s : State) (f : Word) : (s.orFlags f).job = s.job := rfl
@[simp] theorem orFlags_jobNo (s : State) (f : Word) : (s.orFlags f).jobNo = s.jobNo := rfl
@[simp] theorem orFlags_jobs (s : State) (f : Word) : (s.orFlags f).jobs = s.jobs := rfl
@[simp] theorem orFlags_mem (s : State) (f : Word) : (s.orFlags f).mem = s.mem := rfl
@[simp] theorem orFlags_fe (s : State) (f : Word) : (s.orFlags f).fe = s.fe := rfl
@[simp] theorem orFlags_poison (s : State) (f : Word) : (s.orFlags f).poison = s.poison := rfl
@[simp] theorem orFlags_pkg (s : State) (f : Word) : (s.orFlags f).pkg = s.pkg := rfl
@[simp] theorem orFlags_agenda (s : State) (f : Word) : (s.orFlags f).agenda = s.agenda := rfl
@[simp] theorem orFlags_offered (s : State) (f : Word) : (s.orFlags f).offered = s.offered := rfl
@[simp] theorem orFlags_free (s : State) (f : Word) : (s.orFlags f).free = s.free := rfl
@[simp] theorem orFlags_share (s : State) (f : Word) : (s.orFlags f).share = s.share := rfl
@[simp] theorem orFlags_ag_role (s : State) (f : Word) : (s.orFlags f).ag.role = s.ag.role := rfl
@[simp] theorem orFlags_ag_priv (s : State) (f : Word) : (s.orFlags f).ag.priv = s.ag.priv := rfl
@[simp] theorem orFlags_ag_occupied (s : State) (f : Word) : (s.orFlags f).ag.occupied = s.ag.occupied := rfl
@[simp] theorem orFlags_ag_pc (s : State) (f : Word) : (s.orFlags f).ag.pc = s.ag.pc := rfl
@[simp] theorem orFlags_ag_g (s : State) (f : Word) : (s.orFlags f).ag.g = s.ag.g := rfl
@[simp] theorem orFlags_ag_v (s : State) (f : Word) : (s.orFlags f).ag.v = s.ag.v := rfl
@[simp] theorem orFlags_ag_k (s : State) (f : Word) : (s.orFlags f).ag.k = s.ag.k := rfl
@[simp] theorem orFlags_ag_xe (s : State) (f : Word) : (s.orFlags f).ag.xe = s.ag.xe := rfl
@[simp] theorem orFlags_ag_tid (s : State) (f : Word) : (s.orFlags f).ag.tid = s.ag.tid := rfl
@[simp] theorem orFlags_ag_spawnid (s : State) (f : Word) : (s.orFlags f).ag.spawnid = s.ag.spawnid := rfl
@[simp] theorem orFlags_ag_joinst (s : State) (f : Word) : (s.orFlags f).ag.joinst = s.ag.joinst := rfl
@[simp] theorem orFlags_ag_upentry (s : State) (f : Word) : (s.orFlags f).ag.upentry = s.ag.upentry := rfl
@[simp] theorem orFlags_ag_fibpool (s : State) (f : Word) : (s.orFlags f).ag.fibpool = s.ag.fibpool := rfl
@[simp] theorem orFlags_ag_upcause (s : State) (f : Word) : (s.orFlags f).ag.upcause = s.ag.upcause := rfl
@[simp] theorem orFlags_ag_upaddr (s : State) (f : Word) : (s.orFlags f).ag.upaddr = s.ag.upaddr := rfl
@[simp] theorem orFlags_ag_nb (s : State) (f : Word) : (s.orFlags f).ag.nb = s.ag.nb := rfl
@[simp] theorem orFlags_ag_wait (s : State) (f : Word) : (s.orFlags f).ag.wait = s.ag.wait := rfl
@[simp] theorem orFlags_ag_wakes (s : State) (f : Word) : (s.orFlags f).ag.wakes = s.ag.wakes := rfl
@[simp] theorem orFlags_ag_waited (s : State) (f : Word) : (s.orFlags f).ag.waited = s.ag.waited := rfl
@[simp] theorem orFlags_ag_aborted (s : State) (f : Word) : (s.orFlags f).ag.aborted = s.ag.aborted := rfl
@[simp] theorem orFlags_ag_slStopped (s : State) (f : Word) : (s.orFlags f).ag.slStopped = s.ag.slStopped := rfl
@[simp] theorem orFlags_ag_dbgStopped (s : State) (f : Word) : (s.orFlags f).ag.dbgStopped = s.ag.dbgStopped := rfl
@[simp] theorem orFlags_ag_reserved (s : State) (f : Word) : (s.orFlags f).ag.reserved = s.ag.reserved := rfl
@[simp] theorem orFlags_ag_ending (s : State) (f : Word) : (s.orFlags f).ag.ending = s.ag.ending := rfl
@[simp] theorem orFlags_ag_stepping (s : State) (f : Word) : (s.orFlags f).ag.stepping = s.ag.stepping := rfl
@[simp] theorem orFlags_ag_deferred (s : State) (f : Word) : (s.orFlags f).ag.deferred = s.ag.deferred := rfl
@[simp] theorem orFlags_ag_serving (s : State) (f : Word) : (s.orFlags f).ag.serving = s.ag.serving := rfl
@[simp] theorem orFlags_ag_uid (s : State) (f : Word) : (s.orFlags f).ag.uid = s.ag.uid := rfl
@[simp] theorem orFlags_ag_run (s : State) (f : Word) : (s.orFlags f).ag.run = s.ag.run := rfl
@[simp] theorem orFlags_ag_node (s : State) (f : Word) : (s.orFlags f).ag.node = s.ag.node := rfl
@[simp] theorem orFlags_ag_notBefore (s : State) (f : Word) : (s.orFlags f).ag.notBefore = s.ag.notBefore := rfl
@[simp] theorem orFlags_ag_leftAt (s : State) (f : Word) : (s.orFlags f).ag.leftAt = s.ag.leftAt := rfl
@[simp] theorem orFlags_ag_forfeits (s : State) (f : Word) : (s.orFlags f).ag.forfeits = s.ag.forfeits := rfl
@[simp] theorem orFlags_ag_psInit (s : State) (f : Word) : (s.orFlags f).ag.psInit = s.ag.psInit := rfl
@[simp] theorem orFlags_ag_psLast (s : State) (f : Word) : (s.orFlags f).ag.psLast = s.ag.psLast := rfl

@[simp] theorem setWait_agId (s : State) (w : Wait) : (s.setWait w).agId = s.agId := rfl
@[simp] theorem setWait_job (s : State) (w : Wait) : (s.setWait w).job = s.job := rfl
@[simp] theorem setWait_jobNo (s : State) (w : Wait) : (s.setWait w).jobNo = s.jobNo := rfl
@[simp] theorem setWait_jobs (s : State) (w : Wait) : (s.setWait w).jobs = s.jobs := rfl
@[simp] theorem setWait_mem (s : State) (w : Wait) : (s.setWait w).mem = s.mem := rfl
@[simp] theorem setWait_fe (s : State) (w : Wait) : (s.setWait w).fe = s.fe := rfl
@[simp] theorem setWait_poison (s : State) (w : Wait) : (s.setWait w).poison = s.poison := rfl
@[simp] theorem setWait_pkg (s : State) (w : Wait) : (s.setWait w).pkg = s.pkg := rfl
@[simp] theorem setWait_agenda (s : State) (w : Wait) : (s.setWait w).agenda = s.agenda := rfl
@[simp] theorem setWait_offered (s : State) (w : Wait) : (s.setWait w).offered = s.offered := rfl
@[simp] theorem setWait_free (s : State) (w : Wait) : (s.setWait w).free = s.free := rfl
@[simp] theorem setWait_share (s : State) (w : Wait) : (s.setWait w).share = s.share := rfl
@[simp] theorem setWait_ag_role (s : State) (w : Wait) : (s.setWait w).ag.role = s.ag.role := rfl
@[simp] theorem setWait_ag_priv (s : State) (w : Wait) : (s.setWait w).ag.priv = s.ag.priv := rfl
@[simp] theorem setWait_ag_occupied (s : State) (w : Wait) : (s.setWait w).ag.occupied = s.ag.occupied := rfl
@[simp] theorem setWait_ag_pc (s : State) (w : Wait) : (s.setWait w).ag.pc = s.ag.pc := rfl
@[simp] theorem setWait_ag_g (s : State) (w : Wait) : (s.setWait w).ag.g = s.ag.g := rfl
@[simp] theorem setWait_ag_v (s : State) (w : Wait) : (s.setWait w).ag.v = s.ag.v := rfl
@[simp] theorem setWait_ag_k (s : State) (w : Wait) : (s.setWait w).ag.k = s.ag.k := rfl
@[simp] theorem setWait_ag_xe (s : State) (w : Wait) : (s.setWait w).ag.xe = s.ag.xe := rfl
@[simp] theorem setWait_ag_rmode (s : State) (w : Wait) : (s.setWait w).ag.rmode = s.ag.rmode := rfl
@[simp] theorem setWait_ag_tid (s : State) (w : Wait) : (s.setWait w).ag.tid = s.ag.tid := rfl
@[simp] theorem setWait_ag_spawnid (s : State) (w : Wait) : (s.setWait w).ag.spawnid = s.ag.spawnid := rfl
@[simp] theorem setWait_ag_joinst (s : State) (w : Wait) : (s.setWait w).ag.joinst = s.ag.joinst := rfl
@[simp] theorem setWait_ag_upentry (s : State) (w : Wait) : (s.setWait w).ag.upentry = s.ag.upentry := rfl
@[simp] theorem setWait_ag_fibpool (s : State) (w : Wait) : (s.setWait w).ag.fibpool = s.ag.fibpool := rfl
@[simp] theorem setWait_ag_upcause (s : State) (w : Wait) : (s.setWait w).ag.upcause = s.ag.upcause := rfl
@[simp] theorem setWait_ag_upaddr (s : State) (w : Wait) : (s.setWait w).ag.upaddr = s.ag.upaddr := rfl
@[simp] theorem setWait_ag_nb (s : State) (w : Wait) : (s.setWait w).ag.nb = s.ag.nb := rfl
@[simp] theorem setWait_ag_wakes (s : State) (w : Wait) : (s.setWait w).ag.wakes = s.ag.wakes := rfl
@[simp] theorem setWait_ag_waited (s : State) (w : Wait) : (s.setWait w).ag.waited = s.ag.waited := rfl
@[simp] theorem setWait_ag_aborted (s : State) (w : Wait) : (s.setWait w).ag.aborted = s.ag.aborted := rfl
@[simp] theorem setWait_ag_slStopped (s : State) (w : Wait) : (s.setWait w).ag.slStopped = s.ag.slStopped := rfl
@[simp] theorem setWait_ag_dbgStopped (s : State) (w : Wait) : (s.setWait w).ag.dbgStopped = s.ag.dbgStopped := rfl
@[simp] theorem setWait_ag_reserved (s : State) (w : Wait) : (s.setWait w).ag.reserved = s.ag.reserved := rfl
@[simp] theorem setWait_ag_ending (s : State) (w : Wait) : (s.setWait w).ag.ending = s.ag.ending := rfl
@[simp] theorem setWait_ag_stepping (s : State) (w : Wait) : (s.setWait w).ag.stepping = s.ag.stepping := rfl
@[simp] theorem setWait_ag_deferred (s : State) (w : Wait) : (s.setWait w).ag.deferred = s.ag.deferred := rfl
@[simp] theorem setWait_ag_serving (s : State) (w : Wait) : (s.setWait w).ag.serving = s.ag.serving := rfl
@[simp] theorem setWait_ag_uid (s : State) (w : Wait) : (s.setWait w).ag.uid = s.ag.uid := rfl
@[simp] theorem setWait_ag_run (s : State) (w : Wait) : (s.setWait w).ag.run = s.ag.run := rfl
@[simp] theorem setWait_ag_node (s : State) (w : Wait) : (s.setWait w).ag.node = s.ag.node := rfl
@[simp] theorem setWait_ag_notBefore (s : State) (w : Wait) : (s.setWait w).ag.notBefore = s.ag.notBefore := rfl
@[simp] theorem setWait_ag_leftAt (s : State) (w : Wait) : (s.setWait w).ag.leftAt = s.ag.leftAt := rfl
@[simp] theorem setWait_ag_forfeits (s : State) (w : Wait) : (s.setWait w).ag.forfeits = s.ag.forfeits := rfl
@[simp] theorem setWait_ag_psInit (s : State) (w : Wait) : (s.setWait w).ag.psInit = s.ag.psInit := rfl
@[simp] theorem setWait_ag_psLast (s : State) (w : Wait) : (s.setWait w).ag.psLast = s.ag.psLast := rfl

@[simp] theorem setPc_pc (s : State) (x : Word) : (s.setPc x).ag.pc = x := rfl
@[simp] theorem advance_pc (s : State) (n : Nat) : (s.advance n).ag.pc = s.ag.pc + BitVec.ofNat 64 n := rfl
@[simp] theorem orFlags_rmode (s : State) (f : Word) : (s.orFlags f).ag.rmode = s.ag.rmode ||| f := rfl
@[simp] theorem setWait_wait (s : State) (w : Wait) : (s.setWait w).ag.wait = w := rfl

/-- Registers seen through the updates that do not touch them. -/
@[simp] theorem advance_g (s : State) (n : Nat) (r : Reg) : (s.advance n).g r = s.g r := rfl
@[simp] theorem setPc_g (s : State) (x : Word) (r : Reg) : (s.setPc x).g r = s.g r := rfl
@[simp] theorem orFlags_g (s : State) (f : Word) (r : Reg) : (s.orFlags f).g r = s.g r := rfl
@[simp] theorem setWait_g (s : State) (w : Wait) (r : Reg) : (s.setWait w).g r = s.g r := rfl
@[simp] theorem setV_g (s : State) (d : VReg) (x : VWord) (r : Reg) : (s.setV d x).g r = s.g r := rfl
@[simp] theorem setXe_g (s : State) (d : VReg) (x : Word) (r : Reg) : (s.setXe d x).g r = s.g r := rfl

end Sys2Proof.Machine
end

