-- ==== Sys2Proof/Laws/Operands.lean ====
section
/-! SUPPORT. What the shared ways of writing a result, branching and jumping do: one lemma each. -/

namespace Sys2Proof.Machine

@[simp] theorem sameMemory_refl (s : State) : SameMemory s s := ⟨fun _ => rfl, fun _ => rfl, fun _ => rfl⟩

/-- Memory is the same where the three lists that hold it are. -/
theorem sameMemory_of_eq {s t : State} (hm : t.mem = s.mem) (hf : t.fe = s.fe) (hp : t.poison = s.poison) :
    SameMemory s t := by
  refine ⟨fun a => ?_, fun a => ?_, fun a => ?_⟩
  · simp only [State.readByte, hm]
  · simp only [State.feBit, hf]
  · simp only [State.poisoned, hp]

/-- Nothing but registers and pc differs after a register write and a move of the pc. -/
theorem sameButRegs_setG_setPc (s : State) (d : Reg) (v x : Word) : SameButRegs s ((s.setG d v).setPc x) := by
  refine ⟨?_, sameMemory_of_eq (by simp) (by simp) (by simp)⟩
  unfold State.setG; split <;> rfl

theorem gotG_setG_setPc (s : State) (d : Reg) (v x : Word) : GotG s ((s.setG d v).setPc x) d v := fun r => by
  rw [setPc_g, g_setG]

/-- A result of a 4-byte instruction, and of a compact one. -/
theorem result_wrote (s : State) (d : Reg) (v : Word) : Wrote s d v 4 (s.result d v) :=
  ⟨gotG_setG_setPc s d v _, by simp [State.result, State.pc], sameButRegs_setG_setPc s d v _⟩
theorem result2_wrote (s : State) (d : Reg) (v : Word) : Wrote s d v 2 (s.result2 d v) :=
  ⟨gotG_setG_setPc s d v _, by simp [State.result2, State.pc], sameButRegs_setG_setPc s d v _⟩

/-- A floating-point result (R85). -/
theorem fpResult_wrote (s : State) (d : Reg) (r : Word × Word) : WroteFlags s d r.1 r.2 4 (s.fpResult d r) := by
  refine ⟨fun q => ?_, ?_, ?_, ?_, sameMemory_of_eq ?_ ?_ ?_⟩
  · simp only [State.fpResult, advance_g, orFlags_g, g_setG]
  · simp [State.fpResult, State.pc]
  · simp [State.fpResult]
  · unfold State.fpResult State.setG; split <;> rfl
  all_goals simp [State.fpResult]

/-- A long-latency result (R145). -/
theorem longResult_master (s : State) (n : Nat) (d : Reg) (r : Word × Word) (h : s.ag.role = .master) :
    WroteFlags s d r.1 r.2 4 (s.longResult n d r) := by
  unfold State.longResult; rw [if_pos h]; exact fpResult_wrote s d r
theorem longResult_slot (s : State) (n : Nat) (d : Reg) (r : Word × Word) (h : s.ag.role ≠ .master) :
    IssuedLong s (s.pkg.cycle + n) (.gpr d r.1 r.2) (s.longResult n d r) := by
  unfold State.longResult; rw [if_neg h]
  exact ⟨rfl, rfl, rfl, sameMemory_refl s⟩

/-- A change of the pc alone. -/
theorem setPc_jumped (s : State) (x : Word) : JumpedTo s x (s.setPc x) := ⟨rfl, fun _ => rfl, rfl, sameMemory_refl s⟩
theorem branch_jumped (s : State) (n : Nat) (taken : Bool) (x : Word) :
    JumpedTo s (if taken then x else s.pc + BitVec.ofNat 64 n) (s.branch n taken x) := by
  unfold State.branch
  cases taken
  · exact setPc_jumped s _
  · exact setPc_jumped s x

/-- A jump that links (R144). -/
theorem jumpLink_spec (s : State) (n : Nat) (d : Reg) (x : Word) :
    GotG s (s.jumpLink n d x) d (s.pc + BitVec.ofNat 64 n) ∧ (s.jumpLink n d x).pc = x ∧ SameButRegs s (s.jumpLink n d x) :=
  ⟨gotG_setG_setPc s d _ x, rfl, sameButRegs_setG_setPc s d _ x⟩

/-- An xe register written. -/
theorem setXe_wrote (s : State) (n : VReg) (x : Word) : WroteXe s n x ((s.setXe n x).advance 4) :=
  ⟨fun r => xe_setXe s n r x, rfl, rfl, sameMemory_refl s⟩

end Sys2Proof.Machine
end

