-- ==== Sys2Proof/Laws/PerInstr.lean ====
section
/-! SUPPORT. The family RoundTrip: decoding what the encoder writes for a well-formed instruction gives it back, one
lemma per constructor. -/

set_option linter.unusedSimpArgs false

namespace Sys2Proof.Laws

/-- Reading back the bytes of a number. -/
theorem natOfBytes_bytesOfNat (n w : Nat) : natOfBytes (bytesOfNat n w) = w % 256 ^ n := by
  induction n generalizing w with
  | zero => simp [bytesOfNat, natOfBytes, Nat.mod_one]
  | succ n ih =>
    have h : (BitVec.ofNat 8 w).toNat = w % 256 := by simp
    have : w % 256 ^ (n + 1) = w % 256 + 256 * (w / 256 % 256 ^ n) := by
      rw [Nat.pow_succ, Nat.mul_comm, Nat.mod_mul]
    simp only [bytesOfNat, natOfBytes, ih, h, this]

/-- A word from its fields, lowest first, each with its width. -/
def cat : List (Nat × Nat) → Nat
  | [] => 0
  | (x, n) :: t => x + 2 ^ n * cat t

/-- Fields of such a word: past the lowest one, the lowest one, and the lowest ones together. -/
theorem cat_skip {x n lo m v : Nat} {t : List (Nat × Nat)} (hx : x < 2 ^ n) (h : field (cat t) lo m = v) :
    field (cat ((x, n) :: t)) (n + lo) m = v := by
  rw [← h, field, field, show cat ((x, n) :: t) = x + 2 ^ n * cat t from rfl]
  rw [Nat.pow_add, ← Nat.div_div_eq_div_mul, Nat.add_mul_div_left _ _ (Nat.two_pow_pos n), Nat.div_eq_of_lt hx, Nat.zero_add]
theorem cat_take {x n : Nat} {t : List (Nat × Nat)} (hx : x < 2 ^ n) : field (cat ((x, n) :: t)) 0 n = x := by
  rw [field, show cat ((x, n) :: t) = x + 2 ^ n * cat t from rfl]
  rw [Nat.pow_zero, Nat.div_one, Nat.add_mul_mod_self_left, Nat.mod_eq_of_lt hx]
theorem cat_split {x n v : Nat} (m : Nat) {k : Nat} {t : List (Nat × Nat)} (hx : x < 2 ^ n) (h : field (cat t) 0 m = v)
    (hk : k = n + m) : field (cat ((x, n) :: t)) 0 k = x + 2 ^ n * v := by
  subst hk
  rw [← h, field, field, show cat ((x, n) :: t) = x + 2 ^ n * cat t from rfl]
  rw [Nat.pow_zero, Nat.div_one, Nat.div_one, Nat.pow_add, Nat.mod_mul, Nat.add_mul_mod_self_left, Nat.mod_eq_of_lt hx,
    Nat.add_mul_div_left _ _ (Nat.two_pow_pos n), Nat.div_eq_of_lt hx, Nat.zero_add]
theorem cat_lt {x n m : Nat} {t : List (Nat × Nat)} (hx : x < 2 ^ n) (h : cat t < 2 ^ m) :
    cat ((x, n) :: t) < 2 ^ (n + m) := by
  unfold cat
  calc x + 2 ^ n * cat t < 2 ^ n + 2 ^ n * cat t := by omega
    _ = 2 ^ n * (cat t + 1) := by ring
    _ ≤ 2 ^ n * 2 ^ m := Nat.mul_le_mul_left _ h
    _ = 2 ^ (n + m) := (Nat.pow_add ..).symm
theorem cat_nil : cat [] < 2 ^ 0 := by decide

/-- The word of all ones has major 0x3F. -/
theorem ne_ones {w m : Nat} (h : field w 1 6 = m) (hm : m ≠ 63) : w ≠ 0xFFFFFFFF := by
  rintro rfl; exact hm (h.symm.trans (by decide))

/-- A word's four bytes decode as the word does. -/
theorem decodeBytes_word (w : Nat) (i : Instr) (hw : w < 2 ^ 32) (odd : field w 0 1 = 1) (h : decodeWord w = .ok i) :
    decodeBytes (bytesOfNat 4 w) = .ok (i, []) := by
  have h1 : natOfBytes ((bytesOfNat 4 w).take 2) = w % 2 ^ 16 := natOfBytes_bytesOfNat 2 w
  have h2 : natOfBytes (((bytesOfNat 4 w).drop 2).take 2) = w / 2 ^ 16 := by
    have := natOfBytes_bytesOfNat 2 (w / 256 / 256)
    rw [show ((bytesOfNat 4 w).drop 2).take 2 = bytesOfNat 2 (w / 256 / 256) from rfl, this]; omega
  have h3 : w % 2 ^ 16 % 2 = 1 := by unfold field at odd; omega
  have h4 : w % 2 ^ 16 + w / 2 ^ 16 * 2 ^ 16 = w := by omega
  simp only [decodeBytes, h1, h2, decodeParcels, h3, h4, h]
  rfl

/-- A compact parcel's two bytes decode as the parcel does. -/
theorem decodeBytes_parcel (w : Nat) (i : Instr) (hw : w < 2 ^ 16) (low : field w 0 1 = 0) (h : decodeParcel w = .ok i) :
    decodeBytes (bytesOfNat 2 w) = .ok (i, []) := by
  have h1 : natOfBytes ((bytesOfNat 2 w).take 2) = w := by
    rw [show (bytesOfNat 2 w).take 2 = bytesOfNat 2 w from rfl, natOfBytes_bytesOfNat]; omega
  have even : w % 2 = 0 := by unfold field at low; omega
  simp only [decodeBytes, h1, decodeParcels, even, h]
  rfl

/-- Each code of the encoding tables names what it came from. -/
@[simp] theorem laneTy_ofCode_code (t : LaneTy) : LaneTy.ofCode t.code = some t := by cases t <;> rfl
@[simp] theorem vvar_ofCode_code (v : VVar) : VVar.ofCode v.code = some v := by cases v <;> rfl
@[simp] theorem vcond_ofCode_code (c : VCond) : VCond.ofCode c.code = some c := by cases c <;> rfl
@[simp] theorem vfmt_ofCode_code (f : VFmt) : VFmt.ofCode f.code = some f := by cases f <;> rfl
@[simp] theorem fsize_ofCode_code (p : FSize) : FSize.ofCode p.code = some p := by cases p <;> rfl
@[simp] theorem fcvt_ofCode_code (c : FCvt) : FCvt.ofCode c.code = some c := by cases c <;> rfl
/-- Register fields read back. -/
theorem regAt_of {w lo : Nat} {r : Reg} (h : field w lo 5 = r.toNat) : regAt w lo = r := by
  unfold regAt; rw [h]; simp
theorem vregAt_of {w lo : Nat} {r : VReg} (h : field w lo 3 = r.toNat) : vregAt w lo = r := by
  unfold vregAt; rw [h]; simp
theorem ofNat_of {w lo n : Nat} {r : BitVec n} (h : field w lo n = r.toNat) : BitVec.ofNat n (field w lo n) = r := by
  rw [h]; simp

/-- Which part of the decoder a major goes to. -/
theorem word_integer {w : Nat} (m : Nat) (h : field w 1 6 = m) (h0 : w ≠ 0xFFFFFFFF) (lo : m ≤ 0x02) :
    decodeWord w = decodeInteger m w := by
  interval_cases m <;> (unfold decodeWord; rw [h]; exact if_neg h0)
theorem word_bitField {w : Nat} (m : Nat) (h : field w 1 6 = m) (h0 : w ≠ 0xFFFFFFFF) (lo : m = 0x03) :
    decodeWord w = decodeBitField w := by
  subst lo; unfold decodeWord; rw [h]; exact if_neg h0
theorem word_immediate {w : Nat} (m : Nat) (h : field w 1 6 = m) (h0 : w ≠ 0xFFFFFFFF) (lo : 4 ≤ m ∧ m ≤ 0x0E) :
    decodeWord w = decodeImmediate m w := by
  obtain ⟨l, u⟩ := lo; interval_cases m <;> (unfold decodeWord; rw [h]; exact if_neg h0)
theorem word_loadStore {w : Nat} (m : Nat) (h : field w 1 6 = m) (h0 : w ≠ 0xFFFFFFFF) (lo : 0x10 ≤ m ∧ m ≤ 0x1A) :
    decodeWord w = decodeLoadStore m w := by
  obtain ⟨l, u⟩ := lo; interval_cases m <;> (unfold decodeWord; rw [h]; exact if_neg h0)
theorem word_memorySync {w : Nat} (m : Nat) (h : field w 1 6 = m) (h0 : w ≠ 0xFFFFFFFF) (lo : 0x1B ≤ m ∧ m ≤ 0x1E) :
    decodeWord w = decodeMemorySync m w := by
  obtain ⟨l, u⟩ := lo; interval_cases m <;> (unfold decodeWord; rw [h]; exact if_neg h0)
theorem word_control {w : Nat} (m : Nat) (h : field w 1 6 = m) (h0 : w ≠ 0xFFFFFFFF) (lo : 0x20 ≤ m ∧ m ≤ 0x27) :
    decodeWord w = decodeControl m w := by
  obtain ⟨l, u⟩ := lo; interval_cases m <;> (unfold decodeWord; rw [h]; exact if_neg h0)
theorem word_swarm {w : Nat} (m : Nat) (h : field w 1 6 = m) (h0 : w ≠ 0xFFFFFFFF) (lo : 0x28 ≤ m ∧ m ≤ 0x2A) :
    decodeWord w = decodeSwarm m w := by
  obtain ⟨l, u⟩ := lo; interval_cases m <;> (unfold decodeWord; rw [h]; exact if_neg h0)
theorem word_float {w : Nat} (m : Nat) (h : field w 1 6 = m) (h0 : w ≠ 0xFFFFFFFF) (lo : m = 0x2B) :
    decodeWord w = decodeFloat w := by
  subst lo; unfold decodeWord; rw [h]; exact if_neg h0
theorem word_vectorArith {w : Nat} (m : Nat) (h : field w 1 6 = m) (h0 : w ≠ 0xFFFFFFFF) (lo : 0x30 ≤ m ∧ m ≤ 0x31) :
    decodeWord w = decodeVectorArith m w := by
  obtain ⟨l, u⟩ := lo; interval_cases m <;> (unfold decodeWord; rw [h]; exact if_neg h0)
theorem word_vectorOther {w : Nat} (m : Nat) (h : field w 1 6 = m) (h0 : w ≠ 0xFFFFFFFF) (lo : 0x32 ≤ m ∧ m ≤ 0x34) :
    decodeWord w = decodeVectorOther m w := by
  obtain ⟨l, u⟩ := lo; interval_cases m <;> (unfold decodeWord; rw [h]; exact if_neg h0)
theorem word_vectorMove {w : Nat} (m : Nat) (h : field w 1 6 = m) (h0 : w ≠ 0xFFFFFFFF) (lo : 0x35 ≤ m ∧ m ≤ 0x37) :
    decodeWord w = decodeVectorMove m w := by
  obtain ⟨l, u⟩ := lo; interval_cases m <;> (unfold decodeWord; rw [h]; exact if_neg h0)
theorem word_system {w : Nat} (m : Nat) (h : field w 1 6 = m) (h0 : w ≠ 0xFFFFFFFF) (lo : 0x38 ≤ m ∧ m ≤ 0x39) :
    decodeWord w = decodeSystem m w := by
  obtain ⟨l, u⟩ := lo; interval_cases m <;> (unfold decodeWord; rw [h]; exact if_neg h0)

theorem VFmt.code_lt (f : VFmt) : f.code < 14 := by cases f <;> decide

end Sys2Proof.Laws

namespace Sys2Proof.Laws.RoundTrip

/-- A well-formed instruction that has an encoding is what its bytes decode to, with nothing left over. -/
def Statement (i : Instr) : Prop := i.wf = true → i.size ≠ 0 → decodeBytes (encode i) = .ok (i, [])

/-- A step of the machine has no encoding. -/
theorem ofEvent (i : Instr) (h : i.size = 0) : Statement i := fun _ k => absurd h k

/-! The fields of words by their layout. -/

theorem parts0 {w x0 x1 x2 x3 x4 x5 : Nat} (h0 : x0 < 2 ^ 1) (h1 : x1 < 2 ^ 6) (h2 : x2 < 2 ^ 5) (h3 : x3 < 2 ^ 5) (h4 : x4 < 2 ^ 5) (h5 : x5 < 2 ^ 10)
    (e : w = cat [(x0, 1), (x1, 6), (x2, 5), (x3, 5), (x4, 5), (x5, 10)]) :
    w < 2 ^ 32 ∧ field w 0 1 = x0 ∧ field w 1 6 = x1 ∧ field w 7 5 = x2 ∧ field w 12 5 = x3 ∧ field w 17 5 = x4 ∧ field w 22 10 = x5 := by
  subst e
  have lt := cat_lt h0 (cat_lt h1 (cat_lt h2 (cat_lt h3 (cat_lt h4 (cat_lt h5 cat_nil)))))
  exact ⟨lt, cat_take h0, cat_skip (n := 1) (lo := 0) h0 (cat_take h1), cat_skip (n := 1) (lo := 6) h0 (cat_skip (n := 6) (lo := 0) h1 (cat_take h2)), cat_skip (n := 1) (lo := 11) h0 (cat_skip (n := 6) (lo := 5) h1 (cat_skip (n := 5) (lo := 0) h2 (cat_take h3))), cat_skip (n := 1) (lo := 16) h0 (cat_skip (n := 6) (lo := 10) h1 (cat_skip (n := 5) (lo := 5) h2 (cat_skip (n := 5) (lo := 0) h3 (cat_take h4)))), cat_skip (n := 1) (lo := 21) h0 (cat_skip (n := 6) (lo := 15) h1 (cat_skip (n := 5) (lo := 10) h2 (cat_skip (n := 5) (lo := 5) h3 (cat_skip (n := 5) (lo := 0) h4 (cat_take h5)))))⟩

theorem parts1 {w x0 x1 x2 x3 x4 x5 x6 : Nat} (h0 : x0 < 2 ^ 1) (h1 : x1 < 2 ^ 6) (h2 : x2 < 2 ^ 5) (h3 : x3 < 2 ^ 5) (h4 : x4 < 2 ^ 6) (h5 : x5 < 2 ^ 6) (h6 : x6 < 2 ^ 3)
    (e : w = cat [(x0, 1), (x1, 6), (x2, 5), (x3, 5), (x4, 6), (x5, 6), (x6, 3)]) :
    w < 2 ^ 32 ∧ field w 0 1 = x0 ∧ field w 1 6 = x1 ∧ field w 7 5 = x2 ∧ field w 12 5 = x3 ∧ field w 17 6 = x4 ∧ field w 23 6 = x5 ∧ field w 29 3 = x6 := by
  subst e
  have lt := cat_lt h0 (cat_lt h1 (cat_lt h2 (cat_lt h3 (cat_lt h4 (cat_lt h5 (cat_lt h6 cat_nil))))))
  exact ⟨lt, cat_take h0, cat_skip (n := 1) (lo := 0) h0 (cat_take h1), cat_skip (n := 1) (lo := 6) h0 (cat_skip (n := 6) (lo := 0) h1 (cat_take h2)), cat_skip (n := 1) (lo := 11) h0 (cat_skip (n := 6) (lo := 5) h1 (cat_skip (n := 5) (lo := 0) h2 (cat_take h3))), cat_skip (n := 1) (lo := 16) h0 (cat_skip (n := 6) (lo := 10) h1 (cat_skip (n := 5) (lo := 5) h2 (cat_skip (n := 5) (lo := 0) h3 (cat_take h4)))), cat_skip (n := 1) (lo := 22) h0 (cat_skip (n := 6) (lo := 16) h1 (cat_skip (n := 5) (lo := 11) h2 (cat_skip (n := 5) (lo := 6) h3 (cat_skip (n := 6) (lo := 0) h4 (cat_take h5))))), cat_skip (n := 1) (lo := 28) h0 (cat_skip (n := 6) (lo := 22) h1 (cat_skip (n := 5) (lo := 17) h2 (cat_skip (n := 5) (lo := 12) h3 (cat_skip (n := 6) (lo := 6) h4 (cat_skip (n := 6) (lo := 0) h5 (cat_take h6))))))⟩

theorem parts2 {w x0 x1 x2 x3 x4 : Nat} (h0 : x0 < 2 ^ 1) (h1 : x1 < 2 ^ 6) (h2 : x2 < 2 ^ 5) (h3 : x3 < 2 ^ 5) (h4 : x4 < 2 ^ 15)
    (e : w = cat [(x0, 1), (x1, 6), (x2, 5), (x3, 5), (x4, 15)]) :
    w < 2 ^ 32 ∧ field w 0 1 = x0 ∧ field w 1 6 = x1 ∧ field w 7 5 = x2 ∧ field w 12 5 = x3 ∧ field w 17 15 = x4 := by
  subst e
  have lt := cat_lt h0 (cat_lt h1 (cat_lt h2 (cat_lt h3 (cat_lt h4 cat_nil))))
  exact ⟨lt, cat_take h0, cat_skip (n := 1) (lo := 0) h0 (cat_take h1), cat_skip (n := 1) (lo := 6) h0 (cat_skip (n := 6) (lo := 0) h1 (cat_take h2)), cat_skip (n := 1) (lo := 11) h0 (cat_skip (n := 6) (lo := 5) h1 (cat_skip (n := 5) (lo := 0) h2 (cat_take h3))), cat_skip (n := 1) (lo := 16) h0 (cat_skip (n := 6) (lo := 10) h1 (cat_skip (n := 5) (lo := 5) h2 (cat_skip (n := 5) (lo := 0) h3 (cat_take h4))))⟩

theorem parts3 {w x0 x1 x2 x3 x4 x5 : Nat} (h0 : x0 < 2 ^ 1) (h1 : x1 < 2 ^ 6) (h2 : x2 < 2 ^ 5) (h3 : x3 < 2 ^ 5) (h4 : x4 < 2 ^ 6) (h5 : x5 < 2 ^ 9)
    (e : w = cat [(x0, 1), (x1, 6), (x2, 5), (x3, 5), (x4, 6), (x5, 9)]) :
    w < 2 ^ 32 ∧ field w 0 1 = x0 ∧ field w 1 6 = x1 ∧ field w 7 5 = x2 ∧ field w 12 5 = x3 ∧ field w 17 6 = x4 ∧ field w 23 9 = x5 := by
  subst e
  have lt := cat_lt h0 (cat_lt h1 (cat_lt h2 (cat_lt h3 (cat_lt h4 (cat_lt h5 cat_nil)))))
  exact ⟨lt, cat_take h0, cat_skip (n := 1) (lo := 0) h0 (cat_take h1), cat_skip (n := 1) (lo := 6) h0 (cat_skip (n := 6) (lo := 0) h1 (cat_take h2)), cat_skip (n := 1) (lo := 11) h0 (cat_skip (n := 6) (lo := 5) h1 (cat_skip (n := 5) (lo := 0) h2 (cat_take h3))), cat_skip (n := 1) (lo := 16) h0 (cat_skip (n := 6) (lo := 10) h1 (cat_skip (n := 5) (lo := 5) h2 (cat_skip (n := 5) (lo := 0) h3 (cat_take h4)))), cat_skip (n := 1) (lo := 22) h0 (cat_skip (n := 6) (lo := 16) h1 (cat_skip (n := 5) (lo := 11) h2 (cat_skip (n := 5) (lo := 6) h3 (cat_skip (n := 6) (lo := 0) h4 (cat_take h5)))))⟩

theorem parts4 {w x0 x1 x2 x3 : Nat} (h0 : x0 < 2 ^ 1) (h1 : x1 < 2 ^ 6) (h2 : x2 < 2 ^ 5) (h3 : x3 < 2 ^ 20)
    (e : w = cat [(x0, 1), (x1, 6), (x2, 5), (x3, 20)]) :
    w < 2 ^ 32 ∧ field w 0 1 = x0 ∧ field w 1 6 = x1 ∧ field w 7 5 = x2 ∧ field w 12 20 = x3 := by
  subst e
  have lt := cat_lt h0 (cat_lt h1 (cat_lt h2 (cat_lt h3 cat_nil)))
  exact ⟨lt, cat_take h0, cat_skip (n := 1) (lo := 0) h0 (cat_take h1), cat_skip (n := 1) (lo := 6) h0 (cat_skip (n := 6) (lo := 0) h1 (cat_take h2)), cat_skip (n := 1) (lo := 11) h0 (cat_skip (n := 6) (lo := 5) h1 (cat_skip (n := 5) (lo := 0) h2 (cat_take h3)))⟩

theorem parts5 {w x0 x1 x2 x3 x4 x5 x6 : Nat} (h0 : x0 < 2 ^ 1) (h1 : x1 < 2 ^ 6) (h2 : x2 < 2 ^ 5) (h3 : x3 < 2 ^ 5) (h4 : x4 < 2 ^ 3) (h5 : x5 < 2 ^ 1) (h6 : x6 < 2 ^ 11)
    (e : w = cat [(x0, 1), (x1, 6), (x2, 5), (x3, 5), (x4, 3), (x5, 1), (x6, 11)]) :
    w < 2 ^ 32 ∧ field w 0 1 = x0 ∧ field w 1 6 = x1 ∧ field w 7 5 = x2 ∧ field w 12 5 = x3 ∧ field w 17 3 = x4 ∧ field w 20 1 = x5 ∧ field w 21 11 = x6 := by
  subst e
  have lt := cat_lt h0 (cat_lt h1 (cat_lt h2 (cat_lt h3 (cat_lt h4 (cat_lt h5 (cat_lt h6 cat_nil))))))
  exact ⟨lt, cat_take h0, cat_skip (n := 1) (lo := 0) h0 (cat_take h1), cat_skip (n := 1) (lo := 6) h0 (cat_skip (n := 6) (lo := 0) h1 (cat_take h2)), cat_skip (n := 1) (lo := 11) h0 (cat_skip (n := 6) (lo := 5) h1 (cat_skip (n := 5) (lo := 0) h2 (cat_take h3))), cat_skip (n := 1) (lo := 16) h0 (cat_skip (n := 6) (lo := 10) h1 (cat_skip (n := 5) (lo := 5) h2 (cat_skip (n := 5) (lo := 0) h3 (cat_take h4)))), cat_skip (n := 1) (lo := 19) h0 (cat_skip (n := 6) (lo := 13) h1 (cat_skip (n := 5) (lo := 8) h2 (cat_skip (n := 5) (lo := 3) h3 (cat_skip (n := 3) (lo := 0) h4 (cat_take h5))))), cat_skip (n := 1) (lo := 20) h0 (cat_skip (n := 6) (lo := 14) h1 (cat_skip (n := 5) (lo := 9) h2 (cat_skip (n := 5) (lo := 4) h3 (cat_skip (n := 3) (lo := 1) h4 (cat_skip (n := 1) (lo := 0) h5 (cat_take h6))))))⟩

theorem parts6 {w x0 x1 x2 x3 x4 x5 : Nat} (h0 : x0 < 2 ^ 1) (h1 : x1 < 2 ^ 6) (h2 : x2 < 2 ^ 3) (h3 : x3 < 2 ^ 2) (h4 : x4 < 2 ^ 16) (h5 : x5 < 2 ^ 4)
    (e : w = cat [(x0, 1), (x1, 6), (x2, 3), (x3, 2), (x4, 16), (x5, 4)]) :
    w < 2 ^ 32 ∧ field w 0 1 = x0 ∧ field w 1 6 = x1 ∧ field w 7 3 = x2 ∧ field w 10 2 = x3 ∧ field w 12 16 = x4 ∧ field w 28 4 = x5 := by
  subst e
  have lt := cat_lt h0 (cat_lt h1 (cat_lt h2 (cat_lt h3 (cat_lt h4 (cat_lt h5 cat_nil)))))
  exact ⟨lt, cat_take h0, cat_skip (n := 1) (lo := 0) h0 (cat_take h1), cat_skip (n := 1) (lo := 6) h0 (cat_skip (n := 6) (lo := 0) h1 (cat_take h2)), cat_skip (n := 1) (lo := 9) h0 (cat_skip (n := 6) (lo := 3) h1 (cat_skip (n := 3) (lo := 0) h2 (cat_take h3))), cat_skip (n := 1) (lo := 11) h0 (cat_skip (n := 6) (lo := 5) h1 (cat_skip (n := 3) (lo := 2) h2 (cat_skip (n := 2) (lo := 0) h3 (cat_take h4)))), cat_skip (n := 1) (lo := 27) h0 (cat_skip (n := 6) (lo := 21) h1 (cat_skip (n := 3) (lo := 18) h2 (cat_skip (n := 2) (lo := 16) h3 (cat_skip (n := 16) (lo := 0) h4 (cat_take h5)))))⟩

theorem parts7 {w x0 x1 x2 x3 x4 x5 x6 : Nat} (h0 : x0 < 2 ^ 1) (h1 : x1 < 2 ^ 6) (h2 : x2 < 2 ^ 5) (h3 : x3 < 2 ^ 5) (h4 : x4 < 2 ^ 5) (h5 : x5 < 2 ^ 6) (h6 : x6 < 2 ^ 4)
    (e : w = cat [(x0, 1), (x1, 6), (x2, 5), (x3, 5), (x4, 5), (x5, 6), (x6, 4)]) :
    w < 2 ^ 32 ∧ field w 0 1 = x0 ∧ field w 1 6 = x1 ∧ field w 7 5 = x2 ∧ field w 12 5 = x3 ∧ field w 17 5 = x4 ∧ field w 22 6 = x5 ∧ field w 28 4 = x6 := by
  subst e
  have lt := cat_lt h0 (cat_lt h1 (cat_lt h2 (cat_lt h3 (cat_lt h4 (cat_lt h5 (cat_lt h6 cat_nil))))))
  exact ⟨lt, cat_take h0, cat_skip (n := 1) (lo := 0) h0 (cat_take h1), cat_skip (n := 1) (lo := 6) h0 (cat_skip (n := 6) (lo := 0) h1 (cat_take h2)), cat_skip (n := 1) (lo := 11) h0 (cat_skip (n := 6) (lo := 5) h1 (cat_skip (n := 5) (lo := 0) h2 (cat_take h3))), cat_skip (n := 1) (lo := 16) h0 (cat_skip (n := 6) (lo := 10) h1 (cat_skip (n := 5) (lo := 5) h2 (cat_skip (n := 5) (lo := 0) h3 (cat_take h4)))), cat_skip (n := 1) (lo := 21) h0 (cat_skip (n := 6) (lo := 15) h1 (cat_skip (n := 5) (lo := 10) h2 (cat_skip (n := 5) (lo := 5) h3 (cat_skip (n := 5) (lo := 0) h4 (cat_take h5))))), cat_skip (n := 1) (lo := 27) h0 (cat_skip (n := 6) (lo := 21) h1 (cat_skip (n := 5) (lo := 16) h2 (cat_skip (n := 5) (lo := 11) h3 (cat_skip (n := 5) (lo := 6) h4 (cat_skip (n := 6) (lo := 0) h5 (cat_take h6))))))⟩

theorem parts8 {w x0 x1 x2 x3 x4 x5 x6 : Nat} (h0 : x0 < 2 ^ 1) (h1 : x1 < 2 ^ 6) (h2 : x2 < 2 ^ 5) (h3 : x3 < 2 ^ 5) (h4 : x4 < 2 ^ 5) (h5 : x5 < 2 ^ 5) (h6 : x6 < 2 ^ 5)
    (e : w = cat [(x0, 1), (x1, 6), (x2, 5), (x3, 5), (x4, 5), (x5, 5), (x6, 5)]) :
    w < 2 ^ 32 ∧ field w 0 1 = x0 ∧ field w 1 6 = x1 ∧ field w 7 5 = x2 ∧ field w 12 5 = x3 ∧ field w 17 5 = x4 ∧ field w 22 5 = x5 ∧ field w 27 5 = x6 := by
  subst e
  have lt := cat_lt h0 (cat_lt h1 (cat_lt h2 (cat_lt h3 (cat_lt h4 (cat_lt h5 (cat_lt h6 cat_nil))))))
  exact ⟨lt, cat_take h0, cat_skip (n := 1) (lo := 0) h0 (cat_take h1), cat_skip (n := 1) (lo := 6) h0 (cat_skip (n := 6) (lo := 0) h1 (cat_take h2)), cat_skip (n := 1) (lo := 11) h0 (cat_skip (n := 6) (lo := 5) h1 (cat_skip (n := 5) (lo := 0) h2 (cat_take h3))), cat_skip (n := 1) (lo := 16) h0 (cat_skip (n := 6) (lo := 10) h1 (cat_skip (n := 5) (lo := 5) h2 (cat_skip (n := 5) (lo := 0) h3 (cat_take h4)))), cat_skip (n := 1) (lo := 21) h0 (cat_skip (n := 6) (lo := 15) h1 (cat_skip (n := 5) (lo := 10) h2 (cat_skip (n := 5) (lo := 5) h3 (cat_skip (n := 5) (lo := 0) h4 (cat_take h5))))), cat_skip (n := 1) (lo := 26) h0 (cat_skip (n := 6) (lo := 20) h1 (cat_skip (n := 5) (lo := 15) h2 (cat_skip (n := 5) (lo := 10) h3 (cat_skip (n := 5) (lo := 5) h4 (cat_skip (n := 5) (lo := 0) h5 (cat_take h6))))))⟩

theorem parts9 {w x0 x1 x2 x3 x4 x5 x6 : Nat} (h0 : x0 < 2 ^ 1) (h1 : x1 < 2 ^ 6) (h2 : x2 < 2 ^ 5) (h3 : x3 < 2 ^ 5) (h4 : x4 < 2 ^ 3) (h5 : x5 < 2 ^ 2) (h6 : x6 < 2 ^ 10)
    (e : w = cat [(x0, 1), (x1, 6), (x2, 5), (x3, 5), (x4, 3), (x5, 2), (x6, 10)]) :
    w < 2 ^ 32 ∧ field w 0 1 = x0 ∧ field w 1 6 = x1 ∧ field w 7 5 = x2 ∧ field w 12 5 = x3 ∧ field w 17 3 = x4 ∧ field w 20 2 = x5 ∧ field w 22 10 = x6 := by
  subst e
  have lt := cat_lt h0 (cat_lt h1 (cat_lt h2 (cat_lt h3 (cat_lt h4 (cat_lt h5 (cat_lt h6 cat_nil))))))
  exact ⟨lt, cat_take h0, cat_skip (n := 1) (lo := 0) h0 (cat_take h1), cat_skip (n := 1) (lo := 6) h0 (cat_skip (n := 6) (lo := 0) h1 (cat_take h2)), cat_skip (n := 1) (lo := 11) h0 (cat_skip (n := 6) (lo := 5) h1 (cat_skip (n := 5) (lo := 0) h2 (cat_take h3))), cat_skip (n := 1) (lo := 16) h0 (cat_skip (n := 6) (lo := 10) h1 (cat_skip (n := 5) (lo := 5) h2 (cat_skip (n := 5) (lo := 0) h3 (cat_take h4)))), cat_skip (n := 1) (lo := 19) h0 (cat_skip (n := 6) (lo := 13) h1 (cat_skip (n := 5) (lo := 8) h2 (cat_skip (n := 5) (lo := 3) h3 (cat_skip (n := 3) (lo := 0) h4 (cat_take h5))))), cat_skip (n := 1) (lo := 21) h0 (cat_skip (n := 6) (lo := 15) h1 (cat_skip (n := 5) (lo := 10) h2 (cat_skip (n := 5) (lo := 5) h3 (cat_skip (n := 3) (lo := 2) h4 (cat_skip (n := 2) (lo := 0) h5 (cat_take h6))))))⟩

theorem parts10 {w x0 x1 x2 x3 x4 x5 x6 : Nat} (h0 : x0 < 2 ^ 1) (h1 : x1 < 2 ^ 6) (h2 : x2 < 2 ^ 5) (h3 : x3 < 2 ^ 5) (h4 : x4 < 2 ^ 2) (h5 : x5 < 2 ^ 3) (h6 : x6 < 2 ^ 10)
    (e : w = cat [(x0, 1), (x1, 6), (x2, 5), (x3, 5), (x4, 2), (x5, 3), (x6, 10)]) :
    w < 2 ^ 32 ∧ field w 0 1 = x0 ∧ field w 1 6 = x1 ∧ field w 7 5 = x2 ∧ field w 12 5 = x3 ∧ field w 17 2 = x4 ∧ field w 19 3 = x5 ∧ field w 22 10 = x6 := by
  subst e
  have lt := cat_lt h0 (cat_lt h1 (cat_lt h2 (cat_lt h3 (cat_lt h4 (cat_lt h5 (cat_lt h6 cat_nil))))))
  exact ⟨lt, cat_take h0, cat_skip (n := 1) (lo := 0) h0 (cat_take h1), cat_skip (n := 1) (lo := 6) h0 (cat_skip (n := 6) (lo := 0) h1 (cat_take h2)), cat_skip (n := 1) (lo := 11) h0 (cat_skip (n := 6) (lo := 5) h1 (cat_skip (n := 5) (lo := 0) h2 (cat_take h3))), cat_skip (n := 1) (lo := 16) h0 (cat_skip (n := 6) (lo := 10) h1 (cat_skip (n := 5) (lo := 5) h2 (cat_skip (n := 5) (lo := 0) h3 (cat_take h4)))), cat_skip (n := 1) (lo := 18) h0 (cat_skip (n := 6) (lo := 12) h1 (cat_skip (n := 5) (lo := 7) h2 (cat_skip (n := 5) (lo := 2) h3 (cat_skip (n := 2) (lo := 0) h4 (cat_take h5))))), cat_skip (n := 1) (lo := 21) h0 (cat_skip (n := 6) (lo := 15) h1 (cat_skip (n := 5) (lo := 10) h2 (cat_skip (n := 5) (lo := 5) h3 (cat_skip (n := 2) (lo := 3) h4 (cat_skip (n := 3) (lo := 0) h5 (cat_take h6))))))⟩

theorem parts11 {w x0 x1 x2 x3 x4 x5 x6 x7 x8 : Nat} (h0 : x0 < 2 ^ 1) (h1 : x1 < 2 ^ 6) (h2 : x2 < 2 ^ 3) (h3 : x3 < 2 ^ 3) (h4 : x4 < 2 ^ 3) (h5 : x5 < 2 ^ 3) (h6 : x6 < 2 ^ 3) (h7 : x7 < 2 ^ 5) (h8 : x8 < 2 ^ 5)
    (e : w = cat [(x0, 1), (x1, 6), (x2, 3), (x3, 3), (x4, 3), (x5, 3), (x6, 3), (x7, 5), (x8, 5)]) :
    w < 2 ^ 32 ∧ field w 0 1 = x0 ∧ field w 1 6 = x1 ∧ field w 7 3 = x2 ∧ field w 10 3 = x3 ∧ field w 13 3 = x4 ∧ field w 16 3 = x5 ∧ field w 19 3 = x6 ∧ field w 22 5 = x7 ∧ field w 27 5 = x8 := by
  subst e
  have lt := cat_lt h0 (cat_lt h1 (cat_lt h2 (cat_lt h3 (cat_lt h4 (cat_lt h5 (cat_lt h6 (cat_lt h7 (cat_lt h8 cat_nil))))))))
  exact ⟨lt, cat_take h0, cat_skip (n := 1) (lo := 0) h0 (cat_take h1), cat_skip (n := 1) (lo := 6) h0 (cat_skip (n := 6) (lo := 0) h1 (cat_take h2)), cat_skip (n := 1) (lo := 9) h0 (cat_skip (n := 6) (lo := 3) h1 (cat_skip (n := 3) (lo := 0) h2 (cat_take h3))), cat_skip (n := 1) (lo := 12) h0 (cat_skip (n := 6) (lo := 6) h1 (cat_skip (n := 3) (lo := 3) h2 (cat_skip (n := 3) (lo := 0) h3 (cat_take h4)))), cat_skip (n := 1) (lo := 15) h0 (cat_skip (n := 6) (lo := 9) h1 (cat_skip (n := 3) (lo := 6) h2 (cat_skip (n := 3) (lo := 3) h3 (cat_skip (n := 3) (lo := 0) h4 (cat_take h5))))), cat_skip (n := 1) (lo := 18) h0 (cat_skip (n := 6) (lo := 12) h1 (cat_skip (n := 3) (lo := 9) h2 (cat_skip (n := 3) (lo := 6) h3 (cat_skip (n := 3) (lo := 3) h4 (cat_skip (n := 3) (lo := 0) h5 (cat_take h6)))))), cat_skip (n := 1) (lo := 21) h0 (cat_skip (n := 6) (lo := 15) h1 (cat_skip (n := 3) (lo := 12) h2 (cat_skip (n := 3) (lo := 9) h3 (cat_skip (n := 3) (lo := 6) h4 (cat_skip (n := 3) (lo := 3) h5 (cat_skip (n := 3) (lo := 0) h6 (cat_take h7))))))), cat_skip (n := 1) (lo := 26) h0 (cat_skip (n := 6) (lo := 20) h1 (cat_skip (n := 3) (lo := 17) h2 (cat_skip (n := 3) (lo := 14) h3 (cat_skip (n := 3) (lo := 11) h4 (cat_skip (n := 3) (lo := 8) h5 (cat_skip (n := 3) (lo := 5) h6 (cat_skip (n := 5) (lo := 0) h7 (cat_take h8))))))))⟩

theorem parts12 {w x0 x1 x2 x3 x4 x5 x6 x7 : Nat} (h0 : x0 < 2 ^ 1) (h1 : x1 < 2 ^ 6) (h2 : x2 < 2 ^ 3) (h3 : x3 < 2 ^ 3) (h4 : x4 < 2 ^ 6) (h5 : x5 < 2 ^ 3) (h6 : x6 < 2 ^ 5) (h7 : x7 < 2 ^ 5)
    (e : w = cat [(x0, 1), (x1, 6), (x2, 3), (x3, 3), (x4, 6), (x5, 3), (x6, 5), (x7, 5)]) :
    w < 2 ^ 32 ∧ field w 0 1 = x0 ∧ field w 1 6 = x1 ∧ field w 7 3 = x2 ∧ field w 10 3 = x3 ∧ field w 13 6 = x4 ∧ field w 19 3 = x5 ∧ field w 22 5 = x6 ∧ field w 27 5 = x7 := by
  subst e
  have lt := cat_lt h0 (cat_lt h1 (cat_lt h2 (cat_lt h3 (cat_lt h4 (cat_lt h5 (cat_lt h6 (cat_lt h7 cat_nil)))))))
  exact ⟨lt, cat_take h0, cat_skip (n := 1) (lo := 0) h0 (cat_take h1), cat_skip (n := 1) (lo := 6) h0 (cat_skip (n := 6) (lo := 0) h1 (cat_take h2)), cat_skip (n := 1) (lo := 9) h0 (cat_skip (n := 6) (lo := 3) h1 (cat_skip (n := 3) (lo := 0) h2 (cat_take h3))), cat_skip (n := 1) (lo := 12) h0 (cat_skip (n := 6) (lo := 6) h1 (cat_skip (n := 3) (lo := 3) h2 (cat_skip (n := 3) (lo := 0) h3 (cat_take h4)))), cat_skip (n := 1) (lo := 18) h0 (cat_skip (n := 6) (lo := 12) h1 (cat_skip (n := 3) (lo := 9) h2 (cat_skip (n := 3) (lo := 6) h3 (cat_skip (n := 6) (lo := 0) h4 (cat_take h5))))), cat_skip (n := 1) (lo := 21) h0 (cat_skip (n := 6) (lo := 15) h1 (cat_skip (n := 3) (lo := 12) h2 (cat_skip (n := 3) (lo := 9) h3 (cat_skip (n := 6) (lo := 3) h4 (cat_skip (n := 3) (lo := 0) h5 (cat_take h6)))))), cat_skip (n := 1) (lo := 26) h0 (cat_skip (n := 6) (lo := 20) h1 (cat_skip (n := 3) (lo := 17) h2 (cat_skip (n := 3) (lo := 14) h3 (cat_skip (n := 6) (lo := 8) h4 (cat_skip (n := 3) (lo := 5) h5 (cat_skip (n := 5) (lo := 0) h6 (cat_take h7)))))))⟩

theorem parts13 {w x0 x1 x2 x3 x4 x5 : Nat} (h0 : x0 < 2 ^ 1) (h1 : x1 < 2 ^ 6) (h2 : x2 < 2 ^ 5) (h3 : x3 < 2 ^ 5) (h4 : x4 < 2 ^ 12) (h5 : x5 < 2 ^ 3)
    (e : w = cat [(x0, 1), (x1, 6), (x2, 5), (x3, 5), (x4, 12), (x5, 3)]) :
    w < 2 ^ 32 ∧ field w 0 1 = x0 ∧ field w 1 6 = x1 ∧ field w 7 5 = x2 ∧ field w 12 5 = x3 ∧ field w 17 12 = x4 ∧ field w 29 3 = x5 := by
  subst e
  have lt := cat_lt h0 (cat_lt h1 (cat_lt h2 (cat_lt h3 (cat_lt h4 (cat_lt h5 cat_nil)))))
  exact ⟨lt, cat_take h0, cat_skip (n := 1) (lo := 0) h0 (cat_take h1), cat_skip (n := 1) (lo := 6) h0 (cat_skip (n := 6) (lo := 0) h1 (cat_take h2)), cat_skip (n := 1) (lo := 11) h0 (cat_skip (n := 6) (lo := 5) h1 (cat_skip (n := 5) (lo := 0) h2 (cat_take h3))), cat_skip (n := 1) (lo := 16) h0 (cat_skip (n := 6) (lo := 10) h1 (cat_skip (n := 5) (lo := 5) h2 (cat_skip (n := 5) (lo := 0) h3 (cat_take h4)))), cat_skip (n := 1) (lo := 28) h0 (cat_skip (n := 6) (lo := 22) h1 (cat_skip (n := 5) (lo := 17) h2 (cat_skip (n := 5) (lo := 12) h3 (cat_skip (n := 12) (lo := 0) h4 (cat_take h5)))))⟩

theorem parts14 {w x0 x1 x2 x3 : Nat} (h0 : x0 < 2 ^ 1) (h1 : x1 < 2 ^ 5) (h2 : x2 < 2 ^ 5) (h3 : x3 < 2 ^ 5)
    (e : w = cat [(x0, 1), (x1, 5), (x2, 5), (x3, 5)]) :
    w < 2 ^ 16 ∧ field w 0 1 = x0 ∧ field w 1 5 = x1 ∧ field w 6 5 = x2 ∧ field w 11 5 = x3 := by
  subst e
  have lt := cat_lt h0 (cat_lt h1 (cat_lt h2 (cat_lt h3 cat_nil)))
  exact ⟨lt, cat_take h0, cat_skip (n := 1) (lo := 0) h0 (cat_take h1), cat_skip (n := 1) (lo := 5) h0 (cat_skip (n := 5) (lo := 0) h1 (cat_take h2)), cat_skip (n := 1) (lo := 10) h0 (cat_skip (n := 5) (lo := 5) h1 (cat_skip (n := 5) (lo := 0) h2 (cat_take h3)))⟩

theorem parts15 {w x0 x1 x2 x3 x4 : Nat} (h0 : x0 < 2 ^ 1) (h1 : x1 < 2 ^ 4) (h2 : x2 < 2 ^ 3) (h3 : x3 < 2 ^ 3) (h4 : x4 < 2 ^ 5)
    (e : w = cat [(x0, 1), (x1, 4), (x2, 3), (x3, 3), (x4, 5)]) :
    w < 2 ^ 16 ∧ field w 0 1 = x0 ∧ field w 1 4 = x1 ∧ field w 5 3 = x2 ∧ field w 8 3 = x3 ∧ field w 11 5 = x4 := by
  subst e
  have lt := cat_lt h0 (cat_lt h1 (cat_lt h2 (cat_lt h3 (cat_lt h4 cat_nil))))
  exact ⟨lt, cat_take h0, cat_skip (n := 1) (lo := 0) h0 (cat_take h1), cat_skip (n := 1) (lo := 4) h0 (cat_skip (n := 4) (lo := 0) h1 (cat_take h2)), cat_skip (n := 1) (lo := 7) h0 (cat_skip (n := 4) (lo := 3) h1 (cat_skip (n := 3) (lo := 0) h2 (cat_take h3))), cat_skip (n := 1) (lo := 10) h0 (cat_skip (n := 4) (lo := 6) h1 (cat_skip (n := 3) (lo := 3) h2 (cat_skip (n := 3) (lo := 0) h3 (cat_take h4))))⟩

theorem parts16 {w x0 x1 x2 x3 : Nat} (h0 : x0 < 2 ^ 1) (h1 : x1 < 2 ^ 7) (h2 : x2 < 2 ^ 3) (h3 : x3 < 2 ^ 5)
    (e : w = cat [(x0, 1), (x1, 7), (x2, 3), (x3, 5)]) :
    w < 2 ^ 16 ∧ field w 0 1 = x0 ∧ field w 1 7 = x1 ∧ field w 8 3 = x2 ∧ field w 11 5 = x3 := by
  subst e
  have lt := cat_lt h0 (cat_lt h1 (cat_lt h2 (cat_lt h3 cat_nil)))
  exact ⟨lt, cat_take h0, cat_skip (n := 1) (lo := 0) h0 (cat_take h1), cat_skip (n := 1) (lo := 7) h0 (cat_skip (n := 7) (lo := 0) h1 (cat_take h2)), cat_skip (n := 1) (lo := 10) h0 (cat_skip (n := 7) (lo := 3) h1 (cat_skip (n := 3) (lo := 0) h2 (cat_take h3)))⟩

theorem parts17 {w x0 x1 x2 : Nat} (h0 : x0 < 2 ^ 1) (h1 : x1 < 2 ^ 10) (h2 : x2 < 2 ^ 5)
    (e : w = cat [(x0, 1), (x1, 10), (x2, 5)]) :
    w < 2 ^ 16 ∧ field w 0 1 = x0 ∧ field w 1 10 = x1 ∧ field w 11 5 = x2 := by
  subst e
  have lt := cat_lt h0 (cat_lt h1 (cat_lt h2 cat_nil))
  exact ⟨lt, cat_take h0, cat_skip (n := 1) (lo := 0) h0 (cat_take h1), cat_skip (n := 1) (lo := 10) h0 (cat_skip (n := 10) (lo := 0) h1 (cat_take h2))⟩

theorem add (d : Reg) (a : Reg) (b : Reg) : Statement (.add d a b) := by
  intro hwf _
  obtain ⟨w, e⟩ : ∃ w, w = cat [(1, 1), (0, 6), (d.toNat, 5), (a.toNat, 5), (b.toNat, 5), (0, 10)] := ⟨_, rfl⟩
  have e2 : encodeNat (.add d a b) = w := by
    rw [e]; show 1 + d.toNat * 2 ^ 7 + a.toNat * 2 ^ 12 + b.toNat * 2 ^ 17 = _; simp only [cat]; omega
  obtain ⟨hw, hp, f1_6, f7_5, f12_5, f17_5, f22_10⟩ := parts0 (by decide) (by decide) d.isLt a.isLt b.isLt (by decide) e
  have h0 := ne_ones f1_6 (by decide)
  have dec : decodeWord w = .ok (.add d a b) := by
    rw [word_integer 0 f1_6 h0 (by decide)]; unfold decodeInteger; rw [f22_10, regAt_of f7_5, regAt_of f12_5, regAt_of f17_5]
    rfl
  unfold encode; rw [e2]; exact decodeBytes_word _ _ hw hp dec

theorem sub (d : Reg) (a : Reg) (b : Reg) : Statement (.sub d a b) := by
  intro hwf _
  obtain ⟨w, e⟩ : ∃ w, w = cat [(1, 1), (0, 6), (d.toNat, 5), (a.toNat, 5), (b.toNat, 5), (1, 10)] := ⟨_, rfl⟩
  have e2 : encodeNat (.sub d a b) = w := by
    rw [e]; show 4194305 + d.toNat * 2 ^ 7 + a.toNat * 2 ^ 12 + b.toNat * 2 ^ 17 = _; simp only [cat]; omega
  obtain ⟨hw, hp, f1_6, f7_5, f12_5, f17_5, f22_10⟩ := parts0 (by decide) (by decide) d.isLt a.isLt b.isLt (by decide) e
  have h0 := ne_ones f1_6 (by decide)
  have dec : decodeWord w = .ok (.sub d a b) := by
    rw [word_integer 0 f1_6 h0 (by decide)]; unfold decodeInteger; rw [f22_10, regAt_of f7_5, regAt_of f12_5, regAt_of f17_5]
    rfl
  unfold encode; rw [e2]; exact decodeBytes_word _ _ hw hp dec

theorem and (d : Reg) (a : Reg) (b : Reg) : Statement (.and d a b) := by
  intro hwf _
  obtain ⟨w, e⟩ : ∃ w, w = cat [(1, 1), (0, 6), (d.toNat, 5), (a.toNat, 5), (b.toNat, 5), (2, 10)] := ⟨_, rfl⟩
  have e2 : encodeNat (.and d a b) = w := by
    rw [e]; show 8388609 + d.toNat * 2 ^ 7 + a.toNat * 2 ^ 12 + b.toNat * 2 ^ 17 = _; simp only [cat]; omega
  obtain ⟨hw, hp, f1_6, f7_5, f12_5, f17_5, f22_10⟩ := parts0 (by decide) (by decide) d.isLt a.isLt b.isLt (by decide) e
  have h0 := ne_ones f1_6 (by decide)
  have dec : decodeWord w = .ok (.and d a b) := by
    rw [word_integer 0 f1_6 h0 (by decide)]; unfold decodeInteger; rw [f22_10, regAt_of f7_5, regAt_of f12_5, regAt_of f17_5]
    rfl
  unfold encode; rw [e2]; exact decodeBytes_word _ _ hw hp dec

theorem or (d : Reg) (a : Reg) (b : Reg) : Statement (.or d a b) := by
  intro hwf _
  obtain ⟨w, e⟩ : ∃ w, w = cat [(1, 1), (0, 6), (d.toNat, 5), (a.toNat, 5), (b.toNat, 5), (3, 10)] := ⟨_, rfl⟩
  have e2 : encodeNat (.or d a b) = w := by
    rw [e]; show 12582913 + d.toNat * 2 ^ 7 + a.toNat * 2 ^ 12 + b.toNat * 2 ^ 17 = _; simp only [cat]; omega
  obtain ⟨hw, hp, f1_6, f7_5, f12_5, f17_5, f22_10⟩ := parts0 (by decide) (by decide) d.isLt a.isLt b.isLt (by decide) e
  have h0 := ne_ones f1_6 (by decide)
  have dec : decodeWord w = .ok (.or d a b) := by
    rw [word_integer 0 f1_6 h0 (by decide)]; unfold decodeInteger; rw [f22_10, regAt_of f7_5, regAt_of f12_5, regAt_of f17_5]
    rfl
  unfold encode; rw [e2]; exact decodeBytes_word _ _ hw hp dec

theorem xor (d : Reg) (a : Reg) (b : Reg) : Statement (.xor d a b) := by
  intro hwf _
  obtain ⟨w, e⟩ : ∃ w, w = cat [(1, 1), (0, 6), (d.toNat, 5), (a.toNat, 5), (b.toNat, 5), (4, 10)] := ⟨_, rfl⟩
  have e2 : encodeNat (.xor d a b) = w := by
    rw [e]; show 16777217 + d.toNat * 2 ^ 7 + a.toNat * 2 ^ 12 + b.toNat * 2 ^ 17 = _; simp only [cat]; omega
  obtain ⟨hw, hp, f1_6, f7_5, f12_5, f17_5, f22_10⟩ := parts0 (by decide) (by decide) d.isLt a.isLt b.isLt (by decide) e
  have h0 := ne_ones f1_6 (by decide)
  have dec : decodeWord w = .ok (.xor d a b) := by
    rw [word_integer 0 f1_6 h0 (by decide)]; unfold decodeInteger; rw [f22_10, regAt_of f7_5, regAt_of f12_5, regAt_of f17_5]
    rfl
  unfold encode; rw [e2]; exact decodeBytes_word _ _ hw hp dec

theorem andn (d : Reg) (a : Reg) (b : Reg) : Statement (.andn d a b) := by
  intro hwf _
  obtain ⟨w, e⟩ : ∃ w, w = cat [(1, 1), (0, 6), (d.toNat, 5), (a.toNat, 5), (b.toNat, 5), (5, 10)] := ⟨_, rfl⟩
  have e2 : encodeNat (.andn d a b) = w := by
    rw [e]; show 20971521 + d.toNat * 2 ^ 7 + a.toNat * 2 ^ 12 + b.toNat * 2 ^ 17 = _; simp only [cat]; omega
  obtain ⟨hw, hp, f1_6, f7_5, f12_5, f17_5, f22_10⟩ := parts0 (by decide) (by decide) d.isLt a.isLt b.isLt (by decide) e
  have h0 := ne_ones f1_6 (by decide)
  have dec : decodeWord w = .ok (.andn d a b) := by
    rw [word_integer 0 f1_6 h0 (by decide)]; unfold decodeInteger; rw [f22_10, regAt_of f7_5, regAt_of f12_5, regAt_of f17_5]
    rfl
  unfold encode; rw [e2]; exact decodeBytes_word _ _ hw hp dec

theorem orn (d : Reg) (a : Reg) (b : Reg) : Statement (.orn d a b) := by
  intro hwf _
  obtain ⟨w, e⟩ : ∃ w, w = cat [(1, 1), (0, 6), (d.toNat, 5), (a.toNat, 5), (b.toNat, 5), (6, 10)] := ⟨_, rfl⟩
  have e2 : encodeNat (.orn d a b) = w := by
    rw [e]; show 25165825 + d.toNat * 2 ^ 7 + a.toNat * 2 ^ 12 + b.toNat * 2 ^ 17 = _; simp only [cat]; omega
  obtain ⟨hw, hp, f1_6, f7_5, f12_5, f17_5, f22_10⟩ := parts0 (by decide) (by decide) d.isLt a.isLt b.isLt (by decide) e
  have h0 := ne_ones f1_6 (by decide)
  have dec : decodeWord w = .ok (.orn d a b) := by
    rw [word_integer 0 f1_6 h0 (by decide)]; unfold decodeInteger; rw [f22_10, regAt_of f7_5, regAt_of f12_5, regAt_of f17_5]
    rfl
  unfold encode; rw [e2]; exact decodeBytes_word _ _ hw hp dec

theorem sll (d : Reg) (a : Reg) (b : Reg) : Statement (.sll d a b) := by
  intro hwf _
  obtain ⟨w, e⟩ : ∃ w, w = cat [(1, 1), (0, 6), (d.toNat, 5), (a.toNat, 5), (b.toNat, 5), (7, 10)] := ⟨_, rfl⟩
  have e2 : encodeNat (.sll d a b) = w := by
    rw [e]; show 29360129 + d.toNat * 2 ^ 7 + a.toNat * 2 ^ 12 + b.toNat * 2 ^ 17 = _; simp only [cat]; omega
  obtain ⟨hw, hp, f1_6, f7_5, f12_5, f17_5, f22_10⟩ := parts0 (by decide) (by decide) d.isLt a.isLt b.isLt (by decide) e
  have h0 := ne_ones f1_6 (by decide)
  have dec : decodeWord w = .ok (.sll d a b) := by
    rw [word_integer 0 f1_6 h0 (by decide)]; unfold decodeInteger; rw [f22_10, regAt_of f7_5, regAt_of f12_5, regAt_of f17_5]
    rfl
  unfold encode; rw [e2]; exact decodeBytes_word _ _ hw hp dec

theorem srl (d : Reg) (a : Reg) (b : Reg) : Statement (.srl d a b) := by
  intro hwf _
  obtain ⟨w, e⟩ : ∃ w, w = cat [(1, 1), (0, 6), (d.toNat, 5), (a.toNat, 5), (b.toNat, 5), (8, 10)] := ⟨_, rfl⟩
  have e2 : encodeNat (.srl d a b) = w := by
    rw [e]; show 33554433 + d.toNat * 2 ^ 7 + a.toNat * 2 ^ 12 + b.toNat * 2 ^ 17 = _; simp only [cat]; omega
  obtain ⟨hw, hp, f1_6, f7_5, f12_5, f17_5, f22_10⟩ := parts0 (by decide) (by decide) d.isLt a.isLt b.isLt (by decide) e
  have h0 := ne_ones f1_6 (by decide)
  have dec : decodeWord w = .ok (.srl d a b) := by
    rw [word_integer 0 f1_6 h0 (by decide)]; unfold decodeInteger; rw [f22_10, regAt_of f7_5, regAt_of f12_5, regAt_of f17_5]
    rfl
  unfold encode; rw [e2]; exact decodeBytes_word _ _ hw hp dec

theorem sra (d : Reg) (a : Reg) (b : Reg) : Statement (.sra d a b) := by
  intro hwf _
  obtain ⟨w, e⟩ : ∃ w, w = cat [(1, 1), (0, 6), (d.toNat, 5), (a.toNat, 5), (b.toNat, 5), (9, 10)] := ⟨_, rfl⟩
  have e2 : encodeNat (.sra d a b) = w := by
    rw [e]; show 37748737 + d.toNat * 2 ^ 7 + a.toNat * 2 ^ 12 + b.toNat * 2 ^ 17 = _; simp only [cat]; omega
  obtain ⟨hw, hp, f1_6, f7_5, f12_5, f17_5, f22_10⟩ := parts0 (by decide) (by decide) d.isLt a.isLt b.isLt (by decide) e
  have h0 := ne_ones f1_6 (by decide)
  have dec : decodeWord w = .ok (.sra d a b) := by
    rw [word_integer 0 f1_6 h0 (by decide)]; unfold decodeInteger; rw [f22_10, regAt_of f7_5, regAt_of f12_5, regAt_of f17_5]
    rfl
  unfold encode; rw [e2]; exact decodeBytes_word _ _ hw hp dec

theorem rol (d : Reg) (a : Reg) (b : Reg) : Statement (.rol d a b) := by
  intro hwf _
  obtain ⟨w, e⟩ : ∃ w, w = cat [(1, 1), (0, 6), (d.toNat, 5), (a.toNat, 5), (b.toNat, 5), (10, 10)] := ⟨_, rfl⟩
  have e2 : encodeNat (.rol d a b) = w := by
    rw [e]; show 41943041 + d.toNat * 2 ^ 7 + a.toNat * 2 ^ 12 + b.toNat * 2 ^ 17 = _; simp only [cat]; omega
  obtain ⟨hw, hp, f1_6, f7_5, f12_5, f17_5, f22_10⟩ := parts0 (by decide) (by decide) d.isLt a.isLt b.isLt (by decide) e
  have h0 := ne_ones f1_6 (by decide)
  have dec : decodeWord w = .ok (.rol d a b) := by
    rw [word_integer 0 f1_6 h0 (by decide)]; unfold decodeInteger; rw [f22_10, regAt_of f7_5, regAt_of f12_5, regAt_of f17_5]
    rfl
  unfold encode; rw [e2]; exact decodeBytes_word _ _ hw hp dec

theorem ror (d : Reg) (a : Reg) (b : Reg) : Statement (.ror d a b) := by
  intro hwf _
  obtain ⟨w, e⟩ : ∃ w, w = cat [(1, 1), (0, 6), (d.toNat, 5), (a.toNat, 5), (b.toNat, 5), (11, 10)] := ⟨_, rfl⟩
  have e2 : encodeNat (.ror d a b) = w := by
    rw [e]; show 46137345 + d.toNat * 2 ^ 7 + a.toNat * 2 ^ 12 + b.toNat * 2 ^ 17 = _; simp only [cat]; omega
  obtain ⟨hw, hp, f1_6, f7_5, f12_5, f17_5, f22_10⟩ := parts0 (by decide) (by decide) d.isLt a.isLt b.isLt (by decide) e
  have h0 := ne_ones f1_6 (by decide)
  have dec : decodeWord w = .ok (.ror d a b) := by
    rw [word_integer 0 f1_6 h0 (by decide)]; unfold decodeInteger; rw [f22_10, regAt_of f7_5, regAt_of f12_5, regAt_of f17_5]
    rfl
  unfold encode; rw [e2]; exact decodeBytes_word _ _ hw hp dec

theorem slt (d : Reg) (a : Reg) (b : Reg) : Statement (.slt d a b) := by
  intro hwf _
  obtain ⟨w, e⟩ : ∃ w, w = cat [(1, 1), (0, 6), (d.toNat, 5), (a.toNat, 5), (b.toNat, 5), (12, 10)] := ⟨_, rfl⟩
  have e2 : encodeNat (.slt d a b) = w := by
    rw [e]; show 50331649 + d.toNat * 2 ^ 7 + a.toNat * 2 ^ 12 + b.toNat * 2 ^ 17 = _; simp only [cat]; omega
  obtain ⟨hw, hp, f1_6, f7_5, f12_5, f17_5, f22_10⟩ := parts0 (by decide) (by decide) d.isLt a.isLt b.isLt (by decide) e
  have h0 := ne_ones f1_6 (by decide)
  have dec : decodeWord w = .ok (.slt d a b) := by
    rw [word_integer 0 f1_6 h0 (by decide)]; unfold decodeInteger; rw [f22_10, regAt_of f7_5, regAt_of f12_5, regAt_of f17_5]
    rfl
  unfold encode; rw [e2]; exact decodeBytes_word _ _ hw hp dec

theorem sltu (d : Reg) (a : Reg) (b : Reg) : Statement (.sltu d a b) := by
  intro hwf _
  obtain ⟨w, e⟩ : ∃ w, w = cat [(1, 1), (0, 6), (d.toNat, 5), (a.toNat, 5), (b.toNat, 5), (13, 10)] := ⟨_, rfl⟩
  have e2 : encodeNat (.sltu d a b) = w := by
    rw [e]; show 54525953 + d.toNat * 2 ^ 7 + a.toNat * 2 ^ 12 + b.toNat * 2 ^ 17 = _; simp only [cat]; omega
  obtain ⟨hw, hp, f1_6, f7_5, f12_5, f17_5, f22_10⟩ := parts0 (by decide) (by decide) d.isLt a.isLt b.isLt (by decide) e
  have h0 := ne_ones f1_6 (by decide)
  have dec : decodeWord w = .ok (.sltu d a b) := by
    rw [word_integer 0 f1_6 h0 (by decide)]; unfold decodeInteger; rw [f22_10, regAt_of f7_5, regAt_of f12_5, regAt_of f17_5]
    rfl
  unfold encode; rw [e2]; exact decodeBytes_word _ _ hw hp dec

theorem min (d : Reg) (a : Reg) (b : Reg) : Statement (.min d a b) := by
  intro hwf _
  obtain ⟨w, e⟩ : ∃ w, w = cat [(1, 1), (0, 6), (d.toNat, 5), (a.toNat, 5), (b.toNat, 5), (14, 10)] := ⟨_, rfl⟩
  have e2 : encodeNat (.min d a b) = w := by
    rw [e]; show 58720257 + d.toNat * 2 ^ 7 + a.toNat * 2 ^ 12 + b.toNat * 2 ^ 17 = _; simp only [cat]; omega
  obtain ⟨hw, hp, f1_6, f7_5, f12_5, f17_5, f22_10⟩ := parts0 (by decide) (by decide) d.isLt a.isLt b.isLt (by decide) e
  have h0 := ne_ones f1_6 (by decide)
  have dec : decodeWord w = .ok (.min d a b) := by
    rw [word_integer 0 f1_6 h0 (by decide)]; unfold decodeInteger; rw [f22_10, regAt_of f7_5, regAt_of f12_5, regAt_of f17_5]
    rfl
  unfold encode; rw [e2]; exact decodeBytes_word _ _ hw hp dec

theorem max (d : Reg) (a : Reg) (b : Reg) : Statement (.max d a b) := by
  intro hwf _
  obtain ⟨w, e⟩ : ∃ w, w = cat [(1, 1), (0, 6), (d.toNat, 5), (a.toNat, 5), (b.toNat, 5), (15, 10)] := ⟨_, rfl⟩
  have e2 : encodeNat (.max d a b) = w := by
    rw [e]; show 62914561 + d.toNat * 2 ^ 7 + a.toNat * 2 ^ 12 + b.toNat * 2 ^ 17 = _; simp only [cat]; omega
  obtain ⟨hw, hp, f1_6, f7_5, f12_5, f17_5, f22_10⟩ := parts0 (by decide) (by decide) d.isLt a.isLt b.isLt (by decide) e
  have h0 := ne_ones f1_6 (by decide)
  have dec : decodeWord w = .ok (.max d a b) := by
    rw [word_integer 0 f1_6 h0 (by decide)]; unfold decodeInteger; rw [f22_10, regAt_of f7_5, regAt_of f12_5, regAt_of f17_5]
    rfl
  unfold encode; rw [e2]; exact decodeBytes_word _ _ hw hp dec

theorem minu (d : Reg) (a : Reg) (b : Reg) : Statement (.minu d a b) := by
  intro hwf _
  obtain ⟨w, e⟩ : ∃ w, w = cat [(1, 1), (0, 6), (d.toNat, 5), (a.toNat, 5), (b.toNat, 5), (16, 10)] := ⟨_, rfl⟩
  have e2 : encodeNat (.minu d a b) = w := by
    rw [e]; show 67108865 + d.toNat * 2 ^ 7 + a.toNat * 2 ^ 12 + b.toNat * 2 ^ 17 = _; simp only [cat]; omega
  obtain ⟨hw, hp, f1_6, f7_5, f12_5, f17_5, f22_10⟩ := parts0 (by decide) (by decide) d.isLt a.isLt b.isLt (by decide) e
  have h0 := ne_ones f1_6 (by decide)
  have dec : decodeWord w = .ok (.minu d a b) := by
    rw [word_integer 0 f1_6 h0 (by decide)]; unfold decodeInteger; rw [f22_10, regAt_of f7_5, regAt_of f12_5, regAt_of f17_5]
    rfl
  unfold encode; rw [e2]; exact decodeBytes_word _ _ hw hp dec

theorem maxu (d : Reg) (a : Reg) (b : Reg) : Statement (.maxu d a b) := by
  intro hwf _
  obtain ⟨w, e⟩ : ∃ w, w = cat [(1, 1), (0, 6), (d.toNat, 5), (a.toNat, 5), (b.toNat, 5), (17, 10)] := ⟨_, rfl⟩
  have e2 : encodeNat (.maxu d a b) = w := by
    rw [e]; show 71303169 + d.toNat * 2 ^ 7 + a.toNat * 2 ^ 12 + b.toNat * 2 ^ 17 = _; simp only [cat]; omega
  obtain ⟨hw, hp, f1_6, f7_5, f12_5, f17_5, f22_10⟩ := parts0 (by decide) (by decide) d.isLt a.isLt b.isLt (by decide) e
  have h0 := ne_ones f1_6 (by decide)
  have dec : decodeWord w = .ok (.maxu d a b) := by
    rw [word_integer 0 f1_6 h0 (by decide)]; unfold decodeInteger; rw [f22_10, regAt_of f7_5, regAt_of f12_5, regAt_of f17_5]
    rfl
  unfold encode; rw [e2]; exact decodeBytes_word _ _ hw hp dec

theorem sel (d : Reg) (a : Reg) (b : Reg) : Statement (.sel d a b) := by
  intro hwf _
  obtain ⟨w, e⟩ : ∃ w, w = cat [(1, 1), (0, 6), (d.toNat, 5), (a.toNat, 5), (b.toNat, 5), (18, 10)] := ⟨_, rfl⟩
  have e2 : encodeNat (.sel d a b) = w := by
    rw [e]; show 75497473 + d.toNat * 2 ^ 7 + a.toNat * 2 ^ 12 + b.toNat * 2 ^ 17 = _; simp only [cat]; omega
  obtain ⟨hw, hp, f1_6, f7_5, f12_5, f17_5, f22_10⟩ := parts0 (by decide) (by decide) d.isLt a.isLt b.isLt (by decide) e
  have h0 := ne_ones f1_6 (by decide)
  have dec : decodeWord w = .ok (.sel d a b) := by
    rw [word_integer 0 f1_6 h0 (by decide)]; unfold decodeInteger; rw [f22_10, regAt_of f7_5, regAt_of f12_5, regAt_of f17_5]
    rfl
  unfold encode; rw [e2]; exact decodeBytes_word _ _ hw hp dec

theorem mul (d : Reg) (a : Reg) (b : Reg) : Statement (.mul d a b) := by
  intro hwf _
  obtain ⟨w, e⟩ : ∃ w, w = cat [(1, 1), (1, 6), (d.toNat, 5), (a.toNat, 5), (b.toNat, 5), (0, 10)] := ⟨_, rfl⟩
  have e2 : encodeNat (.mul d a b) = w := by
    rw [e]; show 3 + d.toNat * 2 ^ 7 + a.toNat * 2 ^ 12 + b.toNat * 2 ^ 17 = _; simp only [cat]; omega
  obtain ⟨hw, hp, f1_6, f7_5, f12_5, f17_5, f22_10⟩ := parts0 (by decide) (by decide) d.isLt a.isLt b.isLt (by decide) e
  have h0 := ne_ones f1_6 (by decide)
  have dec : decodeWord w = .ok (.mul d a b) := by
    rw [word_integer 1 f1_6 h0 (by decide)]; unfold decodeInteger; rw [f22_10, regAt_of f7_5, regAt_of f12_5, regAt_of f17_5]
    rfl
  unfold encode; rw [e2]; exact decodeBytes_word _ _ hw hp dec

theorem mulxs (d : Reg) (a : Reg) (b : Reg) : Statement (.mulxs d a b) := by
  intro hwf _
  obtain ⟨w, e⟩ : ∃ w, w = cat [(1, 1), (1, 6), (d.toNat, 5), (a.toNat, 5), (b.toNat, 5), (1, 10)] := ⟨_, rfl⟩
  have e2 : encodeNat (.mulxs d a b) = w := by
    rw [e]; show 4194307 + d.toNat * 2 ^ 7 + a.toNat * 2 ^ 12 + b.toNat * 2 ^ 17 = _; simp only [cat]; omega
  obtain ⟨hw, hp, f1_6, f7_5, f12_5, f17_5, f22_10⟩ := parts0 (by decide) (by decide) d.isLt a.isLt b.isLt (by decide) e
  have h0 := ne_ones f1_6 (by decide)
  have dec : decodeWord w = .ok (.mulxs d a b) := by
    rw [word_integer 1 f1_6 h0 (by decide)]; unfold decodeInteger; rw [f22_10, regAt_of f7_5, regAt_of f12_5, regAt_of f17_5]
    rfl
  unfold encode; rw [e2]; exact decodeBytes_word _ _ hw hp dec

theorem mulxu (d : Reg) (a : Reg) (b : Reg) : Statement (.mulxu d a b) := by
  intro hwf _
  obtain ⟨w, e⟩ : ∃ w, w = cat [(1, 1), (1, 6), (d.toNat, 5), (a.toNat, 5), (b.toNat, 5), (2, 10)] := ⟨_, rfl⟩
  have e2 : encodeNat (.mulxu d a b) = w := by
    rw [e]; show 8388611 + d.toNat * 2 ^ 7 + a.toNat * 2 ^ 12 + b.toNat * 2 ^ 17 = _; simp only [cat]; omega
  obtain ⟨hw, hp, f1_6, f7_5, f12_5, f17_5, f22_10⟩ := parts0 (by decide) (by decide) d.isLt a.isLt b.isLt (by decide) e
  have h0 := ne_ones f1_6 (by decide)
  have dec : decodeWord w = .ok (.mulxu d a b) := by
    rw [word_integer 1 f1_6 h0 (by decide)]; unfold decodeInteger; rw [f22_10, regAt_of f7_5, regAt_of f12_5, regAt_of f17_5]
    rfl
  unfold encode; rw [e2]; exact decodeBytes_word _ _ hw hp dec

theorem mulxm (d : Reg) (a : Reg) (b : Reg) : Statement (.mulxm d a b) := by
  intro hwf _
  obtain ⟨w, e⟩ : ∃ w, w = cat [(1, 1), (1, 6), (d.toNat, 5), (a.toNat, 5), (b.toNat, 5), (3, 10)] := ⟨_, rfl⟩
  have e2 : encodeNat (.mulxm d a b) = w := by
    rw [e]; show 12582915 + d.toNat * 2 ^ 7 + a.toNat * 2 ^ 12 + b.toNat * 2 ^ 17 = _; simp only [cat]; omega
  obtain ⟨hw, hp, f1_6, f7_5, f12_5, f17_5, f22_10⟩ := parts0 (by decide) (by decide) d.isLt a.isLt b.isLt (by decide) e
  have h0 := ne_ones f1_6 (by decide)
  have dec : decodeWord w = .ok (.mulxm d a b) := by
    rw [word_integer 1 f1_6 h0 (by decide)]; unfold decodeInteger; rw [f22_10, regAt_of f7_5, regAt_of f12_5, regAt_of f17_5]
    rfl
  unfold encode; rw [e2]; exact decodeBytes_word _ _ hw hp dec

theorem div (d : Reg) (a : Reg) (b : Reg) : Statement (.div d a b) := by
  intro hwf _
  obtain ⟨w, e⟩ : ∃ w, w = cat [(1, 1), (1, 6), (d.toNat, 5), (a.toNat, 5), (b.toNat, 5), (4, 10)] := ⟨_, rfl⟩
  have e2 : encodeNat (.div d a b) = w := by
    rw [e]; show 16777219 + d.toNat * 2 ^ 7 + a.toNat * 2 ^ 12 + b.toNat * 2 ^ 17 = _; simp only [cat]; omega
  obtain ⟨hw, hp, f1_6, f7_5, f12_5, f17_5, f22_10⟩ := parts0 (by decide) (by decide) d.isLt a.isLt b.isLt (by decide) e
  have h0 := ne_ones f1_6 (by decide)
  have dec : decodeWord w = .ok (.div d a b) := by
    rw [word_integer 1 f1_6 h0 (by decide)]; unfold decodeInteger; rw [f22_10, regAt_of f7_5, regAt_of f12_5, regAt_of f17_5]
    rfl
  unfold encode; rw [e2]; exact decodeBytes_word _ _ hw hp dec

theorem divu (d : Reg) (a : Reg) (b : Reg) : Statement (.divu d a b) := by
  intro hwf _
  obtain ⟨w, e⟩ : ∃ w, w = cat [(1, 1), (1, 6), (d.toNat, 5), (a.toNat, 5), (b.toNat, 5), (5, 10)] := ⟨_, rfl⟩
  have e2 : encodeNat (.divu d a b) = w := by
    rw [e]; show 20971523 + d.toNat * 2 ^ 7 + a.toNat * 2 ^ 12 + b.toNat * 2 ^ 17 = _; simp only [cat]; omega
  obtain ⟨hw, hp, f1_6, f7_5, f12_5, f17_5, f22_10⟩ := parts0 (by decide) (by decide) d.isLt a.isLt b.isLt (by decide) e
  have h0 := ne_ones f1_6 (by decide)
  have dec : decodeWord w = .ok (.divu d a b) := by
    rw [word_integer 1 f1_6 h0 (by decide)]; unfold decodeInteger; rw [f22_10, regAt_of f7_5, regAt_of f12_5, regAt_of f17_5]
    rfl
  unfold encode; rw [e2]; exact decodeBytes_word _ _ hw hp dec

theorem rem (d : Reg) (a : Reg) (b : Reg) : Statement (.rem d a b) := by
  intro hwf _
  obtain ⟨w, e⟩ : ∃ w, w = cat [(1, 1), (1, 6), (d.toNat, 5), (a.toNat, 5), (b.toNat, 5), (6, 10)] := ⟨_, rfl⟩
  have e2 : encodeNat (.rem d a b) = w := by
    rw [e]; show 25165827 + d.toNat * 2 ^ 7 + a.toNat * 2 ^ 12 + b.toNat * 2 ^ 17 = _; simp only [cat]; omega
  obtain ⟨hw, hp, f1_6, f7_5, f12_5, f17_5, f22_10⟩ := parts0 (by decide) (by decide) d.isLt a.isLt b.isLt (by decide) e
  have h0 := ne_ones f1_6 (by decide)
  have dec : decodeWord w = .ok (.rem d a b) := by
    rw [word_integer 1 f1_6 h0 (by decide)]; unfold decodeInteger; rw [f22_10, regAt_of f7_5, regAt_of f12_5, regAt_of f17_5]
    rfl
  unfold encode; rw [e2]; exact decodeBytes_word _ _ hw hp dec

theorem remu (d : Reg) (a : Reg) (b : Reg) : Statement (.remu d a b) := by
  intro hwf _
  obtain ⟨w, e⟩ : ∃ w, w = cat [(1, 1), (1, 6), (d.toNat, 5), (a.toNat, 5), (b.toNat, 5), (7, 10)] := ⟨_, rfl⟩
  have e2 : encodeNat (.remu d a b) = w := by
    rw [e]; show 29360131 + d.toNat * 2 ^ 7 + a.toNat * 2 ^ 12 + b.toNat * 2 ^ 17 = _; simp only [cat]; omega
  obtain ⟨hw, hp, f1_6, f7_5, f12_5, f17_5, f22_10⟩ := parts0 (by decide) (by decide) d.isLt a.isLt b.isLt (by decide) e
  have h0 := ne_ones f1_6 (by decide)
  have dec : decodeWord w = .ok (.remu d a b) := by
    rw [word_integer 1 f1_6 h0 (by decide)]; unfold decodeInteger; rw [f22_10, regAt_of f7_5, regAt_of f12_5, regAt_of f17_5]
    rfl
  unfold encode; rw [e2]; exact decodeBytes_word _ _ hw hp dec

theorem clz (d : Reg) (a : Reg) : Statement (.clz d a) := by
  intro hwf _
  obtain ⟨w, e⟩ : ∃ w, w = cat [(1, 1), (2, 6), (d.toNat, 5), (a.toNat, 5), (0, 5), (0, 10)] := ⟨_, rfl⟩
  have e2 : encodeNat (.clz d a) = w := by
    rw [e]; show 5 + d.toNat * 2 ^ 7 + a.toNat * 2 ^ 12 = _; simp only [cat]; omega
  obtain ⟨hw, hp, f1_6, f7_5, f12_5, f17_5, f22_10⟩ := parts0 (by decide) (by decide) d.isLt a.isLt (by decide) (by decide) e
  have h0 := ne_ones f1_6 (by decide)
  have dec : decodeWord w = .ok (.clz d a) := by
    rw [word_integer 2 f1_6 h0 (by decide)]; unfold decodeInteger; rw [f22_10, regAt_of f7_5, regAt_of f12_5, f17_5]
    rfl
  unfold encode; rw [e2]; exact decodeBytes_word _ _ hw hp dec

theorem ctz (d : Reg) (a : Reg) : Statement (.ctz d a) := by
  intro hwf _
  obtain ⟨w, e⟩ : ∃ w, w = cat [(1, 1), (2, 6), (d.toNat, 5), (a.toNat, 5), (0, 5), (1, 10)] := ⟨_, rfl⟩
  have e2 : encodeNat (.ctz d a) = w := by
    rw [e]; show 4194309 + d.toNat * 2 ^ 7 + a.toNat * 2 ^ 12 = _; simp only [cat]; omega
  obtain ⟨hw, hp, f1_6, f7_5, f12_5, f17_5, f22_10⟩ := parts0 (by decide) (by decide) d.isLt a.isLt (by decide) (by decide) e
  have h0 := ne_ones f1_6 (by decide)
  have dec : decodeWord w = .ok (.ctz d a) := by
    rw [word_integer 2 f1_6 h0 (by decide)]; unfold decodeInteger; rw [f22_10, regAt_of f7_5, regAt_of f12_5, f17_5]
    rfl
  unfold encode; rw [e2]; exact decodeBytes_word _ _ hw hp dec

theorem popc (d : Reg) (a : Reg) : Statement (.popc d a) := by
  intro hwf _
  obtain ⟨w, e⟩ : ∃ w, w = cat [(1, 1), (2, 6), (d.toNat, 5), (a.toNat, 5), (0, 5), (2, 10)] := ⟨_, rfl⟩
  have e2 : encodeNat (.popc d a) = w := by
    rw [e]; show 8388613 + d.toNat * 2 ^ 7 + a.toNat * 2 ^ 12 = _; simp only [cat]; omega
  obtain ⟨hw, hp, f1_6, f7_5, f12_5, f17_5, f22_10⟩ := parts0 (by decide) (by decide) d.isLt a.isLt (by decide) (by decide) e
  have h0 := ne_ones f1_6 (by decide)
  have dec : decodeWord w = .ok (.popc d a) := by
    rw [word_integer 2 f1_6 h0 (by decide)]; unfold decodeInteger; rw [f22_10, regAt_of f7_5, regAt_of f12_5, f17_5]
    rfl
  unfold encode; rw [e2]; exact decodeBytes_word _ _ hw hp dec

theorem bswap (d : Reg) (a : Reg) : Statement (.bswap d a) := by
  intro hwf _
  obtain ⟨w, e⟩ : ∃ w, w = cat [(1, 1), (2, 6), (d.toNat, 5), (a.toNat, 5), (0, 5), (3, 10)] := ⟨_, rfl⟩
  have e2 : encodeNat (.bswap d a) = w := by
    rw [e]; show 12582917 + d.toNat * 2 ^ 7 + a.toNat * 2 ^ 12 = _; simp only [cat]; omega
  obtain ⟨hw, hp, f1_6, f7_5, f12_5, f17_5, f22_10⟩ := parts0 (by decide) (by decide) d.isLt a.isLt (by decide) (by decide) e
  have h0 := ne_ones f1_6 (by decide)
  have dec : decodeWord w = .ok (.bswap d a) := by
    rw [word_integer 2 f1_6 h0 (by decide)]; unfold decodeInteger; rw [f22_10, regAt_of f7_5, regAt_of f12_5, f17_5]
    rfl
  unfold encode; rw [e2]; exact decodeBytes_word _ _ hw hp dec

theorem sextb (d : Reg) (a : Reg) : Statement (.sextb d a) := by
  intro hwf _
  obtain ⟨w, e⟩ : ∃ w, w = cat [(1, 1), (2, 6), (d.toNat, 5), (a.toNat, 5), (0, 5), (4, 10)] := ⟨_, rfl⟩
  have e2 : encodeNat (.sextb d a) = w := by
    rw [e]; show 16777221 + d.toNat * 2 ^ 7 + a.toNat * 2 ^ 12 = _; simp only [cat]; omega
  obtain ⟨hw, hp, f1_6, f7_5, f12_5, f17_5, f22_10⟩ := parts0 (by decide) (by decide) d.isLt a.isLt (by decide) (by decide) e
  have h0 := ne_ones f1_6 (by decide)
  have dec : decodeWord w = .ok (.sextb d a) := by
    rw [word_integer 2 f1_6 h0 (by decide)]; unfold decodeInteger; rw [f22_10, regAt_of f7_5, regAt_of f12_5, f17_5]
    rfl
  unfold encode; rw [e2]; exact decodeBytes_word _ _ hw hp dec

theorem sexth (d : Reg) (a : Reg) : Statement (.sexth d a) := by
  intro hwf _
  obtain ⟨w, e⟩ : ∃ w, w = cat [(1, 1), (2, 6), (d.toNat, 5), (a.toNat, 5), (0, 5), (5, 10)] := ⟨_, rfl⟩
  have e2 : encodeNat (.sexth d a) = w := by
    rw [e]; show 20971525 + d.toNat * 2 ^ 7 + a.toNat * 2 ^ 12 = _; simp only [cat]; omega
  obtain ⟨hw, hp, f1_6, f7_5, f12_5, f17_5, f22_10⟩ := parts0 (by decide) (by decide) d.isLt a.isLt (by decide) (by decide) e
  have h0 := ne_ones f1_6 (by decide)
  have dec : decodeWord w = .ok (.sexth d a) := by
    rw [word_integer 2 f1_6 h0 (by decide)]; unfold decodeInteger; rw [f22_10, regAt_of f7_5, regAt_of f12_5, f17_5]
    rfl
  unfold encode; rw [e2]; exact decodeBytes_word _ _ hw hp dec

theorem sextw (d : Reg) (a : Reg) : Statement (.sextw d a) := by
  intro hwf _
  obtain ⟨w, e⟩ : ∃ w, w = cat [(1, 1), (2, 6), (d.toNat, 5), (a.toNat, 5), (0, 5), (6, 10)] := ⟨_, rfl⟩
  have e2 : encodeNat (.sextw d a) = w := by
    rw [e]; show 25165829 + d.toNat * 2 ^ 7 + a.toNat * 2 ^ 12 = _; simp only [cat]; omega
  obtain ⟨hw, hp, f1_6, f7_5, f12_5, f17_5, f22_10⟩ := parts0 (by decide) (by decide) d.isLt a.isLt (by decide) (by decide) e
  have h0 := ne_ones f1_6 (by decide)
  have dec : decodeWord w = .ok (.sextw d a) := by
    rw [word_integer 2 f1_6 h0 (by decide)]; unfold decodeInteger; rw [f22_10, regAt_of f7_5, regAt_of f12_5, f17_5]
    rfl
  unfold encode; rw [e2]; exact decodeBytes_word _ _ hw hp dec

theorem zextb (d : Reg) (a : Reg) : Statement (.zextb d a) := by
  intro hwf _
  obtain ⟨w, e⟩ : ∃ w, w = cat [(1, 1), (2, 6), (d.toNat, 5), (a.toNat, 5), (0, 5), (7, 10)] := ⟨_, rfl⟩
  have e2 : encodeNat (.zextb d a) = w := by
    rw [e]; show 29360133 + d.toNat * 2 ^ 7 + a.toNat * 2 ^ 12 = _; simp only [cat]; omega
  obtain ⟨hw, hp, f1_6, f7_5, f12_5, f17_5, f22_10⟩ := parts0 (by decide) (by decide) d.isLt a.isLt (by decide) (by decide) e
  have h0 := ne_ones f1_6 (by decide)
  have dec : decodeWord w = .ok (.zextb d a) := by
    rw [word_integer 2 f1_6 h0 (by decide)]; unfold decodeInteger; rw [f22_10, regAt_of f7_5, regAt_of f12_5, f17_5]
    rfl
  unfold encode; rw [e2]; exact decodeBytes_word _ _ hw hp dec

theorem zexth (d : Reg) (a : Reg) : Statement (.zexth d a) := by
  intro hwf _
  obtain ⟨w, e⟩ : ∃ w, w = cat [(1, 1), (2, 6), (d.toNat, 5), (a.toNat, 5), (0, 5), (8, 10)] := ⟨_, rfl⟩
  have e2 : encodeNat (.zexth d a) = w := by
    rw [e]; show 33554437 + d.toNat * 2 ^ 7 + a.toNat * 2 ^ 12 = _; simp only [cat]; omega
  obtain ⟨hw, hp, f1_6, f7_5, f12_5, f17_5, f22_10⟩ := parts0 (by decide) (by decide) d.isLt a.isLt (by decide) (by decide) e
  have h0 := ne_ones f1_6 (by decide)
  have dec : decodeWord w = .ok (.zexth d a) := by
    rw [word_integer 2 f1_6 h0 (by decide)]; unfold decodeInteger; rw [f22_10, regAt_of f7_5, regAt_of f12_5, f17_5]
    rfl
  unfold encode; rw [e2]; exact decodeBytes_word _ _ hw hp dec

theorem zextw (d : Reg) (a : Reg) : Statement (.zextw d a) := by
  intro hwf _
  obtain ⟨w, e⟩ : ∃ w, w = cat [(1, 1), (2, 6), (d.toNat, 5), (a.toNat, 5), (0, 5), (9, 10)] := ⟨_, rfl⟩
  have e2 : encodeNat (.zextw d a) = w := by
    rw [e]; show 37748741 + d.toNat * 2 ^ 7 + a.toNat * 2 ^ 12 = _; simp only [cat]; omega
  obtain ⟨hw, hp, f1_6, f7_5, f12_5, f17_5, f22_10⟩ := parts0 (by decide) (by decide) d.isLt a.isLt (by decide) (by decide) e
  have h0 := ne_ones f1_6 (by decide)
  have dec : decodeWord w = .ok (.zextw d a) := by
    rw [word_integer 2 f1_6 h0 (by decide)]; unfold decodeInteger; rw [f22_10, regAt_of f7_5, regAt_of f12_5, f17_5]
    rfl
  unfold encode; rw [e2]; exact decodeBytes_word _ _ hw hp dec

theorem bfx (d : Reg) (a : Reg) (lsb : BitVec 6) (lenm1 : BitVec 6) : Statement (.bfx d a lsb lenm1) := by
  intro hwf _
  obtain ⟨w, e⟩ : ∃ w, w = cat [(1, 1), (3, 6), (d.toNat, 5), (a.toNat, 5), (lsb.toNat, 6), (lenm1.toNat, 6), (0, 3)] := ⟨_, rfl⟩
  have e2 : encodeNat (.bfx d a lsb lenm1) = w := by
    rw [e]; show 7 + d.toNat * 2 ^ 7 + a.toNat * 2 ^ 12 + lsb.toNat * 2 ^ 17 + lenm1.toNat * 2 ^ 23 = _; simp only [cat]; omega
  obtain ⟨hw, hp, f1_6, f7_5, f12_5, f17_6, f23_6, f29_3⟩ := parts1 (by decide) (by decide) d.isLt a.isLt lsb.isLt lenm1.isLt (by decide) e
  have h0 := ne_ones f1_6 (by decide)
  have dec : decodeWord w = .ok (.bfx d a lsb lenm1) := by
    have ok : lsb.toNat + lenm1.toNat < 64 := of_decide_eq_true hwf
    simp [decodeWord, decodeBitField, regAt, vregAt, reservedMajor, needZero, needRange, h0, f1_6, f7_5, f12_5, f17_6, f23_6, f29_3, ok]
  unfold encode; rw [e2]; exact decodeBytes_word _ _ hw hp dec

theorem bfxu (d : Reg) (a : Reg) (lsb : BitVec 6) (lenm1 : BitVec 6) : Statement (.bfxu d a lsb lenm1) := by
  intro hwf _
  obtain ⟨w, e⟩ : ∃ w, w = cat [(1, 1), (3, 6), (d.toNat, 5), (a.toNat, 5), (lsb.toNat, 6), (lenm1.toNat, 6), (1, 3)] := ⟨_, rfl⟩
  have e2 : encodeNat (.bfxu d a lsb lenm1) = w := by
    rw [e]; show 536870919 + d.toNat * 2 ^ 7 + a.toNat * 2 ^ 12 + lsb.toNat * 2 ^ 17 + lenm1.toNat * 2 ^ 23 = _; simp only [cat]; omega
  obtain ⟨hw, hp, f1_6, f7_5, f12_5, f17_6, f23_6, f29_3⟩ := parts1 (by decide) (by decide) d.isLt a.isLt lsb.isLt lenm1.isLt (by decide) e
  have h0 := ne_ones f1_6 (by decide)
  have dec : decodeWord w = .ok (.bfxu d a lsb lenm1) := by
    have ok : lsb.toNat + lenm1.toNat < 64 := of_decide_eq_true hwf
    simp [decodeWord, decodeBitField, regAt, vregAt, reservedMajor, needZero, needRange, h0, f1_6, f7_5, f12_5, f17_6, f23_6, f29_3, ok]
  unfold encode; rw [e2]; exact decodeBytes_word _ _ hw hp dec

theorem bfi (d : Reg) (a : Reg) (lsb : BitVec 6) (lenm1 : BitVec 6) : Statement (.bfi d a lsb lenm1) := by
  intro hwf _
  obtain ⟨w, e⟩ : ∃ w, w = cat [(1, 1), (3, 6), (d.toNat, 5), (a.toNat, 5), (lsb.toNat, 6), (lenm1.toNat, 6), (2, 3)] := ⟨_, rfl⟩
  have e2 : encodeNat (.bfi d a lsb lenm1) = w := by
    rw [e]; show 1073741831 + d.toNat * 2 ^ 7 + a.toNat * 2 ^ 12 + lsb.toNat * 2 ^ 17 + lenm1.toNat * 2 ^ 23 = _; simp only [cat]; omega
  obtain ⟨hw, hp, f1_6, f7_5, f12_5, f17_6, f23_6, f29_3⟩ := parts1 (by decide) (by decide) d.isLt a.isLt lsb.isLt lenm1.isLt (by decide) e
  have h0 := ne_ones f1_6 (by decide)
  have dec : decodeWord w = .ok (.bfi d a lsb lenm1) := by
    have ok : lsb.toNat + lenm1.toNat < 64 := of_decide_eq_true hwf
    simp [decodeWord, decodeBitField, regAt, vregAt, reservedMajor, needZero, needRange, h0, f1_6, f7_5, f12_5, f17_6, f23_6, f29_3, ok]
  unfold encode; rw [e2]; exact decodeBytes_word _ _ hw hp dec

theorem addi (d : Reg) (a : Reg) (imm : BitVec 15) : Statement (.addi d a imm) := by
  intro hwf _
  obtain ⟨w, e⟩ : ∃ w, w = cat [(1, 1), (4, 6), (d.toNat, 5), (a.toNat, 5), (imm.toNat, 15)] := ⟨_, rfl⟩
  have e2 : encodeNat (.addi d a imm) = w := by
    rw [e]; show 9 + d.toNat * 2 ^ 7 + a.toNat * 2 ^ 12 + imm.toNat * 2 ^ 17 = _; simp only [cat]; omega
  obtain ⟨hw, hp, f1_6, f7_5, f12_5, f17_15⟩ := parts2 (by decide) (by decide) d.isLt a.isLt imm.isLt e
  have h0 := ne_ones f1_6 (by decide)
  have dec : decodeWord w = .ok (.addi d a imm) := by
    rw [word_immediate 4 f1_6 h0 (by decide)]; unfold decodeImmediate; rw [regAt_of f7_5, regAt_of f12_5, ofNat_of f17_15]
    rfl
  unfold encode; rw [e2]; exact decodeBytes_word _ _ hw hp dec

theorem andi (d : Reg) (a : Reg) (imm : BitVec 15) : Statement (.andi d a imm) := by
  intro hwf _
  obtain ⟨w, e⟩ : ∃ w, w = cat [(1, 1), (5, 6), (d.toNat, 5), (a.toNat, 5), (imm.toNat, 15)] := ⟨_, rfl⟩
  have e2 : encodeNat (.andi d a imm) = w := by
    rw [e]; show 11 + d.toNat * 2 ^ 7 + a.toNat * 2 ^ 12 + imm.toNat * 2 ^ 17 = _; simp only [cat]; omega
  obtain ⟨hw, hp, f1_6, f7_5, f12_5, f17_15⟩ := parts2 (by decide) (by decide) d.isLt a.isLt imm.isLt e
  have h0 := ne_ones f1_6 (by decide)
  have dec : decodeWord w = .ok (.andi d a imm) := by
    rw [word_immediate 5 f1_6 h0 (by decide)]; unfold decodeImmediate; rw [regAt_of f7_5, regAt_of f12_5, ofNat_of f17_15]
    rfl
  unfold encode; rw [e2]; exact decodeBytes_word _ _ hw hp dec

theorem ori (d : Reg) (a : Reg) (imm : BitVec 15) : Statement (.ori d a imm) := by
  intro hwf _
  obtain ⟨w, e⟩ : ∃ w, w = cat [(1, 1), (6, 6), (d.toNat, 5), (a.toNat, 5), (imm.toNat, 15)] := ⟨_, rfl⟩
  have e2 : encodeNat (.ori d a imm) = w := by
    rw [e]; show 13 + d.toNat * 2 ^ 7 + a.toNat * 2 ^ 12 + imm.toNat * 2 ^ 17 = _; simp only [cat]; omega
  obtain ⟨hw, hp, f1_6, f7_5, f12_5, f17_15⟩ := parts2 (by decide) (by decide) d.isLt a.isLt imm.isLt e
  have h0 := ne_ones f1_6 (by decide)
  have dec : decodeWord w = .ok (.ori d a imm) := by
    rw [word_immediate 6 f1_6 h0 (by decide)]; unfold decodeImmediate; rw [regAt_of f7_5, regAt_of f12_5, ofNat_of f17_15]
    rfl
  unfold encode; rw [e2]; exact decodeBytes_word _ _ hw hp dec

theorem xori (d : Reg) (a : Reg) (imm : BitVec 15) : Statement (.xori d a imm) := by
  intro hwf _
  obtain ⟨w, e⟩ : ∃ w, w = cat [(1, 1), (7, 6), (d.toNat, 5), (a.toNat, 5), (imm.toNat, 15)] := ⟨_, rfl⟩
  have e2 : encodeNat (.xori d a imm) = w := by
    rw [e]; show 15 + d.toNat * 2 ^ 7 + a.toNat * 2 ^ 12 + imm.toNat * 2 ^ 17 = _; simp only [cat]; omega
  obtain ⟨hw, hp, f1_6, f7_5, f12_5, f17_15⟩ := parts2 (by decide) (by decide) d.isLt a.isLt imm.isLt e
  have h0 := ne_ones f1_6 (by decide)
  have dec : decodeWord w = .ok (.xori d a imm) := by
    rw [word_immediate 7 f1_6 h0 (by decide)]; unfold decodeImmediate; rw [regAt_of f7_5, regAt_of f12_5, ofNat_of f17_15]
    rfl
  unfold encode; rw [e2]; exact decodeBytes_word _ _ hw hp dec

theorem slti (d : Reg) (a : Reg) (imm : BitVec 15) : Statement (.slti d a imm) := by
  intro hwf _
  obtain ⟨w, e⟩ : ∃ w, w = cat [(1, 1), (8, 6), (d.toNat, 5), (a.toNat, 5), (imm.toNat, 15)] := ⟨_, rfl⟩
  have e2 : encodeNat (.slti d a imm) = w := by
    rw [e]; show 17 + d.toNat * 2 ^ 7 + a.toNat * 2 ^ 12 + imm.toNat * 2 ^ 17 = _; simp only [cat]; omega
  obtain ⟨hw, hp, f1_6, f7_5, f12_5, f17_15⟩ := parts2 (by decide) (by decide) d.isLt a.isLt imm.isLt e
  have h0 := ne_ones f1_6 (by decide)
  have dec : decodeWord w = .ok (.slti d a imm) := by
    rw [word_immediate 8 f1_6 h0 (by decide)]; unfold decodeImmediate; rw [regAt_of f7_5, regAt_of f12_5, ofNat_of f17_15]
    rfl
  unfold encode; rw [e2]; exact decodeBytes_word _ _ hw hp dec

theorem sltiu (d : Reg) (a : Reg) (imm : BitVec 15) : Statement (.sltiu d a imm) := by
  intro hwf _
  obtain ⟨w, e⟩ : ∃ w, w = cat [(1, 1), (9, 6), (d.toNat, 5), (a.toNat, 5), (imm.toNat, 15)] := ⟨_, rfl⟩
  have e2 : encodeNat (.sltiu d a imm) = w := by
    rw [e]; show 19 + d.toNat * 2 ^ 7 + a.toNat * 2 ^ 12 + imm.toNat * 2 ^ 17 = _; simp only [cat]; omega
  obtain ⟨hw, hp, f1_6, f7_5, f12_5, f17_15⟩ := parts2 (by decide) (by decide) d.isLt a.isLt imm.isLt e
  have h0 := ne_ones f1_6 (by decide)
  have dec : decodeWord w = .ok (.sltiu d a imm) := by
    rw [word_immediate 9 f1_6 h0 (by decide)]; unfold decodeImmediate; rw [regAt_of f7_5, regAt_of f12_5, ofNat_of f17_15]
    rfl
  unfold encode; rw [e2]; exact decodeBytes_word _ _ hw hp dec

theorem slli (d : Reg) (a : Reg) (sh : BitVec 6) : Statement (.slli d a sh) := by
  intro hwf _
  obtain ⟨w, e⟩ : ∃ w, w = cat [(1, 1), (10, 6), (d.toNat, 5), (a.toNat, 5), (sh.toNat, 6), (0, 9)] := ⟨_, rfl⟩
  have e2 : encodeNat (.slli d a sh) = w := by
    rw [e]; show 21 + d.toNat * 2 ^ 7 + a.toNat * 2 ^ 12 + sh.toNat * 2 ^ 17 = _; simp only [cat]; omega
  obtain ⟨hw, hp, f1_6, f7_5, f12_5, f17_6, f23_9⟩ := parts3 (by decide) (by decide) d.isLt a.isLt sh.isLt (by decide) e
  have h0 := ne_ones f1_6 (by decide)
  have dec : decodeWord w = .ok (.slli d a sh) := by
    rw [word_immediate 10 f1_6 h0 (by decide)]; unfold decodeImmediate; rw [f23_9, regAt_of f7_5, regAt_of f12_5, ofNat_of f17_6]
    rfl
  unfold encode; rw [e2]; exact decodeBytes_word _ _ hw hp dec

theorem srli (d : Reg) (a : Reg) (sh : BitVec 6) : Statement (.srli d a sh) := by
  intro hwf _
  obtain ⟨w, e⟩ : ∃ w, w = cat [(1, 1), (10, 6), (d.toNat, 5), (a.toNat, 5), (sh.toNat, 6), (1, 9)] := ⟨_, rfl⟩
  have e2 : encodeNat (.srli d a sh) = w := by
    rw [e]; show 8388629 + d.toNat * 2 ^ 7 + a.toNat * 2 ^ 12 + sh.toNat * 2 ^ 17 = _; simp only [cat]; omega
  obtain ⟨hw, hp, f1_6, f7_5, f12_5, f17_6, f23_9⟩ := parts3 (by decide) (by decide) d.isLt a.isLt sh.isLt (by decide) e
  have h0 := ne_ones f1_6 (by decide)
  have dec : decodeWord w = .ok (.srli d a sh) := by
    rw [word_immediate 10 f1_6 h0 (by decide)]; unfold decodeImmediate; rw [f23_9, regAt_of f7_5, regAt_of f12_5, ofNat_of f17_6]
    rfl
  unfold encode; rw [e2]; exact decodeBytes_word _ _ hw hp dec

theorem srai (d : Reg) (a : Reg) (sh : BitVec 6) : Statement (.srai d a sh) := by
  intro hwf _
  obtain ⟨w, e⟩ : ∃ w, w = cat [(1, 1), (10, 6), (d.toNat, 5), (a.toNat, 5), (sh.toNat, 6), (2, 9)] := ⟨_, rfl⟩
  have e2 : encodeNat (.srai d a sh) = w := by
    rw [e]; show 16777237 + d.toNat * 2 ^ 7 + a.toNat * 2 ^ 12 + sh.toNat * 2 ^ 17 = _; simp only [cat]; omega
  obtain ⟨hw, hp, f1_6, f7_5, f12_5, f17_6, f23_9⟩ := parts3 (by decide) (by decide) d.isLt a.isLt sh.isLt (by decide) e
  have h0 := ne_ones f1_6 (by decide)
  have dec : decodeWord w = .ok (.srai d a sh) := by
    rw [word_immediate 10 f1_6 h0 (by decide)]; unfold decodeImmediate; rw [f23_9, regAt_of f7_5, regAt_of f12_5, ofNat_of f17_6]
    rfl
  unfold encode; rw [e2]; exact decodeBytes_word _ _ hw hp dec

theorem lui (d : Reg) (imm : BitVec 20) : Statement (.lui d imm) := by
  intro hwf _
  obtain ⟨w, e⟩ : ∃ w, w = cat [(1, 1), (11, 6), (d.toNat, 5), (imm.toNat, 20)] := ⟨_, rfl⟩
  have e2 : encodeNat (.lui d imm) = w := by
    rw [e]; show 23 + d.toNat * 2 ^ 7 + imm.toNat * 2 ^ 12 = _; simp only [cat]; omega
  obtain ⟨hw, hp, f1_6, f7_5, f12_20⟩ := parts4 (by decide) (by decide) d.isLt imm.isLt e
  have h0 := ne_ones f1_6 (by decide)
  have dec : decodeWord w = .ok (.lui d imm) := by
    rw [word_immediate 11 f1_6 h0 (by decide)]; unfold decodeImmediate; rw [regAt_of f7_5, ofNat_of f12_20]
    rfl
  unfold encode; rw [e2]; exact decodeBytes_word _ _ hw hp dec

theorem lpc (d : Reg) (imm : BitVec 20) : Statement (.lpc d imm) := by
  intro hwf _
  obtain ⟨w, e⟩ : ∃ w, w = cat [(1, 1), (12, 6), (d.toNat, 5), (imm.toNat, 20)] := ⟨_, rfl⟩
  have e2 : encodeNat (.lpc d imm) = w := by
    rw [e]; show 25 + d.toNat * 2 ^ 7 + imm.toNat * 2 ^ 12 = _; simp only [cat]; omega
  obtain ⟨hw, hp, f1_6, f7_5, f12_20⟩ := parts4 (by decide) (by decide) d.isLt imm.isLt e
  have h0 := ne_ones f1_6 (by decide)
  have dec : decodeWord w = .ok (.lpc d imm) := by
    rw [word_immediate 12 f1_6 h0 (by decide)]; unfold decodeImmediate; rw [regAt_of f7_5, ofNat_of f12_20]
    rfl
  unfold encode; rw [e2]; exact decodeBytes_word _ _ hw hp dec

theorem xset (n : VReg) (a : Reg) : Statement (.xset n a) := by
  intro hwf _
  obtain ⟨w, e⟩ : ∃ w, w = cat [(1, 1), (13, 6), (0, 5), (a.toNat, 5), (n.toNat, 3), (0, 1), (0, 11)] := ⟨_, rfl⟩
  have e2 : encodeNat (.xset n a) = w := by
    rw [e]; show 27 + n.toNat * 2 ^ 17 + a.toNat * 2 ^ 12 = _; simp only [cat]; omega
  obtain ⟨hw, hp, f1_6, f7_5, f12_5, f17_3, f20_1, f21_11⟩ := parts5 (by decide) (by decide) (by decide) a.isLt n.isLt (by decide) (by decide) e
  have h0 := ne_ones f1_6 (by decide)
  have dec : decodeWord w = .ok (.xset n a) := by
    rw [word_immediate 13 f1_6 h0 (by decide)]; unfold decodeImmediate; rw [f20_1, regAt_of f12_5, vregAt_of f17_3, f21_11, f7_5]
    rfl
  unfold encode; rw [e2]; exact decodeBytes_word _ _ hw hp dec

theorem xget (d : Reg) (n : VReg) : Statement (.xget d n) := by
  intro hwf _
  obtain ⟨w, e⟩ : ∃ w, w = cat [(1, 1), (13, 6), (d.toNat, 5), (0, 5), (n.toNat, 3), (1, 1), (0, 11)] := ⟨_, rfl⟩
  have e2 : encodeNat (.xget d n) = w := by
    rw [e]; show 1048603 + d.toNat * 2 ^ 7 + n.toNat * 2 ^ 17 = _; simp only [cat]; omega
  obtain ⟨hw, hp, f1_6, f7_5, f12_5, f17_3, f20_1, f21_11⟩ := parts5 (by decide) (by decide) d.isLt (by decide) n.isLt (by decide) (by decide) e
  have h0 := ne_ones f1_6 (by decide)
  have dec : decodeWord w = .ok (.xget d n) := by
    rw [word_immediate 13 f1_6 h0 (by decide)]; unfold decodeImmediate; rw [f20_1, regAt_of f7_5, vregAt_of f17_3, f21_11, f12_5]
    rfl
  unfold encode; rw [e2]; exact decodeBytes_word _ _ hw hp dec

theorem xli (n : VReg) (c : BitVec 2) (imm : BitVec 16) : Statement (.xli n c imm) := by
  intro hwf _
  obtain ⟨w, e⟩ : ∃ w, w = cat [(1, 1), (14, 6), (n.toNat, 3), (c.toNat, 2), (imm.toNat, 16), (0, 4)] := ⟨_, rfl⟩
  have e2 : encodeNat (.xli n c imm) = w := by
    rw [e]; show 29 + n.toNat * 2 ^ 7 + c.toNat * 2 ^ 10 + imm.toNat * 2 ^ 12 = _; simp only [cat]; omega
  obtain ⟨hw, hp, f1_6, f7_3, f10_2, f12_16, f28_4⟩ := parts6 (by decide) (by decide) n.isLt c.isLt imm.isLt (by decide) e
  have h0 := ne_ones f1_6 (by decide)
  have dec : decodeWord w = .ok (.xli n c imm) := by
    rw [word_immediate 14 f1_6 h0 (by decide)]; unfold decodeImmediate; rw [vregAt_of f7_3, ofNat_of f10_2, ofNat_of f12_16, f28_4]
    rfl
  unfold encode; rw [e2]; exact decodeBytes_word _ _ hw hp dec

theorem ldb (d : Reg) (a : Reg) (imm : BitVec 15) : Statement (.ldb d a imm) := by
  intro hwf _
  obtain ⟨w, e⟩ : ∃ w, w = cat [(1, 1), (16, 6), (d.toNat, 5), (a.toNat, 5), (imm.toNat, 15)] := ⟨_, rfl⟩
  have e2 : encodeNat (.ldb d a imm) = w := by
    rw [e]; show 33 + d.toNat * 2 ^ 7 + a.toNat * 2 ^ 12 + imm.toNat * 2 ^ 17 = _; simp only [cat]; omega
  obtain ⟨hw, hp, f1_6, f7_5, f12_5, f17_15⟩ := parts2 (by decide) (by decide) d.isLt a.isLt imm.isLt e
  have h0 := ne_ones f1_6 (by decide)
  have dec : decodeWord w = .ok (.ldb d a imm) := by
    rw [word_loadStore 16 f1_6 h0 (by decide)]; unfold decodeLoadStore; rw [regAt_of f7_5, regAt_of f12_5, ofNat_of f17_15]
    rfl
  unfold encode; rw [e2]; exact decodeBytes_word _ _ hw hp dec

theorem ldbu (d : Reg) (a : Reg) (imm : BitVec 15) : Statement (.ldbu d a imm) := by
  intro hwf _
  obtain ⟨w, e⟩ : ∃ w, w = cat [(1, 1), (17, 6), (d.toNat, 5), (a.toNat, 5), (imm.toNat, 15)] := ⟨_, rfl⟩
  have e2 : encodeNat (.ldbu d a imm) = w := by
    rw [e]; show 35 + d.toNat * 2 ^ 7 + a.toNat * 2 ^ 12 + imm.toNat * 2 ^ 17 = _; simp only [cat]; omega
  obtain ⟨hw, hp, f1_6, f7_5, f12_5, f17_15⟩ := parts2 (by decide) (by decide) d.isLt a.isLt imm.isLt e
  have h0 := ne_ones f1_6 (by decide)
  have dec : decodeWord w = .ok (.ldbu d a imm) := by
    rw [word_loadStore 17 f1_6 h0 (by decide)]; unfold decodeLoadStore; rw [regAt_of f7_5, regAt_of f12_5, ofNat_of f17_15]
    rfl
  unfold encode; rw [e2]; exact decodeBytes_word _ _ hw hp dec

theorem ldh (d : Reg) (a : Reg) (imm : BitVec 15) : Statement (.ldh d a imm) := by
  intro hwf _
  obtain ⟨w, e⟩ : ∃ w, w = cat [(1, 1), (18, 6), (d.toNat, 5), (a.toNat, 5), (imm.toNat, 15)] := ⟨_, rfl⟩
  have e2 : encodeNat (.ldh d a imm) = w := by
    rw [e]; show 37 + d.toNat * 2 ^ 7 + a.toNat * 2 ^ 12 + imm.toNat * 2 ^ 17 = _; simp only [cat]; omega
  obtain ⟨hw, hp, f1_6, f7_5, f12_5, f17_15⟩ := parts2 (by decide) (by decide) d.isLt a.isLt imm.isLt e
  have h0 := ne_ones f1_6 (by decide)
  have dec : decodeWord w = .ok (.ldh d a imm) := by
    rw [word_loadStore 18 f1_6 h0 (by decide)]; unfold decodeLoadStore; rw [regAt_of f7_5, regAt_of f12_5, ofNat_of f17_15]
    rfl
  unfold encode; rw [e2]; exact decodeBytes_word _ _ hw hp dec

theorem ldhu (d : Reg) (a : Reg) (imm : BitVec 15) : Statement (.ldhu d a imm) := by
  intro hwf _
  obtain ⟨w, e⟩ : ∃ w, w = cat [(1, 1), (19, 6), (d.toNat, 5), (a.toNat, 5), (imm.toNat, 15)] := ⟨_, rfl⟩
  have e2 : encodeNat (.ldhu d a imm) = w := by
    rw [e]; show 39 + d.toNat * 2 ^ 7 + a.toNat * 2 ^ 12 + imm.toNat * 2 ^ 17 = _; simp only [cat]; omega
  obtain ⟨hw, hp, f1_6, f7_5, f12_5, f17_15⟩ := parts2 (by decide) (by decide) d.isLt a.isLt imm.isLt e
  have h0 := ne_ones f1_6 (by decide)
  have dec : decodeWord w = .ok (.ldhu d a imm) := by
    rw [word_loadStore 19 f1_6 h0 (by decide)]; unfold decodeLoadStore; rw [regAt_of f7_5, regAt_of f12_5, ofNat_of f17_15]
    rfl
  unfold encode; rw [e2]; exact decodeBytes_word _ _ hw hp dec

theorem ldw (d : Reg) (a : Reg) (imm : BitVec 15) : Statement (.ldw d a imm) := by
  intro hwf _
  obtain ⟨w, e⟩ : ∃ w, w = cat [(1, 1), (20, 6), (d.toNat, 5), (a.toNat, 5), (imm.toNat, 15)] := ⟨_, rfl⟩
  have e2 : encodeNat (.ldw d a imm) = w := by
    rw [e]; show 41 + d.toNat * 2 ^ 7 + a.toNat * 2 ^ 12 + imm.toNat * 2 ^ 17 = _; simp only [cat]; omega
  obtain ⟨hw, hp, f1_6, f7_5, f12_5, f17_15⟩ := parts2 (by decide) (by decide) d.isLt a.isLt imm.isLt e
  have h0 := ne_ones f1_6 (by decide)
  have dec : decodeWord w = .ok (.ldw d a imm) := by
    rw [word_loadStore 20 f1_6 h0 (by decide)]; unfold decodeLoadStore; rw [regAt_of f7_5, regAt_of f12_5, ofNat_of f17_15]
    rfl
  unfold encode; rw [e2]; exact decodeBytes_word _ _ hw hp dec

theorem ldwu (d : Reg) (a : Reg) (imm : BitVec 15) : Statement (.ldwu d a imm) := by
  intro hwf _
  obtain ⟨w, e⟩ : ∃ w, w = cat [(1, 1), (21, 6), (d.toNat, 5), (a.toNat, 5), (imm.toNat, 15)] := ⟨_, rfl⟩
  have e2 : encodeNat (.ldwu d a imm) = w := by
    rw [e]; show 43 + d.toNat * 2 ^ 7 + a.toNat * 2 ^ 12 + imm.toNat * 2 ^ 17 = _; simp only [cat]; omega
  obtain ⟨hw, hp, f1_6, f7_5, f12_5, f17_15⟩ := parts2 (by decide) (by decide) d.isLt a.isLt imm.isLt e
  have h0 := ne_ones f1_6 (by decide)
  have dec : decodeWord w = .ok (.ldwu d a imm) := by
    rw [word_loadStore 21 f1_6 h0 (by decide)]; unfold decodeLoadStore; rw [regAt_of f7_5, regAt_of f12_5, ofNat_of f17_15]
    rfl
  unfold encode; rw [e2]; exact decodeBytes_word _ _ hw hp dec

theorem ldd (d : Reg) (a : Reg) (imm : BitVec 15) : Statement (.ldd d a imm) := by
  intro hwf _
  obtain ⟨w, e⟩ : ∃ w, w = cat [(1, 1), (22, 6), (d.toNat, 5), (a.toNat, 5), (imm.toNat, 15)] := ⟨_, rfl⟩
  have e2 : encodeNat (.ldd d a imm) = w := by
    rw [e]; show 45 + d.toNat * 2 ^ 7 + a.toNat * 2 ^ 12 + imm.toNat * 2 ^ 17 = _; simp only [cat]; omega
  obtain ⟨hw, hp, f1_6, f7_5, f12_5, f17_15⟩ := parts2 (by decide) (by decide) d.isLt a.isLt imm.isLt e
  have h0 := ne_ones f1_6 (by decide)
  have dec : decodeWord w = .ok (.ldd d a imm) := by
    rw [word_loadStore 22 f1_6 h0 (by decide)]; unfold decodeLoadStore; rw [regAt_of f7_5, regAt_of f12_5, ofNat_of f17_15]
    rfl
  unfold encode; rw [e2]; exact decodeBytes_word _ _ hw hp dec

theorem stb (s : Reg) (a : Reg) (imm : BitVec 15) : Statement (.stb s a imm) := by
  intro hwf _
  obtain ⟨w, e⟩ : ∃ w, w = cat [(1, 1), (23, 6), (s.toNat, 5), (a.toNat, 5), (imm.toNat, 15)] := ⟨_, rfl⟩
  have e2 : encodeNat (.stb s a imm) = w := by
    rw [e]; show 47 + s.toNat * 2 ^ 7 + a.toNat * 2 ^ 12 + imm.toNat * 2 ^ 17 = _; simp only [cat]; omega
  obtain ⟨hw, hp, f1_6, f7_5, f12_5, f17_15⟩ := parts2 (by decide) (by decide) s.isLt a.isLt imm.isLt e
  have h0 := ne_ones f1_6 (by decide)
  have dec : decodeWord w = .ok (.stb s a imm) := by
    rw [word_loadStore 23 f1_6 h0 (by decide)]; unfold decodeLoadStore; rw [regAt_of f7_5, regAt_of f12_5, ofNat_of f17_15]
    rfl
  unfold encode; rw [e2]; exact decodeBytes_word _ _ hw hp dec

theorem sth (s : Reg) (a : Reg) (imm : BitVec 15) : Statement (.sth s a imm) := by
  intro hwf _
  obtain ⟨w, e⟩ : ∃ w, w = cat [(1, 1), (24, 6), (s.toNat, 5), (a.toNat, 5), (imm.toNat, 15)] := ⟨_, rfl⟩
  have e2 : encodeNat (.sth s a imm) = w := by
    rw [e]; show 49 + s.toNat * 2 ^ 7 + a.toNat * 2 ^ 12 + imm.toNat * 2 ^ 17 = _; simp only [cat]; omega
  obtain ⟨hw, hp, f1_6, f7_5, f12_5, f17_15⟩ := parts2 (by decide) (by decide) s.isLt a.isLt imm.isLt e
  have h0 := ne_ones f1_6 (by decide)
  have dec : decodeWord w = .ok (.sth s a imm) := by
    rw [word_loadStore 24 f1_6 h0 (by decide)]; unfold decodeLoadStore; rw [regAt_of f7_5, regAt_of f12_5, ofNat_of f17_15]
    rfl
  unfold encode; rw [e2]; exact decodeBytes_word _ _ hw hp dec

theorem stw (s : Reg) (a : Reg) (imm : BitVec 15) : Statement (.stw s a imm) := by
  intro hwf _
  obtain ⟨w, e⟩ : ∃ w, w = cat [(1, 1), (25, 6), (s.toNat, 5), (a.toNat, 5), (imm.toNat, 15)] := ⟨_, rfl⟩
  have e2 : encodeNat (.stw s a imm) = w := by
    rw [e]; show 51 + s.toNat * 2 ^ 7 + a.toNat * 2 ^ 12 + imm.toNat * 2 ^ 17 = _; simp only [cat]; omega
  obtain ⟨hw, hp, f1_6, f7_5, f12_5, f17_15⟩ := parts2 (by decide) (by decide) s.isLt a.isLt imm.isLt e
  have h0 := ne_ones f1_6 (by decide)
  have dec : decodeWord w = .ok (.stw s a imm) := by
    rw [word_loadStore 25 f1_6 h0 (by decide)]; unfold decodeLoadStore; rw [regAt_of f7_5, regAt_of f12_5, ofNat_of f17_15]
    rfl
  unfold encode; rw [e2]; exact decodeBytes_word _ _ hw hp dec

theorem std (s : Reg) (a : Reg) (imm : BitVec 15) : Statement (.std s a imm) := by
  intro hwf _
  obtain ⟨w, e⟩ : ∃ w, w = cat [(1, 1), (26, 6), (s.toNat, 5), (a.toNat, 5), (imm.toNat, 15)] := ⟨_, rfl⟩
  have e2 : encodeNat (.std s a imm) = w := by
    rw [e]; show 53 + s.toNat * 2 ^ 7 + a.toNat * 2 ^ 12 + imm.toNat * 2 ^ 17 = _; simp only [cat]; omega
  obtain ⟨hw, hp, f1_6, f7_5, f12_5, f17_15⟩ := parts2 (by decide) (by decide) s.isLt a.isLt imm.isLt e
  have h0 := ne_ones f1_6 (by decide)
  have dec : decodeWord w = .ok (.std s a imm) := by
    rw [word_loadStore 26 f1_6 h0 (by decide)]; unfold decodeLoadStore; rw [regAt_of f7_5, regAt_of f12_5, ofNat_of f17_15]
    rfl
  unfold encode; rw [e2]; exact decodeBytes_word _ _ hw hp dec

theorem ldwNb (d : Reg) (a : Reg) (b : Reg) (off : BitVec 6) : Statement (.ldwNb d a b off) := by
  intro hwf _
  obtain ⟨w, e⟩ : ∃ w, w = cat [(1, 1), (27, 6), (d.toNat, 5), (a.toNat, 5), (b.toNat, 5), (off.toNat, 6), (0, 4)] := ⟨_, rfl⟩
  have e2 : encodeNat (.ldwNb d a b off) = w := by
    rw [e]; show 55 + d.toNat * 2 ^ 7 + a.toNat * 2 ^ 12 + b.toNat * 2 ^ 17 + off.toNat * 2 ^ 22 = _; simp only [cat]; omega
  obtain ⟨hw, hp, f1_6, f7_5, f12_5, f17_5, f22_6, f28_4⟩ := parts7 (by decide) (by decide) d.isLt a.isLt b.isLt off.isLt (by decide) e
  have h0 := ne_ones f1_6 (by decide)
  have dec : decodeWord w = .ok (.ldwNb d a b off) := by
    rw [word_memorySync 27 f1_6 h0 (by decide)]; unfold decodeMemorySync; rw [f28_4, regAt_of f7_5, regAt_of f12_5, regAt_of f17_5, ofNat_of f22_6]
    rfl
  unfold encode; rw [e2]; exact decodeBytes_word _ _ hw hp dec

theorem lddNb (d : Reg) (a : Reg) (b : Reg) (off : BitVec 6) : Statement (.lddNb d a b off) := by
  intro hwf _
  obtain ⟨w, e⟩ : ∃ w, w = cat [(1, 1), (27, 6), (d.toNat, 5), (a.toNat, 5), (b.toNat, 5), (off.toNat, 6), (1, 4)] := ⟨_, rfl⟩
  have e2 : encodeNat (.lddNb d a b off) = w := by
    rw [e]; show 268435511 + d.toNat * 2 ^ 7 + a.toNat * 2 ^ 12 + b.toNat * 2 ^ 17 + off.toNat * 2 ^ 22 = _; simp only [cat]; omega
  obtain ⟨hw, hp, f1_6, f7_5, f12_5, f17_5, f22_6, f28_4⟩ := parts7 (by decide) (by decide) d.isLt a.isLt b.isLt off.isLt (by decide) e
  have h0 := ne_ones f1_6 (by decide)
  have dec : decodeWord w = .ok (.lddNb d a b off) := by
    rw [word_memorySync 27 f1_6 h0 (by decide)]; unfold decodeMemorySync; rw [f28_4, regAt_of f7_5, regAt_of f12_5, regAt_of f17_5, ofNat_of f22_6]
    rfl
  unfold encode; rw [e2]; exact decodeBytes_word _ _ hw hp dec

theorem stwNb (d : Reg) (a : Reg) (b : Reg) (off : BitVec 6) : Statement (.stwNb d a b off) := by
  intro hwf _
  obtain ⟨w, e⟩ : ∃ w, w = cat [(1, 1), (27, 6), (d.toNat, 5), (a.toNat, 5), (b.toNat, 5), (off.toNat, 6), (2, 4)] := ⟨_, rfl⟩
  have e2 : encodeNat (.stwNb d a b off) = w := by
    rw [e]; show 536870967 + d.toNat * 2 ^ 7 + a.toNat * 2 ^ 12 + b.toNat * 2 ^ 17 + off.toNat * 2 ^ 22 = _; simp only [cat]; omega
  obtain ⟨hw, hp, f1_6, f7_5, f12_5, f17_5, f22_6, f28_4⟩ := parts7 (by decide) (by decide) d.isLt a.isLt b.isLt off.isLt (by decide) e
  have h0 := ne_ones f1_6 (by decide)
  have dec : decodeWord w = .ok (.stwNb d a b off) := by
    rw [word_memorySync 27 f1_6 h0 (by decide)]; unfold decodeMemorySync; rw [f28_4, regAt_of f7_5, regAt_of f12_5, regAt_of f17_5, ofNat_of f22_6]
    rfl
  unfold encode; rw [e2]; exact decodeBytes_word _ _ hw hp dec

theorem stdNb (d : Reg) (a : Reg) (b : Reg) (off : BitVec 6) : Statement (.stdNb d a b off) := by
  intro hwf _
  obtain ⟨w, e⟩ : ∃ w, w = cat [(1, 1), (27, 6), (d.toNat, 5), (a.toNat, 5), (b.toNat, 5), (off.toNat, 6), (3, 4)] := ⟨_, rfl⟩
  have e2 : encodeNat (.stdNb d a b off) = w := by
    rw [e]; show 805306423 + d.toNat * 2 ^ 7 + a.toNat * 2 ^ 12 + b.toNat * 2 ^ 17 + off.toNat * 2 ^ 22 = _; simp only [cat]; omega
  obtain ⟨hw, hp, f1_6, f7_5, f12_5, f17_5, f22_6, f28_4⟩ := parts7 (by decide) (by decide) d.isLt a.isLt b.isLt off.isLt (by decide) e
  have h0 := ne_ones f1_6 (by decide)
  have dec : decodeWord w = .ok (.stdNb d a b off) := by
    rw [word_memorySync 27 f1_6 h0 (by decide)]; unfold decodeMemorySync; rw [f28_4, regAt_of f7_5, regAt_of f12_5, regAt_of f17_5, ofNat_of f22_6]
    rfl
  unfold encode; rw [e2]; exact decodeBytes_word _ _ hw hp dec

theorem ldfe (d : Reg) (a : Reg) (b : Reg) (off : BitVec 6) : Statement (.ldfe d a b off) := by
  intro hwf _
  obtain ⟨w, e⟩ : ∃ w, w = cat [(1, 1), (28, 6), (d.toNat, 5), (a.toNat, 5), (b.toNat, 5), (off.toNat, 6), (0, 4)] := ⟨_, rfl⟩
  have e2 : encodeNat (.ldfe d a b off) = w := by
    rw [e]; show 57 + d.toNat * 2 ^ 7 + a.toNat * 2 ^ 12 + b.toNat * 2 ^ 17 + off.toNat * 2 ^ 22 = _; simp only [cat]; omega
  obtain ⟨hw, hp, f1_6, f7_5, f12_5, f17_5, f22_6, f28_4⟩ := parts7 (by decide) (by decide) d.isLt a.isLt b.isLt off.isLt (by decide) e
  have h0 := ne_ones f1_6 (by decide)
  have dec : decodeWord w = .ok (.ldfe d a b off) := by
    rw [word_memorySync 28 f1_6 h0 (by decide)]; unfold decodeMemorySync; rw [f28_4, regAt_of f7_5, regAt_of f12_5, regAt_of f17_5, ofNat_of f22_6]
    rfl
  unfold encode; rw [e2]; exact decodeBytes_word _ _ hw hp dec

theorem ldff (d : Reg) (a : Reg) (b : Reg) (off : BitVec 6) : Statement (.ldff d a b off) := by
  intro hwf _
  obtain ⟨w, e⟩ : ∃ w, w = cat [(1, 1), (28, 6), (d.toNat, 5), (a.toNat, 5), (b.toNat, 5), (off.toNat, 6), (1, 4)] := ⟨_, rfl⟩
  have e2 : encodeNat (.ldff d a b off) = w := by
    rw [e]; show 268435513 + d.toNat * 2 ^ 7 + a.toNat * 2 ^ 12 + b.toNat * 2 ^ 17 + off.toNat * 2 ^ 22 = _; simp only [cat]; omega
  obtain ⟨hw, hp, f1_6, f7_5, f12_5, f17_5, f22_6, f28_4⟩ := parts7 (by decide) (by decide) d.isLt a.isLt b.isLt off.isLt (by decide) e
  have h0 := ne_ones f1_6 (by decide)
  have dec : decodeWord w = .ok (.ldff d a b off) := by
    rw [word_memorySync 28 f1_6 h0 (by decide)]; unfold decodeMemorySync; rw [f28_4, regAt_of f7_5, regAt_of f12_5, regAt_of f17_5, ofNat_of f22_6]
    rfl
  unfold encode; rw [e2]; exact decodeBytes_word _ _ hw hp dec

theorem stfe (d : Reg) (a : Reg) (b : Reg) (off : BitVec 6) : Statement (.stfe d a b off) := by
  intro hwf _
  obtain ⟨w, e⟩ : ∃ w, w = cat [(1, 1), (28, 6), (d.toNat, 5), (a.toNat, 5), (b.toNat, 5), (off.toNat, 6), (2, 4)] := ⟨_, rfl⟩
  have e2 : encodeNat (.stfe d a b off) = w := by
    rw [e]; show 536870969 + d.toNat * 2 ^ 7 + a.toNat * 2 ^ 12 + b.toNat * 2 ^ 17 + off.toNat * 2 ^ 22 = _; simp only [cat]; omega
  obtain ⟨hw, hp, f1_6, f7_5, f12_5, f17_5, f22_6, f28_4⟩ := parts7 (by decide) (by decide) d.isLt a.isLt b.isLt off.isLt (by decide) e
  have h0 := ne_ones f1_6 (by decide)
  have dec : decodeWord w = .ok (.stfe d a b off) := by
    rw [word_memorySync 28 f1_6 h0 (by decide)]; unfold decodeMemorySync; rw [f28_4, regAt_of f7_5, regAt_of f12_5, regAt_of f17_5, ofNat_of f22_6]
    rfl
  unfold encode; rw [e2]; exact decodeBytes_word _ _ hw hp dec

theorem stff (d : Reg) (a : Reg) (b : Reg) (off : BitVec 6) : Statement (.stff d a b off) := by
  intro hwf _
  obtain ⟨w, e⟩ : ∃ w, w = cat [(1, 1), (28, 6), (d.toNat, 5), (a.toNat, 5), (b.toNat, 5), (off.toNat, 6), (3, 4)] := ⟨_, rfl⟩
  have e2 : encodeNat (.stff d a b off) = w := by
    rw [e]; show 805306425 + d.toNat * 2 ^ 7 + a.toNat * 2 ^ 12 + b.toNat * 2 ^ 17 + off.toNat * 2 ^ 22 = _; simp only [cat]; omega
  obtain ⟨hw, hp, f1_6, f7_5, f12_5, f17_5, f22_6, f28_4⟩ := parts7 (by decide) (by decide) d.isLt a.isLt b.isLt off.isLt (by decide) e
  have h0 := ne_ones f1_6 (by decide)
  have dec : decodeWord w = .ok (.stff d a b off) := by
    rw [word_memorySync 28 f1_6 h0 (by decide)]; unfold decodeMemorySync; rw [f28_4, regAt_of f7_5, regAt_of f12_5, regAt_of f17_5, ofNat_of f22_6]
    rfl
  unfold encode; rw [e2]; exact decodeBytes_word _ _ hw hp dec

theorem feclr (a : Reg) (b : Reg) (off : BitVec 6) : Statement (.feclr a b off) := by
  intro hwf _
  obtain ⟨w, e⟩ : ∃ w, w = cat [(1, 1), (28, 6), (0, 5), (a.toNat, 5), (b.toNat, 5), (off.toNat, 6), (4, 4)] := ⟨_, rfl⟩
  have e2 : encodeNat (.feclr a b off) = w := by
    rw [e]; show 1073741881 + a.toNat * 2 ^ 12 + b.toNat * 2 ^ 17 + off.toNat * 2 ^ 22 = _; simp only [cat]; omega
  obtain ⟨hw, hp, f1_6, f7_5, f12_5, f17_5, f22_6, f28_4⟩ := parts7 (by decide) (by decide) (by decide) a.isLt b.isLt off.isLt (by decide) e
  have h0 := ne_ones f1_6 (by decide)
  have dec : decodeWord w = .ok (.feclr a b off) := by
    rw [word_memorySync 28 f1_6 h0 (by decide)]; unfold decodeMemorySync; rw [f28_4, regAt_of f12_5, regAt_of f17_5, ofNat_of f22_6, f7_5]
    rfl
  unfold encode; rw [e2]; exact decodeBytes_word _ _ hw hp dec

theorem feset (a : Reg) (b : Reg) (off : BitVec 6) : Statement (.feset a b off) := by
  intro hwf _
  obtain ⟨w, e⟩ : ∃ w, w = cat [(1, 1), (28, 6), (0, 5), (a.toNat, 5), (b.toNat, 5), (off.toNat, 6), (5, 4)] := ⟨_, rfl⟩
  have e2 : encodeNat (.feset a b off) = w := by
    rw [e]; show 1342177337 + a.toNat * 2 ^ 12 + b.toNat * 2 ^ 17 + off.toNat * 2 ^ 22 = _; simp only [cat]; omega
  obtain ⟨hw, hp, f1_6, f7_5, f12_5, f17_5, f22_6, f28_4⟩ := parts7 (by decide) (by decide) (by decide) a.isLt b.isLt off.isLt (by decide) e
  have h0 := ne_ones f1_6 (by decide)
  have dec : decodeWord w = .ok (.feset a b off) := by
    rw [word_memorySync 28 f1_6 h0 (by decide)]; unfold decodeMemorySync; rw [f28_4, regAt_of f12_5, regAt_of f17_5, ofNat_of f22_6, f7_5]
    rfl
  unfold encode; rw [e2]; exact decodeBytes_word _ _ hw hp dec

theorem fetst (d : Reg) (a : Reg) (b : Reg) (off : BitVec 6) : Statement (.fetst d a b off) := by
  intro hwf _
  obtain ⟨w, e⟩ : ∃ w, w = cat [(1, 1), (28, 6), (d.toNat, 5), (a.toNat, 5), (b.toNat, 5), (off.toNat, 6), (6, 4)] := ⟨_, rfl⟩
  have e2 : encodeNat (.fetst d a b off) = w := by
    rw [e]; show 1610612793 + d.toNat * 2 ^ 7 + a.toNat * 2 ^ 12 + b.toNat * 2 ^ 17 + off.toNat * 2 ^ 22 = _; simp only [cat]; omega
  obtain ⟨hw, hp, f1_6, f7_5, f12_5, f17_5, f22_6, f28_4⟩ := parts7 (by decide) (by decide) d.isLt a.isLt b.isLt off.isLt (by decide) e
  have h0 := ne_ones f1_6 (by decide)
  have dec : decodeWord w = .ok (.fetst d a b off) := by
    rw [word_memorySync 28 f1_6 h0 (by decide)]; unfold decodeMemorySync; rw [f28_4, regAt_of f7_5, regAt_of f12_5, regAt_of f17_5, ofNat_of f22_6]
    rfl
  unfold encode; rw [e2]; exact decodeBytes_word _ _ hw hp dec

theorem psm (d : Reg) (a : Reg) (b : Reg) : Statement (.psm d a b) := by
  intro hwf _
  obtain ⟨w, e⟩ : ∃ w, w = cat [(1, 1), (29, 6), (d.toNat, 5), (a.toNat, 5), (b.toNat, 5), (0, 10)] := ⟨_, rfl⟩
  have e2 : encodeNat (.psm d a b) = w := by
    rw [e]; show 59 + d.toNat * 2 ^ 7 + a.toNat * 2 ^ 12 + b.toNat * 2 ^ 17 = _; simp only [cat]; omega
  obtain ⟨hw, hp, f1_6, f7_5, f12_5, f17_5, f22_10⟩ := parts0 (by decide) (by decide) d.isLt a.isLt b.isLt (by decide) e
  have h0 := ne_ones f1_6 (by decide)
  have dec : decodeWord w = .ok (.psm d a b) := by
    rw [word_memorySync 29 f1_6 h0 (by decide)]; unfold decodeMemorySync; rw [f22_10, regAt_of f7_5, regAt_of f12_5, regAt_of f17_5]
    rfl
  unfold encode; rw [e2]; exact decodeBytes_word _ _ hw hp dec

theorem amoadd (d : Reg) (a : Reg) (b : Reg) : Statement (.amoadd d a b) := by
  intro hwf _
  obtain ⟨w, e⟩ : ∃ w, w = cat [(1, 1), (29, 6), (d.toNat, 5), (a.toNat, 5), (b.toNat, 5), (1, 10)] := ⟨_, rfl⟩
  have e2 : encodeNat (.amoadd d a b) = w := by
    rw [e]; show 4194363 + d.toNat * 2 ^ 7 + a.toNat * 2 ^ 12 + b.toNat * 2 ^ 17 = _; simp only [cat]; omega
  obtain ⟨hw, hp, f1_6, f7_5, f12_5, f17_5, f22_10⟩ := parts0 (by decide) (by decide) d.isLt a.isLt b.isLt (by decide) e
  have h0 := ne_ones f1_6 (by decide)
  have dec : decodeWord w = .ok (.amoadd d a b) := by
    rw [word_memorySync 29 f1_6 h0 (by decide)]; unfold decodeMemorySync; rw [f22_10, regAt_of f7_5, regAt_of f12_5, regAt_of f17_5]
    rfl
  unfold encode; rw [e2]; exact decodeBytes_word _ _ hw hp dec

theorem amoswap (d : Reg) (a : Reg) (b : Reg) : Statement (.amoswap d a b) := by
  intro hwf _
  obtain ⟨w, e⟩ : ∃ w, w = cat [(1, 1), (29, 6), (d.toNat, 5), (a.toNat, 5), (b.toNat, 5), (2, 10)] := ⟨_, rfl⟩
  have e2 : encodeNat (.amoswap d a b) = w := by
    rw [e]; show 8388667 + d.toNat * 2 ^ 7 + a.toNat * 2 ^ 12 + b.toNat * 2 ^ 17 = _; simp only [cat]; omega
  obtain ⟨hw, hp, f1_6, f7_5, f12_5, f17_5, f22_10⟩ := parts0 (by decide) (by decide) d.isLt a.isLt b.isLt (by decide) e
  have h0 := ne_ones f1_6 (by decide)
  have dec : decodeWord w = .ok (.amoswap d a b) := by
    rw [word_memorySync 29 f1_6 h0 (by decide)]; unfold decodeMemorySync; rw [f22_10, regAt_of f7_5, regAt_of f12_5, regAt_of f17_5]
    rfl
  unfold encode; rw [e2]; exact decodeBytes_word _ _ hw hp dec

theorem amocas (d : Reg) (a : Reg) (b : Reg) : Statement (.amocas d a b) := by
  intro hwf _
  obtain ⟨w, e⟩ : ∃ w, w = cat [(1, 1), (29, 6), (d.toNat, 5), (a.toNat, 5), (b.toNat, 5), (3, 10)] := ⟨_, rfl⟩
  have e2 : encodeNat (.amocas d a b) = w := by
    rw [e]; show 12582971 + d.toNat * 2 ^ 7 + a.toNat * 2 ^ 12 + b.toNat * 2 ^ 17 = _; simp only [cat]; omega
  obtain ⟨hw, hp, f1_6, f7_5, f12_5, f17_5, f22_10⟩ := parts0 (by decide) (by decide) d.isLt a.isLt b.isLt (by decide) e
  have h0 := ne_ones f1_6 (by decide)
  have dec : decodeWord w = .ok (.amocas d a b) := by
    rw [word_memorySync 29 f1_6 h0 (by decide)]; unfold decodeMemorySync; rw [f22_10, regAt_of f7_5, regAt_of f12_5, regAt_of f17_5]
    rfl
  unfold encode; rw [e2]; exact decodeBytes_word _ _ hw hp dec

theorem amomin (d : Reg) (a : Reg) (b : Reg) : Statement (.amomin d a b) := by
  intro hwf _
  obtain ⟨w, e⟩ : ∃ w, w = cat [(1, 1), (29, 6), (d.toNat, 5), (a.toNat, 5), (b.toNat, 5), (4, 10)] := ⟨_, rfl⟩
  have e2 : encodeNat (.amomin d a b) = w := by
    rw [e]; show 16777275 + d.toNat * 2 ^ 7 + a.toNat * 2 ^ 12 + b.toNat * 2 ^ 17 = _; simp only [cat]; omega
  obtain ⟨hw, hp, f1_6, f7_5, f12_5, f17_5, f22_10⟩ := parts0 (by decide) (by decide) d.isLt a.isLt b.isLt (by decide) e
  have h0 := ne_ones f1_6 (by decide)
  have dec : decodeWord w = .ok (.amomin d a b) := by
    rw [word_memorySync 29 f1_6 h0 (by decide)]; unfold decodeMemorySync; rw [f22_10, regAt_of f7_5, regAt_of f12_5, regAt_of f17_5]
    rfl
  unfold encode; rw [e2]; exact decodeBytes_word _ _ hw hp dec

theorem amomax (d : Reg) (a : Reg) (b : Reg) : Statement (.amomax d a b) := by
  intro hwf _
  obtain ⟨w, e⟩ : ∃ w, w = cat [(1, 1), (29, 6), (d.toNat, 5), (a.toNat, 5), (b.toNat, 5), (5, 10)] := ⟨_, rfl⟩
  have e2 : encodeNat (.amomax d a b) = w := by
    rw [e]; show 20971579 + d.toNat * 2 ^ 7 + a.toNat * 2 ^ 12 + b.toNat * 2 ^ 17 = _; simp only [cat]; omega
  obtain ⟨hw, hp, f1_6, f7_5, f12_5, f17_5, f22_10⟩ := parts0 (by decide) (by decide) d.isLt a.isLt b.isLt (by decide) e
  have h0 := ne_ones f1_6 (by decide)
  have dec : decodeWord w = .ok (.amomax d a b) := by
    rw [word_memorySync 29 f1_6 h0 (by decide)]; unfold decodeMemorySync; rw [f22_10, regAt_of f7_5, regAt_of f12_5, regAt_of f17_5]
    rfl
  unfold encode; rw [e2]; exact decodeBytes_word _ _ hw hp dec

theorem amominu (d : Reg) (a : Reg) (b : Reg) : Statement (.amominu d a b) := by
  intro hwf _
  obtain ⟨w, e⟩ : ∃ w, w = cat [(1, 1), (29, 6), (d.toNat, 5), (a.toNat, 5), (b.toNat, 5), (6, 10)] := ⟨_, rfl⟩
  have e2 : encodeNat (.amominu d a b) = w := by
    rw [e]; show 25165883 + d.toNat * 2 ^ 7 + a.toNat * 2 ^ 12 + b.toNat * 2 ^ 17 = _; simp only [cat]; omega
  obtain ⟨hw, hp, f1_6, f7_5, f12_5, f17_5, f22_10⟩ := parts0 (by decide) (by decide) d.isLt a.isLt b.isLt (by decide) e
  have h0 := ne_ones f1_6 (by decide)
  have dec : decodeWord w = .ok (.amominu d a b) := by
    rw [word_memorySync 29 f1_6 h0 (by decide)]; unfold decodeMemorySync; rw [f22_10, regAt_of f7_5, regAt_of f12_5, regAt_of f17_5]
    rfl
  unfold encode; rw [e2]; exact decodeBytes_word _ _ hw hp dec

theorem amomaxu (d : Reg) (a : Reg) (b : Reg) : Statement (.amomaxu d a b) := by
  intro hwf _
  obtain ⟨w, e⟩ : ∃ w, w = cat [(1, 1), (29, 6), (d.toNat, 5), (a.toNat, 5), (b.toNat, 5), (7, 10)] := ⟨_, rfl⟩
  have e2 : encodeNat (.amomaxu d a b) = w := by
    rw [e]; show 29360187 + d.toNat * 2 ^ 7 + a.toNat * 2 ^ 12 + b.toNat * 2 ^ 17 = _; simp only [cat]; omega
  obtain ⟨hw, hp, f1_6, f7_5, f12_5, f17_5, f22_10⟩ := parts0 (by decide) (by decide) d.isLt a.isLt b.isLt (by decide) e
  have h0 := ne_ones f1_6 (by decide)
  have dec : decodeWord w = .ok (.amomaxu d a b) := by
    rw [word_memorySync 29 f1_6 h0 (by decide)]; unfold decodeMemorySync; rw [f22_10, regAt_of f7_5, regAt_of f12_5, regAt_of f17_5]
    rfl
  unfold encode; rw [e2]; exact decodeBytes_word _ _ hw hp dec

theorem amoand (d : Reg) (a : Reg) (b : Reg) : Statement (.amoand d a b) := by
  intro hwf _
  obtain ⟨w, e⟩ : ∃ w, w = cat [(1, 1), (29, 6), (d.toNat, 5), (a.toNat, 5), (b.toNat, 5), (8, 10)] := ⟨_, rfl⟩
  have e2 : encodeNat (.amoand d a b) = w := by
    rw [e]; show 33554491 + d.toNat * 2 ^ 7 + a.toNat * 2 ^ 12 + b.toNat * 2 ^ 17 = _; simp only [cat]; omega
  obtain ⟨hw, hp, f1_6, f7_5, f12_5, f17_5, f22_10⟩ := parts0 (by decide) (by decide) d.isLt a.isLt b.isLt (by decide) e
  have h0 := ne_ones f1_6 (by decide)
  have dec : decodeWord w = .ok (.amoand d a b) := by
    rw [word_memorySync 29 f1_6 h0 (by decide)]; unfold decodeMemorySync; rw [f22_10, regAt_of f7_5, regAt_of f12_5, regAt_of f17_5]
    rfl
  unfold encode; rw [e2]; exact decodeBytes_word _ _ hw hp dec

theorem amoor (d : Reg) (a : Reg) (b : Reg) : Statement (.amoor d a b) := by
  intro hwf _
  obtain ⟨w, e⟩ : ∃ w, w = cat [(1, 1), (29, 6), (d.toNat, 5), (a.toNat, 5), (b.toNat, 5), (9, 10)] := ⟨_, rfl⟩
  have e2 : encodeNat (.amoor d a b) = w := by
    rw [e]; show 37748795 + d.toNat * 2 ^ 7 + a.toNat * 2 ^ 12 + b.toNat * 2 ^ 17 = _; simp only [cat]; omega
  obtain ⟨hw, hp, f1_6, f7_5, f12_5, f17_5, f22_10⟩ := parts0 (by decide) (by decide) d.isLt a.isLt b.isLt (by decide) e
  have h0 := ne_ones f1_6 (by decide)
  have dec : decodeWord w = .ok (.amoor d a b) := by
    rw [word_memorySync 29 f1_6 h0 (by decide)]; unfold decodeMemorySync; rw [f22_10, regAt_of f7_5, regAt_of f12_5, regAt_of f17_5]
    rfl
  unfold encode; rw [e2]; exact decodeBytes_word _ _ hw hp dec

theorem amoxor (d : Reg) (a : Reg) (b : Reg) : Statement (.amoxor d a b) := by
  intro hwf _
  obtain ⟨w, e⟩ : ∃ w, w = cat [(1, 1), (29, 6), (d.toNat, 5), (a.toNat, 5), (b.toNat, 5), (10, 10)] := ⟨_, rfl⟩
  have e2 : encodeNat (.amoxor d a b) = w := by
    rw [e]; show 41943099 + d.toNat * 2 ^ 7 + a.toNat * 2 ^ 12 + b.toNat * 2 ^ 17 = _; simp only [cat]; omega
  obtain ⟨hw, hp, f1_6, f7_5, f12_5, f17_5, f22_10⟩ := parts0 (by decide) (by decide) d.isLt a.isLt b.isLt (by decide) e
  have h0 := ne_ones f1_6 (by decide)
  have dec : decodeWord w = .ok (.amoxor d a b) := by
    rw [word_memorySync 29 f1_6 h0 (by decide)]; unfold decodeMemorySync; rw [f22_10, regAt_of f7_5, regAt_of f12_5, regAt_of f17_5]
    rfl
  unfold encode; rw [e2]; exact decodeBytes_word _ _ hw hp dec

theorem amofadd (d : Reg) (a : Reg) (b : Reg) : Statement (.amofadd d a b) := by
  intro hwf _
  obtain ⟨w, e⟩ : ∃ w, w = cat [(1, 1), (29, 6), (d.toNat, 5), (a.toNat, 5), (b.toNat, 5), (11, 10)] := ⟨_, rfl⟩
  have e2 : encodeNat (.amofadd d a b) = w := by
    rw [e]; show 46137403 + d.toNat * 2 ^ 7 + a.toNat * 2 ^ 12 + b.toNat * 2 ^ 17 = _; simp only [cat]; omega
  obtain ⟨hw, hp, f1_6, f7_5, f12_5, f17_5, f22_10⟩ := parts0 (by decide) (by decide) d.isLt a.isLt b.isLt (by decide) e
  have h0 := ne_ones f1_6 (by decide)
  have dec : decodeWord w = .ok (.amofadd d a b) := by
    rw [word_memorySync 29 f1_6 h0 (by decide)]; unfold decodeMemorySync; rw [f22_10, regAt_of f7_5, regAt_of f12_5, regAt_of f17_5]
    rfl
  unfold encode; rw [e2]; exact decodeBytes_word _ _ hw hp dec

theorem waitc (nl : BitVec 5) (ns : BitVec 5) (nc : BitVec 5) (nt : BitVec 5) : Statement (.waitc nl ns nc nt) := by
  intro hwf _
  obtain ⟨w, e⟩ : ∃ w, w = cat [(1, 1), (30, 6), (0, 5), (nt.toNat, 5), (nc.toNat, 5), (ns.toNat, 5), (nl.toNat, 5)] := ⟨_, rfl⟩
  have e2 : encodeNat (.waitc nl ns nc nt) = w := by
    rw [e]; show 61 + nl.toNat * 2 ^ 27 + ns.toNat * 2 ^ 22 + nc.toNat * 2 ^ 17 + nt.toNat * 2 ^ 12 = _; simp only [cat]; omega
  obtain ⟨hw, hp, f1_6, f7_5, f12_5, f17_5, f22_5, f27_5⟩ := parts8 (by decide) (by decide) (by decide) nt.isLt nc.isLt ns.isLt nl.isLt e
  have h0 := ne_ones f1_6 (by decide)
  have dec : decodeWord w = .ok (.waitc nl ns nc nt) := by
    rw [word_memorySync 30 f1_6 h0 (by decide)]; unfold decodeMemorySync; rw [f7_5, regAt_of f27_5, regAt_of f22_5, regAt_of f17_5, regAt_of f12_5]
    rfl
  unfold encode; rw [e2]; exact decodeBytes_word _ _ hw hp dec

theorem fence : Statement (.fence) := by
  intro hwf _
  obtain ⟨w, e⟩ : ∃ w, w = cat [(1, 1), (30, 6), (1, 5), (0, 20)] := ⟨_, rfl⟩
  have e2 : encodeNat (.fence) = w := by
    rw [e]; show 189 = _; simp only [cat]; omega
  obtain ⟨hw, hp, f1_6, f7_5, f12_20⟩ := parts4 (by decide) (by decide) (by decide) (by decide) e
  have h0 := ne_ones f1_6 (by decide)
  have dec : decodeWord w = .ok (.fence) := by
    rw [word_memorySync 30 f1_6 h0 (by decide)]; unfold decodeMemorySync; rw [f7_5, f12_20]
    rfl
  unfold encode; rw [e2]; exact decodeBytes_word _ _ hw hp dec

theorem mwaitEq (a : Reg) (b : Reg) : Statement (.mwaitEq a b) := by
  intro hwf _
  obtain ⟨w, e⟩ : ∃ w, w = cat [(1, 1), (30, 6), (2, 5), (a.toNat, 5), (b.toNat, 5), (0, 10)] := ⟨_, rfl⟩
  have e2 : encodeNat (.mwaitEq a b) = w := by
    rw [e]; show 317 + a.toNat * 2 ^ 12 + b.toNat * 2 ^ 17 = _; simp only [cat]; omega
  obtain ⟨hw, hp, f1_6, f7_5, f12_5, f17_5, f22_10⟩ := parts0 (by decide) (by decide) (by decide) a.isLt b.isLt (by decide) e
  have h0 := ne_ones f1_6 (by decide)
  have dec : decodeWord w = .ok (.mwaitEq a b) := by
    rw [word_memorySync 30 f1_6 h0 (by decide)]; unfold decodeMemorySync; rw [f7_5, regAt_of f12_5, regAt_of f17_5, f22_10]
    rfl
  unfold encode; rw [e2]; exact decodeBytes_word _ _ hw hp dec

theorem mwaitGe (a : Reg) (b : Reg) : Statement (.mwaitGe a b) := by
  intro hwf _
  obtain ⟨w, e⟩ : ∃ w, w = cat [(1, 1), (30, 6), (3, 5), (a.toNat, 5), (b.toNat, 5), (0, 10)] := ⟨_, rfl⟩
  have e2 : encodeNat (.mwaitGe a b) = w := by
    rw [e]; show 445 + a.toNat * 2 ^ 12 + b.toNat * 2 ^ 17 = _; simp only [cat]; omega
  obtain ⟨hw, hp, f1_6, f7_5, f12_5, f17_5, f22_10⟩ := parts0 (by decide) (by decide) (by decide) a.isLt b.isLt (by decide) e
  have h0 := ne_ones f1_6 (by decide)
  have dec : decodeWord w = .ok (.mwaitGe a b) := by
    rw [word_memorySync 30 f1_6 h0 (by decide)]; unfold decodeMemorySync; rw [f7_5, regAt_of f12_5, regAt_of f17_5, f22_10]
    rfl
  unfold encode; rw [e2]; exact decodeBytes_word _ _ hw hp dec

theorem mwaitNe (a : Reg) (b : Reg) : Statement (.mwaitNe a b) := by
  intro hwf _
  obtain ⟨w, e⟩ : ∃ w, w = cat [(1, 1), (30, 6), (4, 5), (a.toNat, 5), (b.toNat, 5), (0, 10)] := ⟨_, rfl⟩
  have e2 : encodeNat (.mwaitNe a b) = w := by
    rw [e]; show 573 + a.toNat * 2 ^ 12 + b.toNat * 2 ^ 17 = _; simp only [cat]; omega
  obtain ⟨hw, hp, f1_6, f7_5, f12_5, f17_5, f22_10⟩ := parts0 (by decide) (by decide) (by decide) a.isLt b.isLt (by decide) e
  have h0 := ne_ones f1_6 (by decide)
  have dec : decodeWord w = .ok (.mwaitNe a b) := by
    rw [word_memorySync 30 f1_6 h0 (by decide)]; unfold decodeMemorySync; rw [f7_5, regAt_of f12_5, regAt_of f17_5, f22_10]
    rfl
  unfold encode; rw [e2]; exact decodeBytes_word _ _ hw hp dec

theorem sleep (a : Reg) : Statement (.sleep a) := by
  intro hwf _
  obtain ⟨w, e⟩ : ∃ w, w = cat [(1, 1), (30, 6), (5, 5), (a.toNat, 5), (0, 15)] := ⟨_, rfl⟩
  have e2 : encodeNat (.sleep a) = w := by
    rw [e]; show 701 + a.toNat * 2 ^ 12 = _; simp only [cat]; omega
  obtain ⟨hw, hp, f1_6, f7_5, f12_5, f17_15⟩ := parts2 (by decide) (by decide) (by decide) a.isLt (by decide) e
  have h0 := ne_ones f1_6 (by decide)
  have dec : decodeWord w = .ok (.sleep a) := by
    rw [word_memorySync 30 f1_6 h0 (by decide)]; unfold decodeMemorySync; rw [f7_5, regAt_of f12_5, f17_15]
    rfl
  unfold encode; rw [e2]; exact decodeBytes_word _ _ hw hp dec

theorem beq (a : Reg) (b : Reg) (off : BitVec 15) : Statement (.beq a b off) := by
  intro hwf _
  obtain ⟨w, e⟩ : ∃ w, w = cat [(1, 1), (32, 6), (a.toNat, 5), (b.toNat, 5), (off.toNat, 15)] := ⟨_, rfl⟩
  have e2 : encodeNat (.beq a b off) = w := by
    rw [e]; show 65 + a.toNat * 2 ^ 7 + b.toNat * 2 ^ 12 + off.toNat * 2 ^ 17 = _; simp only [cat]; omega
  obtain ⟨hw, hp, f1_6, f7_5, f12_5, f17_15⟩ := parts2 (by decide) (by decide) a.isLt b.isLt off.isLt e
  have h0 := ne_ones f1_6 (by decide)
  have dec : decodeWord w = .ok (.beq a b off) := by
    rw [word_control 32 f1_6 h0 (by decide)]; unfold decodeControl; rw [regAt_of f7_5, regAt_of f12_5, ofNat_of f17_15]
    rfl
  unfold encode; rw [e2]; exact decodeBytes_word _ _ hw hp dec

theorem bne (a : Reg) (b : Reg) (off : BitVec 15) : Statement (.bne a b off) := by
  intro hwf _
  obtain ⟨w, e⟩ : ∃ w, w = cat [(1, 1), (33, 6), (a.toNat, 5), (b.toNat, 5), (off.toNat, 15)] := ⟨_, rfl⟩
  have e2 : encodeNat (.bne a b off) = w := by
    rw [e]; show 67 + a.toNat * 2 ^ 7 + b.toNat * 2 ^ 12 + off.toNat * 2 ^ 17 = _; simp only [cat]; omega
  obtain ⟨hw, hp, f1_6, f7_5, f12_5, f17_15⟩ := parts2 (by decide) (by decide) a.isLt b.isLt off.isLt e
  have h0 := ne_ones f1_6 (by decide)
  have dec : decodeWord w = .ok (.bne a b off) := by
    rw [word_control 33 f1_6 h0 (by decide)]; unfold decodeControl; rw [regAt_of f7_5, regAt_of f12_5, ofNat_of f17_15]
    rfl
  unfold encode; rw [e2]; exact decodeBytes_word _ _ hw hp dec

theorem blt (a : Reg) (b : Reg) (off : BitVec 15) : Statement (.blt a b off) := by
  intro hwf _
  obtain ⟨w, e⟩ : ∃ w, w = cat [(1, 1), (34, 6), (a.toNat, 5), (b.toNat, 5), (off.toNat, 15)] := ⟨_, rfl⟩
  have e2 : encodeNat (.blt a b off) = w := by
    rw [e]; show 69 + a.toNat * 2 ^ 7 + b.toNat * 2 ^ 12 + off.toNat * 2 ^ 17 = _; simp only [cat]; omega
  obtain ⟨hw, hp, f1_6, f7_5, f12_5, f17_15⟩ := parts2 (by decide) (by decide) a.isLt b.isLt off.isLt e
  have h0 := ne_ones f1_6 (by decide)
  have dec : decodeWord w = .ok (.blt a b off) := by
    rw [word_control 34 f1_6 h0 (by decide)]; unfold decodeControl; rw [regAt_of f7_5, regAt_of f12_5, ofNat_of f17_15]
    rfl
  unfold encode; rw [e2]; exact decodeBytes_word _ _ hw hp dec

theorem bge (a : Reg) (b : Reg) (off : BitVec 15) : Statement (.bge a b off) := by
  intro hwf _
  obtain ⟨w, e⟩ : ∃ w, w = cat [(1, 1), (35, 6), (a.toNat, 5), (b.toNat, 5), (off.toNat, 15)] := ⟨_, rfl⟩
  have e2 : encodeNat (.bge a b off) = w := by
    rw [e]; show 71 + a.toNat * 2 ^ 7 + b.toNat * 2 ^ 12 + off.toNat * 2 ^ 17 = _; simp only [cat]; omega
  obtain ⟨hw, hp, f1_6, f7_5, f12_5, f17_15⟩ := parts2 (by decide) (by decide) a.isLt b.isLt off.isLt e
  have h0 := ne_ones f1_6 (by decide)
  have dec : decodeWord w = .ok (.bge a b off) := by
    rw [word_control 35 f1_6 h0 (by decide)]; unfold decodeControl; rw [regAt_of f7_5, regAt_of f12_5, ofNat_of f17_15]
    rfl
  unfold encode; rw [e2]; exact decodeBytes_word _ _ hw hp dec

theorem bltu (a : Reg) (b : Reg) (off : BitVec 15) : Statement (.bltu a b off) := by
  intro hwf _
  obtain ⟨w, e⟩ : ∃ w, w = cat [(1, 1), (36, 6), (a.toNat, 5), (b.toNat, 5), (off.toNat, 15)] := ⟨_, rfl⟩
  have e2 : encodeNat (.bltu a b off) = w := by
    rw [e]; show 73 + a.toNat * 2 ^ 7 + b.toNat * 2 ^ 12 + off.toNat * 2 ^ 17 = _; simp only [cat]; omega
  obtain ⟨hw, hp, f1_6, f7_5, f12_5, f17_15⟩ := parts2 (by decide) (by decide) a.isLt b.isLt off.isLt e
  have h0 := ne_ones f1_6 (by decide)
  have dec : decodeWord w = .ok (.bltu a b off) := by
    rw [word_control 36 f1_6 h0 (by decide)]; unfold decodeControl; rw [regAt_of f7_5, regAt_of f12_5, ofNat_of f17_15]
    rfl
  unfold encode; rw [e2]; exact decodeBytes_word _ _ hw hp dec

theorem bgeu (a : Reg) (b : Reg) (off : BitVec 15) : Statement (.bgeu a b off) := by
  intro hwf _
  obtain ⟨w, e⟩ : ∃ w, w = cat [(1, 1), (37, 6), (a.toNat, 5), (b.toNat, 5), (off.toNat, 15)] := ⟨_, rfl⟩
  have e2 : encodeNat (.bgeu a b off) = w := by
    rw [e]; show 75 + a.toNat * 2 ^ 7 + b.toNat * 2 ^ 12 + off.toNat * 2 ^ 17 = _; simp only [cat]; omega
  obtain ⟨hw, hp, f1_6, f7_5, f12_5, f17_15⟩ := parts2 (by decide) (by decide) a.isLt b.isLt off.isLt e
  have h0 := ne_ones f1_6 (by decide)
  have dec : decodeWord w = .ok (.bgeu a b off) := by
    rw [word_control 37 f1_6 h0 (by decide)]; unfold decodeControl; rw [regAt_of f7_5, regAt_of f12_5, ofNat_of f17_15]
    rfl
  unfold encode; rw [e2]; exact decodeBytes_word _ _ hw hp dec

theorem jal (d : Reg) (off : BitVec 20) : Statement (.jal d off) := by
  intro hwf _
  obtain ⟨w, e⟩ : ∃ w, w = cat [(1, 1), (38, 6), (d.toNat, 5), (off.toNat, 20)] := ⟨_, rfl⟩
  have e2 : encodeNat (.jal d off) = w := by
    rw [e]; show 77 + d.toNat * 2 ^ 7 + off.toNat * 2 ^ 12 = _; simp only [cat]; omega
  obtain ⟨hw, hp, f1_6, f7_5, f12_20⟩ := parts4 (by decide) (by decide) d.isLt off.isLt e
  have h0 := ne_ones f1_6 (by decide)
  have dec : decodeWord w = .ok (.jal d off) := by
    rw [word_control 38 f1_6 h0 (by decide)]; unfold decodeControl; rw [regAt_of f7_5, ofNat_of f12_20]
    rfl
  unfold encode; rw [e2]; exact decodeBytes_word _ _ hw hp dec

theorem jalr (d : Reg) (a : Reg) (imm : BitVec 15) : Statement (.jalr d a imm) := by
  intro hwf _
  obtain ⟨w, e⟩ : ∃ w, w = cat [(1, 1), (39, 6), (d.toNat, 5), (a.toNat, 5), (imm.toNat, 15)] := ⟨_, rfl⟩
  have e2 : encodeNat (.jalr d a imm) = w := by
    rw [e]; show 79 + d.toNat * 2 ^ 7 + a.toNat * 2 ^ 12 + imm.toNat * 2 ^ 17 = _; simp only [cat]; omega
  obtain ⟨hw, hp, f1_6, f7_5, f12_5, f17_15⟩ := parts2 (by decide) (by decide) d.isLt a.isLt imm.isLt e
  have h0 := ne_ones f1_6 (by decide)
  have dec : decodeWord w = .ok (.jalr d a imm) := by
    rw [word_control 39 f1_6 h0 (by decide)]; unfold decodeControl; rw [regAt_of f7_5, regAt_of f12_5, ofNat_of f17_15]
    rfl
  unfold encode; rw [e2]; exact decodeBytes_word _ _ hw hp dec

theorem spawn (t : Reg) (a : Reg) (b : Reg) : Statement (.spawn t a b) := by
  intro hwf _
  obtain ⟨w, e⟩ : ∃ w, w = cat [(1, 1), (40, 6), (t.toNat, 5), (a.toNat, 5), (b.toNat, 5), (0, 10)] := ⟨_, rfl⟩
  have e2 : encodeNat (.spawn t a b) = w := by
    rw [e]; show 81 + t.toNat * 2 ^ 7 + a.toNat * 2 ^ 12 + b.toNat * 2 ^ 17 = _; simp only [cat]; omega
  obtain ⟨hw, hp, f1_6, f7_5, f12_5, f17_5, f22_10⟩ := parts0 (by decide) (by decide) t.isLt a.isLt b.isLt (by decide) e
  have h0 := ne_ones f1_6 (by decide)
  have dec : decodeWord w = .ok (.spawn t a b) := by
    rw [word_swarm 40 f1_6 h0 (by decide)]; unfold decodeSwarm; rw [f22_10, regAt_of f7_5, regAt_of f12_5, regAt_of f17_5]
    rfl
  unfold encode; rw [e2]; exact decodeBytes_word _ _ hw hp dec

theorem join : Statement (.join) := by
  intro hwf _
  obtain ⟨w, e⟩ : ∃ w, w = cat [(1, 1), (40, 6), (0, 5), (0, 5), (0, 5), (1, 10)] := ⟨_, rfl⟩
  have e2 : encodeNat (.join) = w := by
    rw [e]; show 4194385 = _; simp only [cat]; omega
  obtain ⟨hw, hp, f1_6, f7_5, f12_5, f17_5, f22_10⟩ := parts0 (by decide) (by decide) (by decide) (by decide) (by decide) (by decide) e
  have h0 := ne_ones f1_6 (by decide)
  have dec : decodeWord w = .ok (.join) := by
    rw [word_swarm 40 f1_6 h0 (by decide)]; unfold decodeSwarm; rw [f22_10, f7_5, f12_5, f17_5]
    rfl
  unfold encode; rw [e2]; exact decodeBytes_word _ _ hw hp dec

theorem spawnn (t : Reg) (a : Reg) (b : Reg) : Statement (.spawnn t a b) := by
  intro hwf _
  obtain ⟨w, e⟩ : ∃ w, w = cat [(1, 1), (40, 6), (t.toNat, 5), (a.toNat, 5), (b.toNat, 5), (2, 10)] := ⟨_, rfl⟩
  have e2 : encodeNat (.spawnn t a b) = w := by
    rw [e]; show 8388689 + t.toNat * 2 ^ 7 + a.toNat * 2 ^ 12 + b.toNat * 2 ^ 17 = _; simp only [cat]; omega
  obtain ⟨hw, hp, f1_6, f7_5, f12_5, f17_5, f22_10⟩ := parts0 (by decide) (by decide) t.isLt a.isLt b.isLt (by decide) e
  have h0 := ne_ones f1_6 (by decide)
  have dec : decodeWord w = .ok (.spawnn t a b) := by
    rw [word_swarm 40 f1_6 h0 (by decide)]; unfold decodeSwarm; rw [f22_10, regAt_of f7_5, regAt_of f12_5, regAt_of f17_5]
    rfl
  unfold encode; rw [e2]; exact decodeBytes_word _ _ hw hp dec

theorem next : Statement (.next) := by
  intro hwf _
  obtain ⟨w, e⟩ : ∃ w, w = cat [(1, 1), (40, 6), (0, 5), (0, 5), (0, 5), (3, 10)] := ⟨_, rfl⟩
  have e2 : encodeNat (.next) = w := by
    rw [e]; show 12582993 = _; simp only [cat]; omega
  obtain ⟨hw, hp, f1_6, f7_5, f12_5, f17_5, f22_10⟩ := parts0 (by decide) (by decide) (by decide) (by decide) (by decide) (by decide) e
  have h0 := ne_ones f1_6 (by decide)
  have dec : decodeWord w = .ok (.next) := by
    rw [word_swarm 40 f1_6 h0 (by decide)]; unfold decodeSwarm; rw [f22_10, f7_5, f12_5, f17_5]
    rfl
  unfold encode; rw [e2]; exact decodeBytes_word _ _ hw hp dec

theorem ps (d : Reg) (n : VReg) : Statement (.ps d n) := by
  intro hwf _
  obtain ⟨w, e⟩ : ∃ w, w = cat [(1, 1), (40, 6), (d.toNat, 5), (0, 5), (n.toNat, 3), (0, 2), (4, 10)] := ⟨_, rfl⟩
  have e2 : encodeNat (.ps d n) = w := by
    rw [e]; show 16777297 + d.toNat * 2 ^ 7 + n.toNat * 2 ^ 17 = _; simp only [cat]; omega
  obtain ⟨hw, hp, f1_6, f7_5, f12_5, f17_3, f20_2, f22_10⟩ := parts9 (by decide) (by decide) d.isLt (by decide) n.isLt (by decide) (by decide) e
  have h0 := ne_ones f1_6 (by decide)
  have dec : decodeWord w = .ok (.ps d n) := by
    rw [word_swarm 40 f1_6 h0 (by decide)]; unfold decodeSwarm; rw [f22_10, regAt_of f7_5, vregAt_of f17_3, f12_5, f20_2]
    rfl
  unfold encode; rw [e2]; exact decodeBytes_word _ _ hw hp dec

theorem psset (n : VReg) (a : Reg) : Statement (.psset n a) := by
  intro hwf _
  obtain ⟨w, e⟩ : ∃ w, w = cat [(1, 1), (40, 6), (0, 5), (a.toNat, 5), (n.toNat, 3), (0, 2), (5, 10)] := ⟨_, rfl⟩
  have e2 : encodeNat (.psset n a) = w := by
    rw [e]; show 20971601 + n.toNat * 2 ^ 17 + a.toNat * 2 ^ 12 = _; simp only [cat]; omega
  obtain ⟨hw, hp, f1_6, f7_5, f12_5, f17_3, f20_2, f22_10⟩ := parts9 (by decide) (by decide) (by decide) a.isLt n.isLt (by decide) (by decide) e
  have h0 := ne_ones f1_6 (by decide)
  have dec : decodeWord w = .ok (.psset n a) := by
    rw [word_swarm 40 f1_6 h0 (by decide)]; unfold decodeSwarm; rw [f22_10, regAt_of f12_5, vregAt_of f17_3, f7_5, f20_2]
    rfl
  unfold encode; rw [e2]; exact decodeBytes_word _ _ hw hp dec

theorem psget (d : Reg) (n : VReg) : Statement (.psget d n) := by
  intro hwf _
  obtain ⟨w, e⟩ : ∃ w, w = cat [(1, 1), (40, 6), (d.toNat, 5), (0, 5), (n.toNat, 3), (0, 2), (6, 10)] := ⟨_, rfl⟩
  have e2 : encodeNat (.psget d n) = w := by
    rw [e]; show 25165905 + d.toNat * 2 ^ 7 + n.toNat * 2 ^ 17 = _; simp only [cat]; omega
  obtain ⟨hw, hp, f1_6, f7_5, f12_5, f17_3, f20_2, f22_10⟩ := parts9 (by decide) (by decide) d.isLt (by decide) n.isLt (by decide) (by decide) e
  have h0 := ne_ones f1_6 (by decide)
  have dec : decodeWord w = .ok (.psget d n) := by
    rw [word_swarm 40 f1_6 h0 (by decide)]; unfold decodeSwarm; rw [f22_10, regAt_of f7_5, vregAt_of f17_3, f12_5, f20_2]
    rfl
  unfold encode; rw [e2]; exact decodeBytes_word _ _ hw hp dec

theorem cancel : Statement (.cancel) := by
  intro hwf _
  obtain ⟨w, e⟩ : ∃ w, w = cat [(1, 1), (40, 6), (0, 5), (0, 5), (0, 5), (7, 10)] := ⟨_, rfl⟩
  have e2 : encodeNat (.cancel) = w := by
    rw [e]; show 29360209 = _; simp only [cat]; omega
  obtain ⟨hw, hp, f1_6, f7_5, f12_5, f17_5, f22_10⟩ := parts0 (by decide) (by decide) (by decide) (by decide) (by decide) (by decide) e
  have h0 := ne_ones f1_6 (by decide)
  have dec : decodeWord w = .ok (.cancel) := by
    rw [word_swarm 40 f1_6 h0 (by decide)]; unfold decodeSwarm; rw [f22_10, f7_5, f12_5, f17_5]
    rfl
  unfold encode; rw [e2]; exact decodeBytes_word _ _ hw hp dec

theorem fbsave : Statement (.fbsave) := by
  intro hwf _
  obtain ⟨w, e⟩ : ∃ w, w = cat [(1, 1), (41, 6), (0, 5), (0, 5), (0, 5), (0, 10)] := ⟨_, rfl⟩
  have e2 : encodeNat (.fbsave) = w := by
    rw [e]; show 83 = _; simp only [cat]; omega
  obtain ⟨hw, hp, f1_6, f7_5, f12_5, f17_5, f22_10⟩ := parts0 (by decide) (by decide) (by decide) (by decide) (by decide) (by decide) e
  have h0 := ne_ones f1_6 (by decide)
  have dec : decodeWord w = .ok (.fbsave) := by
    rw [word_swarm 41 f1_6 h0 (by decide)]; unfold decodeSwarm; rw [f22_10, f7_5, f12_5, f17_5]
    rfl
  unfold encode; rw [e2]; exact decodeBytes_word _ _ hw hp dec

theorem fbload (a : Reg) : Statement (.fbload a) := by
  intro hwf _
  obtain ⟨w, e⟩ : ∃ w, w = cat [(1, 1), (41, 6), (0, 5), (a.toNat, 5), (0, 5), (1, 10)] := ⟨_, rfl⟩
  have e2 : encodeNat (.fbload a) = w := by
    rw [e]; show 4194387 + a.toNat * 2 ^ 12 = _; simp only [cat]; omega
  obtain ⟨hw, hp, f1_6, f7_5, f12_5, f17_5, f22_10⟩ := parts0 (by decide) (by decide) (by decide) a.isLt (by decide) (by decide) e
  have h0 := ne_ones f1_6 (by decide)
  have dec : decodeWord w = .ok (.fbload a) := by
    rw [word_swarm 41 f1_6 h0 (by decide)]; unfold decodeSwarm; rw [f22_10, regAt_of f12_5, f7_5, f17_5]
    rfl
  unfold encode; rw [e2]; exact decodeBytes_word _ _ hw hp dec

theorem fbret (a : Reg) : Statement (.fbret a) := by
  intro hwf _
  obtain ⟨w, e⟩ : ∃ w, w = cat [(1, 1), (41, 6), (0, 5), (a.toNat, 5), (0, 5), (2, 10)] := ⟨_, rfl⟩
  have e2 : encodeNat (.fbret a) = w := by
    rw [e]; show 8388691 + a.toNat * 2 ^ 12 = _; simp only [cat]; omega
  obtain ⟨hw, hp, f1_6, f7_5, f12_5, f17_5, f22_10⟩ := parts0 (by decide) (by decide) (by decide) a.isLt (by decide) (by decide) e
  have h0 := ne_ones f1_6 (by decide)
  have dec : decodeWord w = .ok (.fbret a) := by
    rw [word_swarm 41 f1_6 h0 (by decide)]; unfold decodeSwarm; rw [f22_10, regAt_of f12_5, f7_5, f17_5]
    rfl
  unfold encode; rw [e2]; exact decodeBytes_word _ _ hw hp dec

theorem cppost (n : BitVec 2) (a : Reg) : Statement (.cppost n a) := by
  intro hwf _
  obtain ⟨w, e⟩ : ∃ w, w = cat [(1, 1), (42, 6), (0, 5), (a.toNat, 5), (n.toNat, 2), (0, 3), (0, 10)] := ⟨_, rfl⟩
  have e2 : encodeNat (.cppost n a) = w := by
    rw [e]; show 85 + n.toNat * 2 ^ 17 + a.toNat * 2 ^ 12 = _; simp only [cat]; omega
  obtain ⟨hw, hp, f1_6, f7_5, f12_5, f17_2, f19_3, f22_10⟩ := parts10 (by decide) (by decide) (by decide) a.isLt n.isLt (by decide) (by decide) e
  have h0 := ne_ones f1_6 (by decide)
  have dec : decodeWord w = .ok (.cppost n a) := by
    rw [word_swarm 42 f1_6 h0 (by decide)]; unfold decodeSwarm; rw [f22_10, regAt_of f12_5, ofNat_of f17_2, f7_5, f19_3]
    rfl
  unfold encode; rw [e2]; exact decodeBytes_word _ _ hw hp dec

theorem cpprom (d : Reg) (n : BitVec 2) : Statement (.cpprom d n) := by
  intro hwf _
  obtain ⟨w, e⟩ : ∃ w, w = cat [(1, 1), (42, 6), (d.toNat, 5), (0, 5), (n.toNat, 2), (0, 3), (1, 10)] := ⟨_, rfl⟩
  have e2 : encodeNat (.cpprom d n) = w := by
    rw [e]; show 4194389 + d.toNat * 2 ^ 7 + n.toNat * 2 ^ 17 = _; simp only [cat]; omega
  obtain ⟨hw, hp, f1_6, f7_5, f12_5, f17_2, f19_3, f22_10⟩ := parts10 (by decide) (by decide) d.isLt (by decide) n.isLt (by decide) (by decide) e
  have h0 := ne_ones f1_6 (by decide)
  have dec : decodeWord w = .ok (.cpprom d n) := by
    rw [word_swarm 42 f1_6 h0 (by decide)]; unfold decodeSwarm; rw [f22_10, regAt_of f7_5, ofNat_of f17_2, f12_5, f19_3]
    rfl
  unfold encode; rw [e2]; exact decodeBytes_word _ _ hw hp dec

theorem cpwait (p : Reg) (s : Reg) (q : Reg) : Statement (.cpwait p s q) := by
  intro hwf _
  obtain ⟨w, e⟩ : ∃ w, w = cat [(1, 1), (42, 6), (p.toNat, 5), (s.toNat, 5), (q.toNat, 5), (2, 10)] := ⟨_, rfl⟩
  have e2 : encodeNat (.cpwait p s q) = w := by
    rw [e]; show 8388693 + p.toNat * 2 ^ 7 + s.toNat * 2 ^ 12 + q.toNat * 2 ^ 17 = _; simp only [cat]; omega
  obtain ⟨hw, hp, f1_6, f7_5, f12_5, f17_5, f22_10⟩ := parts0 (by decide) (by decide) p.isLt s.isLt q.isLt (by decide) e
  have h0 := ne_ones f1_6 (by decide)
  have dec : decodeWord w = .ok (.cpwait p s q) := by
    rw [word_swarm 42 f1_6 h0 (by decide)]; unfold decodeSwarm; rw [f22_10, regAt_of f7_5, regAt_of f12_5, regAt_of f17_5]
    rfl
  unfold encode; rw [e2]; exact decodeBytes_word _ _ hw hp dec

theorem tkpost (t : Reg) (l : Reg) : Statement (.tkpost t l) := by
  intro hwf _
  obtain ⟨w, e⟩ : ∃ w, w = cat [(1, 1), (42, 6), (t.toNat, 5), (0, 5), (l.toNat, 5), (3, 10)] := ⟨_, rfl⟩
  have e2 : encodeNat (.tkpost t l) = w := by
    rw [e]; show 12582997 + t.toNat * 2 ^ 7 + l.toNat * 2 ^ 17 = _; simp only [cat]; omega
  obtain ⟨hw, hp, f1_6, f7_5, f12_5, f17_5, f22_10⟩ := parts0 (by decide) (by decide) t.isLt (by decide) l.isLt (by decide) e
  have h0 := ne_ones f1_6 (by decide)
  have dec : decodeWord w = .ok (.tkpost t l) := by
    rw [word_swarm 42 f1_6 h0 (by decide)]; unfold decodeSwarm; rw [f22_10, regAt_of f7_5, regAt_of f17_5, f12_5]
    rfl
  unfold encode; rw [e2]; exact decodeBytes_word _ _ hw hp dec

theorem tkstat (d : Reg) (a : Reg) (b : Reg) : Statement (.tkstat d a b) := by
  intro hwf _
  obtain ⟨w, e⟩ : ∃ w, w = cat [(1, 1), (42, 6), (d.toNat, 5), (a.toNat, 5), (b.toNat, 5), (4, 10)] := ⟨_, rfl⟩
  have e2 : encodeNat (.tkstat d a b) = w := by
    rw [e]; show 16777301 + d.toNat * 2 ^ 7 + a.toNat * 2 ^ 12 + b.toNat * 2 ^ 17 = _; simp only [cat]; omega
  obtain ⟨hw, hp, f1_6, f7_5, f12_5, f17_5, f22_10⟩ := parts0 (by decide) (by decide) d.isLt a.isLt b.isLt (by decide) e
  have h0 := ne_ones f1_6 (by decide)
  have dec : decodeWord w = .ok (.tkstat d a b) := by
    rw [word_swarm 42 f1_6 h0 (by decide)]; unfold decodeSwarm; rw [f22_10, regAt_of f7_5, regAt_of f12_5, regAt_of f17_5]
    rfl
  unfold encode; rw [e2]; exact decodeBytes_word _ _ hw hp dec

theorem mspost (d : Reg) (a : Reg) : Statement (.mspost d a) := by
  intro hwf _
  obtain ⟨w, e⟩ : ∃ w, w = cat [(1, 1), (42, 6), (d.toNat, 5), (a.toNat, 5), (0, 5), (5, 10)] := ⟨_, rfl⟩
  have e2 : encodeNat (.mspost d a) = w := by
    rw [e]; show 20971605 + d.toNat * 2 ^ 7 + a.toNat * 2 ^ 12 = _; simp only [cat]; omega
  obtain ⟨hw, hp, f1_6, f7_5, f12_5, f17_5, f22_10⟩ := parts0 (by decide) (by decide) d.isLt a.isLt (by decide) (by decide) e
  have h0 := ne_ones f1_6 (by decide)
  have dec : decodeWord w = .ok (.mspost d a) := by
    rw [word_swarm 42 f1_6 h0 (by decide)]; unfold decodeSwarm; rw [f22_10, regAt_of f7_5, regAt_of f12_5, f17_5]
    rfl
  unfold encode; rw [e2]; exact decodeBytes_word _ _ hw hp dec

theorem colpost (d : Reg) (a : Reg) (b : Reg) : Statement (.colpost d a b) := by
  intro hwf _
  obtain ⟨w, e⟩ : ∃ w, w = cat [(1, 1), (42, 6), (d.toNat, 5), (a.toNat, 5), (b.toNat, 5), (6, 10)] := ⟨_, rfl⟩
  have e2 : encodeNat (.colpost d a b) = w := by
    rw [e]; show 25165909 + d.toNat * 2 ^ 7 + a.toNat * 2 ^ 12 + b.toNat * 2 ^ 17 = _; simp only [cat]; omega
  obtain ⟨hw, hp, f1_6, f7_5, f12_5, f17_5, f22_10⟩ := parts0 (by decide) (by decide) d.isLt a.isLt b.isLt (by decide) e
  have h0 := ne_ones f1_6 (by decide)
  have dec : decodeWord w = .ok (.colpost d a b) := by
    rw [word_swarm 42 f1_6 h0 (by decide)]; unfold decodeSwarm; rw [f22_10, regAt_of f7_5, regAt_of f12_5, regAt_of f17_5]
    rfl
  unfold encode; rw [e2]; exact decodeBytes_word _ _ hw hp dec

theorem fadd (p : FSize) (d : Reg) (a : Reg) (b : Reg) : Statement (.fadd p d a b) := by
  intro hwf _
  have lt_p : p.code < 2 ^ 5 := by cases p <;> decide
  obtain ⟨w, e⟩ : ∃ w, w = cat [(1, 1), (43, 6), (d.toNat, 5), (a.toNat, 5), (b.toNat, 5), (p.code, 5), (0, 5)] := ⟨_, rfl⟩
  have e2 : encodeNat (.fadd p d a b) = w := by
    rw [e]; show 87 + p.code * 2 ^ 22 + d.toNat * 2 ^ 7 + a.toNat * 2 ^ 12 + b.toNat * 2 ^ 17 = _; simp only [cat]; omega
  obtain ⟨hw, hp, f1_6, f7_5, f12_5, f17_5, f22_5, f27_5⟩ := parts8 (by decide) (by decide) d.isLt a.isLt b.isLt lt_p (by decide) e
  have h0 := ne_ones f1_6 (by decide)
  have dec : decodeWord w = .ok (.fadd p d a b) := by
    rw [word_float 43 f1_6 h0 (by decide)]; unfold decodeFloat; rw [f27_5, regAt_of f7_5, regAt_of f12_5, regAt_of f17_5]
    rw [f22_5]
    simp [select, selectVar, selectTy, selectTyG, needZero, needRange]
  unfold encode; rw [e2]; exact decodeBytes_word _ _ hw hp dec

theorem fsub (p : FSize) (d : Reg) (a : Reg) (b : Reg) : Statement (.fsub p d a b) := by
  intro hwf _
  have lt_p : p.code < 2 ^ 5 := by cases p <;> decide
  obtain ⟨w, e⟩ : ∃ w, w = cat [(1, 1), (43, 6), (d.toNat, 5), (a.toNat, 5), (b.toNat, 5), (p.code, 5), (1, 5)] := ⟨_, rfl⟩
  have e2 : encodeNat (.fsub p d a b) = w := by
    rw [e]; show 134217815 + p.code * 2 ^ 22 + d.toNat * 2 ^ 7 + a.toNat * 2 ^ 12 + b.toNat * 2 ^ 17 = _; simp only [cat]; omega
  obtain ⟨hw, hp, f1_6, f7_5, f12_5, f17_5, f22_5, f27_5⟩ := parts8 (by decide) (by decide) d.isLt a.isLt b.isLt lt_p (by decide) e
  have h0 := ne_ones f1_6 (by decide)
  have dec : decodeWord w = .ok (.fsub p d a b) := by
    rw [word_float 43 f1_6 h0 (by decide)]; unfold decodeFloat; rw [f27_5, regAt_of f7_5, regAt_of f12_5, regAt_of f17_5]
    rw [f22_5]
    simp [select, selectVar, selectTy, selectTyG, needZero, needRange]
  unfold encode; rw [e2]; exact decodeBytes_word _ _ hw hp dec

theorem fmul (p : FSize) (d : Reg) (a : Reg) (b : Reg) : Statement (.fmul p d a b) := by
  intro hwf _
  have lt_p : p.code < 2 ^ 5 := by cases p <;> decide
  obtain ⟨w, e⟩ : ∃ w, w = cat [(1, 1), (43, 6), (d.toNat, 5), (a.toNat, 5), (b.toNat, 5), (p.code, 5), (2, 5)] := ⟨_, rfl⟩
  have e2 : encodeNat (.fmul p d a b) = w := by
    rw [e]; show 268435543 + p.code * 2 ^ 22 + d.toNat * 2 ^ 7 + a.toNat * 2 ^ 12 + b.toNat * 2 ^ 17 = _; simp only [cat]; omega
  obtain ⟨hw, hp, f1_6, f7_5, f12_5, f17_5, f22_5, f27_5⟩ := parts8 (by decide) (by decide) d.isLt a.isLt b.isLt lt_p (by decide) e
  have h0 := ne_ones f1_6 (by decide)
  have dec : decodeWord w = .ok (.fmul p d a b) := by
    rw [word_float 43 f1_6 h0 (by decide)]; unfold decodeFloat; rw [f27_5, regAt_of f7_5, regAt_of f12_5, regAt_of f17_5]
    rw [f22_5]
    simp [select, selectVar, selectTy, selectTyG, needZero, needRange]
  unfold encode; rw [e2]; exact decodeBytes_word _ _ hw hp dec

theorem fdiv (p : FSize) (d : Reg) (a : Reg) (b : Reg) : Statement (.fdiv p d a b) := by
  intro hwf _
  have lt_p : p.code < 2 ^ 5 := by cases p <;> decide
  obtain ⟨w, e⟩ : ∃ w, w = cat [(1, 1), (43, 6), (d.toNat, 5), (a.toNat, 5), (b.toNat, 5), (p.code, 5), (3, 5)] := ⟨_, rfl⟩
  have e2 : encodeNat (.fdiv p d a b) = w := by
    rw [e]; show 402653271 + p.code * 2 ^ 22 + d.toNat * 2 ^ 7 + a.toNat * 2 ^ 12 + b.toNat * 2 ^ 17 = _; simp only [cat]; omega
  obtain ⟨hw, hp, f1_6, f7_5, f12_5, f17_5, f22_5, f27_5⟩ := parts8 (by decide) (by decide) d.isLt a.isLt b.isLt lt_p (by decide) e
  have h0 := ne_ones f1_6 (by decide)
  have dec : decodeWord w = .ok (.fdiv p d a b) := by
    rw [word_float 43 f1_6 h0 (by decide)]; unfold decodeFloat; rw [f27_5, regAt_of f7_5, regAt_of f12_5, regAt_of f17_5]
    rw [f22_5]
    simp [select, selectVar, selectTy, selectTyG, needZero, needRange]
  unfold encode; rw [e2]; exact decodeBytes_word _ _ hw hp dec

theorem fsqrt (p : FSize) (d : Reg) (a : Reg) : Statement (.fsqrt p d a) := by
  intro hwf _
  have lt_p : p.code < 2 ^ 5 := by cases p <;> decide
  obtain ⟨w, e⟩ : ∃ w, w = cat [(1, 1), (43, 6), (d.toNat, 5), (a.toNat, 5), (0, 5), (p.code, 5), (4, 5)] := ⟨_, rfl⟩
  have e2 : encodeNat (.fsqrt p d a) = w := by
    rw [e]; show 536870999 + p.code * 2 ^ 22 + d.toNat * 2 ^ 7 + a.toNat * 2 ^ 12 = _; simp only [cat]; omega
  obtain ⟨hw, hp, f1_6, f7_5, f12_5, f17_5, f22_5, f27_5⟩ := parts8 (by decide) (by decide) d.isLt a.isLt (by decide) lt_p (by decide) e
  have h0 := ne_ones f1_6 (by decide)
  have dec : decodeWord w = .ok (.fsqrt p d a) := by
    rw [word_float 43 f1_6 h0 (by decide)]; unfold decodeFloat; rw [f27_5, regAt_of f7_5, regAt_of f12_5, f17_5]
    rw [f22_5]
    simp [select, selectVar, selectTy, selectTyG, needZero, needRange]
  unfold encode; rw [e2]; exact decodeBytes_word _ _ hw hp dec

theorem fmin (p : FSize) (d : Reg) (a : Reg) (b : Reg) : Statement (.fmin p d a b) := by
  intro hwf _
  have lt_p : p.code < 2 ^ 5 := by cases p <;> decide
  obtain ⟨w, e⟩ : ∃ w, w = cat [(1, 1), (43, 6), (d.toNat, 5), (a.toNat, 5), (b.toNat, 5), (p.code, 5), (5, 5)] := ⟨_, rfl⟩
  have e2 : encodeNat (.fmin p d a b) = w := by
    rw [e]; show 671088727 + p.code * 2 ^ 22 + d.toNat * 2 ^ 7 + a.toNat * 2 ^ 12 + b.toNat * 2 ^ 17 = _; simp only [cat]; omega
  obtain ⟨hw, hp, f1_6, f7_5, f12_5, f17_5, f22_5, f27_5⟩ := parts8 (by decide) (by decide) d.isLt a.isLt b.isLt lt_p (by decide) e
  have h0 := ne_ones f1_6 (by decide)
  have dec : decodeWord w = .ok (.fmin p d a b) := by
    rw [word_float 43 f1_6 h0 (by decide)]; unfold decodeFloat; rw [f27_5, regAt_of f7_5, regAt_of f12_5, regAt_of f17_5]
    rw [f22_5]
    simp [select, selectVar, selectTy, selectTyG, needZero, needRange]
  unfold encode; rw [e2]; exact decodeBytes_word _ _ hw hp dec

theorem fmax (p : FSize) (d : Reg) (a : Reg) (b : Reg) : Statement (.fmax p d a b) := by
  intro hwf _
  have lt_p : p.code < 2 ^ 5 := by cases p <;> decide
  obtain ⟨w, e⟩ : ∃ w, w = cat [(1, 1), (43, 6), (d.toNat, 5), (a.toNat, 5), (b.toNat, 5), (p.code, 5), (6, 5)] := ⟨_, rfl⟩
  have e2 : encodeNat (.fmax p d a b) = w := by
    rw [e]; show 805306455 + p.code * 2 ^ 22 + d.toNat * 2 ^ 7 + a.toNat * 2 ^ 12 + b.toNat * 2 ^ 17 = _; simp only [cat]; omega
  obtain ⟨hw, hp, f1_6, f7_5, f12_5, f17_5, f22_5, f27_5⟩ := parts8 (by decide) (by decide) d.isLt a.isLt b.isLt lt_p (by decide) e
  have h0 := ne_ones f1_6 (by decide)
  have dec : decodeWord w = .ok (.fmax p d a b) := by
    rw [word_float 43 f1_6 h0 (by decide)]; unfold decodeFloat; rw [f27_5, regAt_of f7_5, regAt_of f12_5, regAt_of f17_5]
    rw [f22_5]
    simp [select, selectVar, selectTy, selectTyG, needZero, needRange]
  unfold encode; rw [e2]; exact decodeBytes_word _ _ hw hp dec

theorem fma (p : FSize) (d : Reg) (a : Reg) (b : Reg) : Statement (.fma p d a b) := by
  intro hwf _
  have lt_p : p.code < 2 ^ 5 := by cases p <;> decide
  obtain ⟨w, e⟩ : ∃ w, w = cat [(1, 1), (43, 6), (d.toNat, 5), (a.toNat, 5), (b.toNat, 5), (p.code, 5), (7, 5)] := ⟨_, rfl⟩
  have e2 : encodeNat (.fma p d a b) = w := by
    rw [e]; show 939524183 + p.code * 2 ^ 22 + d.toNat * 2 ^ 7 + a.toNat * 2 ^ 12 + b.toNat * 2 ^ 17 = _; simp only [cat]; omega
  obtain ⟨hw, hp, f1_6, f7_5, f12_5, f17_5, f22_5, f27_5⟩ := parts8 (by decide) (by decide) d.isLt a.isLt b.isLt lt_p (by decide) e
  have h0 := ne_ones f1_6 (by decide)
  have dec : decodeWord w = .ok (.fma p d a b) := by
    rw [word_float 43 f1_6 h0 (by decide)]; unfold decodeFloat; rw [f27_5, regAt_of f7_5, regAt_of f12_5, regAt_of f17_5]
    rw [f22_5]
    simp [select, selectVar, selectTy, selectTyG, needZero, needRange]
  unfold encode; rw [e2]; exact decodeBytes_word _ _ hw hp dec

theorem fcmpeq (p : FSize) (d : Reg) (a : Reg) (b : Reg) : Statement (.fcmpeq p d a b) := by
  intro hwf _
  have lt_p : p.code < 2 ^ 5 := by cases p <;> decide
  obtain ⟨w, e⟩ : ∃ w, w = cat [(1, 1), (43, 6), (d.toNat, 5), (a.toNat, 5), (b.toNat, 5), (p.code, 5), (8, 5)] := ⟨_, rfl⟩
  have e2 : encodeNat (.fcmpeq p d a b) = w := by
    rw [e]; show 1073741911 + p.code * 2 ^ 22 + d.toNat * 2 ^ 7 + a.toNat * 2 ^ 12 + b.toNat * 2 ^ 17 = _; simp only [cat]; omega
  obtain ⟨hw, hp, f1_6, f7_5, f12_5, f17_5, f22_5, f27_5⟩ := parts8 (by decide) (by decide) d.isLt a.isLt b.isLt lt_p (by decide) e
  have h0 := ne_ones f1_6 (by decide)
  have dec : decodeWord w = .ok (.fcmpeq p d a b) := by
    rw [word_float 43 f1_6 h0 (by decide)]; unfold decodeFloat; rw [f27_5, regAt_of f7_5, regAt_of f12_5, regAt_of f17_5]
    rw [f22_5]
    simp [select, selectVar, selectTy, selectTyG, needZero, needRange]
  unfold encode; rw [e2]; exact decodeBytes_word _ _ hw hp dec

theorem fcmplt (p : FSize) (d : Reg) (a : Reg) (b : Reg) : Statement (.fcmplt p d a b) := by
  intro hwf _
  have lt_p : p.code < 2 ^ 5 := by cases p <;> decide
  obtain ⟨w, e⟩ : ∃ w, w = cat [(1, 1), (43, 6), (d.toNat, 5), (a.toNat, 5), (b.toNat, 5), (p.code, 5), (9, 5)] := ⟨_, rfl⟩
  have e2 : encodeNat (.fcmplt p d a b) = w := by
    rw [e]; show 1207959639 + p.code * 2 ^ 22 + d.toNat * 2 ^ 7 + a.toNat * 2 ^ 12 + b.toNat * 2 ^ 17 = _; simp only [cat]; omega
  obtain ⟨hw, hp, f1_6, f7_5, f12_5, f17_5, f22_5, f27_5⟩ := parts8 (by decide) (by decide) d.isLt a.isLt b.isLt lt_p (by decide) e
  have h0 := ne_ones f1_6 (by decide)
  have dec : decodeWord w = .ok (.fcmplt p d a b) := by
    rw [word_float 43 f1_6 h0 (by decide)]; unfold decodeFloat; rw [f27_5, regAt_of f7_5, regAt_of f12_5, regAt_of f17_5]
    rw [f22_5]
    simp [select, selectVar, selectTy, selectTyG, needZero, needRange]
  unfold encode; rw [e2]; exact decodeBytes_word _ _ hw hp dec

theorem fcmple (p : FSize) (d : Reg) (a : Reg) (b : Reg) : Statement (.fcmple p d a b) := by
  intro hwf _
  have lt_p : p.code < 2 ^ 5 := by cases p <;> decide
  obtain ⟨w, e⟩ : ∃ w, w = cat [(1, 1), (43, 6), (d.toNat, 5), (a.toNat, 5), (b.toNat, 5), (p.code, 5), (10, 5)] := ⟨_, rfl⟩
  have e2 : encodeNat (.fcmple p d a b) = w := by
    rw [e]; show 1342177367 + p.code * 2 ^ 22 + d.toNat * 2 ^ 7 + a.toNat * 2 ^ 12 + b.toNat * 2 ^ 17 = _; simp only [cat]; omega
  obtain ⟨hw, hp, f1_6, f7_5, f12_5, f17_5, f22_5, f27_5⟩ := parts8 (by decide) (by decide) d.isLt a.isLt b.isLt lt_p (by decide) e
  have h0 := ne_ones f1_6 (by decide)
  have dec : decodeWord w = .ok (.fcmple p d a b) := by
    rw [word_float 43 f1_6 h0 (by decide)]; unfold decodeFloat; rw [f27_5, regAt_of f7_5, regAt_of f12_5, regAt_of f17_5]
    rw [f22_5]
    simp [select, selectVar, selectTy, selectTyG, needZero, needRange]
  unfold encode; rw [e2]; exact decodeBytes_word _ _ hw hp dec

theorem fkind (p : FSize) (d : Reg) (a : Reg) : Statement (.fkind p d a) := by
  intro hwf _
  have lt_p : p.code < 2 ^ 5 := by cases p <;> decide
  obtain ⟨w, e⟩ : ∃ w, w = cat [(1, 1), (43, 6), (d.toNat, 5), (a.toNat, 5), (0, 5), (p.code, 5), (11, 5)] := ⟨_, rfl⟩
  have e2 : encodeNat (.fkind p d a) = w := by
    rw [e]; show 1476395095 + p.code * 2 ^ 22 + d.toNat * 2 ^ 7 + a.toNat * 2 ^ 12 = _; simp only [cat]; omega
  obtain ⟨hw, hp, f1_6, f7_5, f12_5, f17_5, f22_5, f27_5⟩ := parts8 (by decide) (by decide) d.isLt a.isLt (by decide) lt_p (by decide) e
  have h0 := ne_ones f1_6 (by decide)
  have dec : decodeWord w = .ok (.fkind p d a) := by
    rw [word_float 43 f1_6 h0 (by decide)]; unfold decodeFloat; rw [f27_5, regAt_of f7_5, regAt_of f12_5, f17_5]
    rw [f22_5]
    simp [select, selectVar, selectTy, selectTyG, needZero, needRange]
  unfold encode; rw [e2]; exact decodeBytes_word _ _ hw hp dec

theorem fcvt (c : FCvt) (d : Reg) (a : Reg) : Statement (.fcvt c d a) := by
  intro hwf _
  have lt_c : c.code < 2 ^ 5 := by cases c <;> decide
  obtain ⟨w, e⟩ : ∃ w, w = cat [(1, 1), (43, 6), (d.toNat, 5), (a.toNat, 5), (0, 5), (c.code, 5), (12, 5)] := ⟨_, rfl⟩
  have e2 : encodeNat (.fcvt c d a) = w := by
    rw [e]; show 1610612823 + c.code * 2 ^ 22 + d.toNat * 2 ^ 7 + a.toNat * 2 ^ 12 = _; simp only [cat]; omega
  obtain ⟨hw, hp, f1_6, f7_5, f12_5, f17_5, f22_5, f27_5⟩ := parts8 (by decide) (by decide) d.isLt a.isLt (by decide) lt_c (by decide) e
  have h0 := ne_ones f1_6 (by decide)
  have dec : decodeWord w = .ok (.fcvt c d a) := by
    rw [word_float 43 f1_6 h0 (by decide)]; unfold decodeFloat; rw [f27_5, regAt_of f7_5, regAt_of f12_5, f22_5, f17_5]
    simp [select, selectVar, selectTy, selectTyG, needZero, needRange]
  unfold encode; rw [e2]; exact decodeBytes_word _ _ hw hp dec

theorem vadd (v : VVar) (t : LaneTy) (k : VReg) (d : VReg) (a : VReg) (b : VReg) : Statement (.vadd v t k d a b) := by
  intro hwf _
  have lt_t : t.code < 2 ^ 3 := by cases t <;> decide
  have lt_v : v.code < 2 ^ 5 := by cases v <;> decide
  obtain ⟨w, e⟩ : ∃ w, w = cat [(1, 1), (48, 6), (d.toNat, 3), (a.toNat, 3), (b.toNat, 3), (k.toNat, 3), (t.code, 3), (v.code, 5), (0, 5)] := ⟨_, rfl⟩
  have e2 : encodeNat (.vadd v t k d a b) = w := by
    rw [e]; show 97 + v.code * 2 ^ 22 + t.code * 2 ^ 19 + k.toNat * 2 ^ 16 + d.toNat * 2 ^ 7 + a.toNat * 2 ^ 10 + b.toNat * 2 ^ 13 = _; simp only [cat]; omega
  obtain ⟨hw, hp, f1_6, f7_3, f10_3, f13_3, f16_3, f19_3, f22_5, f27_5⟩ := parts11 (by decide) (by decide) d.isLt a.isLt b.isLt k.isLt lt_t lt_v (by decide) e
  have h0 := ne_ones f1_6 (by decide)
  have dec : decodeWord w = .ok (.vadd v t k d a b) := by
    have ok : v.okArith t = true := hwf
    rw [word_vectorArith 48 f1_6 h0 (by decide)]; unfold decodeVectorArith; rw [f27_5, vregAt_of f16_3, vregAt_of f7_3, vregAt_of f10_3, vregAt_of f13_3]
    simp [select, selectVar, selectTy, selectTyG, needZero, needRange, f22_5, f19_3, ok]
  unfold encode; rw [e2]; exact decodeBytes_word _ _ hw hp dec

theorem vsub (v : VVar) (t : LaneTy) (k : VReg) (d : VReg) (a : VReg) (b : VReg) : Statement (.vsub v t k d a b) := by
  intro hwf _
  have lt_t : t.code < 2 ^ 3 := by cases t <;> decide
  have lt_v : v.code < 2 ^ 5 := by cases v <;> decide
  obtain ⟨w, e⟩ : ∃ w, w = cat [(1, 1), (48, 6), (d.toNat, 3), (a.toNat, 3), (b.toNat, 3), (k.toNat, 3), (t.code, 3), (v.code, 5), (1, 5)] := ⟨_, rfl⟩
  have e2 : encodeNat (.vsub v t k d a b) = w := by
    rw [e]; show 134217825 + v.code * 2 ^ 22 + t.code * 2 ^ 19 + k.toNat * 2 ^ 16 + d.toNat * 2 ^ 7 + a.toNat * 2 ^ 10 + b.toNat * 2 ^ 13 = _; simp only [cat]; omega
  obtain ⟨hw, hp, f1_6, f7_3, f10_3, f13_3, f16_3, f19_3, f22_5, f27_5⟩ := parts11 (by decide) (by decide) d.isLt a.isLt b.isLt k.isLt lt_t lt_v (by decide) e
  have h0 := ne_ones f1_6 (by decide)
  have dec : decodeWord w = .ok (.vsub v t k d a b) := by
    have ok : v.okArith t = true := hwf
    rw [word_vectorArith 48 f1_6 h0 (by decide)]; unfold decodeVectorArith; rw [f27_5, vregAt_of f16_3, vregAt_of f7_3, vregAt_of f10_3, vregAt_of f13_3]
    simp [select, selectVar, selectTy, selectTyG, needZero, needRange, f22_5, f19_3, ok]
  unfold encode; rw [e2]; exact decodeBytes_word _ _ hw hp dec

theorem vmul (v : VVar) (t : LaneTy) (k : VReg) (d : VReg) (a : VReg) (b : VReg) : Statement (.vmul v t k d a b) := by
  intro hwf _
  have lt_t : t.code < 2 ^ 3 := by cases t <;> decide
  have lt_v : v.code < 2 ^ 5 := by cases v <;> decide
  obtain ⟨w, e⟩ : ∃ w, w = cat [(1, 1), (48, 6), (d.toNat, 3), (a.toNat, 3), (b.toNat, 3), (k.toNat, 3), (t.code, 3), (v.code, 5), (2, 5)] := ⟨_, rfl⟩
  have e2 : encodeNat (.vmul v t k d a b) = w := by
    rw [e]; show 268435553 + v.code * 2 ^ 22 + t.code * 2 ^ 19 + k.toNat * 2 ^ 16 + d.toNat * 2 ^ 7 + a.toNat * 2 ^ 10 + b.toNat * 2 ^ 13 = _; simp only [cat]; omega
  obtain ⟨hw, hp, f1_6, f7_3, f10_3, f13_3, f16_3, f19_3, f22_5, f27_5⟩ := parts11 (by decide) (by decide) d.isLt a.isLt b.isLt k.isLt lt_t lt_v (by decide) e
  have h0 := ne_ones f1_6 (by decide)
  have dec : decodeWord w = .ok (.vmul v t k d a b) := by
    have ok : v.okArith t = true := hwf
    rw [word_vectorArith 48 f1_6 h0 (by decide)]; unfold decodeVectorArith; rw [f27_5, vregAt_of f16_3, vregAt_of f7_3, vregAt_of f10_3, vregAt_of f13_3]
    simp [select, selectVar, selectTy, selectTyG, needZero, needRange, f22_5, f19_3, ok]
  unfold encode; rw [e2]; exact decodeBytes_word _ _ hw hp dec

theorem vfma (v : VVar) (t : LaneTy) (k : VReg) (d : VReg) (a : VReg) (b : VReg) : Statement (.vfma v t k d a b) := by
  intro hwf _
  have lt_t : t.code < 2 ^ 3 := by cases t <;> decide
  have lt_v : v.code < 2 ^ 5 := by cases v <;> decide
  obtain ⟨w, e⟩ : ∃ w, w = cat [(1, 1), (48, 6), (d.toNat, 3), (a.toNat, 3), (b.toNat, 3), (k.toNat, 3), (t.code, 3), (v.code, 5), (3, 5)] := ⟨_, rfl⟩
  have e2 : encodeNat (.vfma v t k d a b) = w := by
    rw [e]; show 402653281 + v.code * 2 ^ 22 + t.code * 2 ^ 19 + k.toNat * 2 ^ 16 + d.toNat * 2 ^ 7 + a.toNat * 2 ^ 10 + b.toNat * 2 ^ 13 = _; simp only [cat]; omega
  obtain ⟨hw, hp, f1_6, f7_3, f10_3, f13_3, f16_3, f19_3, f22_5, f27_5⟩ := parts11 (by decide) (by decide) d.isLt a.isLt b.isLt k.isLt lt_t lt_v (by decide) e
  have h0 := ne_ones f1_6 (by decide)
  have dec : decodeWord w = .ok (.vfma v t k d a b) := by
    have ok : v.okArith t = true := hwf
    rw [word_vectorArith 48 f1_6 h0 (by decide)]; unfold decodeVectorArith; rw [f27_5, vregAt_of f16_3, vregAt_of f7_3, vregAt_of f10_3, vregAt_of f13_3]
    simp [select, selectVar, selectTy, selectTyG, needZero, needRange, f22_5, f19_3, ok]
  unfold encode; rw [e2]; exact decodeBytes_word _ _ hw hp dec

theorem vmin (v : VVar) (t : LaneTy) (k : VReg) (d : VReg) (a : VReg) (b : VReg) : Statement (.vmin v t k d a b) := by
  intro hwf _
  have lt_t : t.code < 2 ^ 3 := by cases t <;> decide
  have lt_v : v.code < 2 ^ 5 := by cases v <;> decide
  obtain ⟨w, e⟩ : ∃ w, w = cat [(1, 1), (48, 6), (d.toNat, 3), (a.toNat, 3), (b.toNat, 3), (k.toNat, 3), (t.code, 3), (v.code, 5), (4, 5)] := ⟨_, rfl⟩
  have e2 : encodeNat (.vmin v t k d a b) = w := by
    rw [e]; show 536871009 + v.code * 2 ^ 22 + t.code * 2 ^ 19 + k.toNat * 2 ^ 16 + d.toNat * 2 ^ 7 + a.toNat * 2 ^ 10 + b.toNat * 2 ^ 13 = _; simp only [cat]; omega
  obtain ⟨hw, hp, f1_6, f7_3, f10_3, f13_3, f16_3, f19_3, f22_5, f27_5⟩ := parts11 (by decide) (by decide) d.isLt a.isLt b.isLt k.isLt lt_t lt_v (by decide) e
  have h0 := ne_ones f1_6 (by decide)
  have dec : decodeWord w = .ok (.vmin v t k d a b) := by
    have ok : v.okMinMax t = true := hwf
    rw [word_vectorArith 48 f1_6 h0 (by decide)]; unfold decodeVectorArith; rw [f27_5, vregAt_of f16_3, vregAt_of f7_3, vregAt_of f10_3, vregAt_of f13_3]
    simp [select, selectVar, selectTy, selectTyG, needZero, needRange, f22_5, f19_3, ok]
  unfold encode; rw [e2]; exact decodeBytes_word _ _ hw hp dec

theorem vmax (v : VVar) (t : LaneTy) (k : VReg) (d : VReg) (a : VReg) (b : VReg) : Statement (.vmax v t k d a b) := by
  intro hwf _
  have lt_t : t.code < 2 ^ 3 := by cases t <;> decide
  have lt_v : v.code < 2 ^ 5 := by cases v <;> decide
  obtain ⟨w, e⟩ : ∃ w, w = cat [(1, 1), (48, 6), (d.toNat, 3), (a.toNat, 3), (b.toNat, 3), (k.toNat, 3), (t.code, 3), (v.code, 5), (5, 5)] := ⟨_, rfl⟩
  have e2 : encodeNat (.vmax v t k d a b) = w := by
    rw [e]; show 671088737 + v.code * 2 ^ 22 + t.code * 2 ^ 19 + k.toNat * 2 ^ 16 + d.toNat * 2 ^ 7 + a.toNat * 2 ^ 10 + b.toNat * 2 ^ 13 = _; simp only [cat]; omega
  obtain ⟨hw, hp, f1_6, f7_3, f10_3, f13_3, f16_3, f19_3, f22_5, f27_5⟩ := parts11 (by decide) (by decide) d.isLt a.isLt b.isLt k.isLt lt_t lt_v (by decide) e
  have h0 := ne_ones f1_6 (by decide)
  have dec : decodeWord w = .ok (.vmax v t k d a b) := by
    have ok : v.okMinMax t = true := hwf
    rw [word_vectorArith 48 f1_6 h0 (by decide)]; unfold decodeVectorArith; rw [f27_5, vregAt_of f16_3, vregAt_of f7_3, vregAt_of f10_3, vregAt_of f13_3]
    simp [select, selectVar, selectTy, selectTyG, needZero, needRange, f22_5, f19_3, ok]
  unfold encode; rw [e2]; exact decodeBytes_word _ _ hw hp dec

theorem vabs (v : VVar) (t : LaneTy) (k : VReg) (d : VReg) (a : VReg) : Statement (.vabs v t k d a) := by
  intro hwf _
  have lt_t : t.code < 2 ^ 3 := by cases t <;> decide
  have lt_v : v.code < 2 ^ 5 := by cases v <;> decide
  obtain ⟨w, e⟩ : ∃ w, w = cat [(1, 1), (48, 6), (d.toNat, 3), (a.toNat, 3), (0, 3), (k.toNat, 3), (t.code, 3), (v.code, 5), (6, 5)] := ⟨_, rfl⟩
  have e2 : encodeNat (.vabs v t k d a) = w := by
    rw [e]; show 805306465 + v.code * 2 ^ 22 + t.code * 2 ^ 19 + k.toNat * 2 ^ 16 + d.toNat * 2 ^ 7 + a.toNat * 2 ^ 10 = _; simp only [cat]; omega
  obtain ⟨hw, hp, f1_6, f7_3, f10_3, f13_3, f16_3, f19_3, f22_5, f27_5⟩ := parts11 (by decide) (by decide) d.isLt a.isLt (by decide) k.isLt lt_t lt_v (by decide) e
  have h0 := ne_ones f1_6 (by decide)
  have dec : decodeWord w = .ok (.vabs v t k d a) := by
    have ok : v.okArith t = true := hwf
    rw [word_vectorArith 48 f1_6 h0 (by decide)]; unfold decodeVectorArith; rw [f27_5, vregAt_of f16_3, vregAt_of f7_3, vregAt_of f10_3, f13_3]
    simp [select, selectVar, selectTy, selectTyG, needZero, needRange, f22_5, f19_3, ok]
  unfold encode; rw [e2]; exact decodeBytes_word _ _ hw hp dec

theorem vneg (v : VVar) (t : LaneTy) (k : VReg) (d : VReg) (a : VReg) : Statement (.vneg v t k d a) := by
  intro hwf _
  have lt_t : t.code < 2 ^ 3 := by cases t <;> decide
  have lt_v : v.code < 2 ^ 5 := by cases v <;> decide
  obtain ⟨w, e⟩ : ∃ w, w = cat [(1, 1), (48, 6), (d.toNat, 3), (a.toNat, 3), (0, 3), (k.toNat, 3), (t.code, 3), (v.code, 5), (7, 5)] := ⟨_, rfl⟩
  have e2 : encodeNat (.vneg v t k d a) = w := by
    rw [e]; show 939524193 + v.code * 2 ^ 22 + t.code * 2 ^ 19 + k.toNat * 2 ^ 16 + d.toNat * 2 ^ 7 + a.toNat * 2 ^ 10 = _; simp only [cat]; omega
  obtain ⟨hw, hp, f1_6, f7_3, f10_3, f13_3, f16_3, f19_3, f22_5, f27_5⟩ := parts11 (by decide) (by decide) d.isLt a.isLt (by decide) k.isLt lt_t lt_v (by decide) e
  have h0 := ne_ones f1_6 (by decide)
  have dec : decodeWord w = .ok (.vneg v t k d a) := by
    have ok : v.okArith t = true := hwf
    rw [word_vectorArith 48 f1_6 h0 (by decide)]; unfold decodeVectorArith; rw [f27_5, vregAt_of f16_3, vregAt_of f7_3, vregAt_of f10_3, f13_3]
    simp [select, selectVar, selectTy, selectTyG, needZero, needRange, f22_5, f19_3, ok]
  unfold encode; rw [e2]; exact decodeBytes_word _ _ hw hp dec

theorem vand (t : LaneTy) (k : VReg) (d : VReg) (a : VReg) (b : VReg) : Statement (.vand t k d a b) := by
  intro hwf _
  have lt_t : t.code < 2 ^ 3 := by cases t <;> decide
  obtain ⟨w, e⟩ : ∃ w, w = cat [(1, 1), (49, 6), (d.toNat, 3), (a.toNat, 3), (b.toNat, 3), (k.toNat, 3), (t.code, 3), (0, 5), (0, 5)] := ⟨_, rfl⟩
  have e2 : encodeNat (.vand t k d a b) = w := by
    rw [e]; show 99 + t.code * 2 ^ 19 + k.toNat * 2 ^ 16 + d.toNat * 2 ^ 7 + a.toNat * 2 ^ 10 + b.toNat * 2 ^ 13 = _; simp only [cat]; omega
  obtain ⟨hw, hp, f1_6, f7_3, f10_3, f13_3, f16_3, f19_3, f22_5, f27_5⟩ := parts11 (by decide) (by decide) d.isLt a.isLt b.isLt k.isLt lt_t (by decide) (by decide) e
  have h0 := ne_ones f1_6 (by decide)
  have dec : decodeWord w = .ok (.vand t k d a b) := by
    rw [word_vectorArith 49 f1_6 h0 (by decide)]; unfold decodeVectorArith; rw [f27_5, vregAt_of f16_3, vregAt_of f7_3, vregAt_of f10_3, vregAt_of f13_3]
    simp [select, selectVar, selectTy, selectTyG, needZero, needRange, f22_5, f19_3]
  unfold encode; rw [e2]; exact decodeBytes_word _ _ hw hp dec

theorem vor (t : LaneTy) (k : VReg) (d : VReg) (a : VReg) (b : VReg) : Statement (.vor t k d a b) := by
  intro hwf _
  have lt_t : t.code < 2 ^ 3 := by cases t <;> decide
  obtain ⟨w, e⟩ : ∃ w, w = cat [(1, 1), (49, 6), (d.toNat, 3), (a.toNat, 3), (b.toNat, 3), (k.toNat, 3), (t.code, 3), (0, 5), (1, 5)] := ⟨_, rfl⟩
  have e2 : encodeNat (.vor t k d a b) = w := by
    rw [e]; show 134217827 + t.code * 2 ^ 19 + k.toNat * 2 ^ 16 + d.toNat * 2 ^ 7 + a.toNat * 2 ^ 10 + b.toNat * 2 ^ 13 = _; simp only [cat]; omega
  obtain ⟨hw, hp, f1_6, f7_3, f10_3, f13_3, f16_3, f19_3, f22_5, f27_5⟩ := parts11 (by decide) (by decide) d.isLt a.isLt b.isLt k.isLt lt_t (by decide) (by decide) e
  have h0 := ne_ones f1_6 (by decide)
  have dec : decodeWord w = .ok (.vor t k d a b) := by
    rw [word_vectorArith 49 f1_6 h0 (by decide)]; unfold decodeVectorArith; rw [f27_5, vregAt_of f16_3, vregAt_of f7_3, vregAt_of f10_3, vregAt_of f13_3]
    simp [select, selectVar, selectTy, selectTyG, needZero, needRange, f22_5, f19_3]
  unfold encode; rw [e2]; exact decodeBytes_word _ _ hw hp dec

theorem vxor (t : LaneTy) (k : VReg) (d : VReg) (a : VReg) (b : VReg) : Statement (.vxor t k d a b) := by
  intro hwf _
  have lt_t : t.code < 2 ^ 3 := by cases t <;> decide
  obtain ⟨w, e⟩ : ∃ w, w = cat [(1, 1), (49, 6), (d.toNat, 3), (a.toNat, 3), (b.toNat, 3), (k.toNat, 3), (t.code, 3), (0, 5), (2, 5)] := ⟨_, rfl⟩
  have e2 : encodeNat (.vxor t k d a b) = w := by
    rw [e]; show 268435555 + t.code * 2 ^ 19 + k.toNat * 2 ^ 16 + d.toNat * 2 ^ 7 + a.toNat * 2 ^ 10 + b.toNat * 2 ^ 13 = _; simp only [cat]; omega
  obtain ⟨hw, hp, f1_6, f7_3, f10_3, f13_3, f16_3, f19_3, f22_5, f27_5⟩ := parts11 (by decide) (by decide) d.isLt a.isLt b.isLt k.isLt lt_t (by decide) (by decide) e
  have h0 := ne_ones f1_6 (by decide)
  have dec : decodeWord w = .ok (.vxor t k d a b) := by
    rw [word_vectorArith 49 f1_6 h0 (by decide)]; unfold decodeVectorArith; rw [f27_5, vregAt_of f16_3, vregAt_of f7_3, vregAt_of f10_3, vregAt_of f13_3]
    simp [select, selectVar, selectTy, selectTyG, needZero, needRange, f22_5, f19_3]
  unfold encode; rw [e2]; exact decodeBytes_word _ _ hw hp dec

theorem vsll (t : LaneTy) (k : VReg) (d : VReg) (a : VReg) (b : VReg) : Statement (.vsll t k d a b) := by
  intro hwf _
  have lt_t : t.code < 2 ^ 3 := by cases t <;> decide
  obtain ⟨w, e⟩ : ∃ w, w = cat [(1, 1), (49, 6), (d.toNat, 3), (a.toNat, 3), (b.toNat, 3), (k.toNat, 3), (t.code, 3), (0, 5), (3, 5)] := ⟨_, rfl⟩
  have e2 : encodeNat (.vsll t k d a b) = w := by
    rw [e]; show 402653283 + t.code * 2 ^ 19 + k.toNat * 2 ^ 16 + d.toNat * 2 ^ 7 + a.toNat * 2 ^ 10 + b.toNat * 2 ^ 13 = _; simp only [cat]; omega
  obtain ⟨hw, hp, f1_6, f7_3, f10_3, f13_3, f16_3, f19_3, f22_5, f27_5⟩ := parts11 (by decide) (by decide) d.isLt a.isLt b.isLt k.isLt lt_t (by decide) (by decide) e
  have h0 := ne_ones f1_6 (by decide)
  have dec : decodeWord w = .ok (.vsll t k d a b) := by
    have ok : (!t.isFloat) = true := hwf
    rw [word_vectorArith 49 f1_6 h0 (by decide)]; unfold decodeVectorArith; rw [f27_5, vregAt_of f16_3, vregAt_of f7_3, vregAt_of f10_3, vregAt_of f13_3]
    simp [select, selectVar, selectTy, selectTyG, needZero, needRange, f22_5, f19_3, ok]
  unfold encode; rw [e2]; exact decodeBytes_word _ _ hw hp dec

theorem vsrl (t : LaneTy) (k : VReg) (d : VReg) (a : VReg) (b : VReg) : Statement (.vsrl t k d a b) := by
  intro hwf _
  have lt_t : t.code < 2 ^ 3 := by cases t <;> decide
  obtain ⟨w, e⟩ : ∃ w, w = cat [(1, 1), (49, 6), (d.toNat, 3), (a.toNat, 3), (b.toNat, 3), (k.toNat, 3), (t.code, 3), (0, 5), (4, 5)] := ⟨_, rfl⟩
  have e2 : encodeNat (.vsrl t k d a b) = w := by
    rw [e]; show 536871011 + t.code * 2 ^ 19 + k.toNat * 2 ^ 16 + d.toNat * 2 ^ 7 + a.toNat * 2 ^ 10 + b.toNat * 2 ^ 13 = _; simp only [cat]; omega
  obtain ⟨hw, hp, f1_6, f7_3, f10_3, f13_3, f16_3, f19_3, f22_5, f27_5⟩ := parts11 (by decide) (by decide) d.isLt a.isLt b.isLt k.isLt lt_t (by decide) (by decide) e
  have h0 := ne_ones f1_6 (by decide)
  have dec : decodeWord w = .ok (.vsrl t k d a b) := by
    have ok : (!t.isFloat) = true := hwf
    rw [word_vectorArith 49 f1_6 h0 (by decide)]; unfold decodeVectorArith; rw [f27_5, vregAt_of f16_3, vregAt_of f7_3, vregAt_of f10_3, vregAt_of f13_3]
    simp [select, selectVar, selectTy, selectTyG, needZero, needRange, f22_5, f19_3, ok]
  unfold encode; rw [e2]; exact decodeBytes_word _ _ hw hp dec

theorem vsra (t : LaneTy) (k : VReg) (d : VReg) (a : VReg) (b : VReg) : Statement (.vsra t k d a b) := by
  intro hwf _
  have lt_t : t.code < 2 ^ 3 := by cases t <;> decide
  obtain ⟨w, e⟩ : ∃ w, w = cat [(1, 1), (49, 6), (d.toNat, 3), (a.toNat, 3), (b.toNat, 3), (k.toNat, 3), (t.code, 3), (0, 5), (5, 5)] := ⟨_, rfl⟩
  have e2 : encodeNat (.vsra t k d a b) = w := by
    rw [e]; show 671088739 + t.code * 2 ^ 19 + k.toNat * 2 ^ 16 + d.toNat * 2 ^ 7 + a.toNat * 2 ^ 10 + b.toNat * 2 ^ 13 = _; simp only [cat]; omega
  obtain ⟨hw, hp, f1_6, f7_3, f10_3, f13_3, f16_3, f19_3, f22_5, f27_5⟩ := parts11 (by decide) (by decide) d.isLt a.isLt b.isLt k.isLt lt_t (by decide) (by decide) e
  have h0 := ne_ones f1_6 (by decide)
  have dec : decodeWord w = .ok (.vsra t k d a b) := by
    have ok : (!t.isFloat) = true := hwf
    rw [word_vectorArith 49 f1_6 h0 (by decide)]; unfold decodeVectorArith; rw [f27_5, vregAt_of f16_3, vregAt_of f7_3, vregAt_of f10_3, vregAt_of f13_3]
    simp [select, selectVar, selectTy, selectTyG, needZero, needRange, f22_5, f19_3, ok]
  unfold encode; rw [e2]; exact decodeBytes_word _ _ hw hp dec

theorem vcmp (c : VCond) (t : LaneTy) (k : VReg) (d : VReg) (a : VReg) (b : VReg) : Statement (.vcmp c t k d a b) := by
  intro hwf _
  have lt_t : t.code < 2 ^ 3 := by cases t <;> decide
  have lt_c : c.code < 2 ^ 5 := by cases c <;> decide
  obtain ⟨w, e⟩ : ∃ w, w = cat [(1, 1), (50, 6), (d.toNat, 3), (a.toNat, 3), (b.toNat, 3), (k.toNat, 3), (t.code, 3), (c.code, 5), (0, 5)] := ⟨_, rfl⟩
  have e2 : encodeNat (.vcmp c t k d a b) = w := by
    rw [e]; show 101 + c.code * 2 ^ 22 + t.code * 2 ^ 19 + k.toNat * 2 ^ 16 + d.toNat * 2 ^ 7 + a.toNat * 2 ^ 10 + b.toNat * 2 ^ 13 = _; simp only [cat]; omega
  obtain ⟨hw, hp, f1_6, f7_3, f10_3, f13_3, f16_3, f19_3, f22_5, f27_5⟩ := parts11 (by decide) (by decide) d.isLt a.isLt b.isLt k.isLt lt_t lt_c (by decide) e
  have h0 := ne_ones f1_6 (by decide)
  have dec : decodeWord w = .ok (.vcmp c t k d a b) := by
    have ok : c.ok t = true := hwf
    rw [word_vectorOther 50 f1_6 h0 (by decide)]; unfold decodeVectorOther; rw [f27_5, vregAt_of f16_3, vregAt_of f7_3, vregAt_of f10_3, vregAt_of f13_3, f19_3]
    rw [f22_5]
    simp [select, selectVar, selectTy, selectTyG, needZero, needRange, ok, f19_3]
  unfold encode; rw [e2]; exact decodeBytes_word _ _ hw hp dec

theorem vsel (t : LaneTy) (k : VReg) (d : VReg) (a : VReg) (b : VReg) : Statement (.vsel t k d a b) := by
  intro hwf _
  have lt_t : t.code < 2 ^ 3 := by cases t <;> decide
  obtain ⟨w, e⟩ : ∃ w, w = cat [(1, 1), (50, 6), (d.toNat, 3), (a.toNat, 3), (b.toNat, 3), (k.toNat, 3), (t.code, 3), (0, 5), (1, 5)] := ⟨_, rfl⟩
  have e2 : encodeNat (.vsel t k d a b) = w := by
    rw [e]; show 134217829 + t.code * 2 ^ 19 + k.toNat * 2 ^ 16 + d.toNat * 2 ^ 7 + a.toNat * 2 ^ 10 + b.toNat * 2 ^ 13 = _; simp only [cat]; omega
  obtain ⟨hw, hp, f1_6, f7_3, f10_3, f13_3, f16_3, f19_3, f22_5, f27_5⟩ := parts11 (by decide) (by decide) d.isLt a.isLt b.isLt k.isLt lt_t (by decide) (by decide) e
  have h0 := ne_ones f1_6 (by decide)
  have dec : decodeWord w = .ok (.vsel t k d a b) := by
    rw [word_vectorOther 50 f1_6 h0 (by decide)]; unfold decodeVectorOther; rw [f27_5, vregAt_of f16_3, vregAt_of f7_3, vregAt_of f10_3, vregAt_of f13_3]
    simp [select, selectVar, selectTy, selectTyG, needZero, needRange, f22_5, f19_3]
  unfold encode; rw [e2]; exact decodeBytes_word _ _ hw hp dec

theorem vcvt (toLane : Bool) (f : VFmt) (t : LaneTy) (k : VReg) (d : VReg) (a : VReg) (p : VReg) : Statement (.vcvt toLane f t k d a p) := by
  intro hwf _
  obtain ⟨w, e⟩ : ∃ w, w = 103 + ((bif toLane then 16 else 0).add f.code) * 2 ^ 22 + t.code * 2 ^ 19 + k.toNat * 2 ^ 16 + p.toNat * 2 ^ 13 + a.toNat * 2 ^ 10 + d.toNat * 2 ^ 7 := ⟨_, rfl⟩
  have c_v : (bif toLane then 16 else 0).add f.code < 32 := by cases toLane <;> cases f <;> decide
  have c_t : t.code ≤ 5 := by cases t <;> decide
  have h0 : w ≠ 0xFFFFFFFF := by omega
  have hw : w < 2 ^ 32 := by omega
  have hp : field w 0 1 = 1 := by unfold field; omega
  have f1_6 : field w 1 6 = 51 := by unfold field; omega
  have f7_3 : field w 7 3 = d.toNat := by unfold field; omega
  have f10_3 : field w 10 3 = a.toNat := by unfold field; omega
  have f13_3 : field w 13 3 = p.toNat := by unfold field; omega
  have f16_3 : field w 16 3 = k.toNat := by unfold field; omega
  have f19_3 : field w 19 3 = t.code := by unfold field; omega
  have f22_5 : field w 22 5 = ((bif toLane then 16 else 0).add f.code) := by unfold field; omega
  have f27_5 : field w 27 5 = 0 := by unfold field; omega
  have dec : decodeWord w = .ok (.vcvt toLane f t k d a p) := by
    have g26_1 : field w 26 1 = toLane.toNat := by
      have := VFmt.code_lt f
      cases toLane <;> simp [field] at e ⊢ <;> omega
    have g22_4 : field w 22 4 = f.code := by
      have := VFmt.code_lt f
      cases toLane <;> simp [field] at e ⊢ <;> omega
    obtain ⟨k1, k2⟩ := Bool.and_eq_true_iff.mp hwf
    have k3 := of_decide_eq_true k2
    have k4 : f.isBlock = true → toLane = false → t ≠ .f32 → p.toNat = 0 := by
      intro a b c; subst b; revert k3 a c; cases f <;> cases t <;> simp [vcvtParts, VFmt.isBlock]
    simp only [decodeWord, decodeVectorOther, regAt, vregAt, reservedMajor, needZero, needRange, select, selectVar, selectTy, selectTyG, h0, f1_6, f7_3, f10_3, f13_3, f16_3, f19_3, f22_5, f27_5, g26_1, g22_4, k1, k3]
    cases toLane <;> cases hb : f.isBlock <;> by_cases ht : t = .f32 <;> simp_all
    exact (BitVec.eq_of_toNat_eq k4).symm
  subst e
  exact decodeBytes_word _ _ hw hp dec

theorem vpack4 (d : VReg) (a : VReg) (p : VReg) : Statement (.vpack4 d a p) := by
  intro hwf _
  obtain ⟨w, e⟩ : ∃ w, w = cat [(1, 1), (51, 6), (d.toNat, 3), (a.toNat, 3), (p.toNat, 3), (0, 3), (2, 3), (0, 5), (1, 5)] := ⟨_, rfl⟩
  have e2 : encodeNat (.vpack4 d a p) = w := by
    rw [e]; show 135266407 + d.toNat * 2 ^ 7 + a.toNat * 2 ^ 10 + p.toNat * 2 ^ 13 = _; simp only [cat]; omega
  obtain ⟨hw, hp, f1_6, f7_3, f10_3, f13_3, f16_3, f19_3, f22_5, f27_5⟩ := parts11 (by decide) (by decide) d.isLt a.isLt p.isLt (by decide) (by decide) (by decide) (by decide) e
  have h0 := ne_ones f1_6 (by decide)
  have dec : decodeWord w = .ok (.vpack4 d a p) := by
    have ok : decide (p.toNat < 2) = true := hwf
    have ok3 : p.toNat ≤ 1 := by have := of_decide_eq_true ok; omega
    simp [decodeWord, decodeVectorOther, regAt, vregAt, reservedMajor, needZero, needRange, select, selectVar, selectTy, selectTyG, LaneTy.ofCode, h0, f1_6, f7_3, f10_3, f13_3, f16_3, f19_3, f22_5, f27_5, ok, ok3]
  unfold encode; rw [e2]; exact decodeBytes_word _ _ hw hp dec

theorem vunpack4 (signed : Bool) (d : VReg) (a : VReg) (p : VReg) : Statement (.vunpack4 signed d a p) := by
  intro hwf _
  have lt_signed : signed.toNat < 2 ^ 5 := by cases signed <;> decide
  obtain ⟨w, e⟩ : ∃ w, w = cat [(1, 1), (51, 6), (d.toNat, 3), (a.toNat, 3), (p.toNat, 3), (0, 3), (2, 3), (signed.toNat, 5), (2, 5)] := ⟨_, rfl⟩
  have e2 : encodeNat (.vunpack4 signed d a p) = w := by
    rw [e]; show 269484135 + signed.toNat * 2 ^ 22 + d.toNat * 2 ^ 7 + a.toNat * 2 ^ 10 + p.toNat * 2 ^ 13 = _; simp only [cat]; omega
  obtain ⟨hw, hp, f1_6, f7_3, f10_3, f13_3, f16_3, f19_3, f22_5, f27_5⟩ := parts11 (by decide) (by decide) d.isLt a.isLt p.isLt (by decide) (by decide) lt_signed (by decide) e
  have c_signed : signed.toNat ≤ 1 := by cases signed <;> decide
  have h0 := ne_ones f1_6 (by decide)
  have dec : decodeWord w = .ok (.vunpack4 signed d a p) := by
    have ok : decide (p.toNat < 2) = true := hwf
    have ok := of_decide_eq_true ok
    have ok2 : decide (signed.toNat = 1) = signed := by cases signed <;> rfl
    have ok3 : p.toNat ≤ 1 := by omega
    simp [decodeWord, decodeVectorOther, regAt, vregAt, reservedMajor, needZero, needRange, select, selectVar, selectTy, selectTyG, LaneTy.ofCode, LaneTy.ofCode, h0, f1_6, f7_3, f10_3, f13_3, f16_3, f19_3, f22_5, f27_5, ok, ok2, ok3, c_signed]
  unfold encode; rw [e2]; exact decodeBytes_word _ _ hw hp dec

theorem vpack6 (d : VReg) (a : VReg) : Statement (.vpack6 d a) := by
  intro hwf _
  obtain ⟨w, e⟩ : ∃ w, w = cat [(1, 1), (51, 6), (d.toNat, 3), (a.toNat, 3), (0, 3), (0, 3), (2, 3), (0, 5), (3, 5)] := ⟨_, rfl⟩
  have e2 : encodeNat (.vpack6 d a) = w := by
    rw [e]; show 403701863 + d.toNat * 2 ^ 7 + a.toNat * 2 ^ 10 = _; simp only [cat]; omega
  obtain ⟨hw, hp, f1_6, f7_3, f10_3, f13_3, f16_3, f19_3, f22_5, f27_5⟩ := parts11 (by decide) (by decide) d.isLt a.isLt (by decide) (by decide) (by decide) (by decide) (by decide) e
  have h0 := ne_ones f1_6 (by decide)
  have dec : decodeWord w = .ok (.vpack6 d a) := by
    simp [decodeWord, decodeVectorOther, regAt, vregAt, reservedMajor, needZero, needRange, select, selectVar, selectTy, selectTyG, LaneTy.ofCode, h0, f1_6, f7_3, f10_3, f13_3, f16_3, f19_3, f22_5, f27_5]
  unfold encode; rw [e2]; exact decodeBytes_word _ _ hw hp dec

theorem vunpack6 (d : VReg) (a : VReg) : Statement (.vunpack6 d a) := by
  intro hwf _
  obtain ⟨w, e⟩ : ∃ w, w = cat [(1, 1), (51, 6), (d.toNat, 3), (a.toNat, 3), (0, 3), (0, 3), (2, 3), (0, 5), (4, 5)] := ⟨_, rfl⟩
  have e2 : encodeNat (.vunpack6 d a) = w := by
    rw [e]; show 537919591 + d.toNat * 2 ^ 7 + a.toNat * 2 ^ 10 = _; simp only [cat]; omega
  obtain ⟨hw, hp, f1_6, f7_3, f10_3, f13_3, f16_3, f19_3, f22_5, f27_5⟩ := parts11 (by decide) (by decide) d.isLt a.isLt (by decide) (by decide) (by decide) (by decide) (by decide) e
  have h0 := ne_ones f1_6 (by decide)
  have dec : decodeWord w = .ok (.vunpack6 d a) := by
    simp [decodeWord, decodeVectorOther, regAt, vregAt, reservedMajor, needZero, needRange, select, selectVar, selectTy, selectTyG, LaneTy.ofCode, h0, f1_6, f7_3, f10_3, f13_3, f16_3, f19_3, f22_5, f27_5]
  unfold encode; rw [e2]; exact decodeBytes_word _ _ hw hp dec

theorem vredsum (v : VVar) (t : LaneTy) (k : VReg) (d : VReg) (a : VReg) : Statement (.vredsum v t k d a) := by
  intro hwf _
  have lt_t : t.code < 2 ^ 3 := by cases t <;> decide
  have lt_v : v.code < 2 ^ 5 := by cases v <;> decide
  obtain ⟨w, e⟩ : ∃ w, w = cat [(1, 1), (52, 6), (d.toNat, 3), (a.toNat, 3), (0, 3), (k.toNat, 3), (t.code, 3), (v.code, 5), (0, 5)] := ⟨_, rfl⟩
  have e2 : encodeNat (.vredsum v t k d a) = w := by
    rw [e]; show 105 + v.code * 2 ^ 22 + t.code * 2 ^ 19 + k.toNat * 2 ^ 16 + d.toNat * 2 ^ 7 + a.toNat * 2 ^ 10 = _; simp only [cat]; omega
  obtain ⟨hw, hp, f1_6, f7_3, f10_3, f13_3, f16_3, f19_3, f22_5, f27_5⟩ := parts11 (by decide) (by decide) d.isLt a.isLt (by decide) k.isLt lt_t lt_v (by decide) e
  have h0 := ne_ones f1_6 (by decide)
  have dec : decodeWord w = .ok (.vredsum v t k d a) := by
    have ok : v.okArith t = true := hwf
    rw [word_vectorOther 52 f1_6 h0 (by decide)]; unfold decodeVectorOther; rw [f27_5, vregAt_of f16_3, vregAt_of f7_3, vregAt_of f10_3, f13_3]
    simp [select, selectVar, selectTy, selectTyG, needZero, needRange, f22_5, f19_3, ok]
  unfold encode; rw [e2]; exact decodeBytes_word _ _ hw hp dec

theorem vredmax (v : VVar) (t : LaneTy) (k : VReg) (d : VReg) (a : VReg) : Statement (.vredmax v t k d a) := by
  intro hwf _
  have lt_t : t.code < 2 ^ 3 := by cases t <;> decide
  have lt_v : v.code < 2 ^ 5 := by cases v <;> decide
  obtain ⟨w, e⟩ : ∃ w, w = cat [(1, 1), (52, 6), (d.toNat, 3), (a.toNat, 3), (0, 3), (k.toNat, 3), (t.code, 3), (v.code, 5), (1, 5)] := ⟨_, rfl⟩
  have e2 : encodeNat (.vredmax v t k d a) = w := by
    rw [e]; show 134217833 + v.code * 2 ^ 22 + t.code * 2 ^ 19 + k.toNat * 2 ^ 16 + d.toNat * 2 ^ 7 + a.toNat * 2 ^ 10 = _; simp only [cat]; omega
  obtain ⟨hw, hp, f1_6, f7_3, f10_3, f13_3, f16_3, f19_3, f22_5, f27_5⟩ := parts11 (by decide) (by decide) d.isLt a.isLt (by decide) k.isLt lt_t lt_v (by decide) e
  have h0 := ne_ones f1_6 (by decide)
  have dec : decodeWord w = .ok (.vredmax v t k d a) := by
    have ok : v.okMinMax t = true := hwf
    rw [word_vectorOther 52 f1_6 h0 (by decide)]; unfold decodeVectorOther; rw [f27_5, vregAt_of f16_3, vregAt_of f7_3, vregAt_of f10_3, f13_3]
    simp [select, selectVar, selectTy, selectTyG, needZero, needRange, f22_5, f19_3, ok]
  unfold encode; rw [e2]; exact decodeBytes_word _ _ hw hp dec

theorem vexp2 (t : LaneTy) (k : VReg) (d : VReg) (a : VReg) : Statement (.vexp2 t k d a) := by
  intro hwf _
  have lt_t : t.code < 2 ^ 3 := by cases t <;> decide
  obtain ⟨w, e⟩ : ∃ w, w = cat [(1, 1), (52, 6), (d.toNat, 3), (a.toNat, 3), (0, 3), (k.toNat, 3), (t.code, 3), (0, 5), (2, 5)] := ⟨_, rfl⟩
  have e2 : encodeNat (.vexp2 t k d a) = w := by
    rw [e]; show 268435561 + t.code * 2 ^ 19 + k.toNat * 2 ^ 16 + d.toNat * 2 ^ 7 + a.toNat * 2 ^ 10 = _; simp only [cat]; omega
  obtain ⟨hw, hp, f1_6, f7_3, f10_3, f13_3, f16_3, f19_3, f22_5, f27_5⟩ := parts11 (by decide) (by decide) d.isLt a.isLt (by decide) k.isLt lt_t (by decide) (by decide) e
  have h0 := ne_ones f1_6 (by decide)
  have dec : decodeWord w = .ok (.vexp2 t k d a) := by
    have ok : t.isFloat = true := hwf
    rw [word_vectorOther 52 f1_6 h0 (by decide)]; unfold decodeVectorOther; rw [f27_5, vregAt_of f16_3, vregAt_of f7_3, vregAt_of f10_3, f13_3]
    simp [select, selectVar, selectTy, selectTyG, needZero, needRange, f22_5, f19_3, ok]
  unfold encode; rw [e2]; exact decodeBytes_word _ _ hw hp dec

theorem vrcp (t : LaneTy) (k : VReg) (d : VReg) (a : VReg) : Statement (.vrcp t k d a) := by
  intro hwf _
  have lt_t : t.code < 2 ^ 3 := by cases t <;> decide
  obtain ⟨w, e⟩ : ∃ w, w = cat [(1, 1), (52, 6), (d.toNat, 3), (a.toNat, 3), (0, 3), (k.toNat, 3), (t.code, 3), (0, 5), (3, 5)] := ⟨_, rfl⟩
  have e2 : encodeNat (.vrcp t k d a) = w := by
    rw [e]; show 402653289 + t.code * 2 ^ 19 + k.toNat * 2 ^ 16 + d.toNat * 2 ^ 7 + a.toNat * 2 ^ 10 = _; simp only [cat]; omega
  obtain ⟨hw, hp, f1_6, f7_3, f10_3, f13_3, f16_3, f19_3, f22_5, f27_5⟩ := parts11 (by decide) (by decide) d.isLt a.isLt (by decide) k.isLt lt_t (by decide) (by decide) e
  have h0 := ne_ones f1_6 (by decide)
  have dec : decodeWord w = .ok (.vrcp t k d a) := by
    have ok : t.isFloat = true := hwf
    rw [word_vectorOther 52 f1_6 h0 (by decide)]; unfold decodeVectorOther; rw [f27_5, vregAt_of f16_3, vregAt_of f7_3, vregAt_of f10_3, f13_3]
    simp [select, selectVar, selectTy, selectTyG, needZero, needRange, f22_5, f19_3, ok]
  unfold encode; rw [e2]; exact decodeBytes_word _ _ hw hp dec

theorem vrsqrt (t : LaneTy) (k : VReg) (d : VReg) (a : VReg) : Statement (.vrsqrt t k d a) := by
  intro hwf _
  have lt_t : t.code < 2 ^ 3 := by cases t <;> decide
  obtain ⟨w, e⟩ : ∃ w, w = cat [(1, 1), (52, 6), (d.toNat, 3), (a.toNat, 3), (0, 3), (k.toNat, 3), (t.code, 3), (0, 5), (4, 5)] := ⟨_, rfl⟩
  have e2 : encodeNat (.vrsqrt t k d a) = w := by
    rw [e]; show 536871017 + t.code * 2 ^ 19 + k.toNat * 2 ^ 16 + d.toNat * 2 ^ 7 + a.toNat * 2 ^ 10 = _; simp only [cat]; omega
  obtain ⟨hw, hp, f1_6, f7_3, f10_3, f13_3, f16_3, f19_3, f22_5, f27_5⟩ := parts11 (by decide) (by decide) d.isLt a.isLt (by decide) k.isLt lt_t (by decide) (by decide) e
  have h0 := ne_ones f1_6 (by decide)
  have dec : decodeWord w = .ok (.vrsqrt t k d a) := by
    have ok : t.isFloat = true := hwf
    rw [word_vectorOther 52 f1_6 h0 (by decide)]; unfold decodeVectorOther; rw [f27_5, vregAt_of f16_3, vregAt_of f7_3, vregAt_of f10_3, f13_3]
    simp [select, selectVar, selectTy, selectTyG, needZero, needRange, f22_5, f19_3, ok]
  unfold encode; rw [e2]; exact decodeBytes_word _ _ hw hp dec

theorem vbcast (t : LaneTy) (g : Reg) (k : VReg) (d : VReg) : Statement (.vbcast t g k d) := by
  intro hwf _
  have lt_t : t.code < 2 ^ 3 := by cases t <;> decide
  obtain ⟨w, e⟩ : ∃ w, w = cat [(1, 1), (53, 6), (d.toNat, 3), (0, 3), (0, 3), (k.toNat, 3), (t.code, 3), (g.toNat, 5), (0, 5)] := ⟨_, rfl⟩
  have e2 : encodeNat (.vbcast t g k d) = w := by
    rw [e]; show 107 + t.code * 2 ^ 19 + g.toNat * 2 ^ 22 + k.toNat * 2 ^ 16 + d.toNat * 2 ^ 7 = _; simp only [cat]; omega
  obtain ⟨hw, hp, f1_6, f7_3, f10_3, f13_3, f16_3, f19_3, f22_5, f27_5⟩ := parts11 (by decide) (by decide) d.isLt (by decide) (by decide) k.isLt lt_t g.isLt (by decide) e
  have h0 := ne_ones f1_6 (by decide)
  have dec : decodeWord w = .ok (.vbcast t g k d) := by
    rw [word_vectorMove 53 f1_6 h0 (by decide)]; unfold decodeVectorMove; rw [f27_5, regAt_of f22_5, vregAt_of f16_3, vregAt_of f7_3, f10_3, f13_3]
    simp [select, selectVar, selectTy, selectTyG, needZero, needRange, f19_3]
  unfold encode; rw [e2]; exact decodeBytes_word _ _ hw hp dec

theorem vmovg (t : LaneTy) (g : Reg) (lane : BitVec 6) (a : VReg) : Statement (.vmovg t g lane a) := by
  intro hwf _
  have lt_t : t.code < 2 ^ 3 := by cases t <;> decide
  obtain ⟨w, e⟩ : ∃ w, w = cat [(1, 1), (53, 6), (0, 3), (a.toNat, 3), (lane.toNat, 6), (t.code, 3), (g.toNat, 5), (1, 5)] := ⟨_, rfl⟩
  have e2 : encodeNat (.vmovg t g lane a) = w := by
    rw [e]; show 134217835 + t.code * 2 ^ 19 + g.toNat * 2 ^ 22 + lane.toNat * 2 ^ 13 + a.toNat * 2 ^ 10 = _; simp only [cat]; omega
  obtain ⟨hw, hp, f1_6, f7_3, f10_3, f13_6, f19_3, f22_5, f27_5⟩ := parts12 (by decide) (by decide) (by decide) a.isLt lane.isLt lt_t g.isLt (by decide) e
  have h0 := ne_ones f1_6 (by decide)
  have dec : decodeWord w = .ok (.vmovg t g lane a) := by
    have ok : decide (lane.toNat < t.lanes) = true := hwf
    rw [word_vectorMove 53 f1_6 h0 (by decide)]; unfold decodeVectorMove; rw [f27_5, regAt_of f22_5, vregAt_of f10_3, ofNat_of f13_6, f13_6, f7_3]
    have lt := of_decide_eq_true ok
    simp [select, selectVar, selectTy, selectTyG, needZero, needRange, f19_3, lt]
  unfold encode; rw [e2]; exact decodeBytes_word _ _ hw hp dec

theorem vins (t : LaneTy) (g : Reg) (lane : BitVec 6) (d : VReg) : Statement (.vins t g lane d) := by
  intro hwf _
  have lt_t : t.code < 2 ^ 3 := by cases t <;> decide
  obtain ⟨w, e⟩ : ∃ w, w = cat [(1, 1), (53, 6), (d.toNat, 3), (0, 3), (lane.toNat, 6), (t.code, 3), (g.toNat, 5), (2, 5)] := ⟨_, rfl⟩
  have e2 : encodeNat (.vins t g lane d) = w := by
    rw [e]; show 268435563 + t.code * 2 ^ 19 + g.toNat * 2 ^ 22 + lane.toNat * 2 ^ 13 + d.toNat * 2 ^ 7 = _; simp only [cat]; omega
  obtain ⟨hw, hp, f1_6, f7_3, f10_3, f13_6, f19_3, f22_5, f27_5⟩ := parts12 (by decide) (by decide) d.isLt (by decide) lane.isLt lt_t g.isLt (by decide) e
  have h0 := ne_ones f1_6 (by decide)
  have dec : decodeWord w = .ok (.vins t g lane d) := by
    have ok : decide (lane.toNat < t.lanes) = true := hwf
    rw [word_vectorMove 53 f1_6 h0 (by decide)]; unfold decodeVectorMove; rw [f27_5, regAt_of f22_5, vregAt_of f7_3, ofNat_of f13_6, f13_6, f10_3]
    have lt := of_decide_eq_true ok
    simp [select, selectVar, selectTy, selectTyG, needZero, needRange, f19_3, lt]
  unfold encode; rw [e2]; exact decodeBytes_word _ _ hw hp dec

theorem vperm (t : LaneTy) (k : VReg) (d : VReg) (a : VReg) (b : VReg) : Statement (.vperm t k d a b) := by
  intro hwf _
  have lt_t : t.code < 2 ^ 3 := by cases t <;> decide
  obtain ⟨w, e⟩ : ∃ w, w = cat [(1, 1), (53, 6), (d.toNat, 3), (a.toNat, 3), (b.toNat, 3), (k.toNat, 3), (t.code, 3), (0, 5), (3, 5)] := ⟨_, rfl⟩
  have e2 : encodeNat (.vperm t k d a b) = w := by
    rw [e]; show 402653291 + t.code * 2 ^ 19 + k.toNat * 2 ^ 16 + d.toNat * 2 ^ 7 + a.toNat * 2 ^ 10 + b.toNat * 2 ^ 13 = _; simp only [cat]; omega
  obtain ⟨hw, hp, f1_6, f7_3, f10_3, f13_3, f16_3, f19_3, f22_5, f27_5⟩ := parts11 (by decide) (by decide) d.isLt a.isLt b.isLt k.isLt lt_t (by decide) (by decide) e
  have h0 := ne_ones f1_6 (by decide)
  have dec : decodeWord w = .ok (.vperm t k d a b) := by
    rw [word_vectorMove 53 f1_6 h0 (by decide)]; unfold decodeVectorMove; rw [f27_5, vregAt_of f16_3, vregAt_of f7_3, vregAt_of f10_3, vregAt_of f13_3, f22_5]
    simp [select, selectVar, selectTy, selectTyG, needZero, needRange, f19_3]
  unfold encode; rw [e2]; exact decodeBytes_word _ _ hw hp dec

theorem vld (t : LaneTy) (g : Reg) (k : VReg) (d : VReg) : Statement (.vld t g k d) := by
  intro hwf _
  have lt_t : t.code < 2 ^ 3 := by cases t <;> decide
  obtain ⟨w, e⟩ : ∃ w, w = cat [(1, 1), (54, 6), (d.toNat, 3), (0, 3), (0, 3), (k.toNat, 3), (t.code, 3), (g.toNat, 5), (0, 5)] := ⟨_, rfl⟩
  have e2 : encodeNat (.vld t g k d) = w := by
    rw [e]; show 109 + t.code * 2 ^ 19 + g.toNat * 2 ^ 22 + k.toNat * 2 ^ 16 + d.toNat * 2 ^ 7 = _; simp only [cat]; omega
  obtain ⟨hw, hp, f1_6, f7_3, f10_3, f13_3, f16_3, f19_3, f22_5, f27_5⟩ := parts11 (by decide) (by decide) d.isLt (by decide) (by decide) k.isLt lt_t g.isLt (by decide) e
  have h0 := ne_ones f1_6 (by decide)
  have dec : decodeWord w = .ok (.vld t g k d) := by
    rw [word_vectorMove 54 f1_6 h0 (by decide)]; unfold decodeVectorMove; rw [f27_5, regAt_of f22_5, vregAt_of f16_3, vregAt_of f7_3, f10_3, f13_3]
    simp [select, selectVar, selectTy, selectTyG, needZero, needRange, f19_3]
  unfold encode; rw [e2]; exact decodeBytes_word _ _ hw hp dec

theorem vst (t : LaneTy) (g : Reg) (k : VReg) (d : VReg) : Statement (.vst t g k d) := by
  intro hwf _
  have lt_t : t.code < 2 ^ 3 := by cases t <;> decide
  obtain ⟨w, e⟩ : ∃ w, w = cat [(1, 1), (54, 6), (d.toNat, 3), (0, 3), (0, 3), (k.toNat, 3), (t.code, 3), (g.toNat, 5), (1, 5)] := ⟨_, rfl⟩
  have e2 : encodeNat (.vst t g k d) = w := by
    rw [e]; show 134217837 + t.code * 2 ^ 19 + g.toNat * 2 ^ 22 + k.toNat * 2 ^ 16 + d.toNat * 2 ^ 7 = _; simp only [cat]; omega
  obtain ⟨hw, hp, f1_6, f7_3, f10_3, f13_3, f16_3, f19_3, f22_5, f27_5⟩ := parts11 (by decide) (by decide) d.isLt (by decide) (by decide) k.isLt lt_t g.isLt (by decide) e
  have h0 := ne_ones f1_6 (by decide)
  have dec : decodeWord w = .ok (.vst t g k d) := by
    rw [word_vectorMove 54 f1_6 h0 (by decide)]; unfold decodeVectorMove; rw [f27_5, regAt_of f22_5, vregAt_of f16_3, vregAt_of f7_3, f10_3, f13_3]
    simp [select, selectVar, selectTy, selectTyG, needZero, needRange, f19_3]
  unfold encode; rw [e2]; exact decodeBytes_word _ _ hw hp dec

theorem vldx (t : LaneTy) (g : Reg) (k : VReg) (d : VReg) (b : VReg) : Statement (.vldx t g k d b) := by
  intro hwf _
  have lt_t : t.code < 2 ^ 3 := by cases t <;> decide
  obtain ⟨w, e⟩ : ∃ w, w = cat [(1, 1), (54, 6), (d.toNat, 3), (0, 3), (b.toNat, 3), (k.toNat, 3), (t.code, 3), (g.toNat, 5), (2, 5)] := ⟨_, rfl⟩
  have e2 : encodeNat (.vldx t g k d b) = w := by
    rw [e]; show 268435565 + t.code * 2 ^ 19 + g.toNat * 2 ^ 22 + k.toNat * 2 ^ 16 + d.toNat * 2 ^ 7 + b.toNat * 2 ^ 13 = _; simp only [cat]; omega
  obtain ⟨hw, hp, f1_6, f7_3, f10_3, f13_3, f16_3, f19_3, f22_5, f27_5⟩ := parts11 (by decide) (by decide) d.isLt (by decide) b.isLt k.isLt lt_t g.isLt (by decide) e
  have h0 := ne_ones f1_6 (by decide)
  have dec : decodeWord w = .ok (.vldx t g k d b) := by
    have ok : decide (t = .i32) || decide (t = .f32) := hwf
    rw [word_vectorMove 54 f1_6 h0 (by decide)]; unfold decodeVectorMove; rw [f27_5, regAt_of f22_5, vregAt_of f16_3, vregAt_of f7_3, vregAt_of f13_3, f10_3]
    simp at ok
    simp [select, selectVar, selectTy, selectTyG, needZero, needRange, f19_3, ok]
  unfold encode; rw [e2]; exact decodeBytes_word _ _ hw hp dec

theorem vstx (t : LaneTy) (g : Reg) (k : VReg) (d : VReg) (b : VReg) : Statement (.vstx t g k d b) := by
  intro hwf _
  have lt_t : t.code < 2 ^ 3 := by cases t <;> decide
  obtain ⟨w, e⟩ : ∃ w, w = cat [(1, 1), (54, 6), (d.toNat, 3), (0, 3), (b.toNat, 3), (k.toNat, 3), (t.code, 3), (g.toNat, 5), (3, 5)] := ⟨_, rfl⟩
  have e2 : encodeNat (.vstx t g k d b) = w := by
    rw [e]; show 402653293 + t.code * 2 ^ 19 + g.toNat * 2 ^ 22 + k.toNat * 2 ^ 16 + d.toNat * 2 ^ 7 + b.toNat * 2 ^ 13 = _; simp only [cat]; omega
  obtain ⟨hw, hp, f1_6, f7_3, f10_3, f13_3, f16_3, f19_3, f22_5, f27_5⟩ := parts11 (by decide) (by decide) d.isLt (by decide) b.isLt k.isLt lt_t g.isLt (by decide) e
  have h0 := ne_ones f1_6 (by decide)
  have dec : decodeWord w = .ok (.vstx t g k d b) := by
    have ok : decide (t = .i32) || decide (t = .f32) := hwf
    rw [word_vectorMove 54 f1_6 h0 (by decide)]; unfold decodeVectorMove; rw [f27_5, regAt_of f22_5, vregAt_of f16_3, vregAt_of f7_3, vregAt_of f13_3, f10_3]
    simp at ok
    simp [select, selectVar, selectTy, selectTyG, needZero, needRange, f19_3, ok]
  unfold encode; rw [e2]; exact decodeBytes_word _ _ hw hp dec

theorem kand (d : VReg) (a : VReg) (b : VReg) : Statement (.kand d a b) := by
  intro hwf _
  obtain ⟨w, e⟩ : ∃ w, w = cat [(1, 1), (55, 6), (d.toNat, 3), (a.toNat, 3), (b.toNat, 3), (0, 3), (0, 3), (0, 5), (0, 5)] := ⟨_, rfl⟩
  have e2 : encodeNat (.kand d a b) = w := by
    rw [e]; show 111 + d.toNat * 2 ^ 7 + a.toNat * 2 ^ 10 + b.toNat * 2 ^ 13 = _; simp only [cat]; omega
  obtain ⟨hw, hp, f1_6, f7_3, f10_3, f13_3, f16_3, f19_3, f22_5, f27_5⟩ := parts11 (by decide) (by decide) d.isLt a.isLt b.isLt (by decide) (by decide) (by decide) (by decide) e
  have h0 := ne_ones f1_6 (by decide)
  have dec : decodeWord w = .ok (.kand d a b) := by
    rw [word_vectorMove 55 f1_6 h0 (by decide)]; unfold decodeVectorMove; rw [f27_5, vregAt_of f7_3, vregAt_of f10_3, vregAt_of f13_3, f19_3, f16_3, f22_5]
    rfl
  unfold encode; rw [e2]; exact decodeBytes_word _ _ hw hp dec

theorem kor (d : VReg) (a : VReg) (b : VReg) : Statement (.kor d a b) := by
  intro hwf _
  obtain ⟨w, e⟩ : ∃ w, w = cat [(1, 1), (55, 6), (d.toNat, 3), (a.toNat, 3), (b.toNat, 3), (0, 3), (0, 3), (0, 5), (1, 5)] := ⟨_, rfl⟩
  have e2 : encodeNat (.kor d a b) = w := by
    rw [e]; show 134217839 + d.toNat * 2 ^ 7 + a.toNat * 2 ^ 10 + b.toNat * 2 ^ 13 = _; simp only [cat]; omega
  obtain ⟨hw, hp, f1_6, f7_3, f10_3, f13_3, f16_3, f19_3, f22_5, f27_5⟩ := parts11 (by decide) (by decide) d.isLt a.isLt b.isLt (by decide) (by decide) (by decide) (by decide) e
  have h0 := ne_ones f1_6 (by decide)
  have dec : decodeWord w = .ok (.kor d a b) := by
    rw [word_vectorMove 55 f1_6 h0 (by decide)]; unfold decodeVectorMove; rw [f27_5, vregAt_of f7_3, vregAt_of f10_3, vregAt_of f13_3, f19_3, f16_3, f22_5]
    rfl
  unfold encode; rw [e2]; exact decodeBytes_word _ _ hw hp dec

theorem kxor (d : VReg) (a : VReg) (b : VReg) : Statement (.kxor d a b) := by
  intro hwf _
  obtain ⟨w, e⟩ : ∃ w, w = cat [(1, 1), (55, 6), (d.toNat, 3), (a.toNat, 3), (b.toNat, 3), (0, 3), (0, 3), (0, 5), (2, 5)] := ⟨_, rfl⟩
  have e2 : encodeNat (.kxor d a b) = w := by
    rw [e]; show 268435567 + d.toNat * 2 ^ 7 + a.toNat * 2 ^ 10 + b.toNat * 2 ^ 13 = _; simp only [cat]; omega
  obtain ⟨hw, hp, f1_6, f7_3, f10_3, f13_3, f16_3, f19_3, f22_5, f27_5⟩ := parts11 (by decide) (by decide) d.isLt a.isLt b.isLt (by decide) (by decide) (by decide) (by decide) e
  have h0 := ne_ones f1_6 (by decide)
  have dec : decodeWord w = .ok (.kxor d a b) := by
    rw [word_vectorMove 55 f1_6 h0 (by decide)]; unfold decodeVectorMove; rw [f27_5, vregAt_of f7_3, vregAt_of f10_3, vregAt_of f13_3, f19_3, f16_3, f22_5]
    rfl
  unfold encode; rw [e2]; exact decodeBytes_word _ _ hw hp dec

theorem knot (d : VReg) (a : VReg) : Statement (.knot d a) := by
  intro hwf _
  obtain ⟨w, e⟩ : ∃ w, w = cat [(1, 1), (55, 6), (d.toNat, 3), (a.toNat, 3), (0, 3), (0, 3), (0, 3), (0, 5), (3, 5)] := ⟨_, rfl⟩
  have e2 : encodeNat (.knot d a) = w := by
    rw [e]; show 402653295 + d.toNat * 2 ^ 7 + a.toNat * 2 ^ 10 = _; simp only [cat]; omega
  obtain ⟨hw, hp, f1_6, f7_3, f10_3, f13_3, f16_3, f19_3, f22_5, f27_5⟩ := parts11 (by decide) (by decide) d.isLt a.isLt (by decide) (by decide) (by decide) (by decide) (by decide) e
  have h0 := ne_ones f1_6 (by decide)
  have dec : decodeWord w = .ok (.knot d a) := by
    rw [word_vectorMove 55 f1_6 h0 (by decide)]; unfold decodeVectorMove; rw [f27_5, vregAt_of f7_3, vregAt_of f10_3, f19_3, f16_3, f22_5, f13_3]
    rfl
  unfold encode; rw [e2]; exact decodeBytes_word _ _ hw hp dec

theorem kpop (g : Reg) (a : VReg) : Statement (.kpop g a) := by
  intro hwf _
  obtain ⟨w, e⟩ : ∃ w, w = cat [(1, 1), (55, 6), (0, 3), (a.toNat, 3), (0, 3), (0, 3), (0, 3), (g.toNat, 5), (4, 5)] := ⟨_, rfl⟩
  have e2 : encodeNat (.kpop g a) = w := by
    rw [e]; show 536871023 + g.toNat * 2 ^ 22 + a.toNat * 2 ^ 10 = _; simp only [cat]; omega
  obtain ⟨hw, hp, f1_6, f7_3, f10_3, f13_3, f16_3, f19_3, f22_5, f27_5⟩ := parts11 (by decide) (by decide) (by decide) a.isLt (by decide) (by decide) (by decide) g.isLt (by decide) e
  have h0 := ne_ones f1_6 (by decide)
  have dec : decodeWord w = .ok (.kpop g a) := by
    rw [word_vectorMove 55 f1_6 h0 (by decide)]; unfold decodeVectorMove; rw [f27_5, regAt_of f22_5, vregAt_of f10_3, f19_3, f16_3, f7_3, f13_3]
    rfl
  unfold encode; rw [e2]; exact decodeBytes_word _ _ hw hp dec

theorem kmovToMask (d : VReg) (g : Reg) : Statement (.kmovToMask d g) := by
  intro hwf _
  obtain ⟨w, e⟩ : ∃ w, w = cat [(1, 1), (55, 6), (d.toNat, 3), (0, 3), (0, 3), (0, 3), (0, 3), (g.toNat, 5), (5, 5)] := ⟨_, rfl⟩
  have e2 : encodeNat (.kmovToMask d g) = w := by
    rw [e]; show 671088751 + d.toNat * 2 ^ 7 + g.toNat * 2 ^ 22 = _; simp only [cat]; omega
  obtain ⟨hw, hp, f1_6, f7_3, f10_3, f13_3, f16_3, f19_3, f22_5, f27_5⟩ := parts11 (by decide) (by decide) d.isLt (by decide) (by decide) (by decide) (by decide) g.isLt (by decide) e
  have h0 := ne_ones f1_6 (by decide)
  have dec : decodeWord w = .ok (.kmovToMask d g) := by
    rw [word_vectorMove 55 f1_6 h0 (by decide)]; unfold decodeVectorMove; rw [f27_5, f19_3, regAt_of f22_5, vregAt_of f7_3, f16_3, f10_3, f13_3]
    rfl
  unfold encode; rw [e2]; exact decodeBytes_word _ _ hw hp dec

theorem kmovFromMask (g : Reg) (a : VReg) : Statement (.kmovFromMask g a) := by
  intro hwf _
  obtain ⟨w, e⟩ : ∃ w, w = cat [(1, 1), (55, 6), (0, 3), (a.toNat, 3), (0, 3), (0, 3), (1, 3), (g.toNat, 5), (5, 5)] := ⟨_, rfl⟩
  have e2 : encodeNat (.kmovFromMask g a) = w := by
    rw [e]; show 671613039 + g.toNat * 2 ^ 22 + a.toNat * 2 ^ 10 = _; simp only [cat]; omega
  obtain ⟨hw, hp, f1_6, f7_3, f10_3, f13_3, f16_3, f19_3, f22_5, f27_5⟩ := parts11 (by decide) (by decide) (by decide) a.isLt (by decide) (by decide) (by decide) g.isLt (by decide) e
  have h0 := ne_ones f1_6 (by decide)
  have dec : decodeWord w = .ok (.kmovFromMask g a) := by
    rw [word_vectorMove 55 f1_6 h0 (by decide)]; unfold decodeVectorMove; rw [f27_5, f19_3, regAt_of f22_5, vregAt_of f10_3, f16_3, f7_3, f13_3]
    rfl
  unfold encode; rw [e2]; exact decodeBytes_word _ _ hw hp dec

theorem mfs (d : Reg) (n : BitVec 12) : Statement (.mfs d n) := by
  intro hwf _
  obtain ⟨w, e⟩ : ∃ w, w = cat [(1, 1), (56, 6), (d.toNat, 5), (0, 5), (n.toNat, 12), (0, 3)] := ⟨_, rfl⟩
  have e2 : encodeNat (.mfs d n) = w := by
    rw [e]; show 113 + d.toNat * 2 ^ 7 + n.toNat * 2 ^ 17 = _; simp only [cat]; omega
  obtain ⟨hw, hp, f1_6, f7_5, f12_5, f17_12, f29_3⟩ := parts13 (by decide) (by decide) d.isLt (by decide) n.isLt (by decide) e
  have h0 := ne_ones f1_6 (by decide)
  have dec : decodeWord w = .ok (.mfs d n) := by
    rw [word_system 56 f1_6 h0 (by decide)]; unfold decodeSystem; rw [f29_3, regAt_of f7_5, ofNat_of f17_12, f12_5]
    rfl
  unfold encode; rw [e2]; exact decodeBytes_word _ _ hw hp dec

theorem mts (n : BitVec 12) (a : Reg) : Statement (.mts n a) := by
  intro hwf _
  obtain ⟨w, e⟩ : ∃ w, w = cat [(1, 1), (56, 6), (0, 5), (a.toNat, 5), (n.toNat, 12), (1, 3)] := ⟨_, rfl⟩
  have e2 : encodeNat (.mts n a) = w := by
    rw [e]; show 536871025 + n.toNat * 2 ^ 17 + a.toNat * 2 ^ 12 = _; simp only [cat]; omega
  obtain ⟨hw, hp, f1_6, f7_5, f12_5, f17_12, f29_3⟩ := parts13 (by decide) (by decide) (by decide) a.isLt n.isLt (by decide) e
  have h0 := ne_ones f1_6 (by decide)
  have dec : decodeWord w = .ok (.mts n a) := by
    rw [word_system 56 f1_6 h0 (by decide)]; unfold decodeSystem; rw [f29_3, regAt_of f12_5, ofNat_of f17_12, f7_5]
    rfl
  unfold encode; rw [e2]; exact decodeBytes_word _ _ hw hp dec

theorem sys (n : BitVec 12) : Statement (.sys n) := by
  intro hwf _
  obtain ⟨w, e⟩ : ∃ w, w = cat [(1, 1), (56, 6), (0, 5), (0, 5), (n.toNat, 12), (2, 3)] := ⟨_, rfl⟩
  have e2 : encodeNat (.sys n) = w := by
    rw [e]; show 1073741937 + n.toNat * 2 ^ 17 = _; simp only [cat]; omega
  obtain ⟨hw, hp, f1_6, f7_5, f12_5, f17_12, f29_3⟩ := parts13 (by decide) (by decide) (by decide) (by decide) n.isLt (by decide) e
  have h0 := ne_ones f1_6 (by decide)
  have dec : decodeWord w = .ok (.sys n) := by
    rw [word_system 56 f1_6 h0 (by decide)]; unfold decodeSystem; rw [f29_3, ofNat_of f17_12, f12_5, f7_5]
    rfl
  unfold encode; rw [e2]; exact decodeBytes_word _ _ hw hp dec

theorem brk (n : BitVec 12) : Statement (.brk n) := by
  intro hwf _
  obtain ⟨w, e⟩ : ∃ w, w = cat [(1, 1), (56, 6), (0, 5), (0, 5), (n.toNat, 12), (3, 3)] := ⟨_, rfl⟩
  have e2 : encodeNat (.brk n) = w := by
    rw [e]; show 1610612849 + n.toNat * 2 ^ 17 = _; simp only [cat]; omega
  obtain ⟨hw, hp, f1_6, f7_5, f12_5, f17_12, f29_3⟩ := parts13 (by decide) (by decide) (by decide) (by decide) n.isLt (by decide) e
  have h0 := ne_ones f1_6 (by decide)
  have dec : decodeWord w = .ok (.brk n) := by
    rw [word_system 56 f1_6 h0 (by decide)]; unfold decodeSystem; rw [f29_3, ofNat_of f17_12, f12_5, f7_5]
    rfl
  unfold encode; rw [e2]; exact decodeBytes_word _ _ hw hp dec

theorem sret : Statement (.sret) := by
  intro hwf _
  obtain ⟨w, e⟩ : ∃ w, w = cat [(1, 1), (57, 6), (0, 5), (0, 5), (0, 5), (0, 10)] := ⟨_, rfl⟩
  have e2 : encodeNat (.sret) = w := by
    rw [e]; show 115 = _; simp only [cat]; omega
  obtain ⟨hw, hp, f1_6, f7_5, f12_5, f17_5, f22_10⟩ := parts0 (by decide) (by decide) (by decide) (by decide) (by decide) (by decide) e
  have h0 := ne_ones f1_6 (by decide)
  have dec : decodeWord w = .ok (.sret) := by
    rw [word_system 57 f1_6 h0 (by decide)]; unfold decodeSystem; rw [f22_10, f7_5, f12_5, f17_5]
    rfl
  unfold encode; rw [e2]; exact decodeBytes_word _ _ hw hp dec

theorem tlbinv (a : Reg) (b : Reg) : Statement (.tlbinv a b) := by
  intro hwf _
  obtain ⟨w, e⟩ : ∃ w, w = cat [(1, 1), (57, 6), (0, 5), (a.toNat, 5), (b.toNat, 5), (1, 10)] := ⟨_, rfl⟩
  have e2 : encodeNat (.tlbinv a b) = w := by
    rw [e]; show 4194419 + a.toNat * 2 ^ 12 + b.toNat * 2 ^ 17 = _; simp only [cat]; omega
  obtain ⟨hw, hp, f1_6, f7_5, f12_5, f17_5, f22_10⟩ := parts0 (by decide) (by decide) (by decide) a.isLt b.isLt (by decide) e
  have h0 := ne_ones f1_6 (by decide)
  have dec : decodeWord w = .ok (.tlbinv a b) := by
    rw [word_system 57 f1_6 h0 (by decide)]; unfold decodeSystem; rw [f22_10, regAt_of f12_5, regAt_of f17_5, f7_5]
    rfl
  unfold encode; rw [e2]; exact decodeBytes_word _ _ hw hp dec

theorem slspill (a : Reg) (b : Reg) : Statement (.slspill a b) := by
  intro hwf _
  obtain ⟨w, e⟩ : ∃ w, w = cat [(1, 1), (57, 6), (0, 5), (a.toNat, 5), (b.toNat, 5), (2, 10)] := ⟨_, rfl⟩
  have e2 : encodeNat (.slspill a b) = w := by
    rw [e]; show 8388723 + a.toNat * 2 ^ 12 + b.toNat * 2 ^ 17 = _; simp only [cat]; omega
  obtain ⟨hw, hp, f1_6, f7_5, f12_5, f17_5, f22_10⟩ := parts0 (by decide) (by decide) (by decide) a.isLt b.isLt (by decide) e
  have h0 := ne_ones f1_6 (by decide)
  have dec : decodeWord w = .ok (.slspill a b) := by
    rw [word_system 57 f1_6 h0 (by decide)]; unfold decodeSystem; rw [f22_10, regAt_of f12_5, regAt_of f17_5, f7_5]
    rfl
  unfold encode; rw [e2]; exact decodeBytes_word _ _ hw hp dec

theorem slload (a : Reg) (b : Reg) : Statement (.slload a b) := by
  intro hwf _
  obtain ⟨w, e⟩ : ∃ w, w = cat [(1, 1), (57, 6), (0, 5), (a.toNat, 5), (b.toNat, 5), (3, 10)] := ⟨_, rfl⟩
  have e2 : encodeNat (.slload a b) = w := by
    rw [e]; show 12583027 + a.toNat * 2 ^ 12 + b.toNat * 2 ^ 17 = _; simp only [cat]; omega
  obtain ⟨hw, hp, f1_6, f7_5, f12_5, f17_5, f22_10⟩ := parts0 (by decide) (by decide) (by decide) a.isLt b.isLt (by decide) e
  have h0 := ne_ones f1_6 (by decide)
  have dec : decodeWord w = .ok (.slload a b) := by
    rw [word_system 57 f1_6 h0 (by decide)]; unfold decodeSystem; rw [f22_10, regAt_of f12_5, regAt_of f17_5, f7_5]
    rfl
  unfold encode; rw [e2]; exact decodeBytes_word _ _ hw hp dec

theorem slstop (a : Reg) : Statement (.slstop a) := by
  intro hwf _
  obtain ⟨w, e⟩ : ∃ w, w = cat [(1, 1), (57, 6), (0, 5), (a.toNat, 5), (0, 5), (4, 10)] := ⟨_, rfl⟩
  have e2 : encodeNat (.slstop a) = w := by
    rw [e]; show 16777331 + a.toNat * 2 ^ 12 = _; simp only [cat]; omega
  obtain ⟨hw, hp, f1_6, f7_5, f12_5, f17_5, f22_10⟩ := parts0 (by decide) (by decide) (by decide) a.isLt (by decide) (by decide) e
  have h0 := ne_ones f1_6 (by decide)
  have dec : decodeWord w = .ok (.slstop a) := by
    rw [word_system 57 f1_6 h0 (by decide)]; unfold decodeSystem; rw [f22_10, regAt_of f12_5, f7_5, f17_5]
    rfl
  unfold encode; rw [e2]; exact decodeBytes_word _ _ hw hp dec

theorem slgo (a : Reg) : Statement (.slgo a) := by
  intro hwf _
  obtain ⟨w, e⟩ : ∃ w, w = cat [(1, 1), (57, 6), (0, 5), (a.toNat, 5), (0, 5), (5, 10)] := ⟨_, rfl⟩
  have e2 : encodeNat (.slgo a) = w := by
    rw [e]; show 20971635 + a.toNat * 2 ^ 12 = _; simp only [cat]; omega
  obtain ⟨hw, hp, f1_6, f7_5, f12_5, f17_5, f22_10⟩ := parts0 (by decide) (by decide) (by decide) a.isLt (by decide) (by decide) e
  have h0 := ne_ones f1_6 (by decide)
  have dec : decodeWord w = .ok (.slgo a) := by
    rw [word_system 57 f1_6 h0 (by decide)]; unfold decodeSystem; rw [f22_10, regAt_of f12_5, f7_5, f17_5]
    rfl
  unfold encode; rw [e2]; exact decodeBytes_word _ _ hw hp dec

theorem halt : Statement (.halt) := by
  intro hwf _
  obtain ⟨w, e⟩ : ∃ w, w = cat [(1, 1), (57, 6), (0, 5), (0, 5), (0, 5), (6, 10)] := ⟨_, rfl⟩
  have e2 : encodeNat (.halt) = w := by
    rw [e]; show 25165939 = _; simp only [cat]; omega
  obtain ⟨hw, hp, f1_6, f7_5, f12_5, f17_5, f22_10⟩ := parts0 (by decide) (by decide) (by decide) (by decide) (by decide) (by decide) e
  have h0 := ne_ones f1_6 (by decide)
  have dec : decodeWord w = .ok (.halt) := by
    rw [word_system 57 f1_6 h0 (by decide)]; unfold decodeSystem; rw [f22_10, f7_5, f12_5, f17_5]
    rfl
  unfold encode; rw [e2]; exact decodeBytes_word _ _ hw hp dec

theorem idle : Statement (.idle) := by
  intro hwf _
  obtain ⟨w, e⟩ : ∃ w, w = cat [(1, 1), (57, 6), (0, 5), (0, 5), (0, 5), (7, 10)] := ⟨_, rfl⟩
  have e2 : encodeNat (.idle) = w := by
    rw [e]; show 29360243 = _; simp only [cat]; omega
  obtain ⟨hw, hp, f1_6, f7_5, f12_5, f17_5, f22_10⟩ := parts0 (by decide) (by decide) (by decide) (by decide) (by decide) (by decide) e
  have h0 := ne_ones f1_6 (by decide)
  have dec : decodeWord w = .ok (.idle) := by
    rw [word_system 57 f1_6 h0 (by decide)]; unfold decodeSystem; rw [f22_10, f7_5, f12_5, f17_5]
    rfl
  unfold encode; rw [e2]; exact decodeBytes_word _ _ hw hp dec

theorem cMv (d : Reg) (a : Reg) : Statement (.cMv d a) := by
  intro hwf _
  obtain ⟨w, e⟩ : ∃ w, w = cat [(0, 1), (a.toNat, 5), (d.toNat, 5), (1, 5)] := ⟨_, rfl⟩
  have e2 : encodeNat (.cMv d a) = w := by
    rw [e]; show 2048 + d.toNat * 2 ^ 6 + a.toNat * 2 ^ 1 = _; simp only [cat]; omega
  obtain ⟨hw, hp, f1_5, f6_5, f11_5⟩ := parts14 (by decide) a.isLt d.isLt (by decide) e
  have h0 : w ≠ 0 := by rintro rfl; exact absurd f11_5 (by decide)
  have dec : decodeParcel w = .ok (.cMv d a) := by
    unfold decodeParcel; rw [f11_5, regAt_of f6_5, regAt_of f1_5]; exact if_neg h0
  unfold encode; rw [e2]; exact decodeBytes_parcel _ _ hw hp dec

theorem cAdd (d : Reg) (a : Reg) : Statement (.cAdd d a) := by
  intro hwf _
  obtain ⟨w, e⟩ : ∃ w, w = cat [(0, 1), (a.toNat, 5), (d.toNat, 5), (2, 5)] := ⟨_, rfl⟩
  have e2 : encodeNat (.cAdd d a) = w := by
    rw [e]; show 4096 + d.toNat * 2 ^ 6 + a.toNat * 2 ^ 1 = _; simp only [cat]; omega
  obtain ⟨hw, hp, f1_5, f6_5, f11_5⟩ := parts14 (by decide) a.isLt d.isLt (by decide) e
  have h0 : w ≠ 0 := by rintro rfl; exact absurd f11_5 (by decide)
  have dec : decodeParcel w = .ok (.cAdd d a) := by
    unfold decodeParcel; rw [f11_5, regAt_of f6_5, regAt_of f1_5]; exact if_neg h0
  unfold encode; rw [e2]; exact decodeBytes_parcel _ _ hw hp dec

theorem cSub (d : Reg) (a : Reg) : Statement (.cSub d a) := by
  intro hwf _
  obtain ⟨w, e⟩ : ∃ w, w = cat [(0, 1), (a.toNat, 5), (d.toNat, 5), (3, 5)] := ⟨_, rfl⟩
  have e2 : encodeNat (.cSub d a) = w := by
    rw [e]; show 6144 + d.toNat * 2 ^ 6 + a.toNat * 2 ^ 1 = _; simp only [cat]; omega
  obtain ⟨hw, hp, f1_5, f6_5, f11_5⟩ := parts14 (by decide) a.isLt d.isLt (by decide) e
  have h0 : w ≠ 0 := by rintro rfl; exact absurd f11_5 (by decide)
  have dec : decodeParcel w = .ok (.cSub d a) := by
    unfold decodeParcel; rw [f11_5, regAt_of f6_5, regAt_of f1_5]; exact if_neg h0
  unfold encode; rw [e2]; exact decodeBytes_parcel _ _ hw hp dec

theorem cAnd (d : Reg) (a : Reg) : Statement (.cAnd d a) := by
  intro hwf _
  obtain ⟨w, e⟩ : ∃ w, w = cat [(0, 1), (a.toNat, 5), (d.toNat, 5), (4, 5)] := ⟨_, rfl⟩
  have e2 : encodeNat (.cAnd d a) = w := by
    rw [e]; show 8192 + d.toNat * 2 ^ 6 + a.toNat * 2 ^ 1 = _; simp only [cat]; omega
  obtain ⟨hw, hp, f1_5, f6_5, f11_5⟩ := parts14 (by decide) a.isLt d.isLt (by decide) e
  have h0 : w ≠ 0 := by rintro rfl; exact absurd f11_5 (by decide)
  have dec : decodeParcel w = .ok (.cAnd d a) := by
    unfold decodeParcel; rw [f11_5, regAt_of f6_5, regAt_of f1_5]; exact if_neg h0
  unfold encode; rw [e2]; exact decodeBytes_parcel _ _ hw hp dec

theorem cOr (d : Reg) (a : Reg) : Statement (.cOr d a) := by
  intro hwf _
  obtain ⟨w, e⟩ : ∃ w, w = cat [(0, 1), (a.toNat, 5), (d.toNat, 5), (5, 5)] := ⟨_, rfl⟩
  have e2 : encodeNat (.cOr d a) = w := by
    rw [e]; show 10240 + d.toNat * 2 ^ 6 + a.toNat * 2 ^ 1 = _; simp only [cat]; omega
  obtain ⟨hw, hp, f1_5, f6_5, f11_5⟩ := parts14 (by decide) a.isLt d.isLt (by decide) e
  have h0 : w ≠ 0 := by rintro rfl; exact absurd f11_5 (by decide)
  have dec : decodeParcel w = .ok (.cOr d a) := by
    unfold decodeParcel; rw [f11_5, regAt_of f6_5, regAt_of f1_5]; exact if_neg h0
  unfold encode; rw [e2]; exact decodeBytes_parcel _ _ hw hp dec

theorem cXor (d : Reg) (a : Reg) : Statement (.cXor d a) := by
  intro hwf _
  obtain ⟨w, e⟩ : ∃ w, w = cat [(0, 1), (a.toNat, 5), (d.toNat, 5), (6, 5)] := ⟨_, rfl⟩
  have e2 : encodeNat (.cXor d a) = w := by
    rw [e]; show 12288 + d.toNat * 2 ^ 6 + a.toNat * 2 ^ 1 = _; simp only [cat]; omega
  obtain ⟨hw, hp, f1_5, f6_5, f11_5⟩ := parts14 (by decide) a.isLt d.isLt (by decide) e
  have h0 : w ≠ 0 := by rintro rfl; exact absurd f11_5 (by decide)
  have dec : decodeParcel w = .ok (.cXor d a) := by
    unfold decodeParcel; rw [f11_5, regAt_of f6_5, regAt_of f1_5]; exact if_neg h0
  unfold encode; rw [e2]; exact decodeBytes_parcel _ _ hw hp dec

theorem cAddi (d : Reg) (imm : BitVec 5) : Statement (.cAddi d imm) := by
  intro hwf _
  obtain ⟨w, e⟩ : ∃ w, w = cat [(0, 1), (imm.toNat, 5), (d.toNat, 5), (7, 5)] := ⟨_, rfl⟩
  have e2 : encodeNat (.cAddi d imm) = w := by
    rw [e]; show 14336 + d.toNat * 2 ^ 6 + imm.toNat * 2 ^ 1 = _; simp only [cat]; omega
  obtain ⟨hw, hp, f1_5, f6_5, f11_5⟩ := parts14 (by decide) imm.isLt d.isLt (by decide) e
  have h0 : w ≠ 0 := by rintro rfl; exact absurd f11_5 (by decide)
  have dec : decodeParcel w = .ok (.cAddi d imm) := by
    unfold decodeParcel; rw [f11_5, regAt_of f6_5, ofNat_of f1_5]; exact if_neg h0
  unfold encode; rw [e2]; exact decodeBytes_parcel _ _ hw hp dec

theorem cLi (d : Reg) (imm : BitVec 5) : Statement (.cLi d imm) := by
  intro hwf _
  obtain ⟨w, e⟩ : ∃ w, w = cat [(0, 1), (imm.toNat, 5), (d.toNat, 5), (8, 5)] := ⟨_, rfl⟩
  have e2 : encodeNat (.cLi d imm) = w := by
    rw [e]; show 16384 + d.toNat * 2 ^ 6 + imm.toNat * 2 ^ 1 = _; simp only [cat]; omega
  obtain ⟨hw, hp, f1_5, f6_5, f11_5⟩ := parts14 (by decide) imm.isLt d.isLt (by decide) e
  have h0 : w ≠ 0 := by rintro rfl; exact absurd f11_5 (by decide)
  have dec : decodeParcel w = .ok (.cLi d imm) := by
    unfold decodeParcel; rw [f11_5, regAt_of f6_5, ofNat_of f1_5]; exact if_neg h0
  unfold encode; rw [e2]; exact decodeBytes_parcel _ _ hw hp dec

theorem cSlli (d : Reg) (sh : BitVec 5) : Statement (.cSlli d sh) := by
  intro hwf _
  obtain ⟨w, e⟩ : ∃ w, w = cat [(0, 1), (sh.toNat, 5), (d.toNat, 5), (9, 5)] := ⟨_, rfl⟩
  have e2 : encodeNat (.cSlli d sh) = w := by
    rw [e]; show 18432 + d.toNat * 2 ^ 6 + sh.toNat * 2 ^ 1 = _; simp only [cat]; omega
  obtain ⟨hw, hp, f1_5, f6_5, f11_5⟩ := parts14 (by decide) sh.isLt d.isLt (by decide) e
  have h0 : w ≠ 0 := by rintro rfl; exact absurd f11_5 (by decide)
  have dec : decodeParcel w = .ok (.cSlli d sh) := by
    unfold decodeParcel; rw [f11_5, regAt_of f6_5, ofNat_of f1_5]; exact if_neg h0
  unfold encode; rw [e2]; exact decodeBytes_parcel _ _ hw hp dec

theorem cSrli (d : Reg) (sh : BitVec 5) : Statement (.cSrli d sh) := by
  intro hwf _
  obtain ⟨w, e⟩ : ∃ w, w = cat [(0, 1), (sh.toNat, 5), (d.toNat, 5), (10, 5)] := ⟨_, rfl⟩
  have e2 : encodeNat (.cSrli d sh) = w := by
    rw [e]; show 20480 + d.toNat * 2 ^ 6 + sh.toNat * 2 ^ 1 = _; simp only [cat]; omega
  obtain ⟨hw, hp, f1_5, f6_5, f11_5⟩ := parts14 (by decide) sh.isLt d.isLt (by decide) e
  have h0 : w ≠ 0 := by rintro rfl; exact absurd f11_5 (by decide)
  have dec : decodeParcel w = .ok (.cSrli d sh) := by
    unfold decodeParcel; rw [f11_5, regAt_of f6_5, ofNat_of f1_5]; exact if_neg h0
  unfold encode; rw [e2]; exact decodeBytes_parcel _ _ hw hp dec

theorem cSrai (d : Reg) (sh : BitVec 5) : Statement (.cSrai d sh) := by
  intro hwf _
  obtain ⟨w, e⟩ : ∃ w, w = cat [(0, 1), (sh.toNat, 5), (d.toNat, 5), (11, 5)] := ⟨_, rfl⟩
  have e2 : encodeNat (.cSrai d sh) = w := by
    rw [e]; show 22528 + d.toNat * 2 ^ 6 + sh.toNat * 2 ^ 1 = _; simp only [cat]; omega
  obtain ⟨hw, hp, f1_5, f6_5, f11_5⟩ := parts14 (by decide) sh.isLt d.isLt (by decide) e
  have h0 : w ≠ 0 := by rintro rfl; exact absurd f11_5 (by decide)
  have dec : decodeParcel w = .ok (.cSrai d sh) := by
    unfold decodeParcel; rw [f11_5, regAt_of f6_5, ofNat_of f1_5]; exact if_neg h0
  unfold encode; rw [e2]; exact decodeBytes_parcel _ _ hw hp dec

theorem cLdd (d : BitVec 3) (b : BitVec 3) (off : BitVec 4) : Statement (.cLdd d b off) := by
  intro hwf _
  obtain ⟨w, e⟩ : ∃ w, w = cat [(0, 1), (off.toNat, 4), (b.toNat, 3), (d.toNat, 3), (12, 5)] := ⟨_, rfl⟩
  have e2 : encodeNat (.cLdd d b off) = w := by
    rw [e]; show 24576 + d.toNat * 2 ^ 8 + b.toNat * 2 ^ 5 + off.toNat * 2 ^ 1 = _; simp only [cat]; omega
  obtain ⟨hw, hp, f1_4, f5_3, f8_3, f11_5⟩ := parts15 (by decide) off.isLt b.isLt d.isLt (by decide) e
  have h0 : w ≠ 0 := by rintro rfl; exact absurd f11_5 (by decide)
  have dec : decodeParcel w = .ok (.cLdd d b off) := by
    unfold decodeParcel; rw [f11_5, ofNat_of f8_3, ofNat_of f5_3, ofNat_of f1_4]; exact if_neg h0
  unfold encode; rw [e2]; exact decodeBytes_parcel _ _ hw hp dec

theorem cStd (s : BitVec 3) (b : BitVec 3) (off : BitVec 4) : Statement (.cStd s b off) := by
  intro hwf _
  obtain ⟨w, e⟩ : ∃ w, w = cat [(0, 1), (off.toNat, 4), (b.toNat, 3), (s.toNat, 3), (13, 5)] := ⟨_, rfl⟩
  have e2 : encodeNat (.cStd s b off) = w := by
    rw [e]; show 26624 + s.toNat * 2 ^ 8 + b.toNat * 2 ^ 5 + off.toNat * 2 ^ 1 = _; simp only [cat]; omega
  obtain ⟨hw, hp, f1_4, f5_3, f8_3, f11_5⟩ := parts15 (by decide) off.isLt b.isLt s.isLt (by decide) e
  have h0 : w ≠ 0 := by rintro rfl; exact absurd f11_5 (by decide)
  have dec : decodeParcel w = .ok (.cStd s b off) := by
    unfold decodeParcel; rw [f11_5, ofNat_of f8_3, ofNat_of f5_3, ofNat_of f1_4]; exact if_neg h0
  unfold encode; rw [e2]; exact decodeBytes_parcel _ _ hw hp dec

theorem cBz (a : BitVec 3) (off : BitVec 7) : Statement (.cBz a off) := by
  intro hwf _
  obtain ⟨w, e⟩ : ∃ w, w = cat [(0, 1), (off.toNat, 7), (a.toNat, 3), (14, 5)] := ⟨_, rfl⟩
  have e2 : encodeNat (.cBz a off) = w := by
    rw [e]; show 28672 + a.toNat * 2 ^ 8 + off.toNat * 2 ^ 1 = _; simp only [cat]; omega
  obtain ⟨hw, hp, f1_7, f8_3, f11_5⟩ := parts16 (by decide) off.isLt a.isLt (by decide) e
  have h0 : w ≠ 0 := by rintro rfl; exact absurd f11_5 (by decide)
  have dec : decodeParcel w = .ok (.cBz a off) := by
    unfold decodeParcel; rw [f11_5, ofNat_of f8_3, ofNat_of f1_7]; exact if_neg h0
  unfold encode; rw [e2]; exact decodeBytes_parcel _ _ hw hp dec

theorem cBnz (a : BitVec 3) (off : BitVec 7) : Statement (.cBnz a off) := by
  intro hwf _
  obtain ⟨w, e⟩ : ∃ w, w = cat [(0, 1), (off.toNat, 7), (a.toNat, 3), (15, 5)] := ⟨_, rfl⟩
  have e2 : encodeNat (.cBnz a off) = w := by
    rw [e]; show 30720 + a.toNat * 2 ^ 8 + off.toNat * 2 ^ 1 = _; simp only [cat]; omega
  obtain ⟨hw, hp, f1_7, f8_3, f11_5⟩ := parts16 (by decide) off.isLt a.isLt (by decide) e
  have h0 : w ≠ 0 := by rintro rfl; exact absurd f11_5 (by decide)
  have dec : decodeParcel w = .ok (.cBnz a off) := by
    unfold decodeParcel; rw [f11_5, ofNat_of f8_3, ofNat_of f1_7]; exact if_neg h0
  unfold encode; rw [e2]; exact decodeBytes_parcel _ _ hw hp dec

theorem cJ (off : BitVec 10) : Statement (.cJ off) := by
  intro hwf _
  obtain ⟨w, e⟩ : ∃ w, w = cat [(0, 1), (off.toNat, 10), (16, 5)] := ⟨_, rfl⟩
  have e2 : encodeNat (.cJ off) = w := by
    rw [e]; show 32768 + off.toNat * 2 ^ 1 = _; simp only [cat]; omega
  obtain ⟨hw, hp, f1_10, f11_5⟩ := parts17 (by decide) off.isLt (by decide) e
  have h0 : w ≠ 0 := by rintro rfl; exact absurd f11_5 (by decide)
  have dec : decodeParcel w = .ok (.cJ off) := by
    unfold decodeParcel; rw [f11_5, ofNat_of f1_10]; exact if_neg h0
  unfold encode; rw [e2]; exact decodeBytes_parcel _ _ hw hp dec

theorem cJr (a : Reg) : Statement (.cJr a) := by
  intro hwf _
  obtain ⟨w, e⟩ : ∃ w, w = cat [(0, 1), (0, 5), (a.toNat, 5), (17, 5)] := ⟨_, rfl⟩
  have e2 : encodeNat (.cJr a) = w := by
    rw [e]; show 34816 + a.toNat * 2 ^ 6 = _; simp only [cat]; omega
  obtain ⟨hw, hp, f1_5, f6_5, f11_5⟩ := parts14 (by decide) (by decide) a.isLt (by decide) e
  have h0 : w ≠ 0 := by rintro rfl; exact absurd f11_5 (by decide)
  have dec : decodeParcel w = .ok (.cJr a) := by
    unfold decodeParcel; rw [f11_5, regAt_of f6_5, f1_5]; exact if_neg h0
  unfold encode; rw [e2]; exact decodeBytes_parcel _ _ hw hp dec

theorem cNext : Statement (.cNext) := by
  intro hwf _
  obtain ⟨w, e⟩ : ∃ w, w = cat [(0, 1), (0, 10), (18, 5)] := ⟨_, rfl⟩
  have e2 : encodeNat (.cNext) = w := by
    rw [e]; show 36864 = _; simp only [cat]; omega
  obtain ⟨hw, hp, f1_10, f11_5⟩ := parts17 (by decide) (by decide) (by decide) e
  have h0 : w ≠ 0 := by rintro rfl; exact absurd f11_5 (by decide)
  have dec : decodeParcel w = .ok (.cNext) := by
    unfold decodeParcel; rw [f11_5, f1_10]; exact if_neg h0
  unfold encode; rw [e2]; exact decodeBytes_parcel _ _ hw hp dec

theorem cPs (d : BitVec 3) (n : BitVec 3) : Statement (.cPs d n) := by
  intro hwf _
  obtain ⟨w, e⟩ : ∃ w, w = cat [(0, 1), (0, 4), (n.toNat, 3), (d.toNat, 3), (19, 5)] := ⟨_, rfl⟩
  have e2 : encodeNat (.cPs d n) = w := by
    rw [e]; show 38912 + d.toNat * 2 ^ 8 + n.toNat * 2 ^ 5 = _; simp only [cat]; omega
  obtain ⟨hw, hp, f1_4, f5_3, f8_3, f11_5⟩ := parts15 (by decide) (by decide) n.isLt d.isLt (by decide) e
  have h0 : w ≠ 0 := by rintro rfl; exact absurd f11_5 (by decide)
  have dec : decodeParcel w = .ok (.cPs d n) := by
    unfold decodeParcel; rw [f11_5, ofNat_of f8_3, ofNat_of f5_3, f1_4]; exact if_neg h0
  unfold encode; rw [e2]; exact decodeBytes_parcel _ _ hw hp dec

theorem cNop : Statement (.cNop) := by
  intro hwf _
  obtain ⟨w, e⟩ : ∃ w, w = cat [(0, 1), (0, 10), (20, 5)] := ⟨_, rfl⟩
  have e2 : encodeNat (.cNop) = w := by
    rw [e]; show 40960 = _; simp only [cat]; omega
  obtain ⟨hw, hp, f1_10, f11_5⟩ := parts17 (by decide) (by decide) (by decide) e
  have h0 : w ≠ 0 := by rintro rfl; exact absurd f11_5 (by decide)
  have dec : decodeParcel w = .ok (.cNop) := by
    unfold decodeParcel; rw [f11_5, f1_10]; exact if_neg h0
  unfold encode; rw [e2]; exact decodeBytes_parcel _ _ hw hp dec

theorem illegalEncoding (cause : Byte) : Statement (.illegalEncoding cause) := ofEvent _ rfl
theorem rotationTurn (die : Nat) (core : Nat) : Statement (.rotationTurn die core) := ofEvent _ rfl
theorem slotDraw (agent : Nat) : Statement (.slotDraw agent) := ofEvent _ rfl
theorem spawnBroadcast (die : Nat) (master : Nat) : Statement (.spawnBroadcast die master) := ofEvent _ rfl
theorem chunkRequest (die : Nat) (master : Nat) : Statement (.chunkRequest die master) := ofEvent _ rfl
theorem psWindow (spawn : Nat) : Statement (.psWindow spawn) := ofEvent _ rfl
theorem psResult (agent : Nat) : Statement (.psResult agent) := ofEvent _ rfl
theorem basinRefill (die : Nat) : Statement (.basinRefill die) := ofEvent _ rfl
theorem joinRetire (agent : Nat) : Statement (.joinRetire agent) := ofEvent _ rfl
theorem nextDrainComplete (agent : Nat) : Statement (.nextDrainComplete agent) := ofEvent _ rfl
theorem longLatencyResult (agent : Nat) : Statement (.longLatencyResult agent) := ofEvent _ rfl
theorem memoryRequestAtHome (agent : Nat) : Statement (.memoryRequestAtHome agent) := ofEvent _ rfl
theorem loadReply (agent : Nat) : Statement (.loadReply agent) := ofEvent _ rfl
theorem streamingAccessPerform (agent : Nat) (index : Nat) : Statement (.streamingAccessPerform agent index) := ofEvent _ rfl
theorem idleWake (agent : Nat) : Statement (.idleWake agent) := ofEvent _ rfl
theorem mwaitPoll (agent : Nat) : Statement (.mwaitPoll agent) := ofEvent _ rfl
theorem watchLimit (agent : Nat) : Statement (.watchLimit agent) := ofEvent _ rfl
theorem sleepWake (agent : Nat) : Statement (.sleepWake agent) := ofEvent _ rfl
theorem waitcComplete (agent : Nat) : Statement (.waitcComplete agent) := ofEvent _ rfl
theorem fenceComplete (agent : Nat) : Statement (.fenceComplete agent) := ofEvent _ rfl
theorem leaseExpiry (master : Nat) (line : Nat) : Statement (.leaseExpiry master line) := ofEvent _ rfl
theorem trapRecordPost : Statement (.trapRecordPost) := ofEvent _ rfl
theorem deferredSupervisorSave (agent : Nat) : Statement (.deferredSupervisorSave agent) := ofEvent _ rfl
theorem conduitTake (die : Nat) (core : Nat) : Statement (.conduitTake die core) := ofEvent _ rfl
theorem promiseRevision (die : Nat) (core : Nat) (seq : Nat) : Statement (.promiseRevision die core seq) := ofEvent _ rfl
theorem denseCopy (die : Nat) (core : Nat) (seq : Nat) : Statement (.denseCopy die core seq) := ofEvent _ rfl
theorem gather (die : Nat) (core : Nat) (seq : Nat) : Statement (.gather die core seq) := ofEvent _ rfl
theorem scatter (die : Nat) (core : Nat) (seq : Nat) : Statement (.scatter die core seq) := ofEvent _ rfl
theorem pooledGather (die : Nat) (core : Nat) (seq : Nat) : Statement (.pooledGather die core seq) := ofEvent _ rfl
theorem rowReplace (die : Nat) (core : Nat) (seq : Nat) : Statement (.rowReplace die core seq) := ofEvent _ rfl
theorem versionWaitWake (die : Nat) (core : Nat) (seq : Nat) : Statement (.versionWaitWake die core seq) := ofEvent _ rfl
theorem copyResume (die : Nat) (core : Nat) (seq : Nat) : Statement (.copyResume die core seq) := ofEvent _ rfl
theorem copyCompletion (die : Nat) (core : Nat) : Statement (.copyCompletion die core) := ofEvent _ rfl
theorem taskDispatch (die : Nat) : Statement (.taskDispatch die) := ofEvent _ rfl
theorem aclr (die : Nat) (list : Nat) : Statement (.aclr die list) := ofEvent _ rfl
theorem mma (die : Nat) (handle : Nat) : Statement (.mma die handle) := ofEvent _ rfl
theorem applyBlock (die : Nat) (handle : Nat) (row : Nat) : Statement (.applyBlock die handle row) := ofEvent _ rfl
theorem exponentMessage (die : Nat) (handle : Nat) (row : Nat) : Statement (.exponentMessage die handle row) := ofEvent _ rfl
theorem rdout (die : Nat) (handle : Nat) : Statement (.rdout die handle) := ofEvent _ rfl
theorem asave (die : Nat) (handle : Nat) : Statement (.asave die handle) := ofEvent _ rfl
theorem aload (die : Nat) (list : Nat) : Statement (.aload die list) := ofEvent _ rfl
theorem afree (die : Nat) (handle : Nat) : Statement (.afree die handle) := ofEvent _ rfl
theorem groupWatchdog (die : Nat) (handle : Nat) : Statement (.groupWatchdog die handle) := ofEvent _ rfl
theorem taskResume (die : Nat) (handle : Nat) : Statement (.taskResume die handle) := ofEvent _ rfl
theorem taskCompletion (die : Nat) (list : Nat) : Statement (.taskCompletion die list) := ofEvent _ rfl
theorem msRequestStart (die : Nat) (stack : Nat) : Statement (.msRequestStart die stack) := ofEvent _ rfl
theorem msReduce (die : Nat) (stack : Nat) : Statement (.msReduce die stack) := ofEvent _ rfl
theorem msFill (die : Nat) (stack : Nat) : Statement (.msFill die stack) := ofEvent _ rfl
theorem msCopy (die : Nat) (stack : Nat) : Statement (.msCopy die stack) := ofEvent _ rfl
theorem msFeInit (die : Nat) (stack : Nat) : Statement (.msFeInit die stack) := ofEvent _ rfl
theorem msResume (die : Nat) (stack : Nat) : Statement (.msResume die stack) := ofEvent _ rfl
theorem msCompletion (die : Nat) (stack : Nat) : Statement (.msCompletion die stack) := ofEvent _ rfl
theorem collectiveInstanceStart (handle : Nat) (peers : List PeerPost) : Statement (.collectiveInstanceStart handle peers) := ofEvent _ rfl
theorem colDenseAllreduce (handle : Nat) : Statement (.colDenseAllreduce handle) := ofEvent _ rfl
theorem colSparseAllreduce (handle : Nat) : Statement (.colSparseAllreduce handle) := ofEvent _ rfl
theorem colBroadcast (handle : Nat) : Statement (.colBroadcast handle) := ofEvent _ rfl
theorem colAllGather (handle : Nat) : Statement (.colAllGather handle) := ofEvent _ rfl
theorem colResume (handle : Nat) : Statement (.colResume handle) := ofEvent _ rfl
theorem colCompletion (handle : Nat) : Statement (.colCompletion handle) := ofEvent _ rfl
theorem colAbort (handle : Nat) : Statement (.colAbort handle) := ofEvent _ rfl
theorem graphUpload (value : Word) : Statement (.graphUpload value) := ofEvent _ rfl
theorem runTrigger (value : Word) : Statement (.runTrigger value) := ofEvent _ rfl
theorem runCancel (value : Word) : Statement (.runCancel value) := ofEvent _ rfl
theorem runStart : Statement (.runStart) := ofEvent _ rfl
theorem nodeStart : Statement (.nodeStart) := ofEvent _ rfl
theorem nodeCompletion (run : Nat) (node : Nat) : Statement (.nodeCompletion run node) := ofEvent _ rfl
theorem lvlcmdCancel : Statement (.lvlcmdCancel) := ofEvent _ rfl
theorem commCreate (addr : Word) : Statement (.commCreate addr) := ofEvent _ rfl
theorem commEnd (addr : Word) : Statement (.commEnd addr) := ofEvent _ rfl
theorem pageWalk (va : Word) (kind : AccessKind) : Statement (.pageWalk va kind) := ofEvent _ rfl
theorem atsTranslationResponse (port : Nat) (pasid : Nat) (page : Nat) (answer : AtsAnswer) : Statement (.atsTranslationResponse port pasid page answer) := ofEvent _ rfl
theorem priResponse (port : Nat) (pasid : Nat) (page : Nat) (answer : PriAnswer) : Statement (.priResponse port pasid page answer) := ofEvent _ rfl
theorem priTimeout (port : Nat) (pasid : Nat) (page : Nat) : Statement (.priTimeout port pasid page) := ofEvent _ rfl
theorem atsInvalidation (port : Nat) (pasid : Option Nat) (page : Nat) (pages : Nat) : Statement (.atsInvalidation port pasid page pages) := ofEvent _ rfl
theorem invalidationCompletion (port : Nat) : Statement (.invalidationCompletion port) := ofEvent _ rfl
theorem hostReadCompletion (agent : Nat) (bad : Bool) : Statement (.hostReadCompletion agent bad) := ofEvent _ rfl
theorem formatWindowArm (stack : Nat) (window : Nat) : Statement (.formatWindowArm stack window) := ofEvent _ rfl
theorem formatWindowDisarm (stack : Nat) (window : Nat) : Statement (.formatWindowDisarm stack window) := ofEvent _ rfl
theorem dirtyLogEpochFlip (epoch : Bool) : Statement (.dirtyLogEpochFlip epoch) := ofEvent _ rfl
theorem jobSuspend : Statement (.jobSuspend) := ofEvent _ rfl
theorem virtualDieRemap (vdie : Nat) (pdie : Nat) : Statement (.virtualDieRemap vdie pdie) := ofEvent _ rfl
theorem jobRestore : Statement (.jobRestore) := ofEvent _ rfl
theorem patrolScrub (codeword : Nat) (finding : ScrubFinding) : Statement (.patrolScrub codeword finding) := ofEvent _ rfl
theorem agentStateUe (agent : Nat) : Statement (.agentStateUe agent) := ofEvent _ rfl
theorem flitReceive (link : Nat) (seq : Nat) (crcOk : Bool) (isVoid : Bool) (payload : List Byte) : Statement (.flitReceive link seq crcOk isVoid payload) := ofEvent _ rfl
theorem nackReceive (link : Nat) (seq : Nat) (copyOk : Bool) : Statement (.nackReceive link seq copyOk) := ofEvent _ rfl
theorem linkWindowRebuild (link : Nat) : Statement (.linkWindowRebuild link) := ofEvent _ rfl
theorem transactionRetry (agent : Nat) : Statement (.transactionRetry agent) := ofEvent _ rfl
theorem dedupExpiry (ident : Nat) : Statement (.dedupExpiry ident) := ofEvent _ rfl
theorem hostPortDown (port : Nat) : Statement (.hostPortDown port) := ofEvent _ rfl
theorem scaleUpPortLaneLoss (port : Nat) (lost : Nat) : Statement (.scaleUpPortLaneLoss port lost) := ofEvent _ rfl
theorem memberPackageLost (handle : Nat) (rank : Nat) : Statement (.memberPackageLost handle rank) := ofEvent _ rfl
theorem segmentDeliveryFailure (handle : Nat) : Statement (.segmentDeliveryFailure handle) := ofEvent _ rfl
theorem blockRateLimit (block : PowerBlock) : Statement (.blockRateLimit block) := ofEvent _ rfl
theorem dieGate (pdie : Nat) : Statement (.dieGate pdie) := ofEvent _ rfl
theorem dieWake (pdie : Nat) : Statement (.dieWake pdie) := ofEvent _ rfl
theorem pseudoChannelRetire (stack : Nat) (channel : Nat) : Statement (.pseudoChannelRetire stack channel) := ofEvent _ rfl
theorem linkLaneRecalibrate (link : Nat) (lane : Nat) : Statement (.linkLaneRecalibrate link lane) := ofEvent _ rfl
theorem blockFirmwareUpdate (block : Nat) (image : Nat) (signed : Bool) : Statement (.blockFirmwareUpdate block image signed) := ofEvent _ rfl
theorem dieOutOfService (pdie : Nat) : Statement (.dieOutOfService pdie) := ofEvent _ rfl
theorem obsCounterClear (pdie : Nat) (core : Nat) : Statement (.obsCounterClear pdie core) := ofEvent _ rfl
theorem debugStop (agent : Nat) : Statement (.debugStop agent) := ofEvent _ rfl
theorem debugResume (agent : Nat) : Statement (.debugResume agent) := ofEvent _ rfl
theorem debugStep (agent : Nat) : Statement (.debugStep agent) := ofEvent _ rfl
theorem debugRelease (agent : Nat) : Statement (.debugRelease agent) := ofEvent _ rfl
theorem watchPass (agent : Nat) : Statement (.watchPass agent) := ofEvent _ rfl
theorem snapshotRequest (cycle : Nat) : Statement (.snapshotRequest cycle) := ofEvent _ rfl
theorem snapshotLatch : Statement (.snapshotLatch) := ofEvent _ rfl
theorem sillageHoldRelease (agent : Nat) : Statement (.sillageHoldRelease agent) := ofEvent _ rfl
theorem packageReset : Statement (.packageReset) := ofEvent _ rfl
theorem bootImageAck (die : Nat) (ack : ImageAck) : Statement (.bootImageAck die ack) := ofEvent _ rfl
theorem gxoLoad (file : List Byte) : Statement (.gxoLoad file) := ofEvent _ rfl
theorem i3cDynamicAddress (addr : BitVec 7) : Statement (.i3cDynamicAddress addr) := ofEvent _ rfl
theorem i3cGetstatus : Statement (.i3cGetstatus) := ofEvent _ rfl
theorem mgmtMailboxCommand (command : List Byte) : Statement (.mgmtMailboxCommand command) := ofEvent _ rfl
theorem registerWrite (pa : Nat) (value : Word) : Statement (.registerWrite pa value) := ofEvent _ rfl
theorem cpwaitPromiseReached (agent : Nat) : Statement (.cpwaitPromiseReached agent) := ofEvent _ rfl
theorem acknowledgementReceive (link : Nat) (seq : Nat) : Statement (.acknowledgementReceive link seq) := ofEvent _ rfl
theorem blockRateRestore (block : PowerBlock) : Statement (.blockRateRestore block) := ofEvent _ rfl
theorem jobSaveAbandon : Statement (.jobSaveAbandon) := ofEvent _ rfl
theorem jobEnd : Statement (.jobEnd) := ofEvent _ rfl

end Sys2Proof.Laws.RoundTrip
end

