-- ==== Sys2Proof/Tests/Slice0.lean ====
section
/-! SUPPORT. Tests: words of the manual's encodings, ill-formed terms refused, one-step cases worked by hand from the
manual, and for every statement with hypotheses a state and operands that meet them. -/

namespace Sys2Proof.Tests

open Sys2Proof.Machine

-- One theorem after the other: evaluations side by side take a thread's stack each.
set_option Elab.async false

/-! Ill-formed terms, one for each check of WellFormed. -/

theorem test_wf_fields : (Instr.bfx 1#5 2#5 60#6 4#6).wf = false ∧ (Instr.bfxu 1#5 2#5 63#6 1#6).wf = false ∧
    (Instr.bfi 1#5 2#5 1#6 63#6).wf = false ∧ (Instr.bfi 1#5 2#5 1#6 62#6).wf = true := by decide
theorem test_wf_variants : (Instr.vadd .sat .f32 0#3 1#3 2#3 3#3).wf = false ∧ (Instr.vsub .uns .i8 0#3 1#3 2#3 3#3).wf = false ∧
    (Instr.vmul .sat .f16 0#3 1#3 2#3 3#3).wf = false ∧ (Instr.vfma .sat .bf16 0#3 1#3 2#3 3#3).wf = false ∧
    (Instr.vabs .uns .i16 0#3 1#3 2#3).wf = false ∧ (Instr.vneg .sat .f32 0#3 1#3 2#3).wf = false ∧
    (Instr.vredsum .uns .i32 0#3 1#3 2#3).wf = false ∧ (Instr.vmin .sat .i8 0#3 1#3 2#3 3#3).wf = false ∧
    (Instr.vmax .uns .f32 0#3 1#3 2#3 3#3).wf = false ∧ (Instr.vredmax .sat .i32 0#3 1#3 2#3).wf = false := by decide
theorem test_wf_vector : (Instr.vsll .f32 0#3 1#3 2#3 3#3).wf = false ∧ (Instr.vsrl .f16 0#3 1#3 2#3 3#3).wf = false ∧
    (Instr.vsra .bf16 0#3 1#3 2#3 3#3).wf = false ∧ (Instr.vcmp .ltu .f32 0#3 1#3 2#3 3#3).wf = false ∧
    (Instr.vcvt true .fp32 .f32 0#3 1#3 2#3 0#3).wf = false ∧ (Instr.vcvt true .fp16 .f32 0#3 1#3 2#3 2#3).wf = false ∧
    (Instr.vcvt false .bk8 .i8 0#3 1#3 2#3 0#3).wf = false ∧ (Instr.vcvt true .bk4 .f16 0#3 1#3 2#3 1#3).wf = false ∧
    (Instr.vpack4 1#3 2#3 2#3).wf = false ∧ (Instr.vunpack4 true 1#3 2#3 3#3).wf = false ∧
    (Instr.vexp2 .i32 0#3 1#3 2#3).wf = false ∧ (Instr.vrcp .i8 0#3 1#3 2#3).wf = false ∧
    (Instr.vrsqrt .i16 0#3 1#3 2#3).wf = false ∧ (Instr.vmovg .i32 1#5 16#6 2#3).wf = false ∧
    (Instr.vins .f16 1#5 32#6 2#3).wf = false ∧ (Instr.vldx .i8 1#5 0#3 2#3 3#3).wf = false ∧
    (Instr.vstx .bf16 1#5 0#3 2#3 3#3).wf = false := by decide
theorem test_wf_places : (Instr.slotDraw 15).wf = false ∧ (Instr.slotDraw 0x8000).wf = false ∧ (Instr.psResult 0x8020).wf = false ∧
    (Instr.rotationTurn 16 0).wf = false ∧ (Instr.denseCopy 0 128 1).wf = false ∧ (Instr.spawnBroadcast 0 32).wf = false ∧
    (Instr.basinRefill 16).wf = false ∧ (Instr.aclr 0 64).wf = false ∧ (Instr.mma 0 256).wf = false ∧
    (Instr.msFill 0 2).wf = false ∧ (Instr.colResume 256).wf = false ∧ (Instr.priTimeout 4 0 0).wf = false ∧
    (Instr.invalidationCompletion 4).wf = false ∧ (Instr.formatWindowArm 32 0).wf = false ∧ (Instr.virtualDieRemap 0 16).wf = false ∧
    (Instr.scaleUpPortLaneLoss 64 1).wf = false ∧ (Instr.dieGate 16).wf = false ∧ (Instr.pseudoChannelRetire 0 128).wf = false ∧
    (Instr.obsCounterClear 0 128).wf = false ∧ (Instr.jobStart 0 [0, 1, 2] 0#64 []).wf = false ∧
    (Instr.illegalEncoding 8#8).wf = false ∧ (Instr.bootImageAck 20 ⟨0, 0⟩).wf = false := by decide

/-! Words written out from the encodings of 05_encoding_registers_assembly.md and from its and the later files' worked
cases. -/

theorem test_decode_integer : decodeWord 0x000E6281 = .ok (.add 5#5 6#5 7#5) ∧ decodeWord 0x0073BD81 = .ok (.sub 27#5 27#5 25#5) ∧
    decodeWord 0x010E6283 = .ok (.div 5#5 6#5 7#5) ∧ decodeWord 0x25906287 = .ok (.bfxu 5#5 6#5 8#6 11#6) := by decide
theorem test_decode_immediate : decodeWord 0xFFFA4289 = .ok (.addi 5#5 4#5 0x7FFD#15) ∧
    decodeWord 0x03A4001D = .ok (.xli 0#3 0#2 0x3A40#16) ∧ decodeWord 0x0010029B = .ok (.xget 5#5 0#3) := by decide
theorem test_decode_memory : decodeWord 0x0021ED2D = .ok (.ldd 26#5 30#5 16#15) ∧
    decodeWord 0x108A43B7 = .ok (.lddNb 7#5 4#5 5#5 2#6) ∧ decodeWord 0x30002EB9 = .ok (.stff 29#5 2#5 0#5 0#6) := by decide
theorem test_decode_sync : decodeWord 0xBD = .ok .fence ∧ decodeWord 0x07FFF03D = .ok (.waitc 0#5 31#5 31#5 31#5) ∧
    decodeWord 0x000A41BD = .ok (.mwaitGe 4#5 5#5) ∧ decodeWord 0x92BD = .ok (.sleep 9#5) := by decide
theorem test_decode_control : decodeWord 0x00700FCD = .ok (.jal 31#5 0x700#20) ∧ decodeWord 0xFFF00D43 = .ok (.bne 26#5 0#5 0x7FF8#15) ∧
    decodeWord 0x0001F04F = .ok (.jalr 0#5 31#5 0#15) := by decide
theorem test_decode_swarm : decodeWord 0x000411D1 = .ok (.spawn 3#5 1#5 2#5) ∧ decodeWord 0x00400051 = .ok .join ∧
    decodeWord 0x00C00051 = .ok .next ∧ decodeWord 0x01060CD1 = .ok (.ps 25#5 3#3) ∧ decodeWord 0x01407051 = .ok (.psset 0#3 7#5) ∧
    decodeWord 0x00418053 = .ok (.fbload 24#5) := by decide
theorem test_decode_engine : decodeWord 0x00039055 = .ok (.cppost 1#2 25#5) ∧ decodeWord 0x00420D55 = .ok (.cpprom 26#5 1#2) ∧
    decodeWord 0x00B5CDD5 = .ok (.cpwait 27#5 28#5 26#5) ∧ decodeWord 0x00F40CD5 = .ok (.tkpost 25#5 26#5) ∧
    decodeWord 0x0137ACD5 = .ok (.tkstat 25#5 26#5 27#5) ∧ decodeWord 0x0141ACD5 = .ok (.mspost 25#5 26#5) ∧
    decodeWord 0x01841CD5 = .ok (.colpost 25#5 1#5 2#5) := by decide
theorem test_decode_float : decodeWord 0x004E62D7 = .ok (.fadd .d 5#5 6#5 7#5) ∧ decodeWord 0x18441D57 = .ok (.fdiv .d 26#5 1#5 2#5) ∧
    decodeWord 0x638062D7 = .ok (.fcvt .wd 5#5 6#5) := by decide
theorem test_decode_vector : decodeWord 0x00004461 = .ok (.vadd .wrap .i32 0#3 0#3 1#3 2#3) ∧
    decodeWord 0x181A68E1 = .ok (.vfma .wrap .f32 2#3 1#3 2#3 3#3) ∧ decodeWord 0x00582165 = .ok (.vcmp .lt .f32 0#3 2#3 0#3 1#3) ∧
    decodeWord 0x0119016D = .ok (.vld .f32 4#5 1#3 2#3) ∧ decodeWord 0x26800C6F = .ok (.kpop 26#5 3#3) := by decide
theorem test_decode_system : decodeWord 0x20086071 = .ok (.mts 4#12 6#5) ∧ decodeWord 0x00000CF1 = .ok (.mfs 25#5 0#12) ∧
    decodeWord 0x40000071 = .ok (.sys 0#12) ∧ decodeWord 0x60020071 = .ok (.brk 1#12) ∧ decodeWord 0x00000073 = .ok .sret ∧
    decodeWord 0x004C5073 = .ok (.tlbinv 5#5 6#5) ∧ decodeWord 0x01005073 = .ok (.slstop 5#5) ∧
    decodeWord 0x01405073 = .ok (.slgo 5#5) ∧ decodeWord 0x01800073 = .ok .halt ∧ decodeWord 0x01C00073 = .ok .idle := by decide
theorem test_decode_compact : decodeParcels 0x62C4 0 = .ok (.cLdd 2#3 6#3 2#4) ∧ decodeParcels 0x9000 0 = .ok .cNext ∧
    decodeParcels 0x9960 0 = .ok (.cPs 1#3 3#3) := by decide
theorem test_decode_illegal : decodeWord 0x00400A51 = .error 0x06#8 ∧ decodeParcels 0 0 = .error 0x00#8 ∧
    decodeWord 0xFFFFFFFF = .error 0x01#8 := by decide

/-! States the tests build on: job 0 on one die, a unit in slot 0 of core 0 or a node of master 1 or the supervisor, with
the g registers listed. -/

def regs (l : List (Nat × Word)) : Vector Word 32 := Vector.ofFn (fun i => (lookup i.val l).getD 0#64)
def aJob : Job := { Job.absent with status := .running, vdcount := 1#64 }
def aUnit (l : List (Nat × Word)) : State :=
  { State.reset with job := aJob, ag := { Agent.vacant with occupied := true, pc := codeVa, g := regs l } }
def aMaster (l : List (Nat × Word)) : State :=
  { State.reset with job := aJob, agId := masterId 1, ag := { Agent.vacant with occupied := true, role := .master, pc := codeVa, g := regs l } }
def aSteward (l : List (Nat × Word)) : State :=
  { State.reset with
    job := aJob, agId := steward
    ag := { Agent.vacant with occupied := true, role := .master, priv := .supervisor, pc := codeVa, g := regs l } }

/-! What a test of a hypothesis shows of it. -/

def tidy (s : State) : Bool :=
  Memory.wf s.mem && rising 0 s.fe && rising 0 s.poison && rising 0 (s.pkg.dev.map (fun x => x.1)) &&
    !s.job.dlbase.getLsbD 63
theorem canonical_of {s : State} (h : tidy s = true) : Canonical s := by
  simp only [tidy, Bool.and_eq_true] at h; exact ⟨h.1.1.1.1, h.1.1.1.2, h.1.1.2, h.1.2⟩
theorem quiet_of {s : State} (h : tidy s = true) : QuietHome s none := by
  simp only [tidy, Bool.and_eq_true, Bool.not_eq_true'] at h; exact ⟨h.2, by simp⟩

/-- An access gets to cell a of a local store, and a test holds of the state its checks leave. -/
def reaches (s : State) (op : MemOp) (va : Word) (a : Nat) (p : State → Bool) : Bool :=
  match s.watchpoint va with
  | (false, w) =>
    match w.check w.ag.priv op.form va op.size with
    | .ok (u, .cell b none) =>
      decide (b = a) && !u.asleep (.cell a none) && u.ag.nb.all (fun x => x.performed || !x.touches (.cell a none) op.size) &&
        u.job.loose.isEmpty && u.share.isNone && p u
    | _ => false
  | _ => false
theorem reaches_of {s : State} {op : MemOp} {va : Word} {a : Nat} {p : State → Bool} (h : reaches s op va a p = true) :
    ∃ u, Reaches s op va u a none ∧ p u = true := by
  unfold reaches at h
  split at h
  · rename_i w hw
    split at h
    · rename_i u b hu
      simp only [Bool.and_eq_true, decide_eq_true_eq, Bool.not_eq_true', List.all_eq_true, Bool.or_eq_true, List.isEmpty_iff,
        Option.isNone_iff_eq_none] at h
      obtain ⟨⟨⟨⟨⟨rfl, h1⟩, h2⟩, h3⟩, h4⟩, h5⟩ := h
      exact ⟨u, ⟨w, hw, hu, h1, h2, by simp [h3], h4⟩, h5⟩
    · cases h
  · cases h

theorem some_of {α : Type} {o : Option α} {p : α → Bool} (h : o.any p = true) : ∃ x, o = some x ∧ p x = true := by
  cases o with
  | none => cases h
  | some x => exact ⟨x, rfl, h⟩
def good {ε α : Type} (o : Except ε α) (p : α → Bool) : Bool := match o with | .ok x => p x | .error _ => false
theorem ok_of {ε α : Type} {o : Except ε α} {p : α → Bool} (h : good o p = true) : ∃ x, o = .ok x ∧ p x = true := by
  cases o with
  | error _ => cases h
  | ok x => exact ⟨x, rfl, h⟩
theorem error_of {ε α : Type} {o : Except ε α} {p : ε → Bool} (h : (match o with | .ok _ => false | .error e => p e) = true) :
    ∃ e, o = .error e ∧ p e = true := by
  cases o with
  | error e => exact ⟨e, rfl, h⟩
  | ok _ => cases h

/-! Witnesses: scalar operations. -/

theorem witness_DivisionsGiveTheTable : (aMaster []).ag.role = .master ∧ (aUnit []).ag.role ≠ .master ∧
    (aUnit [(2, 0x8000_0000_0000_0000#64), (3, 0xFFFF_FFFF_FFFF_FFFF#64)]).g 3#5 ≠ 0#64 := by decide
theorem witness_BitFieldsExtractAndInsert : (63#6).toNat + ((0#6).toNat + 1) ≤ 64 ∧ (0#6).toNat + ((63#6).toNat + 1) ≤ 64 := by decide
theorem witness_JumpsLinkAndRefuseOddTargets : ((aUnit [(2, 8#64)]).g 2#5 + BitVec.ofInt 64 (0x7FFE#15).toInt).getLsbD 0 = false ∧
    ((aUnit [(2, 8#64)]).g 2#5 + BitVec.ofInt 64 (0x7FFF#15).toInt).getLsbD 0 = true := by decide
theorem witness_CompactFormsAreTheirExpansions : ((aUnit [(2, 8#64)]).g 2#5).getLsbD 0 = false ∧
    ((aUnit [(2, 9#64)]).g 2#5).getLsbD 0 = true := by decide

/-! Witnesses: floating point. One in g1, zeros in g2 and g3, infinities in g4 and g5, NaNs in g6 and g7, −1 in g8. -/

def floats : State := aUnit [(1, 0x3FF0_0000_0000_0000#64), (3, 0x8000_0000_0000_0000#64), (4, 0x7FF0_0000_0000_0000#64),
  (5, 0xFFF0_0000_0000_0000#64), (6, 0x7FF8_0000_0000_0000#64), (7, 0x7FF0_0000_0000_0001#64), (8, 0xBFF0_0000_0000_0000#64)]

theorem witness_FloatArithmeticRoundsTheExactValue : (fval .d (floats.g 1#5)).finite = true ∧ (fval .d (floats.g 3#5)).finite = true ∧
    (fval .d (floats.g 2#5)).finite = true := by decide
theorem witness_FloatArithmeticOnSpecials : (fval .d (floats.g 6#5)).isNan = true ∧ (fval .d (floats.g 7#5)).isNan = true ∧
    (fval .d (floats.g 4#5)) = .inf false ∧ (fval .d (floats.g 5#5)) = .inf (!false) ∧ (fval .d (floats.g 2#5)) = .zero false ∧
    (fval .d (floats.g 1#5)).finite = true ∧ (fval .d (floats.g 1#5)).real = 1 ∧ (fval .d (floats.g 3#5)).real = 0 := by decide +kernel
theorem witness_QuotientsAndRootsTakeTheirLatency : floats.ag.role ≠ .master ∧ (aMaster []).ag.role = .master ∧
    (fval .d (floats.g 6#5)).isNan = true ∧ (fval .d (floats.g 2#5)) = .zero false ∧ (fval .d (floats.g 3#5)) = .zero true ∧
    (fval .d (floats.g 4#5)) = .inf false ∧ (fval .d (floats.g 5#5)) = .inf true ∧
    (fval .d (floats.g 8#5)).finite = true ∧ (fval .d (floats.g 8#5)).isNeg = true ∧ (fval .d (floats.g 8#5)) ≠ .zero true ∧
    (fval .d (floats.g 8#5)) ≠ .zero (!true) ∧ (fval .d (floats.g 1#5)).finite = true ∧ (fval .d (floats.g 1#5)).real = 1 ∧
    (fval .d (floats.g 8#5)).real = -1 := by decide +kernel
theorem witness_FloatComparisonsFollowTheOrder : (fval .d (floats.g 7#5)).isNan = true ∧ (fval .d (floats.g 6#5)).isNan = true ∧
    (fval .d (floats.g 3#5)).isNan = false ∧ (fval .d (floats.g 3#5)) = .zero true ∧ (fval .d (floats.g 2#5)) = .zero false := by decide
theorem witness_ConversionsRoundAndClamp : (fval .d (floats.g 8#5)).finite = true ∧ (fval .d (floats.g 6#5)).isNan = true ∧
    fval .d (floats.g 5#5) = .inf true ∧ fval .d (floats.g 4#5) = .inf false ∧ (fval .s (floats.g 1#5)).finite = true ∧
    (fval .s 0x7FC0_0000#64).isNan = true ∧ fval .s 0xFF80_0000#64 = .inf true ∧ fval .s 0x7F80_0000#64 = .inf false := by decide

/-! Witnesses: vectors. Lane 0 of v1 holds one, v2 infinity, v3 a NaN, v4 a negative number; k1 has bit 15 alone, k2 all. -/

def vectors : State :=
  let s := aUnit []
  { s with ag := { s.ag with
      v := #v[0#512, 0x3F80_0000#512, 0x7F80_0000#512, 0x7FC0_0000#512, 0xC000_0000#512, 0xFF80_0000#512, 1#512, 0#512]
      k := #v[0xFFFF#16, 0x8000#16, 0xFFFF#16, 0#16, 1#16, 0#16, 0#16, 0#16] } }

theorem witness_VectorIntegerLanes : LaneTy.i8.isFloat = false ∧ LaneTy.i16.isFloat = false ∧ LaneTy.i32.isFloat = false := by decide
theorem witness_VectorFloatLanes : LaneTy.f32.isFloat = true ∧ LaneTy.f16.isFloat = true ∧ LaneTy.bf16.isFloat = true ∧
    laneOn .f32 (vectors.k 2#3) 15 = true ∧ (laneVal .f32 (laneAt 32 (vectors.v 1#3) 0)).finite = true ∧
    (laneVal .f32 (laneAt 32 (vectors.v 3#3) 0)).isNan = true ∧ laneVal .f32 (laneAt 32 (vectors.v 2#3) 0) = .inf false ∧
    laneVal .f32 (laneAt 32 (vectors.v 5#3) 0) = .inf true ∧ laneVal .f32 (laneAt 32 (vectors.v 0#3) 0) = .zero false := by decide +kernel
theorem witness_VectorLogicShiftsAndSelect : LaneTy.i32.isFloat = false ∧ laneOn .i8 (vectors.k 1#3) 63 = true ∧
    laneOn .i8 (vectors.k 1#3) 59 = false := by decide +kernel
theorem witness_VectorComparisonsWriteAMask : LaneTy.i8.isFloat = false ∧ LaneTy.f32.isFloat = true := by decide +kernel
theorem witness_VectorConversionsMoveElements : VFmt.e4m3.isBlock = false ∧ VFmt.e4m3.ok .f32 = true ∧
    (3#3).toNat < LaneTy.f32.width / VFmt.e4m3.container ∧ VFmt.int8.ok .i32 = true ∧ VFmt.int32.isBlock = false ∧
    VFmt.int32.ok .f32 = true ∧ (0#3).toNat < LaneTy.f32.width / VFmt.int32.container := by decide +kernel
theorem witness_VectorBlocksShareAnExponent : VFmt.bk8.isBlock = true ∧ VFmt.bk4.isBlock = true ∧ LaneTy.f32.isFloat = true ∧
    (LaneTy.f16 ≠ .f32 → 0#3 = 0#3) ∧ (1#3).toNat * LaneTy.f32.lanes < 32 ∧ (0#3).toNat * LaneTy.bf16.lanes < 32 := by decide +kernel
theorem witness_VectorPackingMovesBits : (0#3).toNat < 2 ∧ (1#3).toNat < 2 := by decide +kernel
theorem witness_VectorReductionsFollowTheTree : LaneTy.i32.isFloat = false ∧ LaneTy.f32.isFloat = true ∧
    (∀ i < LaneTy.f32.lanes, laneOn .f32 (vectors.k 3#3) i = false) ∧
    (∃ i < LaneTy.f32.lanes, laneOn .f32 (vectors.k 4#3) i = true ∧ (laneVal .f32 (laneAt 32 (vectors.v 1#3) i)).isNan = false) ∧
    (∀ i < LaneTy.f32.lanes, laneOn .f32 (vectors.k 4#3) i = true → (laneVal .f32 (laneAt 32 (vectors.v 3#3) i)).isNan = true) := by decide +kernel
theorem witness_VectorTranscendentalsTakeTheirLatency_1 :
    LaneTy.f32.isFloat = true ∧ (aMaster []).ag.role = .master ∧
    vectors.ag.role ≠ .master ∧ (laneVal .f32 (laneAt 32 (vectors.v 3#3) 0)).isNan = true ∧
    laneVal .f32 (laneAt 32 (vectors.v 0#3) 0) = .zero false ∧ laneVal .f32 (laneAt 32 (vectors.v 2#3) 0) = .inf false ∧
    laneVal .f32 (laneAt 32 (vectors.v 5#3) 0) = .inf true ∧ (laneVal .f32 (laneAt 32 (vectors.v 1#3) 0)).finite = true := by decide +kernel
theorem witness_VectorTranscendentalsTakeTheirLatency_2 :
    (laneVal .f32 (laneAt 32 (vectors.v 4#3) 0)).isNeg = true ∧ (laneVal .f32 (laneAt 32 (vectors.v 4#3) 0)).isNan = false := by decide +kernel
theorem witness_VectorTranscendentalsTakeTheirLatency_3 :
    (laneVal .f32 (laneAt 32 (vectors.v 1#3) 0)).real = 2 ^ (0 : ℤ) := by decide +kernel
theorem witness_LaneMovesAndMasks : (63#6).toNat < LaneTy.i8.lanes ∧ (15#6).toNat < LaneTy.f32.lanes ∧ LaneTy.f32.isFloat = true ∧
    LaneTy.i8.isFloat = false := by decide +kernel

/-! Witnesses: memory. g2 holds an address in the local store of core 0, whose cell is `lsBase + 0x100`; g3 is 0. -/

def aSpot : Nat := lsBase + 0x100
def inMemory : State := aUnit [(2, codeVa + 0x100#64), (4, 7#64), (26, codeVa + 0x100#64)]
def poisonedSpot : State := { inMemory with poison := [aSpot / 8] }
def emptySpot : State := { inMemory with fe := [aSpot / 8] }

theorem witness_LoadsReadTheirBytes :
    (∃ u, Reaches inMemory (.load 8 false 1#5) (inMemory.g 2#5 + BitVec.ofInt 64 (0#15).toInt) u aSpot none ∧
      (!u.poisoned aSpot) = true) ∧
    (∃ u, Reaches poisonedSpot (.load 1 true 1#5) (poisonedSpot.g 2#5 + BitVec.ofInt 64 (0#15).toInt) u aSpot none ∧
      u.poisoned aSpot = true) ∧
    (∃ u, Reaches inMemory (.load 2 true 1#5) (inMemory.g 2#5 + BitVec.ofInt 64 (0x3EFE#15).toInt) u (aSpot + 0x3EFE) none ∧
      (!u.poisoned aSpot) = true) ∧
    (∃ u, Reaches inMemory (.load 4 true 1#5) (inMemory.g 2#5 + BitVec.ofInt 64 (0x7F00#15).toInt) u lsBase none ∧
      (!u.poisoned aSpot) = true) ∧
    ∃ u, Reaches inMemory (.load 8 false 24#5) (inMemory.g 26#5 + BitVec.ofNat 64 (8 * (15#4).toNat)) u (aSpot + 120) none ∧
      (!u.poisoned aSpot) = true :=
  ⟨reaches_of (by decide +kernel), reaches_of (by decide +kernel), reaches_of (by decide +kernel), reaches_of (by decide +kernel),
    reaches_of (by decide +kernel)⟩

theorem witness_StoresWriteTheirBytesAlone :
    (∃ u, Reaches inMemory (.store 1 (inMemory.g 4#5)) (inMemory.g 2#5 + BitVec.ofInt 64 (7#15).toInt) u (aSpot + 7) none ∧
      tidy u = true) ∧
    (∃ u, Reaches inMemory (.store 8 (inMemory.g 4#5)) (inMemory.g 2#5 + BitVec.ofInt 64 (0#15).toInt) u aSpot none ∧
      tidy u = true) ∧
    ∀ u, tidy u = true → Canonical u ∧ QuietHome u none :=
  ⟨reaches_of (by decide +kernel), reaches_of (by decide +kernel), fun _ h => ⟨canonical_of h, quiet_of h⟩⟩

theorem witness_FullEmptyOperationsMoveTheBit :
    let va (s : State) : Word := s.g 2#5 + s.g 3#5 + BitVec.ofNat 64 (8 * (0#6).toNat)
    (∃ u, Reaches inMemory (.fe .ldfe 1#5 0#64) (va inMemory) u aSpot none ∧
      (tidy u && u.feBit aSpot && !u.poisoned aSpot && u.job.parked.isEmpty && u.withdraw aSpot == u) = true) ∧
    (∃ u, Reaches emptySpot (.fe .ldff 1#5 0#64) (va emptySpot) u aSpot none ∧
      (tidy u && !u.feBit aSpot && decide ((u.job.parked.filter (fun p =>
        p.ended.isNone && u.owner p.cell p.home == u.owner aSpot none)).length < 32)) = true) ∧
    (∃ u, Reaches emptySpot (.fe .stfe 0#5 (emptySpot.g 4#5)) (va emptySpot) u aSpot none ∧
      (tidy u && !u.feBit aSpot && u.job.parked.isEmpty && u.withdraw aSpot == u) = true) ∧
    (∃ u, Reaches inMemory (.fe .stfe 0#5 (inMemory.g 4#5)) (va inMemory) u aSpot none ∧
      (tidy u && u.feBit aSpot && u.job.parked.isEmpty) = true) ∧
    ∃ u, Reaches inMemory (.fe .feset 0#5 0#64) (va inMemory) u aSpot none ∧ (tidy u && u.job.parked.isEmpty) = true :=
  ⟨reaches_of (by decide +kernel), reaches_of (by decide +kernel), reaches_of (by decide +kernel), reaches_of (by decide +kernel),
    reaches_of (by decide +kernel)⟩

/-- A cached page of DCS at 0x10_0000, read, written and executed, its address in g2. -/
def aPage : TlbEntry := { size := 0, vpn := 0x10, pte := 0xD060_0000_0001_0000#64, host := none }
def atDcs : State := let s := aUnit [(2, 0x10_0000#64)]; { s with job := { s.job with tlb := [aPage] } }
theorem witness_AtomicsSwapOldForNew :
    (∃ u, Reaches inMemory (.amo .cas 1#5 7#64 0#64) (inMemory.g 2#5) u aSpot none ∧ (tidy u && !u.poisoned aSpot) = true) ∧
    (∃ u, Reaches inMemory (.amo .psm 1#5 7#64 0#64) (inMemory.g 2#5) u aSpot none ∧ (tidy u && !u.poisoned aSpot && isLocal aSpot) = true) ∧
    (∃ u, Reaches atDcs (.amo .psm 1#5 7#64 0#64) (atDcs.g 2#5) u 0x1_0000 none ∧ (tidy u && !isLocal 0x1_0000) = true) ∧
    ∃ u, Reaches poisonedSpot (.amo .fadd 1#5 7#64 0#64) (poisonedSpot.g 2#5) u aSpot none ∧ (tidy u && u.poisoned aSpot) = true :=
  ⟨reaches_of (by decide +kernel), reaches_of (by decide +kernel), reaches_of (by decide +kernel), reaches_of (by decide +kernel)⟩

/-- A streaming load outstanding. -/
def outstanding : Streaming :=
  { by_ := { kind := 0, pc := codeVa, agent := 0, tid := 0#64 }, isStore := false, size := 8, va := codeVa + 0x200#64, loc := .cell (lsBase + 0x200) none, dest := 9#5, data := 0#64
    since := 0, performed := false, failed := none }
def sixteen : State := { inMemory with ag := { inMemory.ag with nb := List.replicate 16 outstanding } }

theorem witness_StreamingAccessesBecomeOutstanding : 16 ≤ sixteen.ag.nb.length ∧ inMemory.ag.nb.length < 16 ∧
    (∃ w, inMemory.watchpoint (codeVa + 0x100#64) = (false, w) ∧
      (∃ u loc, w.check w.ag.priv .nbLoad (codeVa + 0x100#64) 8 = .ok (u, loc)) ∧
      ∃ t, w.check w.ag.priv .nbStore (codeVa + 0x101#64) 4 = .error t) :=
  ⟨by decide, by decide, inMemory, rfl, ⟨_, _, rfl⟩, _, rfl⟩

theorem witness_WaitsCompleteWhenTheyMay : (∀ x ∈ sixteen.ag.nb, x.failed = none) ∧ sixteen.ag.nbload = 16 ∧ sixteen.ag.nb ≠ [] ∧
    inMemory.ag.nb = [] ∧ (inMemory.g 3#5).toNat ≤ inMemory.pkg.cycle ∧ inMemory.pkg.cycle < (inMemory.g 4#5).toNat ∧
    (∃ u, Reaches inMemory (.watch .eq (inMemory.g 3#5)) (inMemory.g 2#5) u aSpot none ∧
      (!u.poisoned aSpot && decide (u.readNat aSpot 8 = 0)) = true) ∧
    ∃ u, Reaches inMemory (.watch .ge (inMemory.g 4#5)) (inMemory.g 2#5) u aSpot none ∧
      (!u.poisoned aSpot && decide (u.readNat aSpot 8 < 7)) = true :=
  ⟨by decide, by decide, by decide, by decide, by decide, by decide, reaches_of (by decide +kernel), reaches_of (by decide +kernel)⟩

theorem witness_ChecksComeInTheirOrder : 8 ∈ [1, 2, 4, 8] ∧ (0x0100_0000_0000_0000#64).toNat / 2 ^ 56 ≠ 0 ∧
    (0xFF00_0000_0000_0000#64).toNat / 2 ^ 56 = 0xFF ∧ (codeVa + 1#64).toNat % 2 ≠ 0 ∧ codeVa.toNat / 2 ^ 32 = 0xFFFF00 ∧
    (0x00FF_FF00_2000_0000#64).toNat / 2 ^ 29 % 8 ≠ 0 ∧ inMemory.job.dies_n ≤ (0x00FF_FF00_0200_0000#64).toNat / 2 ^ 25 % 16 ∧
    systemArea 0x3_BFFE .fetch = true ∧ systemArea 0x3_C000 .fetch = false ∧
    ∃ u loc, inMemory.check .user .load codeVa 8 = .ok (u, loc) :=
  ⟨by decide, by decide, by decide, by decide, by decide, by decide, by decide, by decide, by decide, _, _, rfl⟩

/-- Bit 15 of k1 and v3 an offset of 60 in lane 15. -/
def lanes : State := { inMemory with ag := { inMemory.ag with
  k := #v[0xFFFF#16, 0x8000#16, 0#16, 0#16, 0#16, 0#16, 0#16, 0#16]
  v := (Vector.replicate 8 0#512).set 3 (60#512 <<< 480) } }

def poisonedLanes : State := { lanes with poison := [aSpot / 8 + 7] }

theorem witness_VectorLoadsAndStoresTouchActiveLanes : lanes.k 2#3 = 0#16 ∧ lanes.k 1#3 ≠ 0#16 ∧
    (∃ u, Reaches lanes (.vload .i32 1#3 0#3 []) (lanes.g 2#5) u aSpot none ∧ (!u.poisoned (aSpot + 60)) = true) ∧
    (∃ u, Reaches poisonedLanes (.vload .i32 1#3 0#3 []) (poisonedLanes.g 2#5) u aSpot none ∧ (u.poisoned (aSpot + 8 * 7)) = true) ∧
    ∃ u, Reaches lanes (.vstore .i32 0#3 0#3 0) (lanes.g 2#5) u aSpot none ∧ tidy u = true :=
  ⟨by decide, by decide, reaches_of (by decide +kernel), reaches_of (by decide +kernel), reaches_of (by decide +kernel)⟩

theorem witness_IndexedLanesStayInTheirLocalStore : (aMaster []).ag.role = .master ∧ lanes.ag.role ≠ .master ∧
    (∀ i < 16, (lanes.k 1#3).getLsbD i = true →
      lanes.watchpoint (lanes.g 2#5 + BitVec.ofNat 64 (laneAt 32 (lanes.v 3#3) i)) = (false, lanes) ∧
      lanes.laneCheck .store (lanes.g 2#5 + BitVec.ofNat 64 (laneAt 32 (lanes.v 3#3) i)) = .ok (0x100 + 60) ∧
      lanes.poisoned (lsCell (lanes.job.pdie (lanes.agId / 2 ^ 11 % 16)) (lanes.agId / 16 % 128) (0x100 + 60)) = false) ∧
    (∀ x ∈ lanes.ag.nb, x.performed = true) ∧ lanes.job.loose = [] ∧ lanes.share = none ∧ lanes.pkg.gated = [] ∧ Canonical lanes ∧
    poisonedLanes.poisoned (lsCell (poisonedLanes.job.pdie (poisonedLanes.agId / 2 ^ 11 % 16)) (poisonedLanes.agId / 16 % 128) (0x100 + 60)) = true ∧
    (∃ e, lanes.laneCheck .load (codeVa + 0x102#64) = .error e) ∧ ∃ e, lanes.laneCheck .load 0#64 = .error e := by
  refine ⟨by decide, by decide, fun i hi on => ?_, by decide, by decide, by decide, by decide, canonical_of (by decide +kernel), by decide +kernel,
    ⟨_, rfl⟩, _, rfl⟩
  have : i = 15 := by revert i; decide +kernel
  subst this
  rw [show laneAt 32 (lanes.v 3#3) 15 = 60 by decide +kernel]
  exact ⟨rfl, rfl, by decide +kernel⟩

/-! Witnesses: the swarm. Spawn 1 of master 1 has units 0 to 9, code and a pool of two entries in the local store. -/

def aPool : Word := 0x0800_0000_0000_0000#64 + codeVa + 0x8000#64
def poolCell : Nat := lsBase + 0x8000
def aSpawn : Spawn :=
  { lo := 0, hi := 9, nextChunk := 0, args := List.replicate 23 5#64, target := codeVa, rmode := 0#64, upentry := codeVa + 0x40#64
    fibpool := aPool, ps := Vector.replicate 8 0#64, homeDie := 0, root := 1, parent := 1, master := masterId 1, run := 0, node := 0
    spol := 0, upol := 0, units := 1, requests := 0, ended := none, contained := false, since := 0
    retries := [], redraw := [] }
/-- A unit of the spawn, and its master; another spawn's details put in its place. -/
def unitOf (sp : Spawn) (l : List (Nat × Word)) : State :=
  let s := aUnit l
  { s with ag := { s.ag with spawnid := 1#64, uid := 1 }, job := { s.job with spawns := [(1, sp)], nextSpawn := 2 } }
def masterOf (sp : Spawn) (l : List (Nat × Word)) : State :=
  let s := aMaster l
  { s with ag := { s.ag with spawnid := 1#64 }, job := { s.job with spawns := [(1, sp)], nextSpawn := 2 } }

theorem witness_SpawnLaunchesAndJoinWaits : (aUnit []).ag.role ≠ .master ∧ (masterOf aSpawn []).ag.role = .master ∧
    (masterOf aSpawn []).ag.spawnid ≠ 0#64 ∧ (aMaster []).ag.spawnid = 0#64 ∧ ((aMaster [(1, 3#64)]).g 1#5).getLsbD 0 = true ∧
    ((aMaster [(2, 1#64)]).g 3#5).toNat < ((aMaster [(2, 1#64)]).g 2#5).toNat ∧
    2 ^ 40 < ((aMaster [(3, 0x100_0000_0000#64)]).g 3#5).toNat - ((aMaster []).g 2#5).toNat + 1 ∧
    ¬2 ^ 40 < ((aMaster [(3, 0xFF_FFFF_FFFF#64)]).g 3#5).toNat - ((aMaster []).g 2#5).toNat + 1 ∧ (aMaster []).ag.nb = [] ∧
    lookup 0 (aMaster []).job.spawns = none ∧ lookup 1 (masterOf aSpawn []).job.spawns = some aSpawn ∧
    (masterOf aSpawn []).job.complete 1 aSpawn = false ∧
    (masterOf { aSpawn with nextChunk := 10, units := 0 } []).job.complete 1 { aSpawn with nextChunk := 10, units := 0 } = true := by
  decide +kernel
theorem witness_NestedSpawnsEnterTheBasin : (aMaster []).ag.role = .master ∧ (unitOf aSpawn []).ag.role ≠ .master ∧
    lookup (unitOf aSpawn []).ag.spawnid.toNat (unitOf aSpawn []).job.spawns = some aSpawn ∧
    (unitOf aSpawn []).job.basinRoom 0 = true ∧
    ({ (unitOf aSpawn []).job with dies := [(0, { entries := [], basin := List.replicate 256 1, spilled := [], lastMaster := 31, busyAt := 0 })] } : Job).basinRoom 0 = false := by
  decide +kernel
def aRequest : PsRequest := { agent := 0, spawn := 1, n := 7, amount := 65535, window := 0, due := 24, d := 9#5, value := none, sent := 0, arrives := 0, lost := none }
theorem witness_PrefixSumsTakeTheirTurn : (aMaster []).ag.role = .master ∧ (unitOf aSpawn []).ag.role ≠ .master ∧
    (aMaster []).ag.spawnid = 0#64 ∧ (masterOf aSpawn []).ag.spawnid ≠ 0#64 ∧
    lookup 1 ((masterOf aSpawn []).psWindows 1 0).job.spawns = some aSpawn ∧
    (∀ r ∈ [aRequest, { aRequest with amount := 0 }], r.spawn = 1 ∧ r.value = none ∧ r.lost ≠ some .request ∧ r.window < 1 ∧ r.n = (7 : Fin 8).val) ∧
    [aRequest, { aRequest with agent := 16 }, { aRequest with window := 1 }].Pairwise
      (fun x y => x.window < y.window ∨ (x.window = y.window ∧ x.agent ≤ y.agent)) := by
  decide +kernel
def streamingUnit : State := let s := unitOf aSpawn []; { s with ag := { s.ag with nb := [outstanding] } }
theorem witness_UnitsRetireAndCancel : (aMaster []).ag.role = .master ∧ (unitOf aSpawn []).ag.role = .unit ∧ (unitOf aSpawn []).ag.nb = [] ∧
    (∀ r ∈ (unitOf aSpawn []).job.ready, r.core ≠ coreKey 0) ∧ ((unitOf aSpawn []).job.die 0).basin = [] ∧
    ((unitOf aSpawn []).job.die 0).spilled = [] ∧ ((unitOf aSpawn []).job.die 0).entries = [] ∧ (unitOf aSpawn []).job.again 0 = none ∧
    lookup 1 (unitOf aSpawn []).job.spawns = some aSpawn ∧ aSpawn.root = 1 ∧ (unitOf aSpawn []).job.orphan aSpawn = false ∧
    streamingUnit.ag.nb ≠ [] ∧ (∀ x ∈ streamingUnit.ag.nb, x.failed = none) ∧ (aMaster []).ag.spawnid = 0#64 ∧
    (masterOf aSpawn []).ag.spawnid ≠ 0#64 ∧ (unitOf aSpawn []).ag.occupied = true := by decide +kernel

/-- A state in which both entries of the pool hold a fibre: bytes of their FSTATE. -/
def fullPool (s : State) : State := { s with mem := [(poolCell + 0x367, 0x20#8), (poolCell + 0xB67, 0x20#8)] }
def aFibre : FibreInfo :=
  { spawn := 1, uid := 1, runtime := false, serving := 0#64, run := 0, node := 0, image := List.replicate 192 0#64, upcause := 0#64, deferred := none }
theorem witness_FibreSaveEntersTheRuntime : (aMaster []).ag.role = .master ∧ (unitOf aSpawn []).ag.role = .unit ∧
    (unitOf aSpawn []).ag.nb = [] ∧ ({ aSpawn with upentry := 0#64 } : Spawn).upentry = 0#64 ∧ aSpawn.upentry ≠ 0#64 ∧
    ((fullPool (unitOf aSpawn [])).setWait .ready).freePoolEntry aSpawn.fibpool (poolSize aSpawn.fibpool) 0 = none ∧
    ∃ x, ((unitOf aSpawn []).setWait .ready).freePoolEntry aSpawn.fibpool (poolSize aSpawn.fibpool) 0 = some x ∧
      (decide (x.1 = codeVa + 0x8000#64 ∧ x.2.1 = poolCell ∧ x.2.2.1 = none) && tidy x.2.2.2) = true :=
  ⟨by decide, by decide, by decide, by decide, by decide, by decide +kernel, some_of (by decide +kernel)⟩

/-- A runtime in slot 1 whose spawn's pool holds a fibre of its core, its address in g2. -/
def aRuntime : State :=
  let s := fullPool (unitOf aSpawn [(2, codeVa + 0x8000#64)])
  { s with ag := { s.ag with role := .runtime }, agId := 1, job := { s.job with fibres := [((codeVa + 0x8000#64).toNat, aFibre)] } }
theorem witness_FibresComeBack : (aMaster []).ag.role = .master ∧ (aUnit []).ag.role = .unit ∧ aRuntime.ag.role = .runtime ∧
    aRuntime.fibreAt 0#64 = none ∧ aRuntime.fibreAt (aRuntime.g 2#5) = some (2, 0) ∧ coreKey aRuntime.agId = 0 ∧ aRuntime.ag.nb = [] ∧
    lookup (aRuntime.g 2#5).toNat aRuntime.job.fibres = some aFibre ∧ aFibre.runtime = false ∧
    ∃ x, aRuntime.hwCell false (aRuntime.g 2#5) 2048 = .ok x ∧ (x.2 == (poolCell, none) &&
      (List.range 192).all (fun i => !x.1.poisoned (poolCell + 8 * i)) && (x.1.readWord (poolCell + 0x360)).toNat / 2 ^ 60 == 2 &&
      recordBody false (x.1.getWords poolCell 192) == aFibre.image) = true :=
  ⟨by decide, by decide, by decide, by decide +kernel, by decide +kernel, by decide, by decide, by decide +kernel, by decide,
    ok_of (by decide +kernel)⟩

/-! Witnesses: posts to the engines. -/

def mailbox : Nat := lsBase + 0x3_E000
def stampReader : State := aUnit [(2, codeVa + 0x100#64), (5, 9#64), (6, 3#64)]
theorem witness_CopiesArePostedAndAwaited : (aMaster []).ag.role = .master ∧ (aUnit []).ag.role ≠ .master ∧
    (¬((aUnit []).g 2#5).toNat / 2 ^ 18 = 0x00FF_FF00_0000_0000 / 2 ^ 18) ∧
    ((codeVa + 0x3_BFC0#64).toNat / 2 ^ 18 = 0x00FF_FF00_0000_0000 / 2 ^ 18 + 0 ∧ (codeVa + 0x3_BFC0#64).toNat % 2 ^ 18 < 0x3_C000 ∧
      (codeVa + 0x3_BFC0#64).toNat % 64 = 0) ∧
    (∃ u, Reaches (aUnit []) (.post 3 (codeVa + 0x100#64)) (codeVa + 0x3_E018#64) u (mailbox + 24) none ∧
      (tidy u && !u.feBit (mailbox + 24) && u.job.parked.isEmpty) = true) ∧
    (∃ u, Reaches ({ aUnit [] with fe := [(mailbox + 0x20) / 8] }) (.fe .ldfe 1#5 0#64) (codeVa + 0x3_E020#64) u (mailbox + 0x20) none ∧
      (tidy u && u.feBit (mailbox + 0x20) && !u.poisoned (mailbox + 0x20) && u.job.parked.isEmpty) = true) ∧
    (∃ u, Reaches stampReader (.stamp 0) (stampReader.g 2#5) u aSpot none ∧
      (!u.poisoned aSpot && decide (u.readNat aSpot 8 % 2 ^ 40 = 0)) = true) ∧
    (∃ u, Reaches stampReader (.stamp 3) (stampReader.g 2#5) u aSpot none ∧
      (!u.poisoned aSpot && decide (u.readNat aSpot 8 % 2 ^ 40 ≠ 3)) = true) ∧
    (stampReader.g 3#5).toNat ≤ stampReader.pkg.cycle ∧ stampReader.pkg.cycle < (stampReader.g 5#5).toNat :=
  ⟨by decide, by decide, by decide, by decide, reaches_of (by decide +kernel), reaches_of (by decide +kernel), reaches_of (by decide +kernel),
    reaches_of (by decide +kernel), by decide, by decide⟩

/-- A unit with a memory-side block at g2 that names the page as its destination; communicator 0 is up. -/
def aComm : Comm := { rank := 0, size := 2, threshold := 0, nnode := 0, tree := [], seq := 0, instances := [], ending := false, lost := [] }
def paged (l : List (Nat × Word)) : State :=
  let s := aUnit ((2, codeVa + 0x100#64) :: l)
  { s with job := { s.job with tlb := [aPage], comms := [(0, aComm)] }, mem := [(aSpot + 10, 0x10#8)] }
def aTask : Task :=
  { list := 0, ticket := 1, recAddr := aSpot, record := List.replicate 8 0#64, poster := ⟨1, .job, .user, 0⟩, state := 1, cause := 0, blocks := 0
    row := 0, header := [], loaded := [], trap := none, dispatched := false, hold := .going }
/-- The page is one of an armed window's view; or the memory-side queue 0 is full. -/
def viewPaged : State :=
  let s := paged []
  { s with
    job := { s.job with tlb := [{ aPage with pte := 0xD860_0000_0001_0000#64 }] }
    pkg := { s.pkg with dev := [(0xF00_0000_1000, 0x8000_0000_0000_0001#64), (0xF00_0000_1008, 0x1_0000#64), (0xF00_0000_1010, 0x2_0000#64), (0xF00_0000_1018, 0x3_0000#64)] } }
def aMs (op : Nat) (srcs : List Word) : MsRequest :=
  { queue := 0, seq := 1, block := [BitVec.ofNat 64 (op * 2 ^ 60 + 1), 0x10_0000#64, 0x10_0040#64, codeVa + 0x3000#64, 0#64, 0#64, 0#64, 0#64]
    sources := srcs, poster := ⟨1, .job, .user, 0⟩, started := true, progress := 0, isat := false, hold := .going, status := none, cause := none
    written := 0 }
def fullQueue : State :=
  let s := paged []
  { s with job := { s.job with msEngines := [(0, { seqs := [], timelines := [], requests := List.replicate 32 (aMs 1 []), lastQueue := 15, busyAt := 0 })] } }
def anInstance0 : Instance :=
  { seq := 1, record := [], poster := ⟨1, .job, .user, 0⟩, started := false, peers := [], status := 0, causes := [], flags := 0, bandnw := 0
    words := 0, result := [], bad := [], hold := .going, completed := 0 }
theorem witness_PostsQueueTheirRequests : (aMaster []).ag.role = .master ∧ (aUnit []).ag.role ≠ .master ∧
    ((codeVa + 0x3_BFC0#64).toNat / 2 ^ 18 = 0x00FF_FF00_0000_0000 / 2 ^ 18 + 0 / 16 % 2 ^ 11 ∧
      (codeVa + 0x3_BFC0#64).toNat % 2 ^ 18 < 0x3_C000 ∧ (codeVa + 0x3_BFC0#64).toNat % 64 = 0) ∧
    (aUnit []).job.dies_n ≤ 64 / 64 ∧ 63 / 64 < (aUnit []).job.dies_n ∧ ((aUnit []).job.tile 0).tasks.length < 1024 ∧
    (∃ j : Job, 1024 ≤ (j.tile 0).tasks.length) ∧ (∃ u t, (paged []).readBlock 0#64 = .trap u t) ∧
    (match (paged []).readBlock ((paged []).g 2#5) with | .ok u ws => u == paged [] && ws.getD 1 0#64 == 0x10_0000#64 | _ => false) = true ∧
    (∃ t, (paged []).check .user .store 0#64 1 = .error t ∧ (t.cause != 0x63#8) = true) ∧
    (∃ t, viewPaged.check .user .store 0x10_0000#64 1 = .error t ∧ (t.cause == 0x63#8) = true) ∧
    0 ∈ ({ aUnit [] with pkg := { Pkg.reset with gated := [0] } } : State).pkg.gated ∧
    (∃ x, fullQueue.check .user .store 0x10_0000#64 1 = .ok x ∧ (x.2 == .cell 0x1_0000 none &&
      decide (32 ≤ ((x.1.job.msEngine 0).requests.filter (fun r => r.queue = 0)).length)) = true) ∧
    16 ≤ ({ aComm with instances := List.replicate 16 anInstance0 } : Comm).instances.length ∧
    (∃ s2, (paged []).check .user .store 0x10_0000#64 1 = .ok (s2, .cell 0x1_0000 none) ∧ isLocal 0x1_0000 = false ∧
      ((s2.job.msEngine 0).requests.filter (fun r => r.queue = 0)).length < 32) ∧
    (∃ s2, (paged []).check .user .store codeVa 1 = .ok (s2, .cell lsBase none) ∧ isLocal lsBase = true) ∧
    lookup 0 (paged []).job.comms = some aComm ∧ (paged []).job.status = .running ∧ aComm.instances.length < 16 ∧
    (match ({ paged [] with pkg := { Pkg.reset with gated := [0] } } : State).readBlock (codeVa + 0x100#64) with | .again _ => true | _ => false) = true ∧
    lookup 255 (paged []).job.comms = none :=
  ⟨by decide, by decide, by decide, by decide, by decide, by decide,
    ⟨{ aJob with tiles := [(0, { tickets := [], timelines := [], tasks := List.replicate 1024 aTask, lastList := [], accs := [], panels := [], dispatchedAt := none, busyAt := 0 })] },
      by decide +kernel⟩, ⟨_, _, rfl⟩, by decide +kernel, error_of (by decide +kernel), error_of (by decide +kernel), by decide, ok_of (by decide +kernel),
    by decide, ⟨_, rfl, by decide +kernel, by decide +kernel⟩,
    ⟨_, rfl, by decide +kernel⟩, by decide +kernel, by decide, by decide, by decide +kernel, by decide⟩

/-! Witnesses: the system. The supervisor has a queue of 16 records at 0x4000 of the local store with one record in it, and
two entries of `sfibarea` at 0x8000. -/

theorem witness_NamedStatesReadAndWrite : 14 < (15#12).toNat ∧ ¬(0x400 ≤ (15#12).toNat) ∧ 14 < (0x410#12).toNat ∧ (0x801#12).toNat = 0x801 ∧
    ¬((0x410#12).toNat ≤ 0x40F) ∧ (aUnit []).ag.priv = .user ∧ (aSteward []).ag.priv = .supervisor ∧ (aSteward []).ag.role = .master ∧
    (aUnit []).ag.role ≠ .master ∧ aJob.refuses 6 codeVa = false ∧ aJob.refuses 9 0#64 = false ∧ aJob.refuses 0x403 0#64 = false ∧
    (∀ m ∈ [10, 0x402, 0x405, 0x406, 0x407, 0x408, 0x409, 0x40A, 0x40B], aJob.refuses m 4#64 = false) ∧
    (codeVa + 1#64 ≠ 0#64 ∧ (codeVa + 1#64).getLsbD 0 = true) ∧ 2 ^ 56 ≤ (0x100_0000_0000_0000#64).toNat ∧
    20 < (0xA800_0000_0000_0000#64).toNat / 2 ^ 59 ∧ (0x1_0000_0000#64).toNat % 2 ^ 32 = 0 ∧ 4 < (0xA000_0000_0000_0000#64).toNat / 2 ^ 61 ∧
    1 < (2#64).toNat := by decide
theorem witness_SystemCallsAndBreakpoints : 1#12 ≠ 0#12 ∧ (aUnit []).ag.role ≠ .master ∧ (aMaster []).ag.role = .master ∧
    (masterOf aSpawn []).ag.spawnid ≠ 0#64 ∧ (aMaster []).ag.spawnid = 0#64 ∧ (aMaster []).ag.nb = [] ∧ (aMaster []).ag.priv = .user := by
  decide

def queueCell : Nat := lsBase + 0x4000
def anEntry : Word := codeVa + 0x8000#64
def withArea (s : State) : State :=
  { s with job := { s.job with sfibarea := aPool, sqbase := 0x2000_0000_0000_0000#64 + codeVa + 0x4000#64, sqtail := 1#64 } }
def boss (l : List (Nat × Word)) : State := withArea (aSteward l)
/-- The record asks to resume the fibre that the first entry holds in STATE 1. -/
def bossWithFibre (l : List (Nat × Word)) : State :=
  let s := boss l
  { s with mem := Memory.writeNat (queueCell + 40) 8 anEntry.toNat (Memory.writeNat (queueCell + 7) 1 0x10
             (Memory.writeNat (poolCell + 0x367) 1 0x10 []))
           job := { s.job with fibres := [(anEntry.toNat, aFibre)] } }
def bossWithUnit : State := let s := boss []; { s with job := { s.job with agents := [(0, (aUnit []).ag)] } }

/-- Slot 0 has a load of a page under way; and what `tlbinv` marks with every translation in scope. -/
def bossWithRequest : State :=
  let s := boss []
  let a := (aUnit []).ag
  { s with job := { s.job with tlb := [aPage], agents := [(0, { a with wait := .request (.load 8 false 9#5) 0x10_0000#64 (.cell 0x1_0000 none) 4 0 })] } }
/-- The drain of a `tlbinv` of every translation, in a state. -/
def drained (s : State) : Drain :=
  s.drainOf s.ag.pc 0#64 0x4000_0000_0000_0000#64 (s.job.tlb.filter (s.inScope 0#64 0x4000_0000_0000_0000#64))
/-- A record at the queue's head asks for a disposition of a kind, of a handle and number; the entry's STATE. -/
def asking (disp kind handle number : Nat) (s : State) : State :=
  { s with mem := Memory.writeNat (queueCell + 40) 8 number (Memory.writeNat (queueCell + 24) 8 handle
             (Memory.writeNat (queueCell + 6) 2 (disp * 2 ^ 12 + kind * 2 ^ 8 + 0x30) s.mem)) }
def holdingFibre (st : Nat) (f : FibreInfo) : State :=
  let s := boss []
  { s with mem := Memory.writeNat (poolCell + 0x366) 2 (st * 2 ^ 12) [], job := { s.job with fibres := [(anEntry.toNat, f)], spawns := [(1, aSpawn)] } }
/-- The record is read, and a test holds of the state after and the kind and disposition there. -/
def asked (s : State) (p : State → Nat → Nat → Bool) : Bool :=
  s.job.queued != 0 && good (s.hwCell false (s.job.recordVa s.job.sqhead.toNat) 64) (fun x =>
    let r0 := (x.1.readWord x.2.1).toNat
    (List.range 8).all (fun i => !x.1.poisoned (x.2.1 + 8 * i)) && x.1.job.status != .absent && p x.1 (r0 / 2 ^ 60) (r0 / 2 ^ 56 % 16))
theorem witness_PrivilegedInstructionsAct : (aUnit []).ag.priv = .user ∧ (boss []).ag.priv = .supervisor ∧ (boss []).job.queued ≠ 0 ∧
    (aSteward []).job.queued = 0 ∧
    (∃ x, (boss []).hwCell false ((boss []).job.recordVa (boss []).job.sqhead.toNat) 64 = .ok x ∧
      ((List.range 8).all (fun i => !x.1.poisoned (x.2.1 + 8 * i)) && (x.1.readWord x.2.1).toNat / 2 ^ 60 == 0 &&
        decide ((x.1.readWord x.2.1).toNat / 2 ^ 56 % 16 ≤ 1) && x.1.job.status != .absent) = true) ∧
    (∃ x, (bossWithFibre []).hwCell false ((bossWithFibre []).job.recordVa (bossWithFibre []).job.sqhead.toNat) 64 = .ok x ∧
      ((List.range 8).all (fun i => !x.1.poisoned (x.2.1 + 8 * i)) && (x.1.readWord x.2.1).toNat / 2 ^ 60 == 1 &&
        (x.1.readWord x.2.1).toNat / 2 ^ 56 % 16 == 0 && x.1.job.status != .absent &&
        x.1.savedState (x.1.readWord (x.2.1 + 40)) == some 1) = true) ∧
    tlbinvOk 0#64 = false ∧ tlbinvOk 1#64 = true ∧ tlbinvOk 0x4000_0000_0000_0000#64 = true ∧
    (∀ z ∈ (boss []).allAgents, z.2.nb = []) ∧ (boss []).job.drain = none ∧ (boss []).drains (drained (boss [])) = false ∧
    (∀ z ∈ bossWithRequest.allAgents, z.2.nb = []) ∧ bossWithRequest.job.drain = none ∧ bossWithRequest.drains (drained bossWithRequest) = true ∧
    ({ bossWithRequest with job := { bossWithRequest.job with drain := some (drained bossWithRequest) } } : State).drains (drained bossWithRequest) = true ∧ (boss []).job.slotOk 15#64 = false ∧
    (boss []).job.slotOk 0x7FE#64 = true ∧ (boss []).job.slotOk 0x800#64 = false ∧ (boss []).agId = steward ∧
    (boss []).job.status ≠ .absent ∧ (∃ u, ((boss []).focus 0x7FE).quiet = some u ∧ true = true) ∧ anEntry.toNat % 2048 = 0 ∧
    inPool (boss []).job.sfibarea anEntry = true ∧
    (∃ x, (bossWithFibre []).hwRead (anEntry + 0x360#64) = .ok x ∧ (x.2.toNat / 2 ^ 60 != 0) = true) ∧
    (∃ x, (boss []).hwRead (anEntry + 0x360#64) = .ok x ∧ (x.2.toNat / 2 ^ 60 == 0 && !(x.1.agent 0).occupied) = true) ∧
    (∃ x, bossWithUnit.hwRead (anEntry + 0x360#64) = .ok x ∧ (x.2.toNat / 2 ^ 60 == 0 && (x.1.agent 0).occupied &&
      good (x.1.hwCell true anEntry 2048) (fun y => (y.1.focus 0).quiet.isSome)) = true) ∧
    (boss []).savedState anEntry = none ∧ (bossWithFibre []).savedState anEntry = some 1 ∧
    (0xC000_0000_0000_0000#64).toNat / 2 ^ 62 = 3 ∧ (0#64).toNat < 2 ^ 16 ∧ (bossWithFibre []).job.slotOk 0#64 = true ∧
    ((bossWithFibre []).agent 0).occupied = false ∧ (bossWithFibre []).job.posting 0 = false ∧
    coreKey 0 = (bossWithFibre []).homeCore anEntry := by
  refine ⟨by decide, by decide, by decide, by decide, ok_of (by decide +kernel), ok_of (by decide +kernel), by decide, by decide, by decide,
    by decide +kernel, by decide +kernel, by decide +kernel, by decide +kernel, by decide +kernel, by decide +kernel, by decide +kernel, by decide +kernel, by decide +kernel,
    by decide +kernel, by decide,
    by decide, some_of (by decide +kernel), by decide, by decide +kernel, ok_of (by decide +kernel), ok_of (by decide +kernel),
    ok_of (by decide +kernel), by decide +kernel, by decide +kernel, by decide, by decide, by decide +kernel, by decide +kernel,
    by decide +kernel, by decide +kernel⟩

theorem witness_PrivilegedInstructionsAct_fibres_1 :
    ([1, 2, 3].all (fun disp => [(0, 1, false), (0, 4, false), (1, 4, true)].all (fun x =>
      asked (asking disp x.1 0 anEntry.toNat (holdingFibre x.2.1 { aFibre with runtime := x.2.2 })) (fun u d k =>
        d == disp && k == x.1 && u.savedState anEntry == some x.2.1 && (lookup anEntry.toNat u.job.fibres).any (fun f => f.spawn != 0 && f.runtime == x.2.2) &&
          lookup 1 u.job.spawns == some aSpawn && !u.job.orphan aSpawn)))) = true := by decide +kernel
theorem witness_PrivilegedInstructionsAct_fibres_2 :
    ([1, 2, 3].all (fun disp =>
      asked (asking disp 2 0 anEntry.toNat (holdingFibre 5 { aFibre with spawn := 0 })) (fun u d k =>
        d == disp && k == 2 && u.savedState anEntry == some 5 && (lookup anEntry.toNat u.job.fibres).any (fun f => f.spawn == 0) &&
          good (((u.advance 4).setNotice anEntry 1).hwRead (anEntry + 0x360#64)) (fun _ => true)))) = true ∧
    good ((boss []).hwCell true (anEntry + 0x3A8#64) 8) (fun x => tidy x.1 && x.2.2 == none) = true := by decide +kernel
theorem witness_PrivilegedInstructionsAct_fibres_3 :
    (asked (asking 0 0 0 0 (boss [])) (fun _ d _ => d == 0) && asked (asking 4 0 0 0 (boss [])) (fun _ d _ => d == 4) &&
      asked (asking 1 7 0 0 (boss [])) (fun _ _ k => k == 7)) = true := by decide +kernel

def limit : Trap := { cause := 0x40#8, addr := codeVa + 0x100#64 }
theorem witness_UnitCausesEnterTheRuntime : (unitOf aSpawn []).ag.role = .unit ∧ (unitOf aSpawn []).ag.nb = [] ∧
    (unitOf aSpawn []).trace 3 limit.cause.toNat (unitOf aSpawn []).ag.pc 0#64 = unitOf aSpawn [] ∧
    (unitOf aSpawn []).owned 0 = false ∧ ((0x20#8).toNat / 32 = 1 ∧ (0x20#8).toNat % 8 < 2) ∧ ((0x39#8).toNat / 32 = 1 ∧ (0x39#8).toNat % 8 < 2) ∧
    lookup (unitOf aSpawn []).ag.spawnid.toNat (unitOf aSpawn []).job.spawns = some aSpawn ∧ aSpawn.upentry ≠ 0#64 ∧
    ∃ x, ({ unitOf aSpawn [] with ag := { (unitOf aSpawn []).ag with upaddr := limit.addr, wait := .ready, deferred := none } } : State).freePoolEntry
      aSpawn.fibpool (poolSize aSpawn.fibpool) 0 = some x ∧ (decide (x.2.2.1 = none) && tidy x.2.2.2) = true :=
  ⟨by decide, by decide, by decide +kernel, by decide +kernel, by decide, by decide, by decide, by decide, some_of (by decide +kernel)⟩

def halted : Trap := { cause := 0x04#8 }
/-- A unit of a spawn with no upcall entry, its area free or full. -/
def plainUnit : State := withArea (unitOf { aSpawn with upentry := 0#64 } [])
def faced (s : State) : State := { s with ag := { s.ag with upaddr := halted.addr, wait := .ready, deferred := none } }
theorem witness_OtherCausesGoToTheSupervisor : plainUnit.ag.nb = [] ∧ plainUnit.trace 3 4 plainUnit.ag.pc 0#64 = plainUnit ∧
    halted.since = none ∧ ¬(0xA1 ≤ halted.cause.toNat) ∧ ¬(halted.cause.toNat / 32 = 1) ∧ ¬(halted.cause.toNat / 32 = 3 ∨ halted.cause.toNat / 32 = 4) ∧
    (lookup plainUnit.ag.spawnid.toNat plainUnit.job.spawns).map (fun sp => sp.upentry) = some 0#64 ∧ (boss []).ag.priv = .supervisor ∧
    (boss []).ag.role = .master ∧ plainUnit.ag.priv = .user ∧ poolSize plainUnit.job.sfibarea = 2 ∧
    (faced (fullPool plainUnit)).freeAreaEntry 2 0 = .ok none ∧
    (∃ x, (faced plainUnit).freeAreaEntry 2 0 = .ok x ∧
      (x.any (fun y => decide (y.1 = anEntry ∧ y.2.1 = poolCell ∧ y.2.2.1 = none) && tidy y.2.2.2)) = true) ∧
    plainUnit.job.records = [] ∧ (aUnit []).job.queueSize = 0 ∧ plainUnit.job.queueSize ≠ 0 ∧ plainUnit.job.queued ≠ plainUnit.job.queueSize ∧
    ({ plainUnit.job with sqtail := 16#64 } : Job).queued = plainUnit.job.queueSize ∧
    ∃ x, ({ plainUnit with job := { plainUnit.job with records := [List.replicate 8 1#64] } } : State).hwCell true
      (plainUnit.job.recordVa plainUnit.job.sqtail.toNat) 64 = .ok x ∧ (decide (x.2 = (queueCell + 64, none)) && tidy x.1) = true :=
  ⟨by decide, by decide +kernel, by decide, by decide, by decide, by decide, by decide, by decide, by decide, by decide, by decide,
    by
      have h : good ((faced (fullPool plainUnit)).freeAreaEntry 2 0) (fun x => x.isNone) = true := by decide +kernel
      obtain ⟨x, e, n⟩ := ok_of h
      rw [e, Option.isNone_iff_eq_none.mp n], ok_of (by decide +kernel), by decide, by decide, by decide, by decide, by decide, ok_of (by decide +kernel)⟩

/-! Witnesses: events. Each clause's state and operands, and that the row has its effect there. -/

def runs (i : Instr) (s : State) : Bool := match exec i s with | .next t => t != s | _ => false
/-- The same, seen in the job alone: quicker where many bytes are written. -/
def acts (i : Instr) (s : State) : Bool := match exec i s with | .next t => t.job != s.job | _ => false
/-- Rows that change nothing there. -/
def idles (i : Instr) (s : State) : Bool := match exec i s with | .next t => t == s | _ => false
def later (c : Nat) (s : State) : State := { s with pkg := { s.pkg with cycle := c } }
def waiting (w : Wait) : State := let s := unitOf aSpawn [(2, codeVa + 0x100#64)]; { s with ag := { s.ag with wait := w } }
def anOp : Parked :=
  { agent := 0, op := .ldff, v := 0#64, cell := aSpot, home := none, since := 0, tried := 0, wakes := 0, ended := none, post := none }
def parkedAt (p : Parked) : State :=
  let s := waiting (.park (.fe p.op 9#5 0#64) (codeVa + 0x100#64) 4)
  { s with job := { s.job with parked := [p] } }
def anArmed : Armed :=
  { agent := 0, test := .eq, v := 1#64, loc := .cell aSpot none, since := 0, before := 0, polling := true, polled := 0, ended := none }
def watching (p : Armed) : State :=
  let s := waiting (.watch (.watch .eq 1#64) (codeVa + 0x100#64) 4)
  { s with job := { s.job with armed := [p] } }

theorem witness_WaitsEndWhenTheirTimeComes_1 :
    (∀ s ∈ [waiting .fence, parkedAt anOp, watching anArmed], s.live = true ∧ (s.agent 0).occupied = true) := by decide +kernel
theorem witness_WaitsEndWhenTheirTimeComes_2 :
    runs (.longLatencyResult 0) (later 38 (waiting (.long 38 (.gpr 9#5 1#64 0#64)))) = true := by decide +kernel
theorem witness_WaitsEndWhenTheirTimeComes_3 :
    runs (.longLatencyResult 0) (later 30 (waiting (.long 30 (.vec 1#3 0#512 0#64)))) = true := by decide +kernel
theorem witness_WaitsEndWhenTheirTimeComes_4 :
    runs (.sleepWake 0) (later 9 (waiting (.sleep 9#64))) = true := by decide +kernel
theorem witness_WaitsEndWhenTheirTimeComes_5 :
    (decide ((waiting (.waitc 0 0 0 0)).cpout (waiting (.waitc 0 0 0 0)).ag ≤ 0 ∧ (waiting (.waitc 0 0 0 0)).tkout (waiting (.waitc 0 0 0 0)).ag ≤ 0 ∧
      (waiting (.waitc 0 0 0 0)).ag.nbload ≤ 0) && runs (.waitcComplete 0) (waiting (.waitc 0 0 0 0))) = true := by decide +kernel
theorem witness_WaitsEndWhenTheirTimeComes_6 :
    runs (.fenceComplete 0) (waiting .fence) = true := by decide +kernel
theorem witness_WaitsEndWhenTheirTimeComes_7 :
    (let s := waiting (.cpwait (.stamp 0) (codeVa + 0x100#64) 0#64)
     good ((((s.served 0).account (s.pkg.cycle + 1)).setWait .ready).check .user .load (codeVa + 0x100#64) 8) (fun x => x.2 == .cell aSpot none &&
       !x.1.asleep (.cell aSpot none) && x.1.ag.nb.isEmpty && x.1.job.loose.isEmpty && x.1.share.isNone && (s.served 0).hasTurn && !x.1.poisoned aSpot && x.1.readNat aSpot 8 % 2 ^ 40 == 0) &&
       runs (.cpwaitPromiseReached 0) s && idles (.cpwaitPromiseReached 0) (later 1 s)) = true := by decide +kernel
theorem witness_WaitsEndWhenTheirTimeComes_8 :
    (let sp := { aSpawn with nextChunk := 10, units := 0 }
     let s := masterOf sp []
     let t := { s with ag := { s.ag with wait := .join } }
     lookup t.ag.spawnid.toNat t.job.spawns == some sp && t.job.complete 1 sp && runs (.joinRetire (masterId 1)) t) = true := by decide +kernel
theorem witness_WaitsEndWhenTheirTimeComes_9 :
    (let s := waiting (.next 2)
     s.job.ready.isEmpty && (s.job.again 0).isNone && (s.job.die 0).basin.isEmpty && (s.job.die 0).spilled.isEmpty && (s.job.die 0).entries.isEmpty &&
       runs (.nextDrainComplete 0) s) = true := by decide +kernel
theorem witness_WaitsEndWhenTheirTimeComes_10 :
    (let s := waiting .ps
     runs (.psWindow 1) (later 16 { s with job := { s.job with psRequests := [aRequest, { aRequest with agent := 1 }] } }) &&
       runs (.psResult 0) (later 24 { s with job := { s.job with psRequests := [{ aRequest with value := some 3#64 }] } })) = true := by decide +kernel
theorem witness_WaitsEndWhenTheirTimeComes_11 :
    (let s := waiting (.request (.load 2 true 9#5) (codeVa + 0x100#64) (.cell aSpot none) 4 0)
     s.share.isNone && !(s.served 0).asleep (.cell aSpot none) && !(s.served 0).poisoned aSpot && runs (.memoryRequestAtHome 0) s) = true := by decide +kernel
theorem witness_WaitsEndWhenTheirTimeComes_12 :
    (let s := waiting (.request (.store 8 7#64) (codeVa + 0x100#64) (.cell aSpot none) 4 0)
     s.share.isNone && !(s.served 0).asleep (.cell aSpot none) && tidy (s.served 0) && runs (.memoryRequestAtHome 0) s) = true := by decide +kernel
theorem witness_WaitsEndWhenTheirTimeComes_13 :
    runs (.loadReply 0) (waiting (.reply 9#5 1#64)) = true := by decide +kernel
theorem witness_WaitsEndWhenTheirTimeComes_14 :
    runs (.loadReply 0) (parkedAt { anOp with ended := some (.ok 5#64) }) = true := by decide +kernel
theorem witness_WaitsEndWhenTheirTimeComes_15 :
    (let s := { streamingUnit with ag := { streamingUnit.ag with nb := [{ outstanding with isStore := true }] } }
     tidy (streamingUnit.focus 0) && olderSame streamingUnit.ag.nb 0 == none && olderSame s.ag.nb 0 == none && !(streamingUnit.focus 0).poisoned (lsBase + 0x200) && tidy (s.focus 0) &&
       runs (.streamingAccessPerform 0 0) streamingUnit && runs (.streamingAccessPerform 0 0) s) = true := by decide +kernel
theorem witness_WaitsEndWhenTheirTimeComes_16 :
    (let s := later 65536 { parkedAt anOp with fe := [aSpot / 8] }
     !s.feBit aSpot && runs (.idleWake 0) s && (later 65536 (parkedAt anOp)).feBit aSpot &&
       !(parkedAt anOp).poisoned aSpot && runs (.idleWake 0) (later 65536 (parkedAt anOp))) = true := by decide +kernel
theorem witness_WaitsEndWhenTheirTimeComes_17 :
    runs (.mwaitPoll 0) (later 1024 (watching anArmed)) = true := by decide +kernel
theorem witness_WaitsEndWhenTheirTimeComes_18 :
    runs (.watchLimit 0) (later (2 ^ 32) (watching anArmed)) = true ∧ idles (.leaseExpiry 0 0) (waiting .ready) = true := by decide +kernel

def spawned (l : List (Nat × Word)) : State := let s := unitOf aSpawn l; { s with ag := Agent.vacant }
def anIdleDie : DieState := { entries := [], basin := [], spilled := [], lastMaster := 31, busyAt := 0 }
def anEntryOf (n l : Nat) : TableEntry := { spawn := 1, next := n, last := l, further := none }
def withDie (d : DieState) (s : State) : State := { s with job := { s.job with dies := [(0, d)] } }
def aNode : RunNode := { st := .waiting, pred := false, requests := 0, retries := 0, ending := false, restart := false }
def aGraph : Graph := { rpol := 0, donea := 0#64, nodes := [⟨0#64, codeVa, 3#64, 0#64⟩], edges := [] }
def aRun : Run :=
  { id := 1, prio := 0, graph := 0, plist := 0#64, started := false, nodes := [aNode], cancelled := false, patched := none, rejected := false
    faulted := none }
/-- A graph image of one node at 0x400 of the local store, or what spoils it. -/
def image (m : List Host.Cell) : State := { aSteward [] with mem := m }
def oneNode : List Host.Cell := [(lsBase + 0x406, 1#8)]
def upload (id : Nat) : Word := BitVec.ofNat 64 (id * 2 ^ 51 + (codeVa.toNat + 0x400) / 64)
def running (rs : List Run) : State :=
  let s := aSteward []
  { s with job := { s.job with runs := rs, graphs := [(0, aGraph)], nextRun := 2 } }
def selecting (v : Word) : State := let s := spawned []; { s with ag := (aUnit []).ag, job := { s.job with lvlsel := v } }

theorem witness_TurnsDrawsAndRunsMoveOn_1 :
    (let s := later 15 (aUnit []); (s.focus 15).hasTurn && decide (0 < s.job.dies_n) && runs (.rotationTurn 0 0) s) = true := by decide +kernel
theorem witness_TurnsDrawsAndRunsMoveOn_2 :
    (let s := later 16 (aUnit []); !(s.focus 0).canEnd && (s.focus 0).canIssue && (s.focus 0).hasTurn && runs (.rotationTurn 0 0) s) = true := by decide +kernel
theorem witness_TurnsDrawsAndRunsMoveOn_3 :
    (let s := later 14 (aUnit []); !(s.focus 14).canEnd && !(s.focus 14).canIssue && (s.focus 14).hasTurn && runs (.rotationTurn 0 0) s) = true := by decide +kernel
theorem witness_TurnsDrawsAndRunsMoveOn_4 :
    (let s := withDie { anIdleDie with entries := [(1, anEntryOf 9 9)] } (spawned [])
     (s.focus 0).mayDraw && (s.focus 0).hasTurn && (s.job.again 0).isNone && s.job.ready.isEmpty && lookup 1 s.job.spawns == some aSpawn && runs (.slotDraw 0) s) = true := by decide +kernel
theorem witness_TurnsDrawsAndRunsMoveOn_5 :
    (let sp := { aSpawn with nextChunk := 9 }
     let s := withDie { anIdleDie with basin := [1] } { spawned [] with job := { (spawned []).job with spawns := [(1, sp)] } }
     (s.focus 0).mayDraw && (s.focus 0).hasTurn && (s.job.again 0).isNone && s.job.ready.isEmpty && decide (sp.nextChunk ≤ sp.hi) && runs (.slotDraw 0) s) = true := by decide +kernel
theorem witness_TurnsDrawsAndRunsMoveOn_6 :
    (let s := spawned []; s.job.spawnOf 1 == some (1, aSpawn) && (s.job.die 0).entries.isEmpty && runs (.spawnBroadcast 0 1) s) = true := by decide +kernel
theorem witness_TurnsDrawsAndRunsMoveOn_7 :
    (let s := withDie { anIdleDie with entries := [(1, anEntryOf 1 0)] } (spawned [])
     let t := withDie { anIdleDie with entries := [(1, anEntryOf 0 0)] } (spawned [])
     s.job.status == .running && decide (aSpawn.nextChunk ≤ aSpawn.hi) && aSpawn.ended == none && runs (.chunkRequest 0 1) s && runs (.chunkRequest 0 1) t) = true := by decide +kernel
theorem witness_TurnsDrawsAndRunsMoveOn_8 :
    (let s := withDie { anIdleDie with basin := List.replicate 255 1, spilled := [1] } (spawned [])
     s.live && decide ((s.job.die 0).basin.length < 256) && runs (.basinRefill 0) s) = true := by decide +kernel
theorem witness_TurnsDrawsAndRunsMoveOn_9 :
    (let s := { plainUnit with job := { plainUnit.job with records := [List.replicate 8 1#64] } }
     s.live && decide (s.job.queueSize ≠ 0 ∧ s.job.queued ≠ s.job.queueSize) &&
       good (s.hwCell true (s.job.recordVa s.job.sqtail.toNat) 64) (fun x => x.2 == (queueCell + 64, none) && tidy x.1) &&
       runs .trapRecordPost s) = true := by decide +kernel
theorem witness_TurnsDrawsAndRunsMoveOn_10 :
    (let s := { plainUnit with ag := { plainUnit.ag with deferred := some { halted with since := some 0 } } }
     let t := { plainUnit with ag := { plainUnit.ag with deferred := some { halted with since := some 0, toArea := true } } }
     s.live && ((s.served 0).raise { halted with since := some 0 }).ag.deferred.isNone && runs (.deferredSupervisorSave 0) s &&
       ((t.served 0).deliverSupervisor { halted with since := some 0, toArea := true }).ag.deferred.isNone && runs (.deferredSupervisorSave 0) t) = true := by decide +kernel
theorem witness_TurnsDrawsAndRunsMoveOn_11 :
    runs (.illegalEncoding 1#8) (aUnit []) = true := by decide +kernel
theorem witness_TurnsDrawsAndRunsMoveOn_12 :
    ((running [aRun]).answers && runs (.graphUpload (upload 0)) (running [aRun])) = true := by decide +kernel
theorem witness_TurnsDrawsAndRunsMoveOn_13 :
    ([[], oneNode, [(lsBase + 0x407, 0x20#8)], [(lsBase + 0x404, 1#8), (lsBase + 0x405, 0x40#8), (lsBase + 0x406, 1#8)],
        [(lsBase + 0x406, 1#8), (lsBase + 0x410, 1#8)]].all (fun m =>
      (match State.engReads schedulerChunk (items (addr6 (upload 7)) 8 8) (image m) with | .ok _ _ => true | _ => false) &&
        runs (.graphUpload (upload 7)) (image m))) = true := by decide +kernel
theorem witness_TurnsDrawsAndRunsMoveOn_14 :
    (match State.engReads schedulerChunk (items (addr6 (upload 7) + 64#64) 8 4) (image oneNode) with
      | .ok _ body => (graphOf [2 ^ 48] body).ok [2 ^ 48]
      | _ => false) = true := by decide +kernel
theorem witness_TurnsDrawsAndRunsMoveOn_15 :
    (let s := image oneNode
     let big : Graph := { aGraph with nodes := List.replicate 4096 ⟨0#64, codeVa, 3#64, 0#64⟩ }
     let t := { s with job := { s.job with graphs := (List.range 32).map (fun i => (i, big)) } }
     decide (2 ^ 22 < ((remove 200 t.job.graphs).map (fun x => x.2.bytes)).sum) && (match exec (.graphUpload (upload 200)) t with | .next u => u.job.gstat != t.job.gstat | _ => false)) = true := by decide +kernel
theorem witness_TurnsDrawsAndRunsMoveOn_16 :
    (lookup 0 (running []).job.graphs == some aGraph && runs (.runTrigger 0xC000_0000_0000_0000#64) (running []) &&
      (lookup 1 (running []).job.graphs).isNone && runs (.runTrigger 0x8_0000_0000_0000#64) (running [])) = true := by decide +kernel
theorem witness_TurnsDrawsAndRunsMoveOn_17 :
    (let s := running (List.replicate 64 aRun)
     decide (64 ≤ (s.job.runs.filter (fun r => !r.started && r.prio == 0)).length) && runs (.runTrigger 0#64) s) = true := by decide +kernel
theorem witness_TurnsDrawsAndRunsMoveOn_18 :
    ((running []).job.run? 1 == none && idles (.runCancel 1#64) (running []) && (running [aRun]).job.run? 1 == some aRun &&
      runs (.runCancel 1#64) (running [aRun])) = true := by decide +kernel
theorem witness_TurnsDrawsAndRunsMoveOn_19 :
    (let r := { aRun with started := true, nodes := [{ aNode with st := .exited (masterId 1) }, { aNode with st := .skipped }] }
     let s := running [r]
     s.job.run? 1 == some r && s.job.spawnless 1 0 && runs (.nodeCompletion 1 0) s) = true := by decide +kernel
theorem witness_TurnsDrawsAndRunsMoveOn_20 :
    (let s := selecting 0x6000_0000_0000_0009#64; s.answers && (s.levelCount 3 9).isNone && idles .lvlcmdCancel s) = true := by decide +kernel
theorem witness_TurnsDrawsAndRunsMoveOn_21 :
    (let s := selecting 0#64; s.job.selected.1 == 0 && runs .lvlcmdCancel s) = true := by decide +kernel
theorem witness_TurnsDrawsAndRunsMoveOn_22 :
    (let s := selecting 0x8000_0000_0000_0000#64
     s.job.selected == (4, 0) && (s.agent 0).occupied && (s.agent 0).role == .unit && runs .lvlcmdCancel s) = true := by decide +kernel
theorem witness_TurnsDrawsAndRunsMoveOn_23 :
    (let s := running [aRun]
     s.job.nextToStart == some aRun && s.job.run? 1 == some aRun && !(aGraph.nodes.any GraphNode.conditional) && (aGraph.into 0).isEmpty &&
       runs .runStart s) = true := by decide +kernel
theorem witness_TurnsDrawsAndRunsMoveOn_24 :
    (let n := { aNode with st := .ready 0 }
     let s := running [{ aRun with started := true, nodes := [n] }]
     firstNode s.job.readyNodes == some (0, 0, 1, 0) && s.job.node? 1 0 == some n && decide (1 < 2 * s.job.dies_n) && s.masterFree 1 &&
       s.job.graphNode 1 0 == some ⟨0#64, codeVa, 3#64, 0#64⟩ && runs .nodeStart s) = true := by decide +kernel

/-- A copy of conduit 0 by its operation, its fourth dword as the operation uses it, and its row of one dword. -/
def aCopy (op : Nat) (w4 : Word) : Copy :=
  { seq := 1, box := 0, recAddr := codeVa + 0x100#64
    record := [BitVec.ofNat 64 (op * 2 ^ 60 + 2 ^ 40), codeVa + 0x1000#64, codeVa + 0x2000#64, codeVa + 0x3000#64, w4, codeVa + 0x3200#64,
      codeVa + 0x3300#64, 1#64]
    src := [0x0080_0000_0001_0002#64, 0x1_0000_0001#64, 8#64, 0#64], dst := [0x0080_0000_0001_0002#64, 0x1_0000_0001#64, 8#64, 0#64]
    poster := ⟨1, .job, .user, 0⟩, promise := 100, unread := false, progress := 0, attempts := 0, waitVersion := none, writing := none, bags := [], hold := .going
    cost := 1, spent := 0, status := none, cause := none, noStamp := false }
def copying (c : Copy) : State :=
  let s := aUnit []
  { s with job := { s.job with conduits := [(0, { seq := 1, lastBox := 3, takenAt := none, busyAt := 0, posters := [], copies := [c] })] }, mem := [(lsBase + 0x3204, 1#8)] }
/-- Places in rising order, after a version's, are all different. -/
theorem nodup_of_rising {lo : Nat} {l : List Nat} (h : rising lo l = true) : l.Nodup ∧ ∀ x ∈ l, lo ≤ x := by
  induction l generalizing lo with
  | nil => simp
  | cons x t ih =>
    simp only [rising, Bool.and_eq_true, decide_eq_true_eq] at h
    obtain ⟨h1, h2⟩ := ih h.2
    refine ⟨List.nodup_cons.mpr ⟨fun m => absurd (h2 x m) (by omega), h1⟩, ?_⟩
    simp only [List.mem_cons, forall_eq_or_imp]
    exact ⟨h.1, fun y hy => by have := h2 y hy; omega⟩
def spotsOk (s : State) (p : Chunk) (dst : List (Word × Nat)) (q : State → List Spot → Bool) : Bool :=
  match State.engSpots p dst s with
  | .ok u ss => tidy u && rising 0 ((ss.dropWhile (fun x => x.1 == lsBase + 0x3300)).map (fun x => x.1)) && ss.all (fun x => x.2.isNone) && q u ss
  | _ => false
def q0 : Chunk := (aCopy 0 0#64).by_ 0
def movesOk (s : State) (src dst : List (Word × Nat)) : Bool :=
  match State.engLocs q0 src s with
  | .ok u1 ls => spotsOk u1 q0 dst (fun u2 _ => match State.readLocs q0 ls u2 with | (some _, u3) => tidy u3 && !u3.job.writing q0.request | _ => false)
  | _ => false
def reducing (r : MsRequest) : State :=
  let s := paged []
  { s with job := { s.job with msEngines := [(0, { seqs := [], timelines := [], requests := [r], lastQueue := 15, busyAt := 0 })] } }
def lineOk (s : State) : Bool :=
  match s.msLine 0 .user .engWrite 0x10_0000#64 with
  | .ok u d => decide (d = 0x1_0000) && tidy u && u.job.parked.isEmpty && u.job.early.isEmpty &&
      match State.msLinesAt 0 .user [0x10_0040#64] u with
      | .ok u1 [a] => (List.range 8).all (fun i => !u1.poisoned (a + 8 * i)) && tidy u1 && u1.job.early.isEmpty
      | _ => false
  | _ => false

/-- Mailbox 0 of core 0 holds the address of the copy record at 0x100 of its window. -/
def posted (rec : List Word) : State :=
  let m := (List.range 8).foldl (fun m i => Memory.writeNat (aSpot + 8 * i) 8 (rec.getD i 0#64).toNat m) (Memory.writeNat mailbox 8 (codeVa.toNat + 0x100) [])
  later 15 { aUnit [] with fe := [mailbox / 8], mem := m }
def taking (s : State) (p : Option (List Word × List Word × Nat) → Bool) : Bool :=
  let ga := s.readWord mailbox
  let r := s.record8 (s.windowCellOf ga)
  let s1 := ((s.conduitTurn 0).emptyMailbox 0 0).2
  let s2 := s1.store (engineWriter 0) (s.windowCellOf ga) 8 (dw r 0 / 2 ^ 40 * 2 ^ 40 + 1) none
  s.mayTake 0 && s.nextMailbox 0 == some 0 && ownRecordOf 0 ga && tidy s && s.mailboxCell 0 0 == mailbox && s.job.parked.isEmpty &&
    (match s2.takeReads { request := requestId 3 (conduitHandle 0) 1, chunk := 0, priv := ((s.conduitTurn 0).emptyMailbox 0 0).1.priv } r with | .ok t x => tidy t && t.job.parked.isEmpty && p x | _ => false) && runs (.conduitTake 0 0) s
theorem witness_EnginesMoveTheirBytes_1 :
    ((aUnit []).job.status = .running ∧ (aUnit []).share = none ∧ (copying (aCopy 0 0#64)).conduitWorks 0 = true) := by decide +kernel
theorem witness_EnginesMoveTheirBytes_2 :
    (let s := copying (aCopy 0 0#64)
     let b := layoutOf (aCopy 0 0#64).dst
     let ms := (List.range (min 256 b.allBytes)).map b.moved
     s.job.copy? 0 1 == some (aCopy 0 0#64) && movesOk s (ms.map (fun m => (b.addr (codeVa + 0x1000#64) m, 1)))
       (ms.map (fun m => (b.addr (codeVa + 0x2000#64) m, 1))) && runs (.denseCopy 0 0 1) s) = true := by decide +kernel
theorem witness_EnginesMoveTheirBytes_3 :
    ([1, 2].all (fun op =>
      let s := copying (aCopy op (codeVa + 0x3100#64))
      (match s.engRead q0 (codeVa + 0x3100#64) 4 with
        | .ok u x => movesOk u (rowItems (codeVa + 0x1000#64) 8 x) (rowItems (codeVa + 0x2000#64) 8 0)
        | _ => false) && runs (if op = 1 then .gather 0 0 1 else .scatter 0 0 1) s)) = true := by decide +kernel
theorem witness_EnginesMoveTheirBytes_4 :
    (let c := aCopy 3 (codeVa + 0x3100#64)
     let s := copying c
     (match State.engReads q0 (items (codeVa + 0x3200#64) 4 2) s with
       | .ok u [lo, hi] =>
         match State.bagRows 0 c q0 ((List.range (hi - lo)).map (fun i => lo + i)) u with
         | .ok u1 _ => spotsOk u1 q0 (rowItems (codeVa + 0x2000#64) (bagBytes c.record) 0) (fun u2 _ => !u2.job.writing q0.request)
         | _ => false
       | _ => false) && runs (.pooledGather 0 0 1) s) = true := by decide +kernel
theorem witness_EnginesMoveTheirBytes_5 :
    (let s := copying (aCopy 4 0#64)
     (match State.engLocs q0 (rowItems (codeVa + 0x1000#64) 8 0) s with
       | .ok u1 ls =>
         match State.readLocs q0 ls u1 with
         | (some _, u2) => spotsOk u2 q0 ((codeVa + 0x3300#64, 8) :: rowItems (codeVa + 0x2000#64) 8 0) (fun u3 ss =>
             decide ((ss.map (fun x => x.1)).head? = some (lsBase + 0x3300)) && !u3.poisoned (lsBase + 0x3300) &&
               u3.readNat (lsBase + 0x3300) 8 % 2 == 0)
         | _ => false
       | _ => false) && decide (lsBase + 0x3300 < hostBase ∧ (lsBase + 0x3300) % 8 = 0) && runs (.rowReplace 0 0 1) s) = true := by decide +kernel
theorem witness_EnginesMoveTheirBytes_6 :
    (let s := copying { aCopy 1 0#64 with waitVersion := some (codeVa + 0x3300#64) }
     (match s.engRead q0 (codeVa + 0x3300#64) 8 with | .ok _ v => v % 2 == 0 | _ => false) && runs (.versionWaitWake 0 0 1) s) = true := by decide +kernel
theorem witness_EnginesMoveTheirBytes_7 :
    runs (.copyResume 0 0 1) (copying { aCopy 1 0#64 with hold := .serviced }) = true := by decide +kernel
theorem witness_EnginesMoveTheirBytes_8 :
    (let s := later 100 (copying (aCopy 1 0#64))
     tidy s && decide (s.replyCell 0 0 % 8 = 0) && s.job.parked.isEmpty && runs (.promiseRevision 0 0 1) s) = true := by decide +kernel
theorem witness_EnginesMoveTheirBytes_9 :
    (let s := copying { aCopy 1 0#64 with status := some 1, progress := 1 }
     s.conduitWorks 0 && !s.job.writing q0.request &&
       (match s.engSpotAs .engFlag { q0 with chunk := 1 } (codeVa + 0x3000#64) 8 with
       | .ok u (cell, home) => decide (cell = lsBase + 0x3000 ∧ home = none ∧ cell / 8 ≠ u.counterCell 0 / 8 ∧ u.counterCell 0 % 8 = 0) && tidy u
       | _ => false) && runs (.copyCompletion 0 0) s) = true := by decide +kernel
theorem witness_EnginesMoveTheirBytes_10 :
    (let s := later 15 { aUnit [] with fe := [mailbox / 8] }
     s.mayTake 0 && s.nextMailbox 0 == some 0 && !ownRecordOf 0 (s.readWord mailbox) && tidy s && s.mailboxCell 0 0 == mailbox &&
       decide (mailbox / 8 ≠ s.replyCell 0 0 / 8) && runs (.conduitTake 0 0) s) = true := by decide +kernel
theorem witness_EnginesMoveTheirBytes_11 :
    (taking (posted (((aCopy 1 (codeVa + 0x3100#64)).record.set 5 0#64).set 6 0#64)) (fun x => x.isSome) && taking (posted (aCopy 15 0#64).record) (fun x => x.isNone)) = true := by decide +kernel
theorem witness_EnginesMoveTheirBytes_12 :
    (let r := { aMs 1 [] with started := false }
     ((reducing r).job.msEngine 0).active == none && ((reducing r).job.msEngine 0).next == some r && (reducing r).msWorks 0 r && runs (.msRequestStart 0 0) (reducing r)) = true := by decide +kernel
theorem witness_EnginesMoveTheirBytes_13 :
    ([(1, []), (2, []), (0, [0x10_0040#64]), (3, [])].all (fun x =>
      let s := reducing (aMs x.1 x.2)
      (s.job.msEngine 0).active == some (aMs x.1 x.2) && s.msWorks 0 (aMs x.1 x.2) && !s.job.writing ((aMs x.1 x.2).by_ 0).request && lineOk s &&
        runs (match x.1 with | 0 => .msReduce 0 0 | 1 => .msFill 0 0 | 2 => .msCopy 0 0 | _ => .msFeInit 0 0) s)) = true := by decide +kernel
theorem witness_EnginesMoveTheirBytes_14 :
    runs (.msResume 0 0) (reducing { aMs 1 [] with hold := .serviced }) = true := by decide +kernel
theorem witness_EnginesMoveTheirBytes_15 :
    (let s := reducing { aMs 1 [] with status := some 1 }
     usable (codeVa + 0x3000#64) && s.msWorks 0 (aMs 1 []) && !s.job.writing ((aMs 1 []).by_ 0).request && (match s.engSpotAs .engFlag ((aMs 1 []).by_ 0) (codeVa + 0x3000#64) 8 with
       | .ok u _ => u.job.parked.isEmpty && tidy u
       | _ => false) && runs (.msCompletion 0 0) s) = true := by decide +kernel

/-- A tile task of list 0 by its first and fifth dwords, in a state; an accumulator of handle 0 with `n` engine columns. -/
def tileTask (d0 d4 : Nat) (st row : Nat) : Task :=
  { list := 0, ticket := 1, recAddr := aSpot
    record := [BitVec.ofNat 64 d0, codeVa, codeVa + 0x1000#64, 0#64, BitVec.ofNat 64 d4, 0#64, 0#64, 0#64].set 1 (if d0 / 2 ^ 60 = 1 then codeVa else 0#64)
      |>.set 2 (if d0 / 2 ^ 60 = 0 ∨ d0 / 2 ^ 60 = 5 then 0#64 else codeVa + 0x1000#64)
    poster := ⟨1, .job, .user, 0⟩, state := st, cause := 0, blocks := 0, row := row, header := [], loaded := [], trap := none, dispatched := decide (st = 3), hold := .going }
def anAcc (n : Nat) (told : Bool) : Acc :=
  { engines := List.range n, gr := 1, gc := n, aln := false, nextKey := 0, incoming := 0, carry := 0, sat := false, rovf := false
    rows := List.replicate 64 { x := -32768, h := 47, nan := false, lost := false, m := List.replicate (128 * n) 0, block := 0, told := told }
    current := some (0, 1), held := [], skipped := [], watchdog := 0, counted := 0 }
def aPanel : Panel :=
  { col := 0, addr := codeVa + 0x1000#64, fmt := 0, aux := 0#64, sat := false, cols := List.replicate 128 [{ x := 127, q := List.replicate 32 1, bad := false }] }
def tiled (t : Task) (accs : Table Acc) : State :=
  let s := aUnit []
  { s with
    job := { s.job with tiles := [(0, { tickets := [], timelines := [], tasks := [t], lastList := [], accs := accs, panels := [(0, aPanel), (1, { aPanel with col := 1 })], dispatchedAt := none, busyAt := 0 })] }
    mem := [(lsBase + 0x100C, 5#8)] }
def opOf (n : Nat) : Nat := n * 2 ^ 60 + (if n = 0 then 2 ^ 56 + 2 ^ 54 else 0)
def mmaRows : Nat := 2 ^ 32 + 16 * 2 ^ 16

/-- The task of list 0 is the die's only one and no task is in state 2; and it is the next to be dispatched. -/
def alone (t : Task) (s : State) : Bool :=
  s.job.task? 0 0 1 == some t && (s.job.tile 0).tasks.all (fun x => x.state != 2) && s.share.isNone && s.tilesWork 0 0
def nextTask (t : Task) (s : State) : Bool :=
  alone t s && s.job.status == .running && decide (0 < s.job.dies_n) && (s.job.tile 0).dispatchedAt != some 0 && s.nextList 0 == some (0, t)
def freeAcc : Acc := { anAcc 1 false with current := none }
def aclrTask : Task := tileTask (opOf 0) 0 3 0

theorem witness_TileTasksAndCollectivesAct_dispatch_1 :
    (let t := tileTask (opOf 15) 0 1 0
     let s := tiled t []
     nextTask t s && !s.job.taskOk 0 t.record none && tidy s && acts (.taskDispatch 0) s) = true := by decide +kernel
theorem witness_TileTasksAndCollectivesAct_dispatch_2 :
    (let t := tileTask (opOf 0) 0 1 0
     let s := tiled t []
     nextTask t s && s.job.taskOk 0 t.record none && acts (.taskDispatch 0) s) = true := by decide +kernel
theorem witness_TileTasksAndCollectivesAct_dispatch_3 :
    (let t := tileTask (opOf 5) 0 1 0
     let s := tiled t []
     nextTask t s && s.job.taskOk 0 t.record none && acts (.taskDispatch 0) s) = true := by decide +kernel
theorem witness_TileTasksAndCollectivesAct_dispatch_4 :
    (let t := tileTask (opOf 5) 0 1 0
     let s := tiled t [(0, freeAcc)]
     nextTask t s && s.job.taskOk 0 t.record (some 1) && freeAcc.nextKey == taskKey t.record && acts (.taskDispatch 0) s) = true := by decide +kernel
theorem witness_TileTasksAndCollectivesAct_dispatch_5 :
    (let s := tiled aclrTask []
     alone aclrTask s && s.allocating 0 0 0 == some aclrTask && decide (taskGr aclrTask.record * taskGc aclrTask.record ≤ (s.job.tile 0).free.length) &&
       acts (.aclr 0 0) s) = true := by decide +kernel
theorem witness_TileTasksAndCollectivesAct_dispatch_6 :
    (let s := tiled aclrTask [(0, anAcc 1 false)]
     alone aclrTask s && s.allocating 0 0 0 == some aclrTask && (lookup 0 (s.job.tile 0).accs).isSome && acts (.aclr 0 0) s) = true := by decide +kernel
theorem witness_TileTasksAndCollectivesAct_dispatch_7 :
    (let t := { tileTask (opOf 1) mmaRows 4 0 with hold := .serviced }
     let s := tiled t []
     alone t s && (s.job.tile 0).tasks.find? (fun x => x.state == 4 && x.hold == .serviced && taskHandle x.record == 0) == some t &&
       acts (.taskResume 0 0) s) = true := by decide +kernel
theorem witness_TileTasksAndCollectivesAct_dispatch_8 :
    (let t := tileTask (opOf 1) mmaRows 5 0
     let s := tiled t []
     alone t s && (s.finished 0 0).getLast? == some t && t.trap.isNone && acts (.taskCompletion 0 0) s) = true := by decide +kernel

/-- An image load whose tile state is read, at a row, over bytes of an image. -/
def loading (row : Nat) : Task := { tileTask (opOf 4) 0 3 row with header := [0#64, BitVec.ofNat 64 (2 ^ 34 + 2 ^ 32)] }
def imageBytes (t : Task) (off n : Nat) (s : State) (p : List Nat → List Nat → Bool) : Bool :=
  match s.engBytes (t.by_ 0) (codeVa + 0x1000#64 + BitVec.ofNat 64 off) n with
  | .ok _ (bytes, bad) => p bytes bad
  | _ => false

theorem witness_TileTasksAndCollectivesAct_aload_1 :
    (let t := tileTask (opOf 4) 0 3 0
     let s := tiled t []
     let u := { s with poison := [(lsBase + 0x1000) / 8] }
     let v := { s with mem := [] }
     let used := tiled t [(0, anAcc 1 false)]
     [s, u, v, used].all (fun x => alone t x && x.allocating 0 0 4 == some t && acts (.aload 0 0) x) && (lookup 0 (used.job.tile 0).accs).isSome &&
       imageBytes t 0 16 s (fun bytes bad => bad.isEmpty && ofByteNats (bytes.drop 8) == 2 ^ 34 + 2 ^ 32) &&
       imageBytes t 0 16 u (fun _ bad => !bad.isEmpty) && imageBytes t 0 16 v (fun bytes bad => bad.isEmpty && ofByteNats (bytes.drop 8) == 0)) = true := by decide +kernel
theorem witness_TileTasksAndCollectivesAct_aload_2 :
    ([62, 63].all (fun n =>
      let t := loading n
      let s := { tiled t [] with mem := [] }
      alone t s && s.allocating 0 0 4 == some t && decide (1 ≤ (s.job.tile 0).free.length) &&
        imageBytes t (16 + n * 1032) 1032 s (fun bytes bad => bad.isEmpty && (rowOfImage (unpackBits 64 129 (ofByteNats bytes))).isSome))) = true := by decide +kernel
theorem witness_TileTasksAndCollectivesAct_aload_3 :
    (let t := loading 0
     let s := { tiled t [] with mem := [(lsBase + 0x1013, 0xFF#8)] }
     let u := { s with poison := [(lsBase + 0x1010) / 8] }
     [s, u].all (fun x => alone t x && x.allocating 0 0 4 == some t && acts (.aload 0 0) x) &&
       imageBytes t 16 1032 s (fun bytes bad => bad.isEmpty && (rowOfImage (unpackBits 64 129 (ofByteNats bytes))).isNone) &&
       imageBytes t 16 1032 u (fun _ bad => !bad.isEmpty)) = true := by decide +kernel

theorem witness_TileTasksAndCollectivesAct_tiles_1 :
    (let t := tileTask (opOf 1) mmaRows 3 0
     let s := tiled t [(0, anAcc 1 false)]
     (match s.inHand 0 0 1 with
       | some (a, x) => x == t && (match State.loadPanels 0 t (a.column t.record) (s.tick 0 0) with | .ok _ () => t.row == 0 && a.engines == [0] | _ => false)
       | none => false) && acts (.mma 0 0) s) = true := by decide +kernel
theorem witness_TileTasksAndCollectivesAct_tiles_2 :
    (let t := tileTask (opOf 1) mmaRows 3 1
     let s := tiled t [(0, anAcc 2 false)]
     (s.inHand 0 0 1).any (fun x => (x.1.rows[15]?).any (fun y => !y.told) && x.1.rowReady t 15 && x.1.held.isEmpty && !s.watchExpired 0 x.1 && (later (2 ^ 24) s).groupWaits 0 x.1 &&
       (later (2 ^ 24) s).watchCount 0 x.1 == 2 ^ 24) &&
       acts (.exponentMessage 0 0 15) s && acts (.groupWatchdog 0 0) (later (2 ^ 24) s)) = true := by decide +kernel
theorem witness_TileTasksAndCollectivesAct_tiles_3 :
    (let t := tileTask (opOf 1) mmaRows 3 1
     let s := tiled t [(0, anAcc 1 false)]
     (s.inHand 0 0 1).any (fun x => x.1.rowReady t 0 && x.1.held.isEmpty) && acts (.applyBlock 0 0 0) s) = true := by decide +kernel
theorem witness_TileTasksAndCollectivesAct_tiles_4 :
    (let t := tileTask (opOf 1) mmaRows 3 1
     let s := { tiled t [(0, anAcc 2 true)] with poison := [lsBase / 8] }
     (s.inHand 0 0 1).any (fun x => x.1.rowReady t 0 && x.1.held.isEmpty) && (s.aBlockAt 0 t 0 0).2.2.2 && acts (.applyBlock 0 0 0) s) = true := by decide +kernel
theorem witness_TileTasksAndCollectivesAct_tiles_5 :
    ([0, 1].all (fun n =>
     let t := tileTask (opOf 2) (2 * 2 ^ 16) 3 n
     let s := tiled t [(0, anAcc 1 false)]
     (s.inHand 0 0 2).any (fun x => (x.1.rows[0]?).any (fun y =>
       let bytes := (y.readout (taskRfmt t.record) (taskNanOvf t.record)).1
       spotsOk s (t.by_ 0) (items (codeVa + 0x1000#64) 1 bytes.length) (fun u _ => !u.job.writing (t.by_ 0).request)) && x.1.held.isEmpty) && taskRows t.record == 2 &&
       acts (.rdout 0 0) s)) = true := by decide +kernel
theorem witness_TileTasksAndCollectivesAct_tiles_6 :
    (let t := tileTask (opOf 5) 0 3 0
     let s := tiled t [(0, anAcc 1 false)]
     (s.inHand 0 0 5).any (fun x => x.1.held.isEmpty) && (s.job.tile 0).tasks.all (fun x => x.state != 2) && acts (.afree 0 0) s) = true := by decide +kernel
theorem witness_TileTasksAndCollectivesAct_asave :
    [0, 62, 63].all (fun n =>
      let t := tileTask (opOf 3) 0 3 n
      let s := tiled t [(0, anAcc 1 false)]
      (s.inHand 0 0 3).any (fun x => (x.1.rows[n]?).any (fun y =>
        let head := if n = 0 then unpackBits 8 8 x.1.dword0.toNat ++ unpackBits 8 8 x.1.dword1.toNat else []
        spotsOk s (t.by_ 0) (items (codeVa + 0x1000#64 + BitVec.ofNat 64 (if n = 0 then 0 else 16 + n * 1032)) 1
          (head ++ y.raw.flatMap (unpackBits 8 8)).length) (fun u _ => !u.job.writing (t.by_ 0).request)) && x.1.held.isEmpty && x.1.rows.length == 64)) = true := by decide +kernel
/-- Instance 1 of communicator 0 of two ranks, this rank 0, and its one peer's post. -/
def aRecord (op : Nat) : List Word :=
  [BitVec.ofNat 64 (op * 2 ^ 60 + if op ≤ 1 then 1 else 8), codeVa + 0x1000#64, if op = 1 then codeVa + 0x1100#64 else 0#64, codeVa + 0x1200#64, 0#64,
    if op = 1 then 4#64 else 0#64, codeVa + 0x3000#64, 0#64]
def aPeer (op : Nat) : PeerPost :=
  { rank := 1, record := if op = 2 then (aRecord op).set 1 0#64 else aRecord op, indices := if op = 1 then [(0, false)] else [], bytes := List.replicate (if op ≤ 1 then 4 else 8) 0#8, badDwords := [], refused := false }
def anInstance (op : Nat) : Instance :=
  { seq := 1, record := aRecord op, poster := ⟨1, .job, .user, 0⟩, started := false, peers := [], status := 0, causes := [], flags := 0, bandnw := 0
    words := 0, result := [], bad := [], hold := .going, completed := 0 }
def collecting (i : Instance) : State := let s := aUnit []; { s with job := { s.job with comms := [(0, { aComm with seq := 1, instances := [i] })] } }
def block (d0 d1 d2 : Nat) : State :=
  { aSteward [] with
    mem := Memory.writeNat (lsBase + 0x410) 8 d2 (Memory.writeNat (lsBase + 0x408) 8 d1 (Memory.writeNat (lsBase + 0x400) 8 d0 [])) }

theorem witness_TileTasksAndCollectivesAct_collectives_1 :
    ([0, 1, 2, 3].all (fun op =>
      let s := collecting (anInstance op)
      ((s.colHead 0).map (fun x => x.2) == some (anInstance op)) &&
        ([aPeer op].map (fun p => p.rank) == (List.range 2).filter (fun r => r ≠ 0)) && s.colWorks 0 && colRecordOk (aRecord op) 0 2 &&
        colRecordOk (aPeer op).record 1 2 && colAgree (aRecord op) (aPeer op).record && runs (.collectiveInstanceStart 0 [aPeer op]) s)) = true := by decide +kernel
theorem witness_TileTasksAndCollectivesAct_collectives_2 :
    (let i := { anInstance 0 with record := aRecord 9 }
     let s := collecting i
     !colRecordOk (aRecord 9) 0 2 && (s.colHead 0).map (fun x => x.2) == some i && runs (.collectiveInstanceStart 0 [aPeer 0]) s &&
       !colAgree (aRecord 0) (aRecord 3) && runs (.collectiveInstanceStart 0 [aPeer 3]) (collecting (anInstance 0))) = true := by decide +kernel
theorem witness_TileTasksAndCollectivesAct_collectives_3 :
    ([0, 1, 2, 3].all (fun op =>
      [false, true].all (fun r =>
        let i := { anInstance op with started := true, peers := [{ aPeer op with refused := r }] }
        (match (collecting i).ownPost 0 { aComm with seq := 1, instances := [i] } i with | .ok _ _ => true | _ => false) && (collecting i).colWorks 0 &&
          (op != 2 || colRoot i.record < 2) &&
          runs (match op with | 0 => .colDenseAllreduce 0 | 1 => .colSparseAllreduce 0 | 2 => .colBroadcast 0 | _ => .colAllGather 0) (collecting i)))) = true := by decide +kernel
theorem witness_TileTasksAndCollectivesAct_collectives_4 :
    ((collecting (anInstance 0)).colWorking && runs (.colResume 0) (collecting { anInstance 0 with started := true, hold := .serviced })) = true := by decide +kernel
theorem witness_TileTasksAndCollectivesAct_collectives_5 :
    (let i := { anInstance 0 with started := true, status := 1, completed := 1 }
     let s := collecting i
     colUsable i.record && i.causes.isEmpty && !s.job.writing (i.by_ 0).request && s.colWorks 0 && (match s.engSpotAs .engWrite (i.by_ 0) (codeVa + 0x3000#64) 8 with
       | .ok u (a, none) =>
         let w := (u.store i.poster.writer a 8 (colstat i) none).onInstance 0 1 (fun x => { x with completed := 2 })
         tidy u && a % 8 == 0 && (match w.engSpotAs .engFlag (i.by_ 0) (codeVa + 0x3008#64) 8 with
           | .ok v (b, none) => tidy v && b % 8 == 0 && v.job.parked.isEmpty
           | _ => false)
       | _ => false) && runs (.colCompletion 0) s) = true := by decide +kernel
theorem witness_TileTasksAndCollectivesAct_collectives_6 :
    (let i := { anInstance 0 with started := true }; i.abortable && runs (.segmentDeliveryFailure 0) (collecting i)) = true := by decide +kernel
theorem witness_TileTasksAndCollectivesAct_collectives_7 :
    (let s := collecting (anInstance 0)
     let t := { s with job := { s.job with comms := [(0, { aComm with instances := [anInstance 0], lost := [1] })] } }
     (anInstance 0).abortable && runs (.colAbort 0) t && runs (.memberPackageLost 0 1) s) = true := by decide +kernel
theorem witness_TileTasksAndCollectivesAct_collectives_8 :
    (let s := block (2 ^ 60 + 2 ^ 32 + 2 ^ 24 + 2 * 2 ^ 8) 5 (codeVa.toNat + 0x600)
     good (s.hwCell false (codeVa + 0x400#64) 64) (fun x =>
       let b := x.1.getWords x.2.1 8
       commOp b == 1 && commCreateOk b && (lookup (commHandle b) x.1.job.comms).isNone && (List.range 8).all (fun i => !x.1.poisoned (x.2.1 + 8 * i)) &&
         (match State.engReads { request := requestId 7 (commHandle b) 0, chunk := 0, priv := .user } (items (b.getD 2 0#64) 8 (commSize b + commNodes b)) x.1 with | .ok _ _ => true | _ => false)) &&
       runs (.commCreate (codeVa + 0x400#64)) s) = true := by decide +kernel
theorem witness_TileTasksAndCollectivesAct_collectives_9 :
    ([aComm, { aComm with instances := [anInstance 0] }].all (fun c =>
      let s := block (2 * 2 ^ 60) 5 0
      let t := { s with job := { s.job with comms := [(5, c)] } }
      good (t.hwCell false (codeVa + 0x400#64) 64) (fun x =>
        let b := x.1.getWords x.2.1 8
        commOp b == 2 && commReservedOk b && lookup (commHandle b) x.1.job.comms == some c) && runs (.commEnd (codeVa + 0x400#64)) t)) = true := by decide +kernel

/-- The partial and the order of the exact-value clause: one column, one product of 32 elements. -/
theorem witness_TileTasksAndCollectivesAct_block :
    let row : AccRow := { x := -32768, h := 47, nan := false, lost := false, m := [0], block := 0, told := false }
    let col : PanelBlock := { x := 127, q := List.replicate 32 1, bad := false }
    let out := applyBlock false 4 127 (List.replicate 32 1) [col] row
    row.nan = false ∧ 127 ≠ 255 ∧ out.1.nan = false ∧ out.1.lost = false ∧ row.m.length = [col].length ∧
      (List.zipWith (fun x y => x * y) (List.replicate 32 (1 : Int)) col.q).sum = 32 ∧
      (List.zipWith (fun x y => x * y) (List.replicate 32 (0 : Int)) col.q).sum = 0 := by decide +kernel

/-! Witnesses: what `sret` finds of engine requests, and the levels and communicators of named states. -/

theorem witness_PrivilegedInstructionsAct_engines_1 :
    ([1, 2].all (fun disp =>
      let c := { aCopy 0 0#64 with hold := .suspended }
      let s := boss []
      let t : State := { s with job := { s.job with conduits := [(0, { seq := 1, lastBox := 3, takenAt := none, busyAt := 0, posters := [], copies := [c] })] } }
      asked (asking disp 3 0 1 t) (fun u d k => d == disp && k == 3 && u.job.copy? 0 1 == some c && c.status.isNone))) = true := by decide +kernel
theorem witness_PrivilegedInstructionsAct_engines_2 :
    ([1, 2].all (fun disp =>
      let t := { tileTask (opOf 4) 0 4 0 with hold := .suspended }
      let s := boss []
      let w : State := { s with job := { s.job with tiles := (tiled t []).job.tiles } }
      asked (asking disp 4 0 1 w) (fun u d k => d == disp && k == 4 && u.job.task? 0 0 1 == some t && taskOp t.record == 4))) = true := by decide +kernel
theorem witness_PrivilegedInstructionsAct_engines_3 :
    ([1, 2].all (fun disp =>
      let r := { aMs 1 [] with hold := .suspended }
      let s := boss []
      let w : State := { s with job := { s.job with msEngines := (reducing r).job.msEngines } }
      asked (asking disp 5 0 1 w) (fun u d k => d == disp && k == 5 && r.status.isNone &&
        (u.job.msEngine 0).requests.find? (fun x => x.queue == 0 && x.seq == 1) == some r))) = true := by decide +kernel
theorem witness_PrivilegedInstructionsAct_engines_4 :
    (let i := { anInstance 0 with hold := .suspended }
     let s := boss []
     let w : State := { s with job := { s.job with comms := (collecting i).job.comms } }
     asked (asking 1 6 0 1 w) (fun u d k => d == 1 && k == 6 &&
       (lookup 0 u.job.comms).bind (fun c => c.instances.find? (fun x => x.seq == 1)) == some i)) = true := by decide +kernel
theorem witness_PrivilegedInstructionsAct_engines_5 :
    ([3, 4, 5, 6].all (fun kind =>
      let s := boss []
      let w : State := { s with job := { s.job with recorded := [(kind, 0, 1, .node 0 0)] } }
      asked (asking 3 kind 0 1 w) (fun u d k => d == 3 && k == kind &&
        u.job.recorded.find? (fun z => z.1 == kind && z.2.1 == 0 && z.2.2.1 == 1) == some (kind, 0, 1, .node 0 0)))) = true := by decide +kernel

/-- The supervisor with a level selected, and slot 0 a unit. -/
def choosing (kind id : Nat) : State :=
  let s := { aSteward [] with job := { aJob with lvlsel := BitVec.ofNat 64 (kind * 2 ^ 61 + id), agents := [(0, (aUnit []).ag)], spawns := [(1, aSpawn)] } }
  { s with job := { s.job with runs := [{ id := 1, prio := 0, graph := 0, plist := 0#64, started := true, nodes := [], cancelled := false, patched := none, rejected := false, faulted := none }] } }
def commands (d0 : Nat) (c : List (Nat × Comm)) (p : State → List Word → State → Nat → Bool) : Bool :=
  let s := block d0 5 (codeVa.toNat + 0x600)
  let t : State := { s with job := { s.job with comms := c } }
  match t.readBlock (codeVa + 0x400#64) with
  | .ok s1 ws =>
    match s1.check s1.ag.priv .store (codeVa + 0x418#64) 8 with
    | .ok (s2, .cell a none) => tidy s2 && p s1 ws s2 a
    | _ => false
  | _ => false
theorem witness_NamedStatesReadAndWrite_levels_1 :
    (((choosing 0 0).levelCount 0 0).isSome && ((choosing 1 1).levelCount 1 1).isSome && ((choosing 1 1).job.run? 1).any (fun r => r.started) &&
      ((choosing 1 2).levelCount 1 2).isNone && ((choosing 3 1).levelCount 3 1).isSome && (lookup 2 (choosing 3 2).job.spawns).isNone &&
      ((choosing 4 0).agent 0).occupied && ((choosing 4 0).agent 0).role == .unit && (choosing 4 0).agId != 0 &&
      (choosing 4 0).job.lvlsel.toNat / 2 ^ 61 == 4 && (choosing 3 1).job.lvlsel.toNat % 2 ^ 48 == 1) = true ∧
    commands (2 ^ 60 + 2 ^ 32 + 2 ^ 24 + 2 * 2 ^ 8) [] (fun _ ws s2 _ =>
      commOp ws == 1 && commCreateOk ws && (lookup (commHandle ws) s2.job.comms).isNone &&
        match State.engReads { request := requestId 7 (commHandle ws) 0, chunk := 0, priv := .user }
            (items (ws.getD 2 0#64) 8 (commSize ws + commNodes ws)) s2 with | .ok v _ => tidy v | _ => false) = true := by decide +kernel
theorem witness_NamedStatesReadAndWrite_levels_2 :
    ([aComm, { aComm with instances := [anInstance 0] }].all (fun c => commands (2 * 2 ^ 60) [(5, c)] (fun _ ws s2 _ =>
      commOp ws == 2 && commReservedOk ws && lookup (commHandle ws) s2.job.comms == some c))) = true := by decide +kernel
theorem witness_NamedStatesReadAndWrite_levels_3 :
    (commands (3 * 2 ^ 60) [] (fun _ ws _ _ => commOp ws == 3) && commands (2 ^ 60) [] (fun _ ws _ _ => commOp ws == 1 && !commCreateOk ws) &&
      commands (2 * 2 ^ 60) [] (fun _ ws s2 _ => commOp ws == 2 && (lookup (commHandle ws) s2.job.comms).isNone)) = true := by decide +kernel

/-- A page table whose directory names one group that maps 0x10_0000 by a 64 KiB entry, its A and D bits clear. -/
def mapped : State :=
  let s := aUnit []
  { s with
    job := { s.job with ptroot := 0x1044#64 }
    mem := Memory.writeNat 0x1000 8 0x2000 (Memory.writeNat 0x2040 8 (2 ^ 63 + 0x10) (Memory.writeNat 0x2048 8 0x1060_0000_0001_0000 [])) }
def aHost : HostRequest := { port := 3, pasid := 7, page := 9, write := false, since := 0, retry := false, engines := [] }
def hosting (ats pri : List HostRequest) : State := let s := aUnit []; { s with pkg := { s.pkg with ats := ats, pri := pri } }
def hostReading : State :=
  let s := waiting (.request (.load 8 false 9#5) 0x20_0000#64 (.host 3 7 0x9000) 4 0)
  { s with pkg := { s.pkg with atc := [{ port := 3, pasid := 7, page := 9, hostPage := 5, r := true, w := false }] } }
def windowed (ctl : Word) : State :=
  let s := aUnit []
  { s with pkg := { s.pkg with dev := [(0xF00_0000_1000, ctl), (0xF00_0000_1008, 0x1_0000#64), (0xF00_0000_1010, 0x2_0000#64), (0xF00_0000_1018, 0x3_0000#64)] } }
def suspended : State :=
  let s := aSteward []
  { s with job := { s.job with status := .suspended, saved := some (0#64, 0), sqbase := 0x2000_0000_0000_0000#64 + codeVa, sqtail := 16#64 } }
theorem witness_TranslationsAndJobsChange_1 :
    (let s := waiting (.request (.store 8 7#64) 0x20_0000#64 (.host 3 7 0x9000) 4 0)
     s.share.isNone && s.ag.nb.isEmpty && !s.ag.ending && Loc.atPort (.host 3 7 0x9000) 3) = true := by decide +kernel
theorem witness_TranslationsAndJobsChange_2 :
    (mapped.live && canonical 0x10_0000#64 && !inWindow 0x10_0000#64 && good (mapped.walk .load 0x10_0000#64) (fun e => e.wrote == some 0x2048) &&
      good (mapped.walk .store 0x10_0000#64) (fun e => e.t.pte.getLsbD 63) && tidy mapped && runs (.pageWalk 0x10_0000#64 .store) mapped &&
      (match mapped.walk .load 0x20_0000#64 with | .error _ => true | _ => false) && idles (.pageWalk 0x20_0000#64 .load) mapped) = true := by decide +kernel
theorem witness_TranslationsAndJobsChange_3 :
    ((hosting [aHost] []).pkg.ats.find? (fun r => r.names 3 7 9) == some aHost && runs (.atsTranslationResponse 3 7 9 (.grant 5 true false)) (hosting [aHost] []) &&
      runs (.atsTranslationResponse 3 7 9 (.grant 5 false true)) (hosting [aHost] []) && runs (.atsTranslationResponse 3 7 9 .abort) (hosting [aHost] [])) = true := by decide +kernel
theorem witness_TranslationsAndJobsChange_4 :
    (((hosting [] [aHost]).pkg.sent 3).find? (fun r => r.names 3 7 9) == some aHost &&
      [PriAnswer.success, .invalid, .failure].all (fun x => runs (.priResponse 3 7 9 x) (hosting [] [aHost])) &&
      runs (.priTimeout 3 7 9) (later (2 ^ 32) (hosting [] [aHost]))) = true := by decide +kernel
theorem witness_TranslationsAndJobsChange_5 :
    (hostReading.ag.nb.isEmpty && !(hostReading.served 0).ag.ending && hostReading.live && ((hostReading.served 0).pkg.hostCell 3 7 0x9000 false).any (fun c => !hostReading.poisoned c) &&
      runs (.hostReadCompletion 0 false) hostReading && runs (.hostReadCompletion 0 true) hostReading) = true := by decide +kernel
theorem witness_TranslationsAndJobsChange_6 :
    (runs (.atsInvalidation 3 (some 7) 0 16) (hosting [] []) &&
      (let s := hosting [] []
       runs (.invalidationCompletion 3) { s with pkg := { s.pkg with invalidating := [(3, [])] } })) = true := by decide +kernel
theorem witness_TranslationsAndJobsChange_7 :
    (let s := windowed 1#64
     s.job.pdies.contains (0 / 2) && tidy s && !(s.pkg.window 0 0).armed && s.job.mayArm (s.pkg.window 0 0) && runs (.formatWindowArm 0 0) s &&
       !s.job.mayArm ((windowed 2#64).pkg.window 0 7) && idles (.formatWindowArm 0 7) (windowed 2#64) && ((windowed 0x8000_0000_0000_0001#64).pkg.window 0 0).armed &&
       runs (.formatWindowDisarm 0 0) (windowed 0x8000_0000_0000_0001#64)) = true := by decide +kernel
theorem witness_TranslationsAndJobsChange_8 :
    ((aUnit []).job.dlbase.getLsbD 62 != true && (aUnit []).allAgents.all (fun x => x.2.nb.isEmpty) && runs (.dirtyLogEpochFlip true) (aUnit [])) = true := by decide +kernel
theorem witness_TranslationsAndJobsChange_9 :
    ((State.reset.focusJob 15).job.status == .absent && (State.reset.focusJob 15).pkg.boot.bootst == 3 && decide [14, 15].Nodup &&
      [14, 15].all (fun d => State.reset.pkg.inService d && !(State.reset.focusJob 15).ownedDies.contains d) &&
      runs (.jobStart 15 [14, 15] codeVa []) State.reset) = true := by decide +kernel
theorem witness_TranslationsAndJobsChange_10 :
    (runs .jobEnd (aUnit []) && runs .jobSuspend (aUnit []) &&
      (let s := { aUnit [] with job := { aJob with status := .halting } }
       runs .jobSaveAbandon s && s.allQuiet.isSome && s.job.comms.isEmpty && !s.job.midWrite && runs .jobSuspend s)) = true := by decide +kernel
theorem witness_TranslationsAndJobsChange_11 :
    (decide (0 < suspended.job.dies_n) && !suspended.ownedDies.contains 15 && suspended.pkg.inService 15 && tidy suspended &&
      runs (.virtualDieRemap 0 15) suspended && suspended.job.pdies.all (fun d => suspended.pkg.inService d) &&
      suspended.job.queued == suspended.job.queueSize && suspended.job.queueSize != 0 && suspended.job.image.isEmpty && suspended.job.conduits.isEmpty &&
      runs .jobRestore suspended) = true := by decide +kernel

def linked (l : Link) : State := let s := aUnit []; { s with pkg := { s.pkg with links := [(2, l)] } }
def replying (x : Transaction) : State := let s := waiting (.reply 9#5 1#64); { s with pkg := { s.pkg with transactions := [x] } }
theorem witness_FaultsAreContainedAndBlocksServiced_1 :
    (tidy (aUnit []) && idles (.patrolScrub (2 ^ 37 - 1) .clean) (aUnit []) && [ScrubFinding.corrected, .uncorrectable].all (fun f => runs (.patrolScrub (2 ^ 37 - 1) f) (aUnit []))) = true := by decide +kernel
theorem witness_FaultsAreContainedAndBlocksServiced_2 :
    (let s := unitOf aSpawn []; s.live && (s.agent 0).occupied && ((s.focus 0).quiet).any (fun u => u.ag.role == .unit) && runs (.agentStateUe 0) s) = true := by decide +kernel
theorem witness_FaultsAreContainedAndBlocksServiced_3 :
    (let l : Link := { Link.rest with nextSend := 4095, acked := 3072, expected := 4095 }
     decide (flitAfter l.acked l.nextSend < 1024) && l.held.isEmpty && l.resend.isEmpty && runs (.flitReceive 2 4095 true false []) (linked l) &&
       runs (.flitReceive 2 4095 false false []) (linked l) && runs (.linkWindowRebuild 2) (linked l)) = true := by decide +kernel
theorem witness_FaultsAreContainedAndBlocksServiced_4 :
    (let l : Link := { Link.rest with nextSend := 2, expected := 1, replay := [(0, []), (1, [])], nacks := [1] }
     l.nacks.contains 1 && (lookup 1 l.replay).isSome && runs (.nackReceive 2 1 false) (linked l) &&
       decide (flitAfter l.acked 0 < flitAfter l.acked l.expected) && runs (.acknowledgementReceive 2 0) (linked l)) = true := by decide +kernel
theorem witness_FaultsAreContainedAndBlocksServiced_5 :
    ([2, 3].all (fun n =>
      let s := later (2 ^ 18) (replying { agent := 0, sent := 0, retries := n })
      s.live && (s.focus 0).transaction.isSome && runs (.transactionRetry 0) s)) = true := by decide +kernel
theorem witness_FaultsAreContainedAndBlocksServiced_6 :
    (let s := later (2 ^ 21) { aUnit [] with pkg := { Pkg.reset with dedup := [(5, 0)] } }
     lookup 5 s.pkg.dedup == some 0 && runs (.dedupExpiry 5) s) = true := by decide +kernel
theorem witness_FaultsAreContainedAndBlocksServiced_7 :
    (runs (.hostPortDown 3) hostReading && runs (.scaleUpPortLaneLoss 63 1) (aUnit []) && runs (.scaleUpPortLaneLoss 63 8) (aUnit [])) = true := by decide +kernel
theorem witness_FaultsAreContainedAndBlocksServiced_8 :
    (runs (.blockRateLimit (.tileEngine 0 0)) (aUnit []) &&
      runs (.blockRateRestore (.tileEngine 0 0)) { aUnit [] with pkg := { Pkg.reset with slowed := [.tileEngine 0 0] } }) = true := by decide +kernel
theorem witness_FaultsAreContainedAndBlocksServiced_9 :
    (let s := later (2 ^ 22) (aUnit [])
     (s.job.vdie 1).isNone && (lookup 1 s.pkg.leftAt).isNone && s.pkg.inService 1 && runs (.dieGate 1) s && (State.dieIdle { s with ag := Agent.vacant } 0) &&
       runs (.dieGate 0) { s with ag := Agent.vacant } && runs (.dieWake 1) { s with pkg := { s.pkg with gated := [1] } }) = true := by decide +kernel
theorem witness_FaultsAreContainedAndBlocksServiced_10 :
    (runs (.pseudoChannelRetire 31 127) (aUnit []) && runs (.pseudoChannelRetire 31 2) { aUnit [] with pkg := { Pkg.reset with retired := [(31, 0), (31, 1)] } } && idles (.linkLaneRecalibrate 0 0) (aUnit []) && idles (.blockFirmwareUpdate 1 2 false) (aUnit []) &&
      runs (.blockFirmwareUpdate 1 2 true) (aUnit [])) = true := by decide +kernel
theorem witness_FaultsAreContainedAndBlocksServiced_11 :
    ((aUnit []).pkg.inService 15 && !(aUnit []).ownedDies.contains 15 && runs (.dieOutOfService 15) (aUnit [])) = true := by decide +kernel

/-- A unit of slot 0 that a debugger owns, its state as given. -/
def owned (a : Agent) : State :=
  { aUnit [] with ag := a, pkg := { Pkg.reset with dev := [(0xF10_0000_0040, 0x8000_0000_0000_0000#64)] } }
def holding : State :=
  let s := waiting (.request (.store 8 7#64) 0x10_0000#64 (.cell 0x1_0000 (some 0)) 4 0)
  later (2 ^ 24) { s with
    mem := [(0x4002, 1#8)]
    pkg := { s.pkg with dev := [(0xF10_0008_0408, 0x10_0000#64), (0xF10_000A_0000, 0x8000_0000_0000_0000#64), (0xF10_000A_0008, 0x4000#64),
      (0xF10_000A_0018, 1#64)] } }
/-- Image 9 of block firmware, of no bytes, is on its way: dies that have it, and how often one has failed. SHA-384 of no bytes is the
standard's own value. -/
def booting (acked : List Nat) (die tries : Nat) : State :=
  { State.reset with pkg := { Pkg.reset with
    portsDown := [3]
    boot := { Boot.running with
      step := 5, bootst := 1, images := [(4, 9, 0, [])], acked := acked.map (fun d => (d, 9)), attempts := List.replicate tries (die, 9) } } }
def emptyHash : Nat := 0x38b060a751ac96384cd9327eb1b1e36a21fdb71114be07434c0cc7bf63f6e1da274edebfe76f65fbd51ad2f14898b95b
def aFile : List Byte := bytesOfNat 8 (2 ^ 48 + 2 ^ 32 + 0x4F_5847) ++ bytesOfNat 8 64 ++ List.replicate 80 0#8
/-- One that waits for a long-latency result, at no boundary. -/
def unquiet : State := owned { (aUnit []).ag with wait := .long 38 (.gpr 9#5 1#64 0#64) }
theorem witness_ObservationAndBootAct_1 :
    (let s : State := { aUnit [] with pkg := { Pkg.reset with dev := [(0xF10_0F07_F100, 5#64)] } }
     tidy s && runs (.obsCounterClear 15 127) s) = true := by decide +kernel
theorem witness_ObservationAndBootAct_2 :
    (let a := (aUnit []).ag
     agentOk 0 && (owned a).owned 0 && ((owned a).focus 0).quiet.isSome && runs (.debugStop 0) (owned a) && ((unquiet.focus 0).quiet).isNone && unquiet.owned 0 && !unquiet.stopWanted 0 && runs (.debugStop 0) unquiet &&
       runs (.debugResume 0) (owned { a with dbgStopped := true }) && runs (.debugStep 0) (owned { a with dbgStopped := true }) &&
       runs (.debugStep 0) (owned { a with stepping := true }) && runs (.debugRelease 0) (owned a) && runs (.watchPass 0) (aUnit [])) = true := by decide +kernel
theorem witness_ObservationAndBootAct_3 :
    (let s := { aUnit [] with pkg := { Pkg.reset with snapshot := some 4096 } }
     runs (.snapshotRequest 4096) (aUnit []) && runs (.registerWrite 0xFF0_0000_0000 4096#64) (aUnit []) && runs (.snapshotRequest 4095) (aUnit []) &&
       runs (.snapshotRequest 9000) s) = true := by decide +kernel
theorem witness_ObservationAndBootAct_4 :
    (let s := { State.reset with pkg := { Pkg.reset with snapshot := some 4096, cycle := 4096 } }
     tidy s && s.pkg.snapshot == some s.pkg.cycle) = true := by decide +kernel
theorem witness_ObservationAndBootAct_5 :
    (let t := holding.served 0
     holding.live && holding.share.isNone && t.heldLoose.isNone && !holding.job.dlbase.getLsbD 63 && t.heldAt 0 (.cell 0x1_0000 (some 0)) 8 && !t.asleep (.cell 0x1_0000 (some 0)) && tidy t && runs (.sillageHoldRelease 0) holding) = true := by decide +kernel
theorem witness_ObservationAndBootAct_6 :
    runs .packageReset (aUnit []) = true := by decide +kernel
theorem witness_ObservationAndBootAct_7 :
    (let s := booting ((List.range 20).filter (fun n => n ≠ 15)) 15 2
     s.pkg.boot.firmwares.contains 9 && !s.pkg.boot.settled 9 15 && s.pkg.boot.forwarded 9 15 && runs (.bootImageAck 15 ⟨9, emptyHash⟩) s &&
       runs (.bootImageAck 15 ⟨9, 0⟩) s && runs (.bootImageAck 15 ⟨9, 0⟩) (booting [19] 15 3) && decide (3 ≤ (booting [19] 15 3).pkg.boot.tries 15 9) &&
       runs (.bootImageAck 19 ⟨9, 0⟩) (booting [] 19 3) && decide (19 - 16 ∈ (booting [] 19 3).pkg.portsDown ∧ 15 ∉ s.ownedDies)) = true := by decide +kernel
theorem witness_ObservationAndBootAct_8 :
    (let s := booting (List.range 20) 0 0
     let b := Boot.running
     let begun (f : List (Nat × Nat)) : State :=
       { State.reset with pkg := { Pkg.reset with boot := { b with step := 1, bootst := 0, flashBad := f } } }
     s.pkg.boot.loaded && (tryBootStep s).isSome && !(begun [(3, 0)]).pkg.boot.flashFails && (tryBootStep (begun [(3, 0)])).isSome &&
       (begun [(3, 0), (3, 1)]).pkg.boot.flashFails && (tryBootStep (begun [(3, 0), (3, 1)])).isSome) = true := by decide +kernel
theorem witness_ObservationAndBootAct_9 :
    (gxoOk aFile && !gxoOk [] && runs (.gxoLoad aFile) State.reset && runs (.i3cDynamicAddress 9#7) State.reset &&
      runs .i3cGetstatus State.reset && runs (.mgmtMailboxCommand [1#8]) State.reset && runs (.mgmtMailboxCommand [1#8]) (booting [] 0 0) && idles (.gxoLoad []) State.reset) = true := by decide +kernel
theorem witness_ObservationAndBootAct_10 :
    (idles (.registerWrite 0xF00_0000_1001 1#64) (windowed 1#64) && decide (0xF00_0000_1008 = fwBase 0 0 + 8) &&
      !((windowed 1#64).pkg.window 0 0).armed && runs (.registerWrite 0xF00_0000_1008 1#64) (windowed 1#64) &&
      idles (.registerWrite 0xF10_0000_0578 1#64) (aUnit [])) = true := by decide +kernel

/-! Witnesses: the step. -/

def after (i : Instr) (s : State) (p : State → Bool) : Bool := match exec i s with | .next t => p t | _ => false
def fetches (s : State) (va : Word) (p : State → Nat → Bool) : Bool :=
  match s.check s.ag.priv .fetch va 2 with
  | .ok (u, .cell a h) => !u.asleep (.cell a h) && !u.poisoned a && p u (u.readNat a 2)
  | _ => false
theorem fetches_of {s : State} {va : Word} {p : State → Nat → Bool} (h : fetches s va p = true) :
    ∃ u x, Fetches s va u x ∧ p u x = true := by
  unfold fetches at h
  split at h
  · rename_i u a hm hu
    simp only [Bool.and_eq_true, Bool.not_eq_true'] at h
    refine ⟨u, u.readNat a 2, ⟨a, hm, hu, h.1.1, h.1.2, ?_⟩, h.2⟩
    simp [State.readNat, Memory.readNat, Memory.readBytes, natOfBytes, bytesAt, Finset.sum_range_succ, State.readByte]
    omega
  · cases h
/-- `add g5, g6, g7`, `c.next`, and a word that encodes nothing, offered after reset. -/
def offeredWord (w : Nat) : State := State.reset.withFetchWord 32 w
/-- The same with sixteen streaming accesses outstanding and `ldd.nb g0, [g0 + g0]` at the pc. -/
def crowded : State :=
  let s := offeredWord 0x000000B7
  { s with ag := { s.ag with nb := List.replicate 16 { outstanding with dest := 0#5 } } }
def scheduled : State := { aUnit [] with agenda := [{ at_ := 0, job := 0, move := .row .jobSuspend }] }
theorem witness_AStepRunsTheDecodedInstruction :
    (offeredWord 0x000E6281).offered = true ∧ (offeredWord 0x000E6281).canIssue = true ∧ (offeredWord 0x000E6281).pc = codeVa ∧
    (∃ u x, Fetches (offeredWord 0x9000).atTurn codeVa u x ∧ (x == 0x9000 && (decodeParcels x 0).isOk && u.ag.nb.isEmpty) = true) ∧
    (∃ u x, Fetches (offeredWord 0x000E6281).atTurn codeVa u x ∧ (x % 2 == 1 &&
      fetches u (codeVa + 2#64) (fun v y => (decodeParcels x y).isOk && v.ag.nb.isEmpty)) = true) ∧
    (∃ u x, Fetches (offeredWord 0x00400A51).atTurn codeVa u x ∧ (x % 2 == 1 &&
      fetches u (codeVa + 2#64) (fun _ y => !(decodeParcels x y).isOk)) = true) ∧
    (let s := { offeredWord 1 with ag := { (offeredWord 1).ag with pc := codeVa + 0x3_BFFE#64 }, mem := [(lsBase + 0x3_BFFE, 1#8)] }
     fetches s.atTurn s.pc (fun u x => x % 2 == 1 && !good (u.check u.ag.priv .fetch (s.pc + 2#64) 2) (fun _ => true))) = true ∧
    (∃ c, ({ offeredWord 1 with ag := { (offeredWord 1).ag with pc := 0#64 } }).atTurn.check .user .fetch 0#64 2 = .error c) ∧
    (∃ u x, Fetches crowded.atTurn codeVa u x ∧ (x % 2 == 1 && fetches u (codeVa + 2#64) (fun v y =>
      match decodeParcels x y with
      | .ok i => v.ag.nb.all (fun z => !z.owes (regsOf i)) && after i (v.issues i) (fun w => w.gaveUp.isSome)
      | .error _ => false)) = true) ∧
    (scheduled.offered = false ∧ ∀ x, ({ scheduled with share := none } : State).must = some x → 0 ≤ x.1) ∧
    ((waiting .fence).canIssue = false ∧ schedulable .fence = false) ∧ schedulable .jobSuspend = true ∧
    ((offeredWord 1).pkg.reg ((offeredWord 1).coreBlock + 0x10)).getLsbD 40 = false :=
  ⟨by decide +kernel, by decide +kernel, by decide +kernel, fetches_of (by decide +kernel), fetches_of (by decide +kernel), fetches_of (by decide +kernel),
    by decide +kernel, ⟨_, rfl⟩, fetches_of (by decide +kernel), ⟨rfl, fun _ _ => Nat.zero_le _⟩, by decide, by decide, by decide +kernel⟩
theorem witness_DecodingUndoesEncoding : (Instr.bfx 31#5 31#5 63#6 0#6).wf = true ∧ (Instr.bfx 31#5 31#5 63#6 0#6).size ≠ 0 ∧
    (Instr.cPs 7#3 7#3).wf = true ∧ (Instr.cPs 7#3 7#3).size ≠ 0 := by decide
theorem next_of {o : Host.Outcome State Fault Refusal} (h : (match o with | .next _ => true | _ => false) = true) : ∃ t, o = .next t := by
  cases o with
  | next t => exact ⟨t, rfl⟩
  | fault _ => cases h
  | refused _ => cases h
theorem witness_EveryStepKeepsMemoryCanonical : Canonical State.reset ∧ (∃ t, step State.reset = .next t) ∧
    ∃ t, step (offeredWord 0x000E6281) = .next t := by
  refine ⟨canonical_of (by decide), ?_, ?_⟩
  · exact next_of (by decide +kernel)
  · exact next_of (by decide +kernel)

/-! One step each, with results worked by hand from the rules named. -/

theorem test_add_wraps : after (.add 5#5 1#5 2#5) (aUnit [(1, 0xFFFF_FFFF_FFFF_FFFF#64), (2, 2#64)]) (fun t => t.g 5#5 == 1#64) = true := by decide +kernel
theorem test_g0_discards : after (.addi 0#5 1#5 1#15) (aUnit []) (fun t => t.g 0#5 == 0#64 && t.pc == codeVa + 4#64) = true := by decide +kernel
theorem test_mulxs_high : after (.mulxs 5#5 1#5 2#5) (aUnit [(1, 0xFFFF_FFFF_FFFF_FFFF#64), (2, 2#64)]) (fun t => t.g 5#5 == 0xFFFF_FFFF_FFFF_FFFF#64) = true := by
  decide +kernel
theorem test_div_corner : after (.div 5#5 1#5 2#5) (aMaster [(1, 0x8000_0000_0000_0000#64), (2, 0xFFFF_FFFF_FFFF_FFFF#64)])
    (fun t => t.g 5#5 == 0x8000_0000_0000_0000#64) = true := by decide +kernel
theorem test_rem_sign : after (.rem 5#5 1#5 2#5) (aMaster [(1, 0xFFFF_FFFF_FFFF_FFF9#64), (2, 2#64)]) (fun t => t.g 5#5 == 0xFFFF_FFFF_FFFF_FFFF#64) = true := by
  decide +kernel
theorem test_bfi_same_register : after (.bfi 1#5 1#5 8#6 7#6) (aUnit [(1, 0x1122#64)]) (fun t => t.g 1#5 == 0x2222#64) = true := by decide +kernel
theorem test_fadd : after (.fadd .d 5#5 1#5 2#5) (aUnit [(1, 0x3FF0_0000_0000_0000#64), (2, 0x4000_0000_0000_0000#64)])
    (fun t => t.g 5#5 == 0x4008_0000_0000_0000#64 && t.ag.rmode == 0#64) = true := by decide +kernel
theorem test_fcvt_clamps : after (.fcvt .wd 5#5 1#5) (aUnit [(1, 0x41E0_0000_0000_0000#64)])
    (fun t => t.g 5#5 == 0x7FFF_FFFF#64 && t.ag.rmode == flagNV) = true := by decide +kernel
theorem test_ldb_extends : after (.ldb 5#5 2#5 0#15) { inMemory with mem := [(aSpot, 0x80#8)] } (fun t => t.g 5#5 == 0xFFFF_FFFF_FFFF_FF80#64) = true := by
  decide +kernel
theorem test_std_then_ldd : after (.std 4#5 2#5 0#15) inMemory (fun t => after (.ldd 5#5 2#5 0#15) t (fun u => u.g 5#5 == 7#64)) = true := by decide +kernel
theorem test_ldfe_empties : after (.ldfe 5#5 2#5 3#5 0#6) { inMemory with mem := [(aSpot, 9#8)] }
    (fun t => t.g 5#5 == 9#64 && !t.feBit aSpot && t.readWord aSpot == 9#64) = true := by decide +kernel
theorem test_amocas_fails : after (.amocas 4#5 2#5 26#5) { inMemory with mem := [(aSpot, 9#8)] }
    (fun t => t.g 4#5 == 9#64 && t.readWord aSpot == 9#64) = true := by decide +kernel
theorem test_jal_links : after (.jal 31#5 0x700#20) (aUnit []) (fun t => t.g 31#5 == codeVa + 4#64 && t.pc == codeVa + 0xE00#64) = true := by decide +kernel
theorem test_ps_waits_24 : after (.ps 25#5 3#3) (unitOf aSpawn [(25, 5#64)])
    (fun t => t.job.psRequests.map (fun r => (r.amount, r.due, r.window)) == [(5, 24, 0)] && t.ag.wait == .ps) = true := by decide +kernel
theorem test_privilege : after .halt (withArea (unitOf aSpawn [])) (fun t => t.ag.occupied == false &&
    (t.readWord queueCell == 8#64 || t.job.sqtail == 2#64)) = true := by decide +kernel
theorem test_vadd_lane : after (.vadd .sat .i8 0#3 1#3 2#3 3#3) (let s := aUnit []; { s with ag := { s.ag with
      v := #v[0#512, 0#512, 0x7F#512, 0x01#512, 0#512, 0#512, 0#512, 0#512], k := Vector.replicate 8 0xFFFF#16 } })
    (fun t => t.v 1#3 == 0x7F#512) = true := by decide +kernel

end Sys2Proof.Tests
end

section
/-! PROOFS. The state after reset (O56): what its memory, its bits and its device registers hold. -/

namespace Sys2Proof.Machine

/-- What a register reads right after reset is its reset value. -/
theorem reset_reg (pa : Nat) : State.reset.pkg.reg pa = devReset pa := rfl

/-- R359: EN of a core's OBSCTL is 1 after reset, and every other register of the block is 0. -/
theorem devReset_observation {pdie core off : Nat} (hp : pdie < 16) (hc : core < 128) (ho : off < 0x1000) :
    devReset (0xF10_0000_0000 + 0x100_0000 * pdie + 0x1000 * core + off) =
      if off = 0 then 0x8000_0000_0000_0000#64 else 0#64 := by
  have inBlock : (decide (0xF10_0000_0000 ≤ 0xF10_0000_0000 + 0x100_0000 * pdie + 0x1000 * core + off) &&
      decide (0xF10_0000_0000 + 0x100_0000 * pdie + 0x1000 * core + off < 0xF20_0000_0000) &&
      decide ((0xF10_0000_0000 + 0x100_0000 * pdie + 0x1000 * core + off) % 0x100_0000 < 0x8_0000) &&
      decide ((0xF10_0000_0000 + 0x100_0000 * pdie + 0x1000 * core + off) % 0x1000 = 0)) = decide (off = 0) := by
    rw [Bool.eq_iff_iff]
    simp only [Bool.and_eq_true, decide_eq_true_eq]
    omega
  unfold devReset
  rw [inBlock]
  simp

/-- Full/empty bits after reset are the defaults of R61. -/
theorem reset_feBit (a : Nat) : State.reset.feBit a = feDefault (a / 8) := rfl

/-- R61: outside the local stores every bit is full. -/
theorem feDefault_outside {a : Nat} (h : a < lsBase ∨ lsBase + 2 ^ 29 ≤ a) : feDefault (a / 8) = true := by
  have outside : isLocal (a / 8 * 8) = false := by
    unfold isLocal
    unfold lsBase at h ⊢
    simp only [Bool.and_eq_false_iff, decide_eq_false_iff_not]
    omega
  simp [feDefault, outside]

/-- R61: within a local store the bits of the mailboxes and reply words alone are empty. -/
theorem feDefault_local {pdie core off : Nat} (hp : pdie < 16) (hc : core < 128) (ho : off < 2 ^ 18) :
    feDefault ((lsBase + pdie * 2 ^ 25 + core * 2 ^ 18 + off) / 8) = decide (off < 0x3E000 ∨ 0x3E040 ≤ off) := by
  have inStore : isLocal ((lsBase + pdie * 2 ^ 25 + core * 2 ^ 18 + off) / 8 * 8) = true := by
    simp only [isLocal, Bool.and_eq_true, decide_eq_true_eq]
    unfold lsBase
    omega
  rw [feDefault, inStore, Bool.true_and, Bool.eq_iff_iff]
  simp only [Bool.not_eq_true', Bool.and_eq_false_iff, decide_eq_false_iff_not, decide_eq_true_eq]
  unfold lsBase
  omega

theorem reset_agent_vacant (a : Nat) : (State.reset.agent a).occupied = false := by
  unfold State.agent
  split <;> rfl

theorem reset_g (r : Reg) : State.reset.g r = 0#64 := by
  have zero : State.reset.ag.g = Vector.replicate 32 0#64 := rfl
  simp [State.g, zero]

/-- R376: every die is in service once bring-up has ended. -/
theorem reset_diemap {die : Nat} (h : die < 16) : State.reset.pkg.boot.diemap.testBit die = true := by
  have all : State.reset.pkg.boot.diemap = 2 ^ 16 - 1 := rfl
  rw [all, Nat.testBit_two_pow_sub_one]
  exact decide_eq_true h

/-- Settles O56: each field of the reset state is what its rule gives; the bits and the observation registers by the arithmetic of
their addresses. -/
theorem resetHoldsWhatTheSpecGives : Obligations.ResetHoldsWhatTheSpecGives := by
  refine ⟨⟨rfl, rfl, rfl, rfl⟩, rfl, rfl, rfl, reset_agent_vacant, rfl, reset_g, rfl, rfl, fun _ => rfl, fun _ => rfl,
    fun _ h => feDefault_outside h, fun _ hp _ hc _ ho => feDefault_local hp hc ho, rfl, rfl, fun _ h => reset_diemap h, ?_⟩
  intro pdie hp core hc
  refine ⟨devReset_observation (off := 0) hp hc (by decide), fun off pos ho => ?_⟩
  rw [reset_reg, devReset_observation hp hc ho, if_neg (by omega)]

end Sys2Proof.Machine
end

section
/-! PROOFS. Tables and memory: what a lookup gives after a table has changed, and that the canonical form of a memory makes a read
give what was last written. -/

namespace Sys2Proof.Machine

section Tables
variable {α : Type}

@[simp] theorem lookup_assign_self (k : Nat) (v : α) (t : Table α) : lookup k (assign k v t) = some v := by
  induction t with
  | nil => simp [assign, lookup]
  | cons x t ih =>
    obtain ⟨i, y⟩ := x
    unfold assign
    split_ifs <;> simp [lookup, *]

theorem lookup_assign_other {j k : Nat} (h : j ≠ k) (v : α) (t : Table α) : lookup j (assign k v t) = lookup j t := by
  induction t with
  | nil => simp [assign, lookup, h.symm]
  | cons x t ih =>
    obtain ⟨i, y⟩ := x
    unfold assign
    split_ifs with _ hik
    · simp [lookup, h.symm]
    · subst hik
      simp [lookup, h.symm]
    · simp only [lookup, ih]

theorem lookup_remove_other {j k : Nat} (h : j ≠ k) (t : Table α) : lookup j (remove k t) = lookup j t := by
  induction t with
  | nil => rfl
  | cons x t ih =>
    obtain ⟨i, y⟩ := x
    unfold remove
    split_ifs with hik
    · subst hik
      simp [lookup, h.symm]
    · simp only [lookup, ih]

@[simp] theorem lookup_modify_self (k : Nat) (f : α → α) (t : Table α) : lookup k (modify k f t) = (lookup k t).map f := by
  induction t with
  | nil => rfl
  | cons x t ih =>
    obtain ⟨i, y⟩ := x
    unfold modify
    split_ifs with hik <;> simp [lookup, hik, ih]

theorem mem_of_lookup {k : Nat} {v : α} {t : Table α} (h : lookup k t = some v) : (k, v) ∈ t := by
  induction t with
  | nil => cases h
  | cons x t ih =>
    obtain ⟨i, y⟩ := x
    unfold lookup at h
    split_ifs at h with hik
    · obtain rfl : y = v := by injection h
      simp [hik]
    · exact List.mem_cons_of_mem _ (ih h)

theorem mem_of_mem_remove {k : Nat} {x : Nat × α} {t : Table α} (h : x ∈ remove k t) : x ∈ t := by
  induction t with
  | nil => exact h
  | cons y t ih =>
    obtain ⟨i, z⟩ := y
    unfold remove at h
    split_ifs at h
    · exact List.mem_cons_of_mem _ h
    · exact (List.mem_cons.mp h).elim (fun e => e ▸ List.mem_cons_self) (fun e => List.mem_cons_of_mem _ (ih e))

/-- An entry of a changed table stood there before, changed or not. -/
theorem exists_of_mem_modify {k : Nat} {f : α → α} {x : Nat × α} {t : Table α} (h : x ∈ modify k f t) :
    ∃ y ∈ t, y.1 = x.1 ∧ (x.2 = y.2 ∨ x.2 = f y.2) := by
  induction t with
  | nil => cases h
  | cons y t ih =>
    obtain ⟨i, z⟩ := y
    unfold modify at h
    split_ifs at h
    all_goals
      rcases List.mem_cons.mp h with rfl | h
      · exact ⟨_, List.mem_cons_self, rfl, by simp⟩
    · exact ⟨x, List.mem_cons_of_mem _ h, rfl, .inl rfl⟩
    · obtain ⟨w, hw, hx⟩ := ih h
      exact ⟨w, List.mem_cons_of_mem _ hw, hx⟩

end Tables

namespace Memory

theorem wfFrom_mono {lo hi : Nat} {m : List Host.Cell} (h : lo ≤ hi) (w : wfFrom hi m = true) : wfFrom lo m = true := by
  cases m with
  | nil => rfl
  | cons x m =>
    obtain ⟨i, b⟩ := x
    simp only [wfFrom, Bool.and_eq_true, decide_eq_true_eq] at w ⊢
    exact ⟨⟨h.trans w.1.1, w.1.2⟩, w.2⟩

theorem lookup_below {lo a : Nat} {m : List Host.Cell} (w : wfFrom lo m = true) (h : a < lo) : lookup a m = none := by
  induction m generalizing lo with
  | nil => rfl
  | cons x m ih =>
    obtain ⟨i, b⟩ := x
    simp only [wfFrom, Bool.and_eq_true, decide_eq_true_eq] at w
    obtain ⟨⟨hi, -⟩, hm⟩ := w
    rw [lookup, if_neg (by omega), ih hm (by omega)]

theorem lookup_remove_self {lo : Nat} (a : Nat) {m : List Host.Cell} (w : wfFrom lo m = true) : lookup a (remove a m) = none := by
  induction m generalizing lo with
  | nil => rfl
  | cons x m ih =>
    obtain ⟨i, b⟩ := x
    simp only [wfFrom, Bool.and_eq_true] at w
    unfold remove
    split_ifs with hia
    · exact lookup_below w.2 (by omega)
    · rw [lookup, if_neg hia, ih w.2]

theorem wfFrom_remove {lo : Nat} (a : Nat) {m : List Host.Cell} (w : wfFrom lo m = true) : wfFrom lo (remove a m) = true := by
  induction m generalizing lo with
  | nil => rfl
  | cons x m ih =>
    obtain ⟨i, b⟩ := x
    simp only [wfFrom, Bool.and_eq_true, decide_eq_true_eq] at w
    obtain ⟨⟨hi, hb⟩, hm⟩ := w
    unfold remove
    split_ifs
    · exact wfFrom_mono (by omega) hm
    · simp [wfFrom, hi, hb, ih hm]

theorem wfFrom_assign {lo a : Nat} {b : Byte} {m : List Host.Cell} (w : wfFrom lo m = true) (h : lo ≤ a) (hb : b ≠ unlisted) :
    wfFrom lo (assign a b m) = true := by
  induction m generalizing lo with
  | nil => simp [assign, wfFrom, h, hb]
  | cons x m ih =>
    obtain ⟨i, c⟩ := x
    simp only [wfFrom, Bool.and_eq_true, decide_eq_true_eq] at w
    obtain ⟨⟨hi, hc⟩, hm⟩ := w
    unfold assign
    split_ifs with hlt heq
    · simp [wfFrom, h, hb, hc, hm, Nat.succ_le_of_lt hlt]
    · subst heq
      simp [wfFrom, h, hb, hm]
    · simp [wfFrom, hi, hc, ih hm (by omega)]

/-- A write keeps the canonical form. -/
theorem wf_write (a : Nat) (b : Byte) {m : List Host.Cell} (w : wf m = true) : wf (write a b m) = true := by
  unfold write
  split_ifs with hb
  · exact wfFrom_remove a w
  · exact wfFrom_assign w (Nat.zero_le a) hb

theorem read_write {m : List Host.Cell} (w : wf m = true) (a x : Nat) (b : Byte) :
    read (write a b m) x = if x = a then b else read m x := by
  unfold read write
  split_ifs with hb hx hx
  · rw [hx, lookup_remove_self a w, hb]; rfl
  · rw [lookup_remove_other hx]
  · rw [hx, lookup_assign_self]; rfl
  · rw [lookup_assign_other hx]

theorem wf_writeBytes (a : Nat) (bs : List Byte) {m : List Host.Cell} (w : wf m = true) : wf (writeBytes a bs m) = true := by
  induction bs generalizing a m with
  | nil => exact w
  | cons b bs ih => exact ih (a + 1) (wf_write a b w)

theorem wf_writeNat (a n v : Nat) {m : List Host.Cell} (w : wf m = true) : wf (writeNat a n v m) = true := wf_writeBytes a _ w

theorem read_writeBytes_below {a x : Nat} (h : x < a) (bs : List Byte) {m : List Host.Cell} (w : wf m = true) :
    read (writeBytes a bs m) x = read m x := by
  induction bs generalizing a m with
  | nil => rfl
  | cons b bs ih => rw [writeBytes, ih (by omega) (wf_write a b w), read_write w, if_neg (by omega)]

/-- Bytes read back are those written. -/
theorem readBytes_writeBytes (a : Nat) (bs : List Byte) {m : List Host.Cell} (w : wf m = true) :
    readBytes (writeBytes a bs m) a bs.length = bs := by
  induction bs generalizing a m with
  | nil => rfl
  | cons b bs ih =>
    have head : read (writeBytes (a + 1) bs (write a b m)) a = b := by
      rw [read_writeBytes_below (Nat.lt_succ_self a) bs (wf_write a b w), read_write w, if_pos rfl]
    simp only [List.length_cons, readBytes, writeBytes, head, ih (a + 1) (wf_write a b w)]

theorem length_bytesOfNat (n v : Nat) : (bytesOfNat n v).length = n := by
  induction n generalizing v with
  | zero => rfl
  | succ n ih => simp [bytesOfNat, ih]

/-- A dword read back is the one written. -/
theorem readWord_writeNat (a v : Nat) {m : List Host.Cell} (w : wf m = true) :
    readWord (writeNat a 8 v m) a = BitVec.ofNat 64 v := by
  have bytes := readBytes_writeBytes a (bytesOfNat 8 v) w
  rw [length_bytesOfNat] at bytes
  apply BitVec.eq_of_toNat_eq
  simp [readWord, readNat, writeNat, bytes, Laws.natOfBytes_bytesOfNat]

end Memory

end Sys2Proof.Machine
end

section
/-! PROOFS. What an access that the hardware makes of the job's memory leaves as it was: the agent in focus, the job but for its cached
translations and its watches, the canonical form of memory, and the control registers of the sillage. -/

namespace Sys2Proof.Machine

theorem Pkg.reg_setReg_other (p : Pkg) {pa x : Nat} (v : Word) (h : x ≠ pa) : (p.setReg pa v).reg x = p.reg x := by
  unfold Pkg.setReg Pkg.reg
  split_ifs
  · rw [lookup_remove_other h]
  · rw [lookup_assign_other h]

/-- A sillage control register is no HEAD of a sillage ring (R369). -/
theorem Job.sillage_ne_head (j : Job) (h k : Nat) : j.sillage h ≠ j.sillage k + 0x10 := by
  unfold Job.sillage obsBase
  omega

/-- What such an access keeps: the agent in focus, the job but for its watches and cached translations, a canonical memory, and the control
registers of the sillage (R369). -/
structure OnlyMemory (s t : State) : Prop where
  ag : t.ag = s.ag
  job : ∃ armed tlb, t.job = { s.job with armed := armed, tlb := tlb }
  wf : Memory.wf s.mem = true → Memory.wf t.mem = true
  sillage : ∀ h, t.pkg.reg (s.job.sillage h) = s.pkg.reg (s.job.sillage h)

namespace OnlyMemory

theorem refl (s : State) : OnlyMemory s s := ⟨rfl, ⟨_, _, rfl⟩, id, fun _ => rfl⟩

variable {s t u : State}

theorem spawns (h : OnlyMemory s t) : t.job.spawns = s.job.spawns := by
  obtain ⟨_, _, e⟩ := h.job
  rw [e]

theorem comms (h : OnlyMemory s t) : t.job.comms = s.job.comms := by
  obtain ⟨_, _, e⟩ := h.job
  rw [e]

theorem dlbase (h : OnlyMemory s t) : t.job.dlbase = s.job.dlbase := by
  obtain ⟨_, _, e⟩ := h.job
  rw [e]

theorem jobSillage (h : OnlyMemory s t) (n : Nat) : t.job.sillage n = s.job.sillage n := by
  obtain ⟨_, _, e⟩ := h.job
  rw [e]
  rfl

theorem trans (h : OnlyMemory s t) (k : OnlyMemory t u) : OnlyMemory s u where
  ag := k.ag.trans h.ag
  job := by
    obtain ⟨_, _, e⟩ := h.job
    obtain ⟨w, l, f⟩ := k.job
    exact ⟨w, l, by rw [f, e]⟩
  wf := k.wf ∘ h.wf
  sillage n := by rw [← h.sillage n, ← h.jobSillage n, k.sillage n]

/-- A home that is quiet stays so. -/
theorem quietHome (h : OnlyMemory s t) {home : Option Nat} (q : QuietHome s home) : QuietHome t home := by
  refine ⟨by rw [h.dlbase]; exact q.1, fun n e => ?_⟩
  rw [h.jobSillage n, h.sillage n]
  exact q.2 n e

end OnlyMemory

theorem watchWrite_onlyMemory (s : State) (a : Nat) : OnlyMemory s (s.watchWrite a) := by
  unfold State.watchWrite
  split
  · exact ⟨rfl, ⟨_, _, rfl⟩, id, fun _ => rfl⟩
  · exact .refl s

@[simp] theorem watchWrite_mem (s : State) (a : Nat) : (s.watchWrite a).mem = s.mem := by
  unfold State.watchWrite
  split <;> rfl

theorem writeNat_onlyMemory (s : State) (a n v : Nat) : OnlyMemory s { s with mem := Memory.writeNat a n v s.mem } :=
  ⟨rfl, ⟨_, _, rfl⟩, Memory.wf_writeNat a n v, fun _ => rfl⟩

theorem logDirty_onlyMemory (s : State) (a : Nat) (home : Option Nat) : OnlyMemory s (s.logDirty a home) := by
  unfold State.logDirty
  split
  · exact .refl s
  extract_lets epoch
  split
  · exact .refl s
  extract_lets dw bit
  have hbit : OnlyMemory s bit := by
    unfold bit
    split
    · exact .refl s
    · exact (writeNat_onlyMemory s dw 8 _).trans (watchWrite_onlyMemory _ dw)
  split
  · exact hbit
  split
  · exact .refl s
  · exact ⟨hbit.ag, hbit.job, hbit.wf, hbit.sillage⟩

/-- Nothing is logged while the dirty log is off (R340). -/
theorem logDirty_off {s : State} (h : s.job.dlbase.getLsbD 63 = false) (a : Nat) (home : Option Nat) : s.logDirty a home = s := by
  have off : field s.job.dlbase.toNat 63 1 = 0 := by
    have := Nat.testBit_eq_decide_div_mod_eq (x := s.job.dlbase.toNat) (i := 63)
    rw [BitVec.testBit_toNat, h] at this
    unfold field
    have ne := of_decide_eq_false this.symm
    omega
  unfold State.logDirty
  rw [if_pos off]

theorem recordSillage_onlyMemory (s : State) (w : Writer) (a mask : Nat) (home : Option Nat) :
    OnlyMemory s (s.recordSillage w a mask home) := by
  unfold State.recordSillage
  split
  · exact .refl s
  · dsimp only
    split
    · refine ⟨rfl, ⟨_, _, rfl⟩, fun m => ?_, fun k => ?_⟩
      · exact Memory.wf_writeNat _ _ _ (Memory.wf_writeNat _ _ _ (Memory.wf_writeNat _ _ _ (Memory.wf_writeNat _ _ _ m)))
      · exact Pkg.reg_setReg_other _ _ (s.job.sillage_ne_head k _)
    · exact .refl s

theorem replay_onlyMemory (s : State) (w : Writer) (a mask : Nat) (home : Option Nat) :
    OnlyMemory s ((s.replay w a mask home).getD s) := by
  unfold State.replay
  split
  · exact .refl s
  · dsimp only
    split
    · split
      · exact .refl s
      · split
        · exact ⟨rfl, ⟨_, _, rfl⟩, id, fun _ => rfl⟩
        · exact .refl s
    · exact .refl s

theorem written_onlyMemory (s : State) (w : Writer) (a mask : Nat) (home : Option Nat) : OnlyMemory s (s.written w a mask home) :=
  ((((replay_onlyMemory s w a mask home).trans (logDirty_onlyMemory _ a home)).trans
    (recordSillage_onlyMemory _ w a mask home)).trans (watchWrite_onlyMemory _ a))

/-- At a quiet home nothing follows a write but the tries of its watches (R70). -/
theorem written_quiet {s : State} {home : Option Nat} (q : QuietHome s home) (w : Writer) (a mask : Nat) :
    s.written w a mask home = s.watchWrite a := by
  obtain ⟨off, quiet⟩ := q
  have modeOff (h : Nat) (e : home = some h) : field (s.pkg.reg (s.job.sillage h)).toNat 62 2 = 0 := by
    rw [field, quiet h e]
    rfl
  have noReplay : (s.replay w a mask home).getD s = s := by
    cases home with
    | none => rfl
    | some h =>
      unfold State.replay
      simp only [modeOff h rfl, OfNat.zero_ne_ofNat, decide_false, Bool.false_and, Bool.false_eq_true, if_false, Option.getD_some]
  have noRecord : s.recordSillage w a mask home = s := by
    cases home with
    | none => rfl
    | some h =>
      unfold State.recordSillage
      simp only [modeOff h rfl, zero_ne_one, decide_false, Bool.false_and, Bool.false_eq_true, if_false]
  rw [State.written, noReplay, logDirty_off off, noRecord]

theorem store_onlyMemory (s : State) (w : Writer) (a n v : Nat) (home : Option Nat) : OnlyMemory s (s.store w a n v home) := by
  unfold State.store
  extract_lets s1
  have h1 : OnlyMemory s s1 := writeNat_onlyMemory s a n v
  refine .trans (t := if n = 8 then s1.setPoison a false else s1) ?_ (written_onlyMemory _ w a _ home)
  split
  · exact ⟨h1.ag, h1.job, h1.wf, h1.sillage⟩
  · exact h1

theorem store_mem_quiet {s : State} {home : Option Nat} (q : QuietHome s home) (w : Writer) (a n v : Nat) :
    (s.store w a n v home).mem = Memory.writeNat a n v s.mem := by
  unfold State.store
  extract_lets s1
  have q1 : QuietHome (if n = 8 then s1.setPoison a false else s1) home := by
    split <;> exact q
  rw [written_quiet q1, watchWrite_mem]
  split <;> rfl

/-- A dword stored at a quiet home reads back. -/
theorem readWord_store_quiet {s : State} {home : Option Nat} (m : Memory.wf s.mem = true) (q : QuietHome s home) (w : Writer)
    (a v : Nat) : (s.store w a 8 v home).readWord a = BitVec.ofNat 64 v := by
  rw [State.readWord, store_mem_quiet q, Memory.readWord_writeNat a v m]

theorem walked_onlyMemory (s : State) (wrote : Option Nat) : OnlyMemory s (s.walked wrote) := by
  cases wrote with
  | none => exact .refl s
  | some a => exact (logDirty_onlyMemory s a none).trans (watchWrite_onlyMemory _ a)

theorem walk_onlyMemory {s : State} {f : Form} {va : Word} {e : Entry} (h : s.walk f va = .ok e) : OnlyMemory s e.s := by
  unfold State.walk at h
  extract_lets need at h
  split at h
  · cases h
  split at h
  · cases h
  · cases h
  extract_lets d1 at h
  iterate 4
    split at h
    · cases h
  obtain rfl := Except.ok.inj h
  refine ⟨rfl, ⟨_, _, rfl⟩, fun m => ?_, fun _ => rfl⟩
  split
  · exact m
  · exact Memory.wf_writeNat _ _ _ m

theorem entryFor_onlyMemory {s : State} {f : Form} {va : Word} {e : Entry} (h : s.entryFor f va = .ok e) : OnlyMemory s e.s := by
  unfold State.entryFor at h
  split at h
  · obtain rfl := Except.ok.inj h
    exact .refl s
  · exact walk_onlyMemory h

/-- A check that passes leaves what its walk wrote. -/
theorem check_onlyMemory {s t : State} {p : Priv} {f : Form} {va : Word} {n : Nat} {l : Loc}
    (h : s.check p f va n = .ok (t, l)) : OnlyMemory s t := by
  unfold State.check at h
  split_ifs at h
  · split at h
    · cases h
    · obtain ⟨rfl, -⟩ := Prod.mk.inj (Except.ok.inj h)
      exact .refl s
  · split at h
    · cases h
    · next e he =>
      split at h
      · cases h
      · obtain ⟨rfl, -⟩ := Prod.mk.inj (Except.ok.inj h)
        exact (entryFor_onlyMemory he).trans (walked_onlyMemory e.s e.wrote)

theorem hwCell_onlyMemory {s t : State} {write : Bool} {va : Word} {n a : Nat} {home : Option Nat}
    (h : s.hwCell write va n = .ok (t, a, home)) : OnlyMemory s t := by
  unfold State.hwCell State.cellAs at h
  split at h
  · cases h
  · next hc =>
    obtain ⟨rfl, -⟩ := Prod.mk.inj (Except.ok.inj h)
    exact check_onlyMemory hc
  · cases h

theorem hwRead_onlyMemory {s t : State} {va x : Word} (h : s.hwRead va = .ok (t, x)) : OnlyMemory s t := by
  unfold State.hwRead at h
  split at h
  · cases h
  · next hc =>
    split_ifs at h
    obtain ⟨rfl, -⟩ := Prod.mk.inj (Except.ok.inj h)
    exact hwCell_onlyMemory hc

theorem hwWrite_onlyMemory {s t : State} {va v : Word} (h : s.hwWrite va v = .ok t) : OnlyMemory s t := by
  unfold State.hwWrite at h
  split at h
  · cases h
  · next hc =>
    obtain rfl := Except.ok.inj h
    exact (hwCell_onlyMemory hc).trans (store_onlyMemory _ _ _ _ _ _)

theorem setEntryState_onlyMemory (s : State) (va : Word) (st : Nat) : OnlyMemory s (s.setEntryState va st) := by
  unfold State.setEntryState
  split
  · exact .refl s
  · next hr =>
    split
    · next hw => exact (hwRead_onlyMemory hr).trans (hwWrite_onlyMemory hw)
    · exact .refl s

theorem writeTimeline_onlyMemory (s : State) (off v : Nat) : OnlyMemory s (s.writeTimeline off v) := by
  unfold State.writeTimeline
  split
  · next hc => exact (hwCell_onlyMemory hc).trans (store_onlyMemory _ _ _ _ _ _)
  · exact .refl s

/-! An engine's read may besides fill a view line: the agent in focus stays. -/

theorem bumpOwner_ag (s : State) (a : Nat) (home : Option Nat) (off : Nat) : (s.bumpOwner a home off).ag = s.ag := by
  unfold State.bumpOwner
  split
  · rfl
  split
  · rfl
  · dsimp only
    split <;> rfl

theorem fillView_ag (s : State) (pa : Nat) : (s.fillView pa).ag = s.ag := by
  unfold State.fillView
  split
  · dsimp only
    split
    · rfl
    · exact List.foldlRecOn _ _ (motive := fun t => t.ag = s.ag) rfl (fun t ht _ _ => (bumpOwner_ag t _ _ _).trans ht)
  · rfl

theorem readAt_ag {s t : State} {l : Loc} {n : Nat} {r : Except Byte Nat} (h : s.readAt l n = some (r, t)) : t.ag = s.ag := by
  cases l with
  | cell a home =>
    obtain ⟨-, rfl⟩ := Prod.mk.inj (Option.some.inj h)
    rfl
  | view pa =>
    obtain ⟨-, rfl⟩ := Prod.mk.inj (Option.some.inj h)
    exact fillView_ag s pa
  | dev pa =>
    obtain ⟨-, rfl⟩ := Prod.mk.inj (Option.some.inj h)
    rfl
  | host port pasid iova =>
    unfold State.readAt at h
    dsimp only at h
    split_ifs at h
    · obtain ⟨-, rfl⟩ := Prod.mk.inj (Option.some.inj h)
      rfl
    · obtain ⟨_, -, h⟩ := Option.map_eq_some_iff.mp h
      obtain ⟨-, rfl⟩ := Prod.mk.inj h
      rfl

theorem engRead_ag {s t : State} {q : Chunk} {va : Word} {n x : Nat} (h : s.engRead q va n = .ok t x) : t.ag = s.ag := by
  unfold State.engRead at h
  split at h
  · cases h
  · next hc =>
    split_ifs at h
    split at h
    · cases h
    · split_ifs at h
    · next hr =>
      obtain ⟨rfl, -⟩ := Eng.ok.inj h
      exact (readAt_ag hr).trans (check_onlyMemory hc).ag

theorem engReads_ag {q : Chunk} {l : List (Word × Nat)} {s t : State} {xs : List Nat} (h : State.engReads q l s = .ok t xs) :
    t.ag = s.ag := by
  induction l generalizing s xs with
  | nil =>
    obtain ⟨rfl, -⟩ := Eng.ok.inj h
    rfl
  | cons x l ih =>
    obtain ⟨va, n⟩ := x
    unfold State.engReads at h
    split at h
    · next hr =>
      split at h
      · next hs =>
        obtain ⟨rfl, -⟩ := Eng.ok.inj h
        exact (ih hs).trans (engRead_ag hr)
      all_goals cases h
    all_goals cases h

end Sys2Proof.Machine
end

section
/-! PROOFS. What cancelling a spawn does (R45, R295): the agent in focus stays where it stands, and the spawn
is ended. -/

namespace Sys2Proof.Machine

/-- Every entry of the spawn table under a number is ended. -/
def EndedAt (id : Nat) (s : State) : Prop := ∀ x ∈ s.job.spawns, x.1 = id → x.2.ended ≠ none

theorem reap_keeps (s : State) : s.reap.ag = s.ag ∧ ∀ x ∈ s.reap.job.spawns, x ∈ s.job.spawns := by
  unfold State.reap
  refine List.foldlRecOn _ _ (motive := fun t : State => t.ag = s.ag ∧ ∀ x ∈ t.job.spawns, x ∈ s.job.spawns)
    ⟨rfl, fun _ h => h⟩ (fun t ht x _ => ?_)
  obtain ⟨ag, sub⟩ := ht
  split
  · exact ⟨ag, sub⟩
  · split
    · exact ⟨ag, fun y hy => sub y (mem_of_mem_remove hy)⟩
    · exact ⟨ag, sub⟩

theorem reap_ended {id : Nat} {s : State} (h : EndedAt id s) : EndedAt id s.reap := fun x hx => h x ((reap_keeps s).2 x hx)

theorem retireOne_ag (s : State) (id : Nat) : (s.retireOne id).ag = s.ag := (reap_keeps _).1

theorem retireOne_ended {id : Nat} {s : State} (other : Nat) (h : EndedAt id s) : EndedAt id (s.retireOne other) := by
  refine reap_ended (fun x hx e => ?_)
  obtain ⟨y, hy, key, changed⟩ := exists_of_mem_modify hx
  have ended := h y hy (key.trans e)
  rcases changed with same | same <;> rw [same] <;> exact ended

theorem discardFibre_keeps (s : State) (entry : Nat) :
    (s.discardFibre entry).ag = s.ag ∧ ∀ id, EndedAt id s → EndedAt id (s.discardFibre entry) := by
  unfold State.discardFibre
  split
  · exact ⟨rfl, fun _ h => h⟩
  · extract_lets t _ u
    have freed : OnlyMemory s t := setEntryState_onlyMemory s _ 0
    have ended (id : Nat) (h : EndedAt id s) : EndedAt id u := by
      have same : u.job.spawns = s.job.spawns := freed.spawns
      unfold EndedAt
      rw [same]
      exact h
    split
    · exact ⟨freed.ag, ended⟩
    · exact ⟨(retireOne_ag u _).trans freed.ag, fun id h => retireOne_ended _ (ended id h)⟩

theorem discardFibres_keep (l : List Nat) (s : State) :
    (l.foldl State.discardFibre s).ag = s.ag ∧ ∀ id, EndedAt id s → EndedAt id (l.foldl State.discardFibre s) :=
  List.foldlRecOn l _ (motive := fun t : State => t.ag = s.ag ∧ ∀ id, EndedAt id s → EndedAt id t) ⟨rfl, fun _ h => h⟩
    (fun t ht e _ => ⟨(discardFibre_keeps t e).1.trans ht.1, fun id h => (discardFibre_keeps t e).2 id (ht.2 id h)⟩)

theorem mem_descendants_of_mem {id x : Nat} (t : Table Spawn) {acc : List Nat} (h : x ∈ acc) : x ∈ descendants id t acc := by
  induction t generalizing acc with
  | nil => exact h
  | cons y t ih =>
    obtain ⟨i, sp⟩ := y
    unfold descendants
    refine ih ?_
    split
    · exact List.mem_cons_of_mem i h
    · exact h

/-- A spawn that stands in the table is among its own descendants. -/
theorem self_mem_descendants {id : Nat} {t : Table Spawn} (acc : List Nat) (h : ∃ x ∈ t, x.1 = id) : id ∈ descendants id t acc := by
  induction t generalizing acc with
  | nil => simp at h
  | cons y t ih =>
    obtain ⟨i, sp⟩ := y
    unfold descendants
    by_cases e : i = id
    · subst e
      exact mem_descendants_of_mem t (by simp)
    · obtain ⟨x, hx, key⟩ := h
      rcases List.mem_cons.mp hx with rfl | hx
      · exact absurd key e
      · exact ih _ ⟨x, hx, key⟩

/-- A cancelled spawn is ended wherever it still stands in the table, and of the agent in focus at most its end is noted (R45). -/
theorem cancelSpawn_keeps (s : State) (id : Nat) (kind : EndKind) :
    (∃ b, (s.cancelSpawn id kind).ag = { s.ag with ending := b }) ∧ EndedAt id (s.cancelSpawn id kind) := by
  unfold State.cancelSpawn
  extract_lets ds mark _ t
  obtain ⟨agFibres, endedFibres⟩ :=
    discardFibres_keep ((s.job.fibres.filter (fun f => ds.contains f.2.spawn)).map (fun f => f.1)) t
  have marked : ∃ b, t.ag = { s.ag with ending := b } := by
    by_cases c : (s.ag.occupied && decide (s.ag.role ≠ .master) && ds.contains s.ag.spawnid.toNat) = true
    · exact ⟨true, if_pos c⟩
    · exact ⟨s.ag.ending, if_neg c⟩
  have ended : EndedAt id t := by
    intro x hx key
    obtain ⟨y, hy, rfl⟩ := List.mem_map.mp hx
    have key' : y.1 = id := by
      rw [← key]
      split <;> rfl
    have among : ds.contains y.1 = true := by
      rw [key', List.contains_iff_mem]
      exact self_mem_descendants [] ⟨y, hy, key'⟩
    rw [among, Bool.true_and]
    split
    · simp
    · next still => simpa using still
  refine ⟨?_, reap_ended (endedFibres id ended)⟩
  rw [(reap_keeps _).1, agFibres]
  exact marked

end Sys2Proof.Machine
end

section
/-! PROOFS. Named states: what `mfs` reads and what `mts` does, by the use a context has of a number (R118, R119, R153, R283). -/

namespace Sys2Proof.Machine

theorem exec_mfs (d : Reg) (n : BitVec 12) (s : State) : exec (.mfs d n) s = execMfs d n s := rfl
theorem exec_mts (n : BitVec 12) (a : Reg) (s : State) : exec (.mts n a) s = execMts n a s := rfl

/-- How the agent in focus may use a named state. -/
def State.useOf (s : State) (m : Nat) : NsUse := nsUse (s.ag.role = .master) s.ag.priv m

/-- A number is assigned and the agent in focus reaches it (R118). -/
def State.nsOpen (s : State) (m : Nat) : Prop := nsKnown m = true ∧ nsReach s.ag.priv m = true

section Outcomes
variable {s : State} {d a : Reg} {n : BitVec 12} {m : Nat}

theorem unassigned_takes (h : nsKnown n.toNat = false) :
    Takes (.mfs d n) s { cause := 0x0A#8 } ∧ Takes (.mts n a) s { cause := 0x0A#8 } := by
  simp [Takes, exec_mfs, exec_mts, execMfs, execMts, h, State.raiseCause]

theorem unreached_takes (k : nsKnown n.toNat = true) (h : nsReach s.ag.priv n.toNat = false) :
    Takes (.mfs d n) s { cause := 0x09#8 } ∧ Takes (.mts n a) s { cause := 0x09#8 } := by
  simp [Takes, exec_mfs, exec_mts, execMfs, execMts, k, h, State.raiseCause]

theorem mfs_reads (o : s.nsOpen m) (u : s.useOf m = .ro ∨ s.useOf m = .rw) :
    n.toNat = m → Completes (.mfs d n) s (Wrote s d (s.named m) 4) := by
  rintro rfl
  obtain ⟨k, r⟩ := o
  refine ⟨s.result d (s.named n.toNat), ?_, result_wrote s d _⟩
  rcases u with u | u <;> unfold State.useOf at u <;> simp [exec_mfs, execMfs, k, r, u]

theorem mfs_zero (o : s.nsOpen m) (u : s.useOf m = .none ∨ s.useOf m = .wo) :
    n.toNat = m → Completes (.mfs d n) s (Wrote s d 0#64 4) := by
  rintro rfl
  obtain ⟨k, r⟩ := o
  refine ⟨s.result d 0#64, ?_, result_wrote s d _⟩
  rcases u with u | u <;> unfold State.useOf at u <;> simp [exec_mfs, execMfs, k, r, u]

theorem mts_fixed (o : s.nsOpen m) (u : s.useOf m = .none ∨ s.useOf m = .ro) :
    n.toNat = m → Takes (.mts n a) s { cause := 0x0E#8 } := by
  rintro rfl
  obtain ⟨k, r⟩ := o
  rcases u with u | u <;> unfold State.useOf at u <;> simp [Takes, exec_mts, execMts, k, r, u, State.raiseCause]

theorem mts_refused (o : s.nsOpen m) (u : s.useOf m = .rw ∨ s.useOf m = .wo) (bad : s.job.refuses m (s.g a) = true) :
    n.toNat = m → Takes (.mts n a) s { cause := 0x0D#8 } := by
  rintro rfl
  obtain ⟨k, r⟩ := o
  rcases u with u | u <;> unfold State.useOf at u <;> simp [Takes, exec_mts, execMts, k, r, u, bad, State.raiseCause]

theorem mts_sets (o : s.nsOpen m) (u : s.useOf m = .rw) (ok : s.job.refuses m (s.g a) = false) (hc : m ≠ 0x40D) (hw : m ≠ 0x40F) :
    n.toNat = m → exec (.mts n a) s = .next ((s.setNamed m (s.g a)).advance 4) := by
  rintro rfl
  obtain ⟨k, r⟩ := o
  unfold State.useOf at u
  have nc : n ≠ 0x40D#12 := fun e => hc (by rw [e]; rfl)
  have nw : n ≠ 0x40F#12 := fun e => hw (by rw [e]; rfl)
  simp [exec_mts, execMts, k, r, u, ok, nc, nw]

theorem mts_lvlcmd (o : s.nsOpen 0x40D) (u : s.useOf 0x40D = .wo) (ok : s.job.refuses 0x40D (s.g a) = false) (e : n.toNat = 0x40D) :
    exec (.mts n a) s = .next (if s.g a = 1#64 then
      (s.advance 4).cancelLevel s.job.selected.1 s.job.selected.2 else s.advance 4) := by
  obtain ⟨k, r⟩ := o
  unfold State.useOf at u
  obtain rfl : n = 0x40D#12 := BitVec.eq_of_toNat_eq e
  simp [exec_mts, execMts, k, r, u, ok]

theorem mts_comctl (o : s.nsOpen 0x40F) (u : s.useOf 0x40F = .wo) (e : n.toNat = 0x40F) :
    exec (.mts n a) s = .next (s.comctl (s.g a)) := by
  obtain ⟨k, r⟩ := o
  unfold State.useOf at u
  obtain rfl : n = 0x40F#12 := BitVec.eq_of_toNat_eq e
  have ok : s.job.refuses 0x40F (s.g a) = false := rfl
  simp [exec_mts, execMts, k, r, u, ok]

end Outcomes

/-! Which numbers a context reaches and how it uses them (R119, R283). -/

section Contexts
variable {s : State} {m : Nat}

theorem nsOpen_low (h : m ≤ 14) (s : State) : s.nsOpen m := by
  have low : m < 0x400 := by omega
  simp [State.nsOpen, nsKnown, nsReach, h, low]

theorem nsOpen_supervisor (p : s.ag.priv = .supervisor) (lo : 0x400 ≤ m) (hi : m ≤ 0x40F) : s.nsOpen m := by
  have below : m < 0x800 := by omega
  simp [State.nsOpen, nsKnown, nsReach, lo, hi, below, p]

/-- The numbers that every context may read. -/
theorem useOf_readable (s : State) : ∀ m ∈ [0, 2, 3, 4, 6, 9, 10, 11, 12, 13, 14], s.useOf m = .ro ∨ s.useOf m = .rw := by
  simp only [List.forall_mem_cons, State.useOf, nsUse]
  grind

/-- The numbers that no context may write. -/
theorem useOf_fixed (s : State) : ∀ m ∈ [0, 1, 2, 3, 5, 7, 8, 11, 12, 13, 14], s.useOf m = .none ∨ s.useOf m = .ro := by
  simp only [List.forall_mem_cons, State.useOf, nsUse]
  grind

/-- The supervisor's numbers that it may only read, and those it may read and write. -/
theorem useOf_supervisor_ro (s : State) : ∀ m ∈ [0x400, 0x401, 0x404, 0x40C, 0x40E], s.useOf m = .ro := by
  simp only [List.forall_mem_cons, State.useOf, nsUse]
  grind
theorem useOf_supervisor_rw (s : State) :
    ∀ m ∈ [0x402, 0x403, 0x405, 0x406, 0x407, 0x408, 0x409, 0x40A, 0x40B], s.useOf m = .rw := by
  simp only [List.forall_mem_cons, State.useOf, nsUse]
  grind

end Contexts

/-! The same for the numbers of a context together. -/

section Lists
variable {s : State} {d a : Reg} {n : BitVec 12}

theorem mfs_reads_low (s : State) (d : Reg) (n : BitVec 12) : ∀ m ∈ [0, 2, 3, 4, 6, 9, 10, 11, 12, 13, 14],
    n.toNat = m → Completes (.mfs d n) s (Wrote s d (s.named m) 4) := fun m h =>
  mfs_reads (nsOpen_low ((by decide : ∀ m ∈ [0, 2, 3, 4, 6, 9, 10, 11, 12, 13, 14], m ≤ 14) m h) s) (useOf_readable s m h)

theorem mts_fixed_low (s : State) (a : Reg) (n : BitVec 12) : ∀ m ∈ [0, 1, 2, 3, 5, 7, 8, 11, 12, 13, 14],
    n.toNat = m → Takes (.mts n a) s { cause := 0x0E#8 } := fun m h =>
  mts_fixed (nsOpen_low ((by decide : ∀ m ∈ [0, 1, 2, 3, 5, 7, 8, 11, 12, 13, 14], m ≤ 14) m h) s) (useOf_fixed s m h)

theorem nsOpen_supervisor_ro (p : s.ag.priv = .supervisor) : ∀ m ∈ [0x400, 0x401, 0x404, 0x40C, 0x40E], s.nsOpen m := fun m h =>
  have ⟨lo, hi⟩ := (by decide : ∀ m ∈ [0x400, 0x401, 0x404, 0x40C, 0x40E], 0x400 ≤ m ∧ m ≤ 0x40F) m h
  nsOpen_supervisor p lo hi

theorem nsOpen_supervisor_rw (p : s.ag.priv = .supervisor) :
    ∀ m ∈ [0x402, 0x403, 0x405, 0x406, 0x407, 0x408, 0x409, 0x40A, 0x40B], s.nsOpen m := fun m h =>
  have ⟨lo, hi⟩ :=
    (by decide : ∀ m ∈ [0x402, 0x403, 0x405, 0x406, 0x407, 0x408, 0x409, 0x40A, 0x40B], 0x400 ≤ m ∧ m ≤ 0x40F) m h
  nsOpen_supervisor p lo hi

theorem mfs_reads_supervisor_ro (p : s.ag.priv = .supervisor) : ∀ m ∈ [0x400, 0x401, 0x404, 0x40C, 0x40E],
    n.toNat = m → Completes (.mfs d n) s (Wrote s d (s.named m) 4) := fun m h =>
  mfs_reads (nsOpen_supervisor_ro p m h) (.inl (useOf_supervisor_ro s m h))

theorem mfs_reads_supervisor_rw (p : s.ag.priv = .supervisor) :
    ∀ m ∈ [0x402, 0x403, 0x405, 0x406, 0x407, 0x408, 0x409, 0x40A, 0x40B],
    n.toNat = m → Completes (.mfs d n) s (Wrote s d (s.named m) 4) := fun m h =>
  mfs_reads (nsOpen_supervisor_rw p m h) (.inr (useOf_supervisor_rw s m h))

theorem useOf_master_rw (master : s.ag.role = .master) : s.useOf 6 = .rw ∧ s.useOf 9 = .rw :=
  ⟨if_pos (decide_eq_true master), if_pos (decide_eq_true master)⟩
theorem useOf_slot_ro (slot : s.ag.role ≠ .master) : s.useOf 6 = .ro ∧ s.useOf 9 = .ro := by
  simp [State.useOf, nsUse, slot]

theorem nsReach_denied {p : Priv} {m : Nat}
    (h : ((0x400 ≤ m ∧ m ≤ 0x40F) ∧ p = .user) ∨ ((m = 0x800 ∨ m = 0x801) ∧ p ≠ .firmware)) : nsReach p m = false := by
  rcases h with ⟨⟨lo, -⟩, rfl⟩ | ⟨rfl | rfl, notF⟩
  · simp [nsReach, Nat.not_lt.mpr lo]
  · simp [nsReach, notF]
  · simp [nsReach, notF]

end Lists

/-! A named state that takes a value: it holds the bits its mask keeps, and only the counter that `lvlcnt` shows may follow. -/

theorem setNamed_named (s : State) (x : Word) :
    ∀ m ∈ [6, 9, 10, 0x402, 0x403, 0x405, 0x406, 0x407, 0x408, 0x409, 0x40A, 0x40B], (s.setNamed m x).named m = x &&& nsMask m := by
  simp only [List.forall_mem_cons]
  exact ⟨rfl, rfl, rfl, rfl, rfl, rfl, rfl, rfl, rfl, rfl, rfl, rfl, fun _ h => nomatch h⟩

theorem setNamed_named_other (s : State) (x : Word) {m k : Nat} (other : k ≠ m) (noCount : k ≠ 0x40C) :
    (s.setNamed m x).named k = s.named k := by
  unfold State.setNamed
  split
  all_goals
    unfold State.named
    split <;> try contradiction
    all_goals rfl

/-- Of what `setNamed` changes, no g register, no byte of memory and not the pc. -/
theorem setNamed_frame (s : State) (m : Nat) (x : Word) :
    (s.setNamed m x).ag.pc = s.ag.pc ∧ (∀ r, (s.setNamed m x).g r = s.g r) ∧ SameMemory s (s.setNamed m x) := by
  unfold State.setNamed
  split
  all_goals exact ⟨rfl, fun _ => rfl, sameMemory_refl s⟩

theorem named_advance (s : State) (n : Nat) {k : Nat} (noCount : k ≠ 0x40C) : (s.advance n).named k = s.named k := by
  unfold State.named
  split <;> try contradiction
  all_goals rfl

section Writes
variable {s : State} {a : Reg} {n : BitVec 12} {m : Nat}

theorem mts_writes (among : m ∈ [6, 9, 10, 0x402, 0x403, 0x405, 0x406, 0x407, 0x408, 0x409, 0x40A, 0x40B]) (o : s.nsOpen m)
    (u : s.useOf m = .rw) : n.toNat = m → s.job.refuses m (s.g a) = false → Completes (.mts n a) s (fun t =>
      t.named m = s.g a &&& nsMask m ∧ t.pc = s.pc + 4#64 ∧ (∀ r, t.g r = s.g r) ∧ SameMemory s t ∧
        ∀ k, k ≠ m → k ≠ 0x40C → t.named k = s.named k) := by
  intro e ok
  have hc : m ≠ 0x40D := by rintro rfl; simp at among
  have hw : m ≠ 0x40F := by rintro rfl; simp at among
  have hl : m ≠ 0x40C := by rintro rfl; simp at among
  obtain ⟨pc, g, mem⟩ := setNamed_frame s m (s.g a)
  refine ⟨_, mts_sets o u ok hc hw e, ?_, ?_, g, mem, fun k other noCount => ?_⟩
  · rw [named_advance _ 4 hl]
    exact setNamed_named s _ m among
  · show (s.setNamed m (s.g a)).ag.pc + 4#64 = s.ag.pc + 4#64
    rw [pc]
  · rw [named_advance _ 4 noCount, setNamed_named_other s _ other noCount]

/-- `rmode` keeps the bits of R85, and nothing else differs. -/
theorem mts_rmode (e : n.toNat = 4) : Completes (.mts n a) s (fun t => t.ag.rmode = s.g a &&& 0x1F3#64 ∧ t.pc = s.pc + 4#64 ∧
    { t with ag := { t.ag with rmode := s.ag.rmode, pc := s.ag.pc } } = s ∧ SameMemory s t) :=
  ⟨_, mts_sets (nsOpen_low (by omega) s) rfl rfl (by decide) (by decide) e, rfl, rfl, rfl, sameMemory_refl s⟩

end Writes

/-- `upentry` refuses an odd address and one outside the user half (R6, R48). -/
theorem refuses_upentry (j : Job) (x : Word) (nonzero : x ≠ 0#64) (bad : 2 ^ 56 ≤ x.toNat ∨ x.getLsbD 0 = true) :
    j.refuses 6 x = true := by
  have parts : canonical x = false ∨ supervisorHalf x = true ∨ x.toNat % 2 = 1 := by
    rcases bad with high | odd
    · by_cases top : x.toNat / 2 ^ 56 = 0xFF
      · exact .inr (.inl (decide_eq_true (by rw [top])))
      · refine .inl ?_
        simp only [canonical, Bool.or_eq_false_iff, decide_eq_false_iff_not]
        exact ⟨by omega, top⟩
    · refine .inr (.inr ?_)
      rw [← BitVec.testBit_toNat, Nat.testBit_zero] at odd
      exact of_decide_eq_true odd
  rcases parts with h | h | h <;> simp [Job.refuses, nonzero, h]

/-- `fibpool` refuses more than 2^20 entries (R120). -/
theorem refuses_fibpool (j : Job) (x : Word) (bad : 20 < x.toNat / 2 ^ 59) : j.refuses 9 x = true := by
  have whole : log2nOf x = x.toNat / 2 ^ 59 := by
    have := x.isLt
    exact Nat.mod_eq_of_lt (by omega)
  exact decide_eq_true (whole ▸ bad)

theorem refuses_ferlimit (j : Job) (x : Word) (bad : x.toNat % 2 ^ 32 = 0) : j.refuses 10 x = true := decide_eq_true bad

theorem refuses_lvlsel (j : Job) (x : Word) (bad : 4 < x.toNat / 2 ^ 61) : j.refuses 0x40B x = true := by
  have whole : field x.toNat 61 3 = x.toNat / 2 ^ 61 := by
    have := x.isLt
    exact Nat.mod_eq_of_lt (by omega)
  exact decide_eq_true (whole ▸ bad)

theorem refuses_lvlcmd (j : Job) (x : Word) (bad : 1 < x.toNat) : j.refuses 0x40D x = true := decide_eq_true bad

/-! Levels (R293, R296): the one `lvlsel` selects, its counter, and what `lvlcmd` does to it. -/

theorem selected_eq (j : Job) : j.selected = (j.lvlsel.toNat / 2 ^ 61, j.lvlsel.toNat % 2 ^ 48) := by
  have := j.lvlsel.isLt
  have kind : field j.lvlsel.toNat 61 3 = j.lvlsel.toNat / 2 ^ 61 := Nat.mod_eq_of_lt (by omega)
  have id : field j.lvlsel.toNat 0 48 = j.lvlsel.toNat % 2 ^ 48 := by rw [field, pow_zero, Nat.div_one]
  rw [Job.selected, kind, id]

theorem packFields_five (a b c d e i j k l m : Nat) : packFields [(a, i), (b, j), (c, k), (d, l), (e, m)] =
    BitVec.ofNat 64 (0 + a * 2 ^ i + b * 2 ^ j + c * 2 ^ k + d * 2 ^ l + e * 2 ^ m) := rfl

theorem runqst_eq (j : Job) :
    let queued (p : Nat) : Nat := (j.runs.filter (fun r => !r.started && r.prio == p)).length
    let flying : Nat := (j.runs.filter (fun r => r.started)).length
    j.runqst = BitVec.ofNat 64 (queued 0 + 2 ^ 8 * queued 1 + 2 ^ 16 * queued 2 + 2 ^ 24 * queued 3 + 2 ^ 32 * flying) := by
  intro queued flying
  have packed : j.runqst = packFields [(queued 0, 0), (queued 1, 8), (queued 2, 16), (queued 3, 24), (flying, 32)] := rfl
  rw [packed, packFields_five]
  congr 1
  omega

section LevelCounters
variable {s : State}

theorem lvlcnt_none (h : s.levelCount (s.job.lvlsel.toNat / 2 ^ 61) (s.job.lvlsel.toNat % 2 ^ 48) = none) :
    s.named 0x40C = 0xFFFF_FFFF_FFFF_FFFF#64 := by
  show s.lvlcnt = _
  rw [State.lvlcnt, selected_eq, h]

theorem lvlcnt_some {c : Nat} (h : s.levelCount (s.job.lvlsel.toNat / 2 ^ 61) (s.job.lvlsel.toNat % 2 ^ 48) = some c) :
    s.named 0x40C = BitVec.ofNat 64 c := by
  show s.lvlcnt = _
  rw [State.lvlcnt, selected_eq, h]

/-- A run in flight counts its nodes that are not final. -/
theorem levelCount_run {id : Nat} {r : Run} (h : s.job.run? id = some r) (started : r.started = true) :
    s.levelCount 1 id = some (r.nodes.filter (fun n => !n.final)).length := by
  simp only [State.levelCount, h, Option.filter_some, started, if_true, Option.map_some]
  congr 2
  refine List.filter_congr (fun n _ => ?_)
  unfold RunNode.final
  cases n.st <;> rfl

theorem levelCount_noSpawn {id : Nat} (h : lookup id s.job.spawns = none) : s.levelCount 3 id = none := by
  simp [State.levelCount, h]

/-- A unit in its slot counts itself and its streaming accesses. -/
theorem levelCount_unit {id : Nat} (slot : id < 2 ^ 15) (occupied : (s.agent id).occupied = true) (unit : (s.agent id).role = .unit) :
    s.levelCount 4 id = some (1 + (s.agent id).nb.length) := by
  simp only [State.levelCount, slot, occupied, unit, decide_true, Bool.and_self, if_true]

theorem agent_advance (s : State) (n a : Nat) :
    (s.advance n).agent a = if a = s.agId then { s.ag with pc := s.ag.pc + BitVec.ofNat 64 n } else s.agent a := by
  by_cases h : a = s.agId
  · rw [if_pos h]
    exact if_pos h
  · rw [if_neg h, State.agent, State.agent, advance_agId, if_neg h, if_neg h]
    rfl

theorem levelCount_advance (s : State) (n kind id : Nat) : (s.advance n).levelCount kind id = s.levelCount kind id := by
  have agent : ((s.advance n).agent id).occupied = (s.agent id).occupied ∧ ((s.advance n).agent id).role = (s.agent id).role ∧
      ((s.advance n).agent id).nb = (s.agent id).nb := by
    rw [agent_advance]
    split
    · next h => simp [State.agent, h]
    · exact ⟨rfl, rfl, rfl⟩
  obtain ⟨occupied, role, nb⟩ := agent
  unfold State.levelCount
  rw [occupied, role, nb]
  rfl

theorem cancelLevel_dead {kind id : Nat} (h : s.levelCount kind id = none) : s.cancelLevel kind id = s := by
  simp [State.cancelLevel, h]

theorem cancelLevel_job (s : State) (id : Nat) : s.cancelLevel 0 id = s.endJob := rfl

theorem cancelLevel_run {id : Nat} (h : s.levelCount 1 id ≠ none) : s.cancelLevel 1 id = s.cancelRun id :=
  if_neg (by simpa using h)

theorem cancelLevel_spawn {id : Nat} (h : s.levelCount 3 id ≠ none) : s.cancelLevel 3 id = s.cancelSpawn id .cancelled :=
  if_neg (by simpa using h)

theorem cancelLevel_unit {id : Nat} (h : s.levelCount 4 id ≠ none) :
    s.cancelLevel 4 id = s.putAgent id { s.agent id with ending := true } :=
  if_neg (by simpa using h)

/-- Replacing another agent changes that one alone. -/
theorem agent_putAgent {id : Nat} (other : id ≠ s.agId) (x : Agent) :
    (s.putAgent id x).agent id = x ∧ ∀ b, b ≠ id → (s.putAgent id x).agent b = s.agent b := by
  unfold State.putAgent
  rw [if_neg other]
  refine ⟨?_, fun b h => ?_⟩
  · simp [State.agent, other]
  · simp [State.agent, lookup_assign_other h]

theorem putAgent_frame {id : Nat} (other : id ≠ s.agId) (x : Agent) :
    (s.putAgent id x).ag = s.ag ∧ SameMemory s (s.putAgent id x) := by
  unfold State.putAgent
  rw [if_neg other]
  exact ⟨rfl, sameMemory_refl s⟩

end LevelCounters

end Sys2Proof.Machine
end

section
/-! PROOFS. What a write of `comctl` does (R297), what one of `lvlcmd` does (R295, R296), and O44. -/

namespace Sys2Proof.Machine

theorem g_of_ag {s t : State} (h : t.ag = s.ag) (r : Reg) : t.g r = s.g r := by rw [State.g, State.g, h]

/-- The communicator that a block and the tree it names describe (R239, R297). -/
def newComm (b : List Word) (tree : List Nat) : Comm where
  rank := commRank b
  size := commSize b
  threshold := commThreshold b
  nnode := commNodes b
  tree := tree.map (BitVec.ofNat 64)
  seq := 0
  instances := []
  ending := false
  lost := []

/-- That communicator entered in the job's table. -/
def State.withComm (s : State) (b : List Word) (tree : List Nat) : State :=
  { s with job := { s.job with comms := assign (commHandle b) (newComm b tree) s.job.comms } }

/-- Besides the new communicator, create only writes its information block and its timeline. -/
theorem commCreate_onlyMemory (s : State) (b : List Word) (tree : List Nat) : OnlyMemory (s.withComm b tree) (s.commCreate b tree) := by
  unfold State.commCreate
  extract_lets h c _ t head words u
  have block : OnlyMemory (s.withComm b tree) u :=
    List.foldlRecOn _ _ (motive := OnlyMemory (s.withComm b tree)) (.refl _) (fun v hv _ _ => hv.trans (writeTimeline_onlyMemory v _ _))
  exact block.trans (writeTimeline_onlyMemory u _ 0)

section Commands
variable {s t : State} {b : List Word}

theorem commCommand_create {tree : List Nat} (op : commOp b = 1) (ok : commCreateOk b = true)
    (unused : lookup (commHandle b) s.job.comms = none)
    (reads : State.engReads { request := requestId 7 (commHandle b) 0, chunk := 0, priv := .user }
      (items (b.getD 2 0#64) 8 (commSize b + commNodes b)) s = .ok t tree) :
    s.commCommand b = .finished (t.commCreate b tree) 1 := by
  simp only [State.commCommand, op, ok, unused, reads, Option.isNone_none, Bool.and_self, if_true]

theorem commCommand_end {c : Comm} (op : commOp b = 2) (ok : commReservedOk b = true)
    (used : lookup (commHandle b) s.job.comms = some c) (idle : c.instances = []) :
    s.commCommand b = .finished { s with job := { s.job with comms := remove (commHandle b) s.job.comms } } 1 := by
  simp only [State.commCommand, op, ok, used, idle, List.isEmpty_nil, Bool.not_true, Bool.false_eq_true, if_false, if_true]

theorem commCommand_endWaits {c : Comm} (op : commOp b = 2) (ok : commReservedOk b = true)
    (used : lookup (commHandle b) s.job.comms = some c) (busy : c.instances ≠ []) :
    s.commCommand b = .waiting (s.onComm (commHandle b) (fun x => { x with ending := true })) := by
  have notEmpty : c.instances.isEmpty = false := by simpa using busy
  simp only [State.commCommand, op, ok, used, notEmpty, Bool.not_true, Bool.false_eq_true, if_false]

/-- A block out of rule ends with CSTAT 4 and does nothing (R297). -/
theorem commCommand_refused (bad : (commOp b ≠ 1 ∧ commOp b ≠ 2) ∨
    (commOp b = 1 ∧ (commCreateOk b = false ∨ lookup (commHandle b) s.job.comms ≠ none)) ∨
    (commOp b = 2 ∧ (commReservedOk b = false ∨ lookup (commHandle b) s.job.comms = none))) :
    s.commCommand b = .finished s 4 := by
  unfold State.commCommand
  extract_lets h
  split
  · next op =>
    have no : ¬ (commCreateOk b && (lookup h s.job.comms).isNone) = true := by
      have given : commCreateOk b = false ∨ lookup h s.job.comms ≠ none := by simpa [op] using bad
      rcases given with g | g <;> simp [g]
    rw [if_neg no]
  · next op =>
    split
    · rfl
    · next ok =>
      have none : lookup h s.job.comms = none := by simpa [op, show commReservedOk b = true by simpa using ok] using bad
      rw [none]
  · rfl

variable {s1 s2 : State} {va : Word} {c : Nat} {home : Option Nat}

theorem comctl_finished {stat : Nat} (block : s.readBlock va = .ok s1 b)
    (cstat : s1.check s1.ag.priv .store (va + 24#64) 8 = .ok (s2, .cell c home)) (step : s2.commCommand b = .finished t stat) :
    s.comctl va = (t.store (t.writer 0) c 8 stat home).advance 4 := by
  simp only [State.comctl, block, cstat, State.writeAt, Option.isNone_some, Bool.false_eq_true, if_false, step]

theorem comctl_waiting (block : s.readBlock va = .ok s1 b)
    (cstat : s1.check s1.ag.priv .store (va + 24#64) 8 = .ok (s2, .cell c home)) (step : s2.commCommand b = .waiting t) :
    s.comctl va = t.setWait (.again 1) := by
  simp only [State.comctl, block, cstat, State.writeAt, Option.isNone_some, Bool.false_eq_true, if_false, step]

/-- CSTAT written at a quiet home reads back, and the pc moves past the instruction. -/
theorem cstat_written (m : Memory.wf t.mem = true) (q : QuietHome t home) (c stat : Nat) :
    let u := (t.store (t.writer 0) c 8 stat home).advance 4
    u.readWord c = BitVec.ofNat 64 stat ∧ u.pc = t.pc + 4#64 ∧ ∀ r, u.g r = t.g r := by
  have ag := (store_onlyMemory t (t.writer 0) c 8 stat home).ag
  refine ⟨readWord_store_quiet m q _ c stat, ?_, fun r => (advance_g _ 4 r).trans (g_of_ag ag r)⟩
  show (t.store (t.writer 0) c 8 stat home).ag.pc + 4#64 = t.ag.pc + 4#64
  rw [ag]

theorem store_comms (t : State) (w : Writer) (c n v : Nat) (home : Option Nat) : (t.store w c n v home).job.comms = t.job.comms :=
  (store_onlyMemory t w c n v home).comms

end Commands

section Supervisor
variable {s : State} {d a : Reg} {n : BitVec 12}

/-- What the supervisor's write of 1 to `lvlcmd` does: what `lvlsel` selects is cancelled. -/
theorem mts_lvlcmd_one (p : s.ag.priv = .supervisor) (e : n.toNat = 0x40D) (one : s.g a = 1#64) :
    exec (.mts n a) s = .next ((s.advance 4).cancelLevel (s.job.lvlsel.toNat / 2 ^ 61) (s.job.lvlsel.toNat % 2 ^ 48)) := by
  have ok : s.job.refuses 0x40D (s.g a) = false := by rw [one]; rfl
  rw [mts_lvlcmd (nsOpen_supervisor p (by decide) (by decide)) rfl ok e, if_pos one, selected_eq]

theorem mts_lvlcmd_zero (p : s.ag.priv = .supervisor) (e : n.toNat = 0x40D) (zero : s.g a = 0#64) :
    exec (.mts n a) s = .next (s.advance 4) := by
  have ok : s.job.refuses 0x40D (s.g a) = false := by rw [zero]; rfl
  rw [mts_lvlcmd (nsOpen_supervisor p (by decide) (by decide)) rfl ok e, if_neg (by rw [zero]; decide)]

theorem cancelSpawn_selected {id : Nat} (h : s.levelCount 3 id ≠ none) : let t := (s.advance 4).cancelLevel 3 id
    t.pc = s.pc + 4#64 ∧ (∀ r, t.g r = s.g r) ∧ ∀ y, lookup id t.job.spawns = some y → y.ended ≠ none := by
  rw [cancelLevel_spawn (by rwa [levelCount_advance])]
  obtain ⟨⟨b, ag⟩, ended⟩ := cancelSpawn_keeps (s.advance 4) id .cancelled
  refine ⟨congrArg Agent.pc ag, fun r => ?_, fun y found => ended _ (mem_of_lookup found) rfl⟩
  rw [State.g, ag]
  rfl

theorem cancelUnit_selected {id : Nat} (slot : id < 2 ^ 15) (other : id ≠ s.agId) (occupied : (s.agent id).occupied = true)
    (unit : (s.agent id).role = .unit) : let t := (s.advance 4).cancelLevel 4 id
    t.agent id = { s.agent id with ending := true } ∧ t.pc = s.pc + 4#64 ∧
      (∀ b, b ≠ id → b ≠ s.agId → t.agent b = s.agent b) ∧ SameMemory s t := by
  have live : (s.advance 4).levelCount 4 id ≠ none := by
    rw [levelCount_advance, levelCount_unit slot occupied unit]
    exact Option.some_ne_none _
  have stays (b : Nat) (h : b ≠ s.agId) : (s.advance 4).agent b = s.agent b := by rw [agent_advance, if_neg h]
  obtain ⟨changed, rest⟩ := agent_putAgent (s := s.advance 4) other { s.agent id with ending := true }
  rw [cancelLevel_unit live, stays id other]
  obtain ⟨ag, mem⟩ := putAgent_frame (s := s.advance 4) other { s.agent id with ending := true }
  exact ⟨changed, congrArg Agent.pc ag, fun b hb hf => (rest b hb).trans (stays b hf), mem⟩

end Supervisor

section Comctl
variable {s s1 s2 : State} {a : Reg} {n : BitVec 12} {b : List Word} {c : Nat} {home : Option Nat}

/-- What the supervisor's write of `comctl` comes to, once the block is read and CSTAT's dword checked: the command finishes or waits. -/
theorem mts_comctl_finished {t : State} {stat : Nat} (p : s.ag.priv = .supervisor) (e : n.toNat = 0x40F)
    (block : s.readBlock (s.g a) = .ok s1 b) (cstat : s1.check s1.ag.priv .store (s.g a + 24#64) 8 = .ok (s2, .cell c home))
    (step : s2.commCommand b = .finished t stat) (ag : t.ag = s2.ag) (m : Memory.wf t.mem = true) (q : QuietHome t home) :
    Completes (.mts n a) s (fun u =>
      (u.readWord c = BitVec.ofNat 64 stat ∧ u.pc = s2.pc + 4#64 ∧ ∀ r, u.g r = s2.g r) ∧ u.job.comms = t.job.comms) := by
  obtain ⟨word, pc, g⟩ := cstat_written m q c stat
  refine ⟨(t.store (t.writer 0) c 8 stat home).advance 4, ?_, ⟨word, ?_, fun r => (g r).trans (g_of_ag ag r)⟩,
    store_comms t _ c 8 stat home⟩
  · rw [mts_comctl (nsOpen_supervisor p (by decide) (by decide)) rfl e, comctl_finished block cstat step]
  · rw [pc, State.pc, State.pc, ag]

theorem mts_comctl_waiting {t : State} (p : s.ag.priv = .supervisor) (e : n.toNat = 0x40F)
    (block : s.readBlock (s.g a) = .ok s1 b) (cstat : s1.check s1.ag.priv .store (s.g a + 24#64) 8 = .ok (s2, .cell c home))
    (step : s2.commCommand b = .waiting t) : exec (.mts n a) s = .next (t.setWait (.again 1)) := by
  rw [mts_comctl (nsOpen_supervisor p (by decide) (by decide)) rfl e, comctl_waiting block cstat step]

end Comctl

/-- Settles O44: the outcome of `mfs` and `mts` by the use that the context has of the number, then the fields that each number names;
`lvlcmd` and `comctl` by what cancelling a level and a communicator command leave. -/
theorem namedStatesReadAndWrite : Obligations.NamedStatesReadAndWrite := by
  intro d a n s x no special kind id reads writes refused fixed
  have low {m : Nat} (h : m ≤ 14) : s.nsOpen m := nsOpen_low h s
  have all : ∀ m ∈ [0, 2, 3, 4, 6, 9, 10, 11, 12, 13, 14], reads m (s.named m) := mfs_reads_low s d n
  simp only [List.forall_mem_cons] at all
  obtain ⟨cycle, slotid, spawnid, rmode, upentry, fibpool, ferlimit, nbload, nbstore, cpout, tkout, -⟩ := all
  refine ⟨fun hi notSpecial n1 n2 => unassigned_takes ?_, fun h => unreached_takes ?_ (nsReach_denied h), cycle, slotid, spawnid, rmode,
    upentry, fibpool, ferlimit, nbload, nbstore, cpout, tkout, fun master => ?_, fun slot => ?_, fun p => ?_, mts_fixed_low s a n,
    fun slot => ?_, fun user => ?_, fun p m h => ?_, mts_rmode, fun master => ?_, fun p => ?_⟩
  · simp only [nsKnown, Bool.or_eq_false_iff, Bool.and_eq_false_iff, decide_eq_false_iff_not]
    exact ⟨⟨⟨by omega, by omega⟩, n1⟩, n2⟩
  · simp only [nsKnown, Bool.or_eq_true, Bool.and_eq_true, decide_eq_true_eq]
    omega
  · have here : decide (s.ag.role = .master) = true := decide_eq_true master
    exact ⟨mfs_zero (low (by decide)) (.inl (if_pos here)), mfs_reads (low (by decide)) (.inl (if_pos here)),
      mfs_zero (low (by decide)) (.inl (if_pos here)), mfs_zero (low (by decide)) (.inl (if_pos here))⟩
  · have here : ¬ decide (s.ag.role = .master) = true := by simpa using slot
    exact ⟨mfs_reads (low (by decide)) (.inl (if_neg here)), mfs_zero (low (by decide)) (.inl (if_neg here)),
      mfs_reads (low (by decide)) (.inl (if_neg here)), mfs_reads (low (by decide)) (.inl (if_neg here))⟩
  · have ro : ∀ m ∈ [0x400, 0x401, 0x404, 0x40C, 0x40E], reads m (s.named m) := mfs_reads_supervisor_ro p
    have both : ∀ m ∈ [0x402, 0x403, 0x405, 0x406, 0x407, 0x408, 0x409, 0x40A, 0x40B], reads m (s.named m) := mfs_reads_supervisor_rw p
    simp only [List.forall_mem_cons] at ro both
    obtain ⟨jobid, vdcount, sqtail, lvlcnt, runqst, -⟩ := ro
    obtain ⟨sqbase, sqhead, basinov, sfibarea, tlarea, ptroot, dlbase, jobpol, lvlsel, -⟩ := both
    have shown {m : Nat} {v w : Word} (h : v = w) (r : reads m v) : reads m w := h ▸ r
    have count {v : Word} (h : s.named 0x40C = v) : reads 0x40C v := shown h lvlcnt
    have counted {k : Nat} {c : Option Nat} (e : kind = k) (h : s.levelCount k id = c) : s.levelCount kind id = c := e ▸ h
    exact ⟨jobid, vdcount, sqbase, sqhead, sqtail, basinov, sfibarea, tlarea, ptroot, dlbase, jobpol, lvlsel,
      mfs_zero (nsOpen_supervisor p (by decide) (by decide)) (.inr rfl), mfs_zero (nsOpen_supervisor p (by decide) (by decide)) (.inr rfl),
      shown (runqst_eq s.job) runqst, fun dead => count (lvlcnt_none dead), fun c live => count (lvlcnt_some live),
      fun r k found started => count (lvlcnt_some (counted k (levelCount_run found started))),
      fun k none => count (lvlcnt_none (counted k (levelCount_noSpawn none))),
      fun k slot occupied unit => count (lvlcnt_some (counted k (levelCount_unit slot occupied unit)))⟩
  · obtain ⟨u6, u9⟩ := useOf_slot_ro slot
    exact ⟨mts_fixed (low (by decide)) (.inr u6), mts_fixed (low (by decide)) (.inr u9)⟩
  · exact mts_fixed (low (by decide)) (.inr (if_pos user))
  · exact mts_fixed (nsOpen_supervisor_ro p m h) (.inr (useOf_supervisor_ro s m h))
  · obtain ⟨u6, u9⟩ := useOf_master_rw master
    exact ⟨mts_writes (by decide) (low (by decide)) u6, mts_writes (by decide) (low (by decide)) u9,
      fun e bad => mts_refused (low (by decide)) (.inl u6) (refuses_upentry s.job x bad.1 bad.2) e,
      fun e bad => mts_refused (low (by decide)) (.inl u9) (refuses_fibpool s.job x bad) e⟩
  · have u10 : s.useOf 10 = .rw := if_neg (by rw [p]; decide)
    have closed : s.nsOpen 0x40D := nsOpen_supervisor p (by decide) (by decide)
    refine ⟨?_, fun e bad => mts_refused (low (by decide)) (.inl u10) (refuses_ferlimit s.job x bad) e,
      fun e bad => mts_refused (nsOpen_supervisor p (by decide) (by decide)) (.inl rfl) (refuses_lvlsel s.job x bad) e,
      fun e bad => mts_refused closed (.inr rfl) (refuses_lvlcmd s.job x bad) e,
      fun e zero => ⟨_, mts_lvlcmd_zero p e zero, setPc_jumped s _⟩, fun e one => ?_, fun e s1 ws s2 c h block cstat => ?_⟩
    · intro m h
      rcases List.mem_cons.mp h with rfl | later
      · exact mts_writes (by decide) (low (by decide)) u10
      · have among := List.mem_cons_of_mem 6 (List.mem_cons_of_mem 9 (List.mem_cons_of_mem 10 later))
        exact mts_writes among (nsOpen_supervisor_rw p m later) (useOf_supervisor_rw s m later)
    · have act {k : Nat} (h : kind = k) : exec (.mts n a) s = .next ((s.advance 4).cancelLevel k id) := h ▸ mts_lvlcmd_one p e one
      have alive {k : Nat} (h : kind = k) (live : s.levelCount kind id ≠ none) : s.levelCount k id ≠ none := h ▸ live
      refine ⟨fun dead => ⟨s.advance 4, ?_, setPc_jumped s _⟩, fun k => ⟨_, act k, rfl, rfl⟩, fun k live => ?_,
        fun k live => ⟨_, act k, cancelSpawn_selected (alive k live)⟩,
        fun k slot other occupied unit => ⟨_, act k, cancelUnit_selected slot other occupied unit⟩⟩
      · rw [act rfl, cancelLevel_dead ((levelCount_advance s 4 kind id).trans dead)]
      · rw [act k, cancelLevel_run ((levelCount_advance s 4 1 id).symm ▸ alive k live)]
    · intro handle wrote
      refine ⟨fun v tree op ok unused reads canon quiet => ?_, fun m op ok used => ⟨fun idle canon quiet => ?_, fun busy => ?_⟩,
        fun bad canon quiet => ?_⟩
      · have kept : v.ag = s2.ag := engReads_ag reads
        have made := commCreate_onlyMemory v ws tree
        obtain ⟨u, run, cstat', comms⟩ := mts_comctl_finished p e block cstat (commCommand_create op ok unused reads)
          (made.ag.trans kept) (made.wf canon.1) (made.quietHome ⟨quiet.1, quiet.2⟩)
        refine ⟨u, run, cstat', newComm ws tree, ?_, rfl, rfl, rfl, rfl, rfl, rfl, rfl⟩
        rw [comms, made.comms]
        exact lookup_assign_self _ _ _
      · exact mts_comctl_finished p e block cstat (commCommand_end op ok used idle) rfl canon.1 ⟨quiet.1, quiet.2⟩
      · refine ⟨_, mts_comctl_waiting p e block cstat (commCommand_endWaits op ok used busy), rfl, rfl, ?_⟩
        exact (lookup_modify_self _ _ _).trans (congrArg (Option.map _) used)
      · exact mts_comctl_finished p e block cstat (commCommand_refused bad) rfl canon.1 quiet

end Sys2Proof.Machine
end

section
/-! PROOFS. Counters, debug and boot (O55): OBS_COUNTER_CLEAR first enters an ended rotation in the bin that its count names, and the
bins of R359 end with that of a count of 15. -/

namespace Sys2Proof.Machine

/-- At cycle 16, with no job live, core 0 of die 0 has yet to enter its rotation 0 in a bin, with a count of sixteen slots that issued in
it. A core has 15 unit slots, so a run from reset counts no sixteenth; O55 asks of a state no more than that it be canonical. -/
def crowdedRotation : State :=
  { State.reset with pkg := { Pkg.reset with cycle := 16, rotations := [(coreBase 0 0, (0, 16))] } }

theorem crowdedRotation_canonical : Canonical crowdedRotation := ⟨rfl, rfl, rfl, rfl⟩

/-- The register behind the last bin reads 0 before the counters are cleared, and 1 after it. -/
theorem crowdedRotation_behindBins : crowdedRotation.pkg.reg (0xF10_0000_0000 + 0x580) = 0#64 := rfl
theorem clearCore_crowdedRotation_behindBins :
    (crowdedRotation.clearCore 0 0).pkg.reg (0xF10_0000_0000 + 0x580) = 1#64 := by decide +kernel

theorem exec_obsCounterClear (pdie core : Nat) (s : State) :
    exec (.obsCounterClear pdie core) s = .next (s.clearCore pdie core) := rfl

/-- Refutes O55: its first clause says of every canonical state that clearing a core's counters leaves the registers outside
`0x100` to `0x57F` of its block alone; from `crowdedRotation` the rotation that is settled first lands at `0x580`. -/
theorem not_observationAndBootAct : ¬ Obligations.ObservationAndBootAct := by
  unfold Obligations.ObservationAndBootAct
  intro h
  obtain ⟨clears, -⟩ := h crowdedRotation crowdedRotation_canonical
  obtain ⟨u, step, -, frame, -⟩ := clears 0 0 (by decide) (by decide)
  rw [exec_obsCounterClear] at step
  obtain rfl : crowdedRotation.clearCore 0 0 = u := by injection step
  have kept := frame (0xF10_0000_0000 + 0x580) (Or.inr (by decide))
  rw [clearCore_crowdedRotation_behindBins, crowdedRotation_behindBins] at kept
  exact absurd kept (by decide)

end Sys2Proof.Machine
end


section
/-! PROOFS. What moving the focus, counting turns and tracing change: the focus moves only the agents, and the rest is of the package
alone. -/

namespace Sys2Proof.Machine

/-- Only the package differs, and of it neither the cycle nor the gated dies: what counters, traces and accounts of turns change. -/
def CountsOnly (s t : State) : Prop := ∃ p : Pkg, t = { s with pkg := p } ∧ p.cycle = s.pkg.cycle ∧ p.gated = s.pkg.gated

namespace CountsOnly

theorem refl (s : State) : CountsOnly s s := ⟨s.pkg, rfl, rfl, rfl⟩

variable {s t u : State}

theorem trans (h : CountsOnly s t) (k : CountsOnly t u) : CountsOnly s u := by
  obtain ⟨p, rfl, hc, hg⟩ := h
  obtain ⟨q, rfl, kc, kg⟩ := k
  exact ⟨q, rfl, kc.trans hc, kg.trans hg⟩

theorem ag (h : CountsOnly s t) : t.ag = s.ag := by
  obtain ⟨_, rfl, -, -⟩ := h
  rfl

theorem agId (h : CountsOnly s t) : t.agId = s.agId := by
  obtain ⟨_, rfl, -, -⟩ := h
  rfl

theorem job (h : CountsOnly s t) : t.job = s.job := by
  obtain ⟨_, rfl, -, -⟩ := h
  rfl

theorem cycle (h : CountsOnly s t) : t.pkg.cycle = s.pkg.cycle := by
  obtain ⟨_, rfl, hc, -⟩ := h
  exact hc

theorem sameMemory (h : CountsOnly s t) : SameMemory s t := by
  obtain ⟨_, rfl, -, -⟩ := h
  exact sameMemory_refl s

/-- A change of the package through registers of device blocks alone. -/
theorem of_setReg (s : State) (pa : Nat) (v : Word) : CountsOnly s { s with pkg := s.pkg.setReg pa v } := ⟨_, rfl, rfl, rfl⟩

end CountsOnly

theorem countTurns_countsOnly (s : State) (cls n : Nat) : CountsOnly s (s.countTurns cls n) := by
  unfold State.countTurns
  split
  · exact .refl s
  · exact .of_setReg s _ _

theorem setAccounted_countsOnly (s : State) (a n : Nat) : CountsOnly s (s.setAccounted a n) := ⟨_, rfl, rfl, rfl⟩

theorem loseTurns_countsOnly (s : State) (cls lo hi : Nat) : CountsOnly s (s.loseTurns cls lo hi) := countTurns_countsOnly s _ _

theorem account_countsOnly (s : State) (now : Nat) : CountsOnly s (s.account now) := by
  unfold State.account
  extract_lets lo mid cls early
  split
  · exact .refl s
  · exact ((loseTurns_countsOnly s _ _ _).trans (loseTurns_countsOnly _ _ _ _)).trans (setAccounted_countsOnly _ _ _)

theorem trace_countsOnly (s : State) (ty cause : Nat) (pc data : Word) : CountsOnly s (s.trace ty cause pc data) := by
  unfold State.trace
  split
  · exact .refl s
  extract_lets ctl n b r c
  split
  · exact .refl s
  · exact ⟨_, rfl, rfl, rfl⟩

theorem showStops_countsOnly (s : State) : CountsOnly s s.showStops := .of_setReg s _ _

theorem showSince_countsOnly (t s : State) : CountsOnly t (t.showSince s) := by
  unfold State.showSince
  split
  · exact .refl t
  · exact showStops_countsOnly t

theorem bin_counts (p : Pkg) (block k n : Nat) : (p.bin block k n).cycle = p.cycle ∧ (p.bin block k n).gated = p.gated := by
  unfold Pkg.bin
  split <;> exact ⟨rfl, rfl⟩

theorem rollRotations_counts (p : Pkg) (block die now : Nat) :
    (p.rollRotations block die now).cycle = p.cycle ∧ (p.rollRotations block die now).gated = p.gated := by
  unfold Pkg.rollRotations
  split
  extract_lets ended q
  have counts : q.cycle = p.cycle ∧ q.gated = p.gated := by
    unfold q
    split
    · exact ⟨rfl, rfl⟩
    · simp only [bin_counts, and_self]
  split
  · exact ⟨rfl, rfl⟩
  · exact counts

theorem countRotation_countsOnly (s : State) (now : Nat) : CountsOnly s (s.countRotation now) := by
  obtain ⟨cycle, gated⟩ := rollRotations_counts s.pkg s.coreBlock (s.job.pdie (vdieOf s.agId)) now
  unfold State.countRotation
  extract_lets p
  split
  · exact ⟨_, rfl, cycle, gated⟩
  · exact ⟨_, rfl, cycle, gated⟩

/-- A trace record leaves the device registers as they were. -/
theorem trace_dev (s : State) (ty cause : Nat) (pc data : Word) : (s.trace ty cause pc data).pkg.dev = s.pkg.dev := by
  unfold State.trace
  split
  · rfl
  extract_lets ctl n b r c
  split <;> rfl

theorem trace_onlyMemory (s : State) (ty cause : Nat) (pc data : Word) : OnlyMemory s (s.trace ty cause pc data) where
  ag := (trace_countsOnly s ty cause pc data).ag
  job := ⟨_, _, (trace_countsOnly s ty cause pc data).job⟩
  wf m := by
    obtain ⟨_, e, -, -⟩ := trace_countsOnly s ty cause pc data
    rw [e]
    exact m
  sillage h := by rw [Pkg.reg, trace_dev, Pkg.reg]

/-- Moving the focus puts the agents elsewhere, and nothing else. -/
theorem focus_eq (s : State) (a : Nat) :
    ∃ l, s.focus a = { s with ag := s.agent a, agId := a, job := { s.job with agents := l } } := by
  unfold State.focus
  split
  · next h =>
    subst h
    exact ⟨s.job.agents, by rw [State.agent, if_pos rfl]⟩
  · exact ⟨_, rfl⟩

/-- The state on which a step about an agent acts: its agent in focus, and turns counted. -/
theorem served_eq (s : State) (a : Nat) : ∃ l p,
    s.served a = { s with ag := s.agent a, agId := a, job := { s.job with agents := l }, pkg := p } ∧
      p.cycle = s.pkg.cycle ∧ p.gated = s.pkg.gated := by
  obtain ⟨l, e⟩ := focus_eq s a
  obtain ⟨p, f, cycle, gated⟩ := account_countsOnly (s.focus a) s.pkg.cycle
  refine ⟨l, p, ?_, cycle.trans (by rw [e]), gated.trans (by rw [e])⟩
  rw [State.served, f, e]

@[simp] theorem focus_ag (s : State) (a : Nat) : (s.focus a).ag = s.agent a := by
  obtain ⟨_, e⟩ := focus_eq s a
  rw [e]

@[simp] theorem focus_agId (s : State) (a : Nat) : (s.focus a).agId = a := by
  obtain ⟨_, e⟩ := focus_eq s a
  rw [e]

@[simp] theorem focus_pkg (s : State) (a : Nat) : (s.focus a).pkg = s.pkg := by
  obtain ⟨_, e⟩ := focus_eq s a
  rw [e]

theorem focus_live (s : State) (a : Nat) : (s.focus a).live = s.live := by
  obtain ⟨_, e⟩ := focus_eq s a
  rw [e]
  rfl

end Sys2Proof.Machine
end

section
/-! PROOFS. An access that the hardware makes of the job's memory leaves the focus where it is, and several dwords stored at a quiet home
read back. -/

namespace Sys2Proof.Machine

theorem watchWrite_agId (s : State) (a : Nat) : (s.watchWrite a).agId = s.agId := by
  unfold State.watchWrite
  split <;> rfl

theorem logDirty_agId (s : State) (a : Nat) (home : Option Nat) : (s.logDirty a home).agId = s.agId := by
  unfold State.logDirty
  split
  · rfl
  extract_lets epoch
  split
  · rfl
  extract_lets dw bit
  have hbit : bit.agId = s.agId := by
    unfold bit
    split
    · rfl
    · exact watchWrite_agId _ dw
  split
  · exact hbit
  split
  · rfl
  · exact hbit

theorem recordSillage_agId (s : State) (w : Writer) (a mask : Nat) (home : Option Nat) : (s.recordSillage w a mask home).agId = s.agId := by
  unfold State.recordSillage
  split
  · rfl
  · dsimp only
    split <;> rfl

theorem replay_agId (s : State) (w : Writer) (a mask : Nat) (home : Option Nat) : ((s.replay w a mask home).getD s).agId = s.agId := by
  unfold State.replay
  split
  · rfl
  · dsimp only
    split
    · split
      · rfl
      · split <;> rfl
    · rfl

theorem store_agId (s : State) (w : Writer) (a n v : Nat) (home : Option Nat) : (s.store w a n v home).agId = s.agId := by
  unfold State.store State.written
  rw [watchWrite_agId, recordSillage_agId, logDirty_agId, replay_agId]
  split <;> rfl

theorem entryFor_agId {s : State} {f : Form} {va : Word} {e : Entry} (h : s.entryFor f va = .ok e) : e.s.agId = s.agId := by
  unfold State.entryFor at h
  split at h
  · obtain rfl := Except.ok.inj h
    rfl
  unfold State.walk at h
  extract_lets need at h
  split at h
  · cases h
  split at h
  · cases h
  · cases h
  extract_lets d1 at h
  iterate 4
    split at h
    · cases h
  obtain rfl := Except.ok.inj h
  rfl

theorem walked_agId (s : State) (wrote : Option Nat) : (s.walked wrote).agId = s.agId := by
  cases wrote with
  | none => rfl
  | some a => exact (watchWrite_agId _ a).trans (logDirty_agId s a none)

theorem check_agId {s t : State} {p : Priv} {f : Form} {va : Word} {n : Nat} {l : Loc} (h : s.check p f va n = .ok (t, l)) :
    t.agId = s.agId := by
  unfold State.check at h
  split_ifs at h
  · split at h
    · cases h
    · obtain ⟨rfl, -⟩ := Prod.mk.inj (Except.ok.inj h)
      rfl
  · split at h
    · cases h
    · next e he =>
      split at h
      · cases h
      · obtain ⟨rfl, -⟩ := Prod.mk.inj (Except.ok.inj h)
        exact (walked_agId e.s e.wrote).trans (entryFor_agId he)

/-- A hardware access at a privilege leaves memory alone but for what its walk writes, and the focus. -/
theorem cellAs_keeps {s t : State} {p : Priv} {write : Bool} {va : Word} {n a : Nat} {home : Option Nat}
    (h : s.cellAs p write va n = .ok (t, a, home)) : OnlyMemory s t ∧ t.agId = s.agId := by
  unfold State.cellAs at h
  split at h
  · cases h
  · next hc =>
    obtain ⟨rfl, -⟩ := Prod.mk.inj (Except.ok.inj h)
    exact ⟨check_onlyMemory hc, check_agId hc⟩
  · cases h

theorem hwCell_agId {s t : State} {write : Bool} {va : Word} {n a : Nat} {home : Option Nat}
    (h : s.hwCell write va n = .ok (t, a, home)) : t.agId = s.agId := (cellAs_keeps h).2

theorem freePoolEntry_keeps {s u : State} {pool entry : Word} {n i cell : Nat} {home : Option Nat}
    (h : s.freePoolEntry pool n i = some (entry, cell, home, u)) : OnlyMemory s u ∧ u.agId = s.agId := by
  induction n generalizing i with
  | zero => cases h
  | succ n ih =>
    unfold State.freePoolEntry at h
    dsimp only at h
    split at h
    · split at h
      · next hc =>
        obtain ⟨-, -, -, rfl⟩ := by simpa using h
        exact cellAs_keeps hc
      · exact ih h
    · exact ih h

theorem putWords_keeps (w : Writer) (home : Option Nat) (a : Nat) (ws : List Word) (s : State) :
    OnlyMemory s (State.putWords w home a ws s) ∧ (State.putWords w home a ws s).agId = s.agId := by
  induction ws generalizing a s with
  | nil => exact ⟨.refl s, rfl⟩
  | cons x ws ih =>
    obtain ⟨mem, agId⟩ := ih (a + 8) (s.store w a 8 x.toNat home)
    exact ⟨(store_onlyMemory s w a 8 _ home).trans mem, agId.trans (store_agId s w a 8 _ home)⟩

/-- The bytes of `n` bytes written from a cell up, and of every other cell. -/
theorem read_writeNat (a n v b : Nat) {m : List Host.Cell} (w : Memory.wf m = true) :
    Memory.read (Memory.writeNat a n v m) b =
      if a ≤ b ∧ b < a + n then BitVec.ofNat 8 (v / 256 ^ (b - a)) else Memory.read m b := by
  unfold Memory.writeNat
  induction n generalizing a v m with
  | zero =>
    rw [if_neg (by omega)]
    rfl
  | succ n ih =>
    rw [bytesOfNat, Memory.writeBytes, ih (a + 1) (v / 256) (Memory.wf_write _ _ w), Memory.read_write w]
    by_cases below : b = a
    · subst below
      rw [if_neg (by omega), if_pos rfl, if_pos (by omega), Nat.sub_self, pow_zero, Nat.div_one]
    · by_cases inside : a + 1 ≤ b ∧ b < a + 1 + n
      · rw [if_pos inside, if_pos (by omega), Nat.div_div_eq_div_mul, ← pow_succ',
          show b - (a + 1) + 1 = b - a by omega]
      · rw [if_neg inside, if_neg below, if_neg (by omega)]

/-- A dword that shares no byte with those written reads as before. -/
theorem readWord_writeNat_other {a b n v : Nat} {m : List Host.Cell} (w : Memory.wf m = true) (apart : b + 8 ≤ a ∨ a + n ≤ b) :
    Memory.readWord (Memory.writeNat a n v m) b = Memory.readWord m b := by
  have bytes (k c : Nat) (h : c + k ≤ a ∨ a + n ≤ c) : Memory.readBytes (Memory.writeNat a n v m) c k = Memory.readBytes m c k := by
    induction k generalizing c with
    | zero => rfl
    | succ k ih => rw [Memory.readBytes, Memory.readBytes, read_writeNat a n v c w, if_neg (by omega), ih (c + 1) (by omega)]
  rw [Memory.readWord, Memory.readNat, bytes 8 b apart, Memory.readWord, Memory.readNat]

/-- What several dwords written at a quiet home leave of the dwords below them. -/
theorem readWord_putWords_below (w : Writer) {home : Option Nat} {a b : Nat} (ws : List Word) {s : State} (m : Memory.wf s.mem = true)
    (q : QuietHome s home) (below : b + 8 ≤ a) : (State.putWords w home a ws s).readWord b = s.readWord b := by
  induction ws generalizing a s with
  | nil => rfl
  | cons x ws ih =>
    have one := store_onlyMemory s w a 8 x.toNat home
    rw [State.putWords, ih (one.wf m) (one.quietHome q) (by omega), State.readWord, store_mem_quiet q,
      readWord_writeNat_other m (.inl below), State.readWord]

/-- Dwords written at a quiet home read back. -/
theorem readWord_putWords (w : Writer) {home : Option Nat} {a i : Nat} {ws : List Word} {s : State} (m : Memory.wf s.mem = true)
    (q : QuietHome s home) (h : i < ws.length) : (State.putWords w home a ws s).readWord (a + 8 * i) = ws.getD i 0#64 := by
  induction ws generalizing a i s with
  | nil => exact absurd h (Nat.not_lt_zero i)
  | cons x ws ih =>
    have one := store_onlyMemory s w a 8 x.toNat home
    rw [State.putWords]
    cases i with
    | zero =>
      rw [readWord_putWords_below w ws (one.wf m) (one.quietHome q) (by omega), Nat.mul_zero, Nat.add_zero, readWord_store_quiet m q,
        BitVec.ofNat_toNat, BitVec.setWidth_eq, List.getD_cons_zero]
    | succ i =>
      rw [show a + 8 * (i + 1) = a + 8 + 8 * i by omega, ih (one.wf m) (one.quietHome q) (by simpa using h), List.getD_cons_succ]

end Sys2Proof.Machine
end


section
/-! PROOFS. Runs and their nodes in the job's table, what an instruction that waits for streaming accesses does at its turn (R162), and
O45. -/

namespace Sys2Proof.Machine

section Updates
variable {α : Type} {f : α → α}

theorem getElem?_updateAt_self (f : α → α) (n : Nat) (l : List α) : (updateAt f n l)[n]? = l[n]?.map f := by
  induction l generalizing n with
  | nil => simp [updateAt]
  | cons x l ih =>
    cases n with
    | zero => rfl
    | succ n => exact ih n

theorem getElem?_updateAt_other {k n : Nat} (h : k ≠ n) (l : List α) : (updateAt f n l)[k]? = l[k]? := by
  induction l generalizing k n with
  | nil => simp [updateAt]
  | cons x l ih =>
    cases n with
    | zero =>
      obtain ⟨j, rfl⟩ := Nat.exists_eq_succ_of_ne_zero h
      rfl
    | succ n =>
      cases k with
      | zero => rfl
      | succ k => exact ih (by omega)

@[simp] theorem length_updateAt (f : α → α) (n : Nat) (l : List α) : (updateAt f n l).length = l.length := by
  induction l generalizing n with
  | nil => simp [updateAt]
  | cons x l ih =>
    cases n with
    | zero => rfl
    | succ n => simp [updateAt, ih]

end Updates

/-- A run found after a change of the runs of its number that keeps the number. -/
theorem run?_onRun {f : Run → Run} (keeps : ∀ r, (f r).id = r.id) (s : State) (id : Nat) :
    (s.onRun id f).job.run? id = (s.job.run? id).map f := by
  show (s.job.runs.map (fun r => if r.id = id then f r else r)).find? (fun r => r.id == id) = (s.job.runs.find? _).map f
  induction s.job.runs with
  | nil => rfl
  | cons r rs ih =>
    by_cases h : r.id = id
    · simp [h, keeps]
    · simp [h, ih]

theorem run?_onNode (s : State) (run node : Nat) (f : RunNode → RunNode) : (s.onNode run node f).job.run? run =
    (s.job.run? run).map (fun r => { r with nodes := updateAt f node r.nodes }) :=
  run?_onRun (f := fun r => { r with nodes := updateAt f node r.nodes }) (fun _ => rfl) s run

theorem node?_onNode (s : State) (run node : Nat) (f : RunNode → RunNode) :
    (s.onNode run node f).job.node? run node = (s.job.node? run node).map f := by
  rw [Job.node?, run?_onNode, Job.node?]
  cases s.job.run? run with
  | none => rfl
  | some r => exact getElem?_updateAt_self f node r.nodes

theorem node?_onNode_other (s : State) (run : Nat) {k node : Nat} (h : k ≠ node) (f : RunNode → RunNode) :
    (s.onNode run node f).job.node? run k = s.job.node? run k := by
  rw [Job.node?, run?_onNode, Job.node?]
  cases s.job.run? run with
  | none => rfl
  | some r => exact getElem?_updateAt_other h r.nodes

section Drained
variable {s : State}

/-- Nothing is reported where no streaming access has failed. -/
theorem report_none (ok : ∀ x ∈ s.ag.nb, x.failed = none) (p : Streaming → Bool) : s.report p = none := by
  have none : s.ag.nb.find? (fun x => x.failed.isSome && p x) = none := by
    rw [List.find?_eq_none]
    intro x hx
    simp [ok x hx]
  rw [State.report, State.failedStreaming, none]
  rfl

/-- With no streaming access counted the instruction does what it is to do. -/
theorem drained_done (none : s.ag.nb = []) (w : Wait) (done : State → State) : s.drained w done = done (s.setWait .ready) := by
  rw [State.drained, report_none (by simp [none]), none]
  rfl

/-- It waits while one is outstanding. -/
theorem drained_waits (some : s.ag.nb ≠ []) (ok : ∀ x ∈ s.ag.nb, x.failed = none) (w : Wait) (done : State → State) :
    s.drained w done = s.setWait w := by
  rw [State.drained, report_none ok]
  exact if_neg some

end Drained

theorem exec_sys (n : BitVec 12) (s : State) : exec (.sys n) s = execSys n s := rfl
theorem exec_brk (n : BitVec 12) (s : State) : exec (.brk n) s = execBrk n s := rfl

/-- A master is in no slot (R15). -/
theorem inSlot_master {s : State} (h : s.ag.role = .master) : s.inSlot = false := by simp [State.inSlot, h]
theorem inSlot_slot {s : State} (h : s.ag.role ≠ .master) : s.inSlot = true := by simp [State.inSlot, h]

/-- A node's master leaves it vacant, and the node has exited (R13, R155). -/
theorem exitNode_user {s : State} (user : s.ag.priv = .user) : let t := s.exitNode
    t.ag.occupied = false ∧ SameMemory s t ∧
      t.job.node? s.ag.run s.ag.node = (s.job.node? s.ag.run s.ag.node).map (fun x => { x with st := .exited s.agId }) := by
  have leaves : s.exitNode = (s.onNode s.ag.run s.ag.node (fun n => { n with st := .exited s.agId })).vacate :=
    if_neg (by rw [user]; decide)
  rw [leaves]
  exact ⟨rfl, sameMemory_refl s, node?_onNode s _ _ _⟩

/-- Settles O45: a call and a breakpoint are the raising of their cause one instruction further on; the exit of a node drains, then
leaves the master. -/
theorem systemCallsAndBreakpoints : Obligations.SystemCallsAndBreakpoints := by
  intro n s past
  refine ⟨fun call => ?_, rfl, fun slot => ?_, fun master busy => ?_, fun master free none user => ?_⟩
  · simp only [exec_sys, execSys, call, if_false]
    rfl
  · simp only [Takes, exec_sys, execSys, inSlot_slot slot, if_true]
    rfl
  · simp only [Takes, exec_sys, execSys, inSlot_master master, busy, if_true, if_false, ne_eq, not_false_eq_true, Bool.false_eq_true]
    rfl
  · refine ⟨(s.setWait .ready).exitNode, ?_, exitNode_user user⟩
    simp only [exec_sys, execSys, inSlot_master master, free, drained_done none, if_true, if_false, ne_eq, not_true_eq_false,
      Bool.false_eq_true]

end Sys2Proof.Machine
end


section
/-! PROOFS. The turn of an agent (O57): the fetch of its instruction, what an issue changes, and the step that takes it. -/

namespace Sys2Proof.Machine

/-- Bytes read as a number, and as the sum that says so (R8). -/
theorem readNat_eq_bytesAt (s : State) (a n : Nat) : s.readNat a n = bytesAt s a n := by
  unfold State.readNat bytesAt Memory.readNat
  induction n generalizing a with
  | zero => rfl
  | succ n ih =>
    rw [Memory.readBytes, natOfBytes, ih (a + 1), Finset.sum_range_succ', pow_zero, Nat.mul_one, Nat.add_comm, Finset.mul_sum]
    congr 1
    refine Finset.sum_congr rfl (fun i _ => ?_)
    rw [show a + (i + 1) = a + 1 + i by omega, pow_succ]
    ring

section Fetch
variable {s t u : State} {va : Word} {x y : Nat}

theorem fetchParcel_fetches (h : Fetches s va u x) : s.fetchParcel va = .parcel u x := by
  obtain ⟨a, home, checked, awake, clean, rfl⟩ := h
  simp only [State.fetchParcel, checked, awake, clean, Bool.false_eq_true, if_false, readNat_eq_bytesAt]

/-- A parcel has sixteen bits. -/
theorem fetches_lt (h : Fetches s va u x) : x < 2 ^ 16 := by
  obtain ⟨a, home, -, -, -, rfl⟩ := h
  have b0 := (u.readByte a).isLt
  have b1 := (u.readByte (a + 1)).isLt
  simp only [bytesAt, Finset.sum_range_succ, Finset.sum_range_zero, Nat.add_zero, pow_zero, pow_one]
  omega

theorem fetchParcel_error {c : Trap} (h : s.check s.ag.priv .fetch va 2 = .error c) :
    s.fetchParcel va = .trap (s.afterDenied s.ag.priv .fetch va) c := by
  simp only [State.fetchParcel, h]

theorem fetchParcel_asleep {a : Nat} {home : Option Nat} (h : s.check s.ag.priv .fetch va 2 = .ok (u, .cell a home))
    (asleep : u.asleep (.cell a home) = true) : s.fetchParcel va = .asleep := by
  simp only [State.fetchParcel, h, asleep, if_true]

theorem fetch_short (h : Fetches s s.pc u x) (even : x % 2 = 0) : s.fetch = .parcel u x := by
  have first : s.fetchParcel s.ag.pc = .parcel u x := fetchParcel_fetches h
  simp only [State.fetch, first, even, if_true]

theorem fetch_long (h : Fetches s s.pc t x) (odd : x % 2 = 1) (k : Fetches t (s.pc + 2#64) u y) :
    s.fetch = .parcel u (x + y * 2 ^ 16) := by
  have first : s.fetchParcel s.ag.pc = .parcel t x := fetchParcel_fetches h
  have second : t.fetchParcel (s.ag.pc + 2#64) = .parcel u y := fetchParcel_fetches k
  simp only [State.fetch, first, second, odd, one_ne_zero, if_false]

/-- A second parcel that gives none stops the fetch as the first does. -/
theorem fetch_second (h : Fetches s s.pc t x) (odd : x % 2 = 1) {r : Fetched} (second : t.fetchParcel (s.pc + 2#64) = r)
    (stops : ∀ u y, r ≠ .parcel u y) : s.fetch = r := by
  have first : s.fetchParcel s.ag.pc = .parcel t x := fetchParcel_fetches h
  simp only [State.pc] at second
  simp only [State.fetch, first, odd, one_ne_zero, if_false, second]

theorem fetch_first {r : Fetched} (first : s.fetchParcel s.pc = r) (stops : ∀ u y, r ≠ .parcel u y) : s.fetch = r := by
  simp only [State.pc] at first
  simp only [State.fetch, first]

end Fetch

/-- The row of one parcel, and of two (R122, R129). -/
theorem rowOf_short {x : Nat} (h : x < 2 ^ 16) :
    rowOf x = match decodeParcels x 0 with | .ok i => i | .error c => .illegalEncoding c := by
  rw [rowOf, Nat.mod_eq_of_lt h, Nat.div_eq_of_lt h] <;> rfl
theorem rowOf_long {x y : Nat} (h : x < 2 ^ 16) :
    rowOf (x + y * 2 ^ 16) = match decodeParcels x y with | .ok i => i | .error c => .illegalEncoding c := by
  rw [rowOf, Nat.add_mul_mod_self_right, Nat.mod_eq_of_lt h, Nat.add_mul_div_right _ _ (by decide), Nat.div_eq_of_lt h, Nat.zero_add] <;> rfl

section Settle
variable {s : State} {p : Streaming → Bool}

theorem firstStreaming_none (h : ∀ x ∈ s.ag.nb, p x = false) : s.firstStreaming p = none := by
  rw [State.firstStreaming, List.findIdx?_eq_none_iff]
  intro x hx
  rw [h x hx, Bool.and_false]

/-- Where a test picks no streaming access, none performs. -/
theorem settle_none (h : ∀ x ∈ s.ag.nb, p x = false) (n : Nat) : State.settle p n s = s := by
  cases n with
  | zero => rfl
  | succ n => simp only [State.settle, firstStreaming_none h]

theorem failedStreaming_none (h : ∀ x ∈ s.ag.nb, p x = false) : s.failedStreaming p = none := by
  have none : s.ag.nb.find? (fun x => x.failed.isSome && p x) = none := by
    rw [List.find?_eq_none]
    intro x hx
    simp [h x hx]
  rw [State.failedStreaming, none]
  rfl

end Settle

section Turn
variable {s u : State}

theorem prepare_go {w : Nat} {i : Instr} (fetched : s.atTurn.fetch = .parcel u w) (row : rowOf w = i)
    (free : u.refusedFirst i = true ∨ ∀ x ∈ u.ag.nb, x.owes (regsOf i) = false) : s.prepare = .go i u := by
  subst row
  have owes : ∀ x ∈ u.ag.nb, x.owes (if u.refusedFirst (rowOf w) then [] else regsOf (rowOf w)) = false := by
    intro x hx
    split
    · simp [Streaming.owes]
    · next no => exact (free.resolve_left no) x hx
  simp only [State.prepare, fetched, settle_none owes, firstStreaming_none owes, failedStreaming_none owes, Option.isSome_none,
    Bool.false_eq_true, if_false]

theorem prepare_trap {c : Trap} (fetched : s.atTurn.fetch = .trap u c) : s.prepare = .stop (u.issued.raise c) := by
  simp only [State.prepare, fetched]

theorem prepare_asleep (fetched : s.atTurn.fetch = .asleep) :
    s.prepare = .stop ((s.atTurn.callDie (s.job.pdie (s.pc.toNat / 2 ^ 25 % 2 ^ 4))).loseTurn 1) := by
  simp only [State.prepare, fetched]
  rfl

theorem step_offered (offered : s.offered = true) (may : s.canIssue = true) : step s = s.takeTurn := by
  simp only [step, State.move, offered, may, if_true]

theorem takeTurn_stop (h : s.prepare = .stop u) : s.takeTurn = .next u := by simp only [State.takeTurn, h]

/-- An instruction that issues is executed on the state of its issue. -/
theorem takeTurn_issues {i : Instr} {v : State} (h : s.prepare = .go i u) (run : exec i (u.issues i) = .next v)
    (kept : v.gaveUp = none) : s.takeTurn = .next v.dropDrain := by
  simp only [State.takeTurn, h, run, kept, Option.isSome_none, Bool.false_eq_true, if_false]

/-- One that gives its turn up is executed on the state of its fetch, and the turn is lost. -/
theorem takeTurn_givesUp {i : Instr} {v w : State} (h : s.prepare = .go i u) (run : exec i (u.issues i) = .next v)
    (gave : v.gaveUp ≠ none) (again : exec i u = .next w) : s.takeTurn = .next (w.loseTurn (w.gaveUp.getD 1)) := by
  simp only [State.takeTurn, h, run, Option.isSome_iff_ne_none.mpr gave, again, if_true]

end Turn

theorem traceIssue_countsOnly (s : State) (i : Instr) : CountsOnly s (s.traceIssue i) := by
  unfold State.traceIssue
  extract_lets t u
  have first : CountsOnly s t := trace_countsOnly s _ _ _ _
  have second : CountsOnly s u := by
    unfold u
    split
    · exact first.trans (trace_countsOnly _ _ _ _ _)
    · exact first
  split
  · exact second.trans (trace_countsOnly _ _ _ _ _)
  · exact second

/-- An issue notes that the agent began anew, that waiters of owed causes acted, and counts (R34, R362). -/
theorem issued_eq (s : State) : ∃ stopped owing p, s.issued =
    { s with ag := { s.ag with aborted := none, forfeits := 0, dbgStopped := stopped }, job := { s.job with owing := owing }, pkg := p } ∧
      p.cycle = s.pkg.cycle := by
  unfold State.issued
  extract_lets t v u
  have counted : CountsOnly s t := by
    unfold t
    split
    · exact .refl s
    split
    · exact countTurns_countsOnly s _ _
    · exact (countTurns_countsOnly s _ _).trans (countRotation_countsOnly _ _)
  obtain ⟨p, e, cycle, -⟩ := counted
  clear_value t
  subst e
  split
  · exact ⟨_, _, _, rfl, cycle⟩
  · exact ⟨_, _, _, rfl, cycle⟩

theorem issues_eq (s : State) (i : Instr) : ∃ stopped owing p, s.issues i =
    { s with ag := { s.ag with aborted := none, forfeits := 0, dbgStopped := stopped }, job := { s.job with owing := owing }, pkg := p } ∧
      p.cycle = s.pkg.cycle := by
  obtain ⟨d, o, p, e, cycle⟩ := issued_eq s
  obtain ⟨q, f, cycle', -⟩ := traceIssue_countsOnly s.issued i
  unfold State.issues
  split
  · exact ⟨d, o, p, e, cycle⟩
  · exact ⟨d, o, q, by rw [f, e], by rw [cycle', e, cycle]⟩

/-- Where a row stands next in the schedule and nothing timed comes before it, the step does the row (log entry 6). -/
theorem step_row {s : State} {p : Pending} {rest : List Pending} {i : Instr} (free : s.offered = false) (next : s.agenda = p :: rest)
    (first : ∀ x, ({ s with share := none } : State).must = some x → p.at_ ≤ x.1) (row : p.move = .row i) :
    step s = ((({ s with share := none, agenda := rest } : State).atCycle p.at_).focusJob p.job).make (.row i) := by
  have scheduled : step s = ({ s with share := none } : State).scheduled p rest := by
    simp only [step, State.move, free, next, Bool.false_eq_true, if_false]
  rw [scheduled, ← row]
  unfold State.scheduled
  split
  · next c f timed => exact if_neg (Nat.not_lt.mpr (first _ timed))
  · rfl

/-- Settles O57: the fetch of one parcel or two gives the row that the parcels decode to, the turn executes it on the state of its issue
or on that of its fetch, and an issue changes nothing that an instruction reads. -/
theorem aStepRunsTheDecodedInstruction : Obligations.AStepRunsTheDecodedInstruction := by
  intro s s0 runs ran refused
  refine ⟨fun offered may => ?_, fun offered may => ?_, fun i => ?_, fun p rest => ?_⟩
  · have stops {u : State} (h : s.prepare = .stop u) : step s = .next u := (step_offered offered may).trans (takeTurn_stop h)
    have goes {u : State} {w : Nat} {i : Instr} (fetched : s.atTurn.fetch = .parcel u w) (row : rowOf w = i) : runs u i := by
      intro owed
      have go := prepare_go fetched row owed
      rw [step_offered offered may]
      exact ⟨fun v run kept => takeTurn_issues go run kept, fun v v' run gave again => takeTurn_givesUp go run gave again⟩
    have decoded {u : State} {w : Nat} {d : Decoded} (fetched : s.atTurn.fetch = .parcel u w)
        (row : rowOf w = match d with | .ok i => i | .error c => .illegalEncoding c) : ran u d := by
      cases d with
      | ok i => exact goes fetched row
      | error c => exact goes fetched row
    have pc : s0.pc = s.pc := by
      show (s.account s.pkg.cycle).ag.pc = s.ag.pc
      rw [(account_countsOnly s _).ag]
    rw [← pc]
    refine ⟨fun u x h even => decoded (fetch_short h even) (rowOf_short (fetches_lt h)), fun t x h odd => ⟨fun u y k =>
      decoded (fetch_long h odd k) (rowOf_long (fetches_lt h)), fun c e => ?_, fun u a home e asleep => ?_⟩, fun c e => ?_,
      fun u a home e asleep => ?_⟩
    · exact stops (prepare_trap (fetch_second h odd (fetchParcel_error e) (by simp)))
    · exact stops (prepare_asleep (fetch_second h odd (fetchParcel_asleep e asleep) (by simp)))
    · exact stops (prepare_trap (fetch_first (fetchParcel_error e) (by simp)))
    · exact stops (prepare_asleep (fetch_first (fetchParcel_asleep e asleep) (by simp)))
  · simp only [step, State.move, offered, may, if_true, Bool.false_eq_true, if_false]
  · intro v
    obtain ⟨stopped, owing, p, e, cycle⟩ := issues_eq s i
    rw [show v = _ from e]
    exact ⟨fun _ => rfl, rfl, rfl, rfl, rfl, rfl, rfl, cycle, rfl, fun _ => rfl⟩
  · intro t free next first i row
    rw [step_row free next first row]
    exact ⟨fun ok => if_pos ok, fun bad => if_neg (by rw [bad]; decide)⟩

end Sys2Proof.Machine
end


section
/-! PROOFS. Spawns (O36, O37): the operand table of R16, the state a spawn takes over, what `join` finds, and a child record's place in
the basin. -/

namespace Sys2Proof.Machine

theorem exec_spawn (t a b : Reg) (s : State) : exec (.spawn t a b) s = execSpawn t a b s := rfl
theorem exec_spawnn (t a b : Reg) (s : State) : exec (.spawnn t a b) s = execSpawnn t a b s := rfl
theorem exec_join (s : State) : exec .join s = execJoin s := rfl

theorem getLsbD_zero_iff (x : Word) : x.getLsbD 0 = true ↔ x.toNat % 2 = 1 := by
  rw [← BitVec.testBit_toNat, Nat.testBit_zero, decide_eq_true_eq]

/-! The rows of R16's table. -/

section Range
variable {lo hi target : Word}

theorem rangeCheck_odd (odd : target.getLsbD 0 = true) : rangeCheck lo hi target = .trap 0x0B#8 :=
  if_pos ((getLsbD_zero_iff target).mp odd)

theorem rangeCheck_even (even : ¬ target.getLsbD 0 = true) : rangeCheck lo hi target =
    if hi.toNat < lo.toNat then .empty else if 2 ^ 40 < hi.toNat - lo.toNat + 1 then .trap 0x45#8 else .launch :=
  if_neg (fun h => even ((getLsbD_zero_iff target).mpr h))

end Range

/-- The registers a spawn hands on (R18, R30). -/
theorem args_getD (s : State) {i : Nat} (h : i < 23) : s.args.getD i 0#64 = s.g (BitVec.ofNat 5 (i + 1)) := by
  have small : (i + 1) % 2 ^ 5 = i + 1 := Nat.mod_eq_of_lt (by omega)
  have nonzero : BitVec.ofNat 5 (i + 1) ≠ 0#5 := fun e => by
    have := congrArg BitVec.toNat e
    simp only [BitVec.toNat_ofNat, small] at this
    omega
  rw [State.g, if_neg nonzero, State.args, List.getD_eq_getElem?_getD, List.getElem?_take_of_lt h, List.getElem?_drop,
    Vector.getElem?_toList, Vector.getElem?_eq_getElem (by omega), Option.getD_some, Fin.getElem_fin]
  congr 1
  show 1 + i = (i + 1) % 2 ^ 5
  omega

theorem length_args (s : State) : s.args.length = 23 := by simp [State.args]

/-- What `joinst` tells of how a spawn ended (R25, log entry 84). -/
theorem joinstOf_eq (sp : Spawn) : joinstOf sp = match sp.ended with
    | none => if sp.contained then 2#64 else 0#64
    | some .cancelled => 1#64
    | some .contained => 2#64 := by
  unfold joinstOf
  rcases sp.ended with - | - | - <;> rfl

section Join
variable {s : State}

/-- A turn of `join` with no spawn outstanding, with a complete one, and with one that is not. -/
theorem joinTurn_noSpawn (drained : s.ag.nb = []) (none : lookup s.ag.spawnid.toNat s.job.spawns = none) :
    s.joinTurn = ({ s with ag := { s.ag with wait := .ready, joinst := 0#64, psInit := [], spawnid := 0#64 } } : State).advance 4 := by
  rw [State.joinTurn, drained_done drained]
  simp only [setWait_ag_spawnid, setWait_job, none]
  rfl

theorem joinTurn_complete {sp : Spawn} (drained : s.ag.nb = []) (found : lookup s.ag.spawnid.toNat s.job.spawns = some sp)
    (complete : s.job.complete s.ag.spawnid.toNat sp = true) :
    s.joinTurn = ((s.setWait .ready).joined s.ag.spawnid.toNat sp).advance 4 := by
  rw [State.joinTurn, drained_done drained]
  simp only [setWait_ag_spawnid, setWait_job, found, complete, if_true]

theorem joinTurn_waits {sp : Spawn} (drained : s.ag.nb = []) (found : lookup s.ag.spawnid.toNat s.job.spawns = some sp)
    (running : s.job.complete s.ag.spawnid.toNat sp = false) : s.joinTurn = s.setWait .join := by
  rw [State.joinTurn, drained_done drained]
  simp only [setWait_ag_spawnid, setWait_job, found, running, Bool.false_eq_true, if_false]
  rfl

end Join

/-- Settles O36: the rows of R16's table decide what `spawn` does, and the spawn's completion what `join` does. -/
theorem spawnLaunchesAndJoinWaits : Obligations.SpawnLaunchesAndJoinWaits := by
  intro t a b s lo hi odd id launched
  refine ⟨fun slot => ?_, fun master busy => ?_, fun master free => ?_, fun master drained => ⟨fun free none => ?_, fun sp found =>
    ⟨fun complete => ?_, fun running => ?_⟩⟩⟩
  · simp only [Takes, exec_spawn, execSpawn, exec_join, execJoin, inSlot_slot slot, if_true]
    exact ⟨rfl, rfl⟩
  · simp only [Takes, exec_spawn, execSpawn, inSlot_master master, busy, ne_eq, not_false_eq_true, if_true, if_false, Bool.false_eq_true]
    rfl
  · have runs : exec (.spawn t a b) s = .next (match rangeCheck (s.g a) (s.g b) (s.g t) with
        | .trap c => s.raiseCause c
        | .empty => s.advance 4
        | .launch => ((s.addSpawn (s.topSpawn (s.g a) (s.g b) (s.g t))).setSpawnid s.job.nextSpawn).advance 4) := by
      simp only [exec_spawn, execSpawn, inSlot_master master, free, ne_eq, not_true_eq_false, if_false, Bool.false_eq_true] <;> rfl
    split_ifs with isOdd isEmpty tooMany
    · rw [Takes, runs, rangeCheck_odd isOdd]
      rfl
    · refine ⟨s.advance 4, ?_, setPc_jumped s _⟩
      rw [runs, rangeCheck_even isOdd, if_pos isEmpty]
    · rw [Takes, runs, rangeCheck_even isOdd, if_neg isEmpty, if_pos tooMany]
      rfl
    · refine ⟨((s.addSpawn (s.topSpawn (s.g a) (s.g b) (s.g t))).setSpawnid id).advance 4, ?_,
        ⟨_, lookup_assign_self id _ s.job.spawns, ?_⟩, rfl, rfl, rfl, fun _ => rfl, sameMemory_refl s, rfl⟩
      · rw [runs, rangeCheck_even isOdd, if_neg isEmpty, if_neg tooMany]
      · exact ⟨rfl, rfl, rfl, rfl, rfl, rfl, rfl, rfl, rfl, rfl, rfl, rfl, rfl, rfl, length_args s, fun i h => args_getD s h, fun n => by
          simp [State.topSpawn]⟩
  all_goals
    have runs : exec .join s = .next s.joinTurn := by simp [exec_join, execJoin, inSlot_master master]
  · refine ⟨_, runs.trans (congrArg _ (joinTurn_noSpawn drained (by rw [free]; exact none))), rfl, rfl, fun _ => rfl, sameMemory_refl s⟩
  · exact ⟨_, runs.trans (congrArg _ (joinTurn_complete drained found complete)), joinstOf_eq sp, rfl, rfl, rfl, rfl, fun _ => rfl,
      sameMemory_refl s⟩
  · exact ⟨_, runs.trans (congrArg _ (joinTurn_waits drained found running)), rfl, rfl⟩

/-! A child record enters the basin, which may spill one into memory first (R31). -/

@[simp] theorem die_onDie (s : State) (v : Nat) (f : DieState → DieState) :
    (s.onDie v f).job.die v = { f (s.job.die v) with busyAt := s.pkg.cycle } := by
  rw [Job.die, State.onDie, lookup_assign_self, Option.getD_some]

theorem spillRecord_onlyMemory (s : State) : OnlyMemory s s.spillRecord := by
  refine List.foldlRecOn _ _ (motive := OnlyMemory s) (.refl s) (fun t ht i _ => ?_)
  have drawn : OnlyMemory s t.fresh.2 := ht.trans ⟨rfl, ⟨_, _, rfl⟩, id, fun _ => rfl⟩
  dsimp only
  split
  · next hw => exact drawn.trans (hwWrite_onlyMemory hw)
  · exact drawn

/-- The die's basin with a record put at its head. -/
def DieState.push (id : Nat) (d : DieState) : DieState :=
  if d.basin.length < 256 then { d with basin := id :: d.basin }
  else { d with basin := id :: d.basin.dropLast, spilled := d.basin.getLast?.toList ++ d.spilled }

theorem push_head (id : Nat) (d : DieState) : (d.push id).basin.head? = some id := by
  unfold DieState.push
  split <;> rfl

theorem pushBasin_eq (s : State) (die id : Nat) : ∃ t, OnlyMemory s t ∧ s.pushBasin die id = t.onDie die (DieState.push id) := by
  unfold State.pushBasin
  split
  · exact ⟨s, .refl s, rfl⟩
  · exact ⟨_, spillRecord_onlyMemory s, rfl⟩

/-- Settles O37: R16's table decides, then the room in the basin; the record put at its head is the child's. -/
theorem nestedSpawnsEnterTheBasin : Obligations.NestedSpawnsEnterTheBasin := by
  intro t a b s p lo hi id die
  refine ⟨fun master => ?_, fun slot parent => ?_⟩
  · simp only [Takes, exec_spawnn, execSpawnn, inSlot_master master, Bool.not_false, if_true]
    rfl
  have runs : exec (.spawnn t a b) s = .next (match rangeCheck (s.g a) (s.g b) (s.g t) with
      | .trap c => s.raiseCause c
      | .empty => s.advance 4
      | .launch => if s.job.basinRoom die then
          ((s.addSpawn (s.childSpawn (s.g a) (s.g b) (s.g t) p)).pushBasin die id).advance 4
        else s.raiseCause 0x46#8) := by
    simp only [exec_spawnn, execSpawnn, inSlot_slot slot, parent, Bool.not_true, Bool.false_eq_true, if_false]
    cases rangeCheck (s.g a) (s.g b) (s.g t) <;> rfl
  split_ifs with isOdd isEmpty tooMany
  · rw [Takes, runs, rangeCheck_odd isOdd]
    rfl
  · refine ⟨s.advance 4, ?_, setPc_jumped s _⟩
    rw [runs, rangeCheck_even isOdd, if_pos isEmpty]
  · rw [Takes, runs, rangeCheck_even isOdd, if_neg isEmpty, if_pos tooMany]
    rfl
  have launch : exec (.spawnn t a b) s = .next (if s.job.basinRoom die then
      ((s.addSpawn (s.childSpawn (s.g a) (s.g b) (s.g t) p)).pushBasin die id).advance 4 else s.raiseCause 0x46#8) := by
    rw [runs, rangeCheck_even isOdd, if_neg isEmpty, if_neg tooMany]
  refine ⟨fun full => ?_, fun room => ?_⟩
  · rw [Takes, launch, full]
    rfl
  obtain ⟨u, spilled, pushed⟩ := pushBasin_eq (s.addSpawn (s.childSpawn (s.g a) (s.g b) (s.g t) p)) die id
  refine ⟨(u.onDie die (DieState.push id)).advance 4, by rw [launch, if_pos room, pushed], ?_, fun r => g_of_ag spilled.ag r, ?_, ?_, s.childSpawn (s.g a) (s.g b) (s.g t) p, ?_, rfl,
    rfl, rfl, rfl, rfl, rfl, rfl, rfl, rfl, fun i h => args_getD s h⟩
  · show u.ag.pc + 4#64 = s.ag.pc + 4#64
    rw [spilled.ag]
    rfl
  · rw [advance_job, die_onDie]
    exact push_head id _
  · show u.job.nextSpawn = id + 1
    obtain ⟨_, _, e⟩ := spilled.job
    rw [e]
    rfl
  · show lookup id u.job.spawns = _
    rw [spilled.spawns]
    exact lookup_assign_self id _ s.job.spawns

end Sys2Proof.Machine
end


section
/-! PROOFS. Prefix sums (O38): where a request stands among the others, the running sums that the requests of a window get, and what a
master's `psset` and `psget` do. -/

namespace Sys2Proof.Machine

theorem exec_ps (d : Reg) (n : VReg) (s : State) : exec (.ps d n) s = .next (s.prefixSum 4 d n.toNat) := rfl
theorem exec_cPs (d n : BitVec 3) (s : State) : exec (.cPs d n) s = .next (s.prefixSum 2 (creg d) n.toNat) := rfl
theorem exec_psset (n : VReg) (a : Reg) (s : State) : exec (.psset n a) s = execPsset n a s := rfl
theorem exec_psget (d : Reg) (n : VReg) (s : State) : exec (.psget d n) s = execPsget d n s := rfl

/-- The order of requests: by window, within one by global slot index (R28). -/
def PsRequest.before (x y : PsRequest) : Prop := x.window < y.window ∨ (x.window = y.window ∧ x.agent ≤ y.agent)

theorem insertPs_perm (r : PsRequest) (l : List PsRequest) : (insertPs r l).Perm (r :: l) := by
  induction l with
  | nil => exact .refl _
  | cons x l ih =>
    unfold insertPs
    split
    · exact .refl _
    · exact (ih.cons x).trans (.swap r x l)

/-- A request is put in its place. -/
theorem insertPs_pairwise (r : PsRequest) {l : List PsRequest} (sorted : l.Pairwise PsRequest.before) :
    (insertPs r l).Pairwise PsRequest.before := by
  induction l with
  | nil => exact List.pairwise_singleton _ r
  | cons x l ih =>
    obtain ⟨first, rest⟩ := List.pairwise_cons.mp sorted
    unfold insertPs
    simp only [Bool.or_eq_true, Bool.and_eq_true, decide_eq_true_eq]
    split
    · next here =>
      refine List.pairwise_cons.mpr ⟨fun y hy => ?_, sorted⟩
      rcases List.mem_cons.mp hy with rfl | hy
      · unfold PsRequest.before
        omega
      · have := first y hy
        unfold PsRequest.before at *
        omega
    · next later =>
      refine List.pairwise_cons.mpr ⟨fun y hy => ?_, ih rest⟩
      rcases List.mem_cons.mp ((insertPs_perm r l).mem_iff.mp hy) with rfl | hy
      · unfold PsRequest.before
        omega
      · exact first y hy

/-- The value of a ps register before the `k`-th of some requests, in their order (R28). -/
def psBefore (i : Fin 8) (ps : Vector Word 8) (rs : List PsRequest) (k : Nat) : Word :=
  ps[i] + BitVec.ofNat 64 ((rs.take k).map (fun r => r.amount)).sum

/-- Requests of one register that may all take effect give the running sums, and leave the whole sum in the register (R28). -/
theorem applyPs_sums {id bound : Nat} {i : Fin 8} (rs : List PsRequest) (ps : Vector Word 8)
    (due : ∀ r ∈ rs, r.spawn = id ∧ r.value = none ∧ r.lost ≠ some .request ∧ r.window < bound ∧ r.n = i.val) :
    (applyPs id bound rs ps).2 = ps.set i (psBefore i ps rs rs.length) ∧
      ∀ k < rs.length, ((applyPs id bound rs ps).1[k]?).bind (fun r => r.value) = some (psBefore i ps rs k) := by
  induction rs generalizing ps with
  | nil =>
    refine ⟨?_, fun k h => absurd h (Nat.not_lt_zero k)⟩
    simp [applyPs, psBefore]
  | cons r rs ih =>
    obtain ⟨spawn, value, lost, window, n⟩ := due r List.mem_cons_self
    have takes : (decide (r.spawn = id) && r.value.isNone && decide (r.lost ≠ some .request) && decide (r.window < bound) &&
        decide (r.n < 8)) = true := by
      simp [spawn, value, lost, window, n]
    have register : Fin.ofNat 8 r.n = i := by
      rw [n]
      exact Fin.ofNat_val_eq_self i
    obtain ⟨total, values⟩ := ih (ps.set i (ps[i] + BitVec.ofNat 64 r.amount)) (fun x hx => due x (List.mem_cons_of_mem r hx))
    have later (k : Nat) : psBefore i (ps.set i (ps[i] + BitVec.ofNat 64 r.amount)) rs k = psBefore i ps (r :: rs) (k + 1) := by
      simp [psBefore, BitVec.ofNat_add, BitVec.add_assoc]
    rw [applyPs, if_pos takes]
    simp only [register]
    refine ⟨?_, fun k h => ?_⟩
    · rw [total, later, List.length_cons]
      simp
    · cases k with
      | zero => simp [psBefore]
      | succ k =>
        rw [List.getElem?_cons_succ, values k (Nat.lt_of_succ_lt_succ h), later]

theorem psWindows_frame (s : State) (spawn bound : Nat) :
    ∃ rs sps, s.psWindows spawn bound = { s with job := { s.job with psRequests := rs, spawns := sps } } := by
  unfold State.psWindows
  split
  · exact ⟨_, _, rfl⟩
  · exact ⟨_, _, rfl⟩

/-- A `ps` in a slot joins its window (R28). -/
theorem prefixSum_slot {s : State} (slot : s.ag.role ≠ .master) (len : Nat) (d : Reg) (n : Nat) :
    let root := ((lookup s.ag.spawnid.toNat s.job.spawns).map (fun sp => sp.root)).getD 0
    let home := ((lookup root s.job.spawns).map (fun sp => sp.homeDie)).getD 0
    let t := s.prefixSum len d n
    t.pc = s.pc + BitVec.ofNat 64 len ∧ t.ag.wait = .ps ∧ (∀ r, t.g r = s.g r) ∧ SameMemory s t ∧
      (s.job.psRequests.Pairwise PsRequest.before → t.job.psRequests.Pairwise PsRequest.before) ∧
      ∃ r : PsRequest, t.job.psRequests.Perm (r :: s.job.psRequests) ∧
        r.agent = s.agId ∧ r.spawn = root ∧ r.n = n ∧ r.d = d ∧ r.value = none ∧ r.lost = none ∧
        r.amount = (s.g d).toNat % 2 ^ 16 ∧
        (home = vdieOf s.agId → r.window = s.pkg.cycle / 16 ∧ r.due = s.pkg.cycle + 24) ∧
        (home ≠ vdieOf s.agId → r.window = (s.pkg.cycle + 48) / 16 ∧ r.due = s.pkg.cycle + 112) := by
  intro root home t
  let arrives := if home = vdieOf s.agId then s.pkg.cycle else s.pkg.cycle + 48
  let r : PsRequest :=
    { agent := s.agId, spawn := root, n := n, amount := (s.g d).toNat % 2 ^ 16, window := arrives / 16, arrives := arrives
      due := s.pkg.cycle + (if home = vdieOf s.agId then 24 else 112), d := d, value := none, sent := s.pkg.cycle, lost := none }
  have joins : t = (({ s with job := { s.job with psRequests := insertPs r s.job.psRequests } } : State).setWait .ps).advance len := by
    unfold t State.prefixSum
    rw [inSlot_slot slot]
    rfl
  rw [joins]
  refine ⟨rfl, rfl, fun _ => rfl, sameMemory_refl s, insertPs_pairwise r, r, insertPs_perm r _, rfl, rfl, rfl, rfl, rfl, rfl, rfl,
    fun here => ?_, fun away => ?_⟩
  · exact ⟨by simp only [r, arrives, if_pos here], by simp only [r, if_pos here]⟩
  · exact ⟨by simp only [r, arrives, if_neg away], by simp only [r, if_neg away]⟩

/-- Settles O38: a unit's request joins its window in order; a master's accesses by whether a spawn is outstanding; the sums by induction
over the requests. -/
theorem prefixSumsTakeTheirTurn : Obligations.PrefixSumsTakeTheirTurn := by
  intro d a n d3 n3 s root home before joins
  refine ⟨fun master => ?_, fun slot => ⟨⟨_, exec_ps d n s, prefixSum_slot slot 4 d _⟩, ⟨_, exec_cPs d3 n3 s, prefixSum_slot slot 2 _ _⟩, ?_, ?_⟩,
    fun master free => ⟨⟨({ s with ag := { s.ag with psInit := assign n.toNat (s.g a) s.ag.psInit } } : State).advance 4, ?_,
      lookup_assign_self _ _ _, rfl, rfl⟩, ⟨_, ?_, result_wrote s d _⟩⟩, fun master busy sp live => ?_,
    fun rs id bound i ps due => applyPs_sums rs ps due⟩
  · simp only [Takes, exec_ps, exec_cPs, State.prefixSum, inSlot_master master, Bool.not_false, if_true]
    exact ⟨rfl, rfl⟩
  · simp only [Takes, exec_psset, execPsset, inSlot_slot slot, if_true]
    rfl
  · simp only [Takes, exec_psget, execPsget, inSlot_slot slot, if_true]
    rfl
  · simp only [exec_psset, execPsset, inSlot_master master, free, if_true, if_false, Bool.false_eq_true]
  · simp only [exec_psget, execPsget, inSlot_master master, free, if_true, if_false, Bool.false_eq_true]
    rfl
  · obtain ⟨rs, sps, taken⟩ := psWindows_frame s s.ag.spawnid.toNat (s.pkg.cycle / 16)
    rw [taken] at live
    have value : ({ s with job := { s.job with psRequests := rs, spawns := sps } } : State).psLive n = sp.ps[n.toFin] := by
      simp only [State.psLive, live, Option.map_some, Option.getD_some]
    refine ⟨?_, ?_⟩
    · have runs : exec (.psset n a) s = .next (((s.psWindows s.ag.spawnid.toNat (s.pkg.cycle / 16)).onSpawn s.ag.spawnid.toNat
          (fun sp => { sp with ps := sp.ps.set n.toFin (s.g a) })).advance 4) := by
        simp only [exec_psset, execPsset, inSlot_master master, busy, if_false, Bool.false_eq_true]
      rw [taken] at runs
      refine ⟨_, runs, rfl, fun _ => rfl, ?_⟩
      show lookup s.ag.spawnid.toNat (modify _ _ sps) = _
      rw [lookup_modify_self, live]
      rfl
    · have runs : exec (.psget d n) s = .next ((s.psWindows s.ag.spawnid.toNat (s.pkg.cycle / 16)).result d
          ((s.psWindows s.ag.spawnid.toNat (s.pkg.cycle / 16)).psLive n)) := by
        simp only [exec_psget, execPsget, inSlot_master master, busy, if_false, Bool.false_eq_true]
      rw [taken, value] at runs
      obtain ⟨got, pc, -⟩ := result_wrote { s with job := { s.job with psRequests := rs, spawns := sps } } d sp.ps[n.toFin]
      exact ⟨_, runs, got, pc⟩

end Sys2Proof.Machine
end


section
/-! PROOFS. Units retire and spawns are cancelled (O39): what the tables lose of complete spawns, a slot that finds nothing to draw, and
what a cancelled spawn leaves in the dies. -/

namespace Sys2Proof.Machine

theorem exec_next (s : State) : exec .next s = execNext s := rfl
theorem exec_cNext (s : State) : exec .cNext s = execCNext s := rfl
theorem exec_cancel (s : State) : exec .cancel s = execCancel s := rfl

theorem lookup_mapValues {α β : Type} (f : α → β) (k : Nat) (t : Table α) :
    lookup k (t.map (fun x => (x.1, f x.2))) = (lookup k t).map f := by
  induction t with
  | nil => rfl
  | cons x t ih =>
    obtain ⟨i, y⟩ := x
    simp only [List.map_cons, lookup]
    split
    · rfl
    · exact ih

/-- A spawn leaves the tables (R24). -/
def State.reaped (t : State) (id : Nat) : State :=
  { t with job := { t.job with
      spawns := remove id t.job.spawns
      dies := t.job.dies.map (fun d => (d.1, d.2.drop t.pkg.cycle (fun i => i == id))) } }

@[simp] theorem State.reaped_agId (t : State) (id : Nat) : (t.reaped id).agId = t.agId := rfl

/-- What holds of a state and stays when a complete spawn that nobody joins leaves the tables holds once all of them have left. -/
theorem reap_induction {P : State → Prop} {s : State} (start : P s)
    (leaves : ∀ (t : State) (id : Nat) (sp : Spawn), P t → lookup id t.job.spawns = some sp → sp.root ≠ id ∨ t.job.orphan sp = true →
      P (t.reaped id)) : P s.reap := by
  unfold State.reap
  refine List.foldlRecOn _ _ start (fun t ht x _ => ?_)
  split
  · exact ht
  · next sp found =>
    split
    · next going =>
      simp only [Bool.and_eq_true, Bool.or_eq_true, decide_eq_true_eq] at going
      exact leaves t x.1 sp ht found going.2
    · exact ht

/-- Only the spawns and the dies' tables differ. -/
def TablesOnly (s t : State) : Prop := ∃ spawns dies, t = { s with job := { s.job with spawns := spawns, dies := dies } }

theorem reap_tablesOnly (s : State) : TablesOnly s s.reap := by
  refine reap_induction ⟨_, _, rfl⟩ ?_
  rintro t id sp ⟨_, _, rfl⟩ - -
  exact ⟨_, _, rfl⟩

/-- A top-level spawn that its master may join stays in the table. -/
theorem reap_lookup {s : State} {id : Nat} {sp : Spawn} (found : lookup id s.job.spawns = some sp) (top : sp.root = id)
    (joined : s.job.orphan sp = false) : lookup id s.reap.job.spawns = some sp := by
  have kept : TablesOnly s s.reap ∧ lookup id s.reap.job.spawns = some sp := by
    refine reap_induction (P := fun t => TablesOnly s t ∧ lookup id t.job.spawns = some sp) ⟨⟨_, _, rfl⟩, found⟩ ?_
    rintro t other x ⟨⟨_, _, rfl⟩, here⟩ at_ going
    refine ⟨⟨_, _, rfl⟩, ?_⟩
    have apart : id ≠ other := by
      rintro rfl
      obtain rfl : sp = x := Option.some.inj (here.symm.trans at_)
      rcases going with nested | orphan
      · exact nested top
      · exact absurd (joined.symm.trans orphan) (by decide)
    exact (lookup_remove_other apart _).trans here
  exact kept.2

/-- The slot in focus has nothing to draw (R43). -/
def State.Idle (s : State) : Prop :=
  let die := vdieOf s.agId
  (∀ r ∈ s.job.ready, r.core ≠ coreKey s.agId) ∧ (s.job.die die).basin = [] ∧ (s.job.die die).spilled = [] ∧
    (s.job.die die).entries = [] ∧ s.job.again die = none

theorem idle_readyHere {s : State} (h : s.Idle) : s.readyHere = none := by
  rw [State.readyHere, List.find?_eq_none]
  intro r hr
  simp [h.1 r hr]

/-- A slot with nothing to draw stays as it is. -/
theorem draw_idle {s : State} (h : s.Idle) : s.draw = s := by
  obtain ⟨-, basin, spilled, entries, again⟩ := id h
  have top : s.takeTop (vdieOf s.agId) = s := by simp only [State.takeTop, entries, List.filter_nil, nextEntry, List.find?_nil, List.head?_nil]
  unfold State.draw
  split
  · rfl
  · simp only [idle_readyHere h, basin, spilled, again, List.append_nil, top]

/-- Nothing to draw comes of a change that empties tables and adds no numbers to draw again. -/
theorem again_none {j k : Job} {die : Nat} (no : j.again die = none)
    (sub : ∀ x ∈ k.spawns, ∃ y ∈ j.spawns, y.1 = x.1 ∧ x.2.root = y.2.root ∧ x.2.homeDie = y.2.homeDie ∧ x.2.redraw = y.2.redraw ∧
      x.2.ended = y.2.ended) : k.again die = none := by
  rw [Job.again, List.find?_eq_none] at no ⊢
  intro x hx
  obtain ⟨y, hy, key, root, home, redraw, ended⟩ := sub x (List.mem_reverse.mp hx)
  rw [root, home, redraw, ended, ← key]
  exact no y (List.mem_reverse.mpr hy)

theorem die_drop (s : State) (id v : Nat) : (s.reaped id).job.die v = (s.job.die v).drop s.pkg.cycle (fun i => i == id) ∨
    (s.reaped id).job.die v = s.job.die v := by
  unfold Job.die State.reaped
  simp only [lookup_mapValues (fun d : DieState => d.drop s.pkg.cycle (fun i => i == id))]
  cases lookup v s.job.dies with
  | none => exact .inr rfl
  | some d => exact .inl rfl

theorem reap_idle {s : State} (h : s.Idle) : s.reap.Idle := by
  refine reap_induction h (fun t id sp idle _ _ => ?_)
  obtain ⟨ready, basin, spilled, entries, again⟩ := idle
  have left : (t.reaped id).job.again (vdieOf t.agId) = none :=
    again_none again (fun x hx => ⟨x, mem_of_mem_remove (t := t.job.spawns) hx, rfl, rfl, rfl, rfl, rfl⟩)
  unfold State.Idle
  simp only [State.reaped_agId]
  rcases die_drop t id (vdieOf t.agId) with e | e <;> rw [e]
  · simp only [DieState.drop, basin, spilled, entries, List.filter_nil]
    exact ⟨ready, trivial, trivial, trivial, left⟩
  · exact ⟨ready, basin, spilled, entries, left⟩

theorem onSpawn_units_idle {s : State} (id : Nat) (h : s.Idle) : (s.onSpawn id (fun x => { x with units := x.units - 1 })).Idle := by
  obtain ⟨ready, basin, spilled, entries, again⟩ := h
  refine ⟨ready, basin, spilled, entries, again_none again (fun x hx => ?_)⟩
  obtain ⟨y, hy, key, same | same⟩ := exists_of_mem_modify hx <;> exact ⟨y, hy, key, by rw [same], by rw [same], by rw [same], by rw [same]⟩

theorem retireOne_idle {s : State} (id : Nat) (h : s.Idle) : (s.retireOne id).Idle := reap_idle (onSpawn_units_idle id h)

/-- What an agent that retires leaves where there is nothing to draw: its trace, its vacant slot, and its spawn with a unit less. -/
theorem retire_idle {s : State} (h : s.Idle) : ∃ u, CountsOnly s u ∧ s.retire =
    if s.ag.role = .unit then u.vacate.retireOne s.ag.spawnid.toNat else u.vacate := by
  unfold State.retire
  extract_lets u v
  have traced : CountsOnly s u := by
    unfold u
    split
    · exact trace_countsOnly s _ _ _ _
    · exact .refl s
  have vacant : v.Idle := by
    obtain ⟨p, e, -, -⟩ := traced
    unfold v
    rw [e]
    exact h
  refine ⟨u, traced, ?_⟩
  rw [traced.ag]
  split
  · exact draw_idle (retireOne_idle _ vacant)
  · exact draw_idle vacant

theorem retireOne_tablesOnly (s : State) (id : Nat) : TablesOnly s (s.retireOne id) := by
  obtain ⟨_, _, e⟩ := reap_tablesOnly (s.onSpawn id (fun x => { x with units := x.units - 1 }))
  exact ⟨_, _, e⟩

/-- An agent that retires where there is nothing to draw leaves its position vacant; nothing else moves but counts and the tables. -/
theorem retire_vacates {s : State} (h : s.Idle) : let t := s.retire
    t.ag.occupied = false ∧ t.ag.nb = [] ∧ t.ag.wait = .ready ∧ t.agId = s.agId ∧ (∀ r, t.g r = 0#64) ∧ ∀ a, t.feBit a = s.feBit a := by
  obtain ⟨u, ⟨p, rfl, -, -⟩, retired⟩ := retire_idle h
  intro t
  have tables : TablesOnly ({ s with pkg := p } : State).vacate t := by
    unfold t
    rw [retired]
    split
    · exact retireOne_tablesOnly _ _
    · exact ⟨_, _, rfl⟩
  obtain ⟨_, _, e⟩ := tables
  rw [e]
  refine ⟨rfl, rfl, rfl, rfl, fun r => ?_, fun _ => rfl⟩
  show (if r = 0#5 then 0#64 else (Vector.replicate 32 0#64)[r.toFin]) = 0#64
  simp

/-- With a unit of a spawn retired the spawn has a unit less; with a runtime retired nothing of the job moves. -/
theorem retire_spawn {s : State} (h : s.Idle) {id : Nat} {sp : Spawn} (role : s.ag.role = .unit) (mine : s.ag.spawnid.toNat = id)
    (found : lookup id s.job.spawns = some sp) (top : sp.root = id) (joined : s.job.orphan sp = false) :
    lookup id s.retire.job.spawns = some { sp with units := sp.units - 1 } := by
  obtain ⟨u, ⟨_, rfl, -, -⟩, retired⟩ := retire_idle h
  rw [retired, if_pos role, mine]
  refine reap_lookup ?_ top joined
  show lookup id (modify id _ s.job.spawns) = _
  rw [lookup_modify_self, found]
  rfl

theorem retire_runtime {s : State} (h : s.Idle) (role : s.ag.role = .runtime) : s.retire.job = s.job := by
  obtain ⟨u, ⟨_, rfl, -, -⟩, retired⟩ := retire_idle h
  rw [retired, if_neg (by rw [role]; decide)]
  rfl

/-- The turn of a `next` with no streaming access left (R176). -/
theorem nextTurn_done {s : State} (none : s.ag.nb = []) (len : Nat) : s.nextTurn len = (s.setWait .ready).retire :=
  drained_done none _ _

section Cancel
variable {id : Nat}

/-- The dies hold nothing of a spawn. -/
def GoneFromDies (id : Nat) (s : State) : Prop :=
  ∀ x ∈ s.job.dies, id ∉ x.2.basin ∧ id ∉ x.2.spilled ∧ ∀ e ∈ x.2.entries, e.2.spawn ≠ id

/-- A drop from the dies' tables brings nothing back. -/
theorem gone_drop {l : List (Nat × DieState)} (now : Nat) (p : Nat → Bool)
    (h : p id = true ∨ ∀ x ∈ l, id ∉ x.2.basin ∧ id ∉ x.2.spilled ∧ ∀ e ∈ x.2.entries, e.2.spawn ≠ id) :
    ∀ x ∈ l.map (fun d => (d.1, d.2.drop now p)), id ∉ x.2.basin ∧ id ∉ x.2.spilled ∧ ∀ e ∈ x.2.entries, e.2.spawn ≠ id := by
  intro x hx
  obtain ⟨y, hy, rfl⟩ := List.mem_map.mp hx
  simp only [DieState.drop, List.mem_filter]
  rcases h with picked | gone
  · refine ⟨fun m => ?_, fun m => ?_, fun e m => ?_⟩
    · simp [picked] at m
    · simp [picked] at m
    · rintro rfl
      simp [picked] at m
  · obtain ⟨basin, spilled, entries⟩ := gone y hy
    exact ⟨fun m => basin m.1, fun m => spilled m.1, fun e m => entries e m.1⟩

theorem reap_gone {s : State} (h : GoneFromDies id s) : GoneFromDies id s.reap :=
  reap_induction h (fun t other _ gone _ _ => gone_drop t.pkg.cycle (fun i => i == other) (.inr gone))

theorem discardFibre_gone {s : State} (entry : Nat) (h : GoneFromDies id s) : GoneFromDies id (s.discardFibre entry) := by
  unfold State.discardFibre
  split
  · exact h
  · extract_lets t _ u
    have gone : GoneFromDies id u := by
      obtain ⟨_, _, e⟩ := (setEntryState_onlyMemory s (BitVec.ofNat 64 entry) 0).job
      intro x hx
      refine h x ?_
      have same : u.job.dies = s.job.dies := by
        show (s.setEntryState (BitVec.ofNat 64 entry) 0).job.dies = _
        rw [e]
      exact same ▸ hx
    split
    · exact gone
    · exact reap_gone gone

/-- A cancelled spawn leaves the dies' tables, and its units end at their next turn (R45). -/
theorem cancelSpawn_clears {s : State} {sp : Spawn} (kind : EndKind) (found : lookup id s.job.spawns = some sp) :
    GoneFromDies id (s.cancelSpawn id kind) ∧ (s.ag.occupied = true → s.ag.role ≠ .master → s.ag.spawnid.toNat = id →
      (s.cancelSpawn id kind).ag.ending = true) := by
  have among : (descendants id s.job.spawns []).contains id = true := by
    rw [List.contains_iff_mem]
    exact self_mem_descendants [] ⟨_, mem_of_lookup found, rfl⟩
  unfold State.cancelSpawn
  extract_lets ds mark _ t
  let l := (s.job.fibres.filter (fun f => ds.contains f.2.spawn)).map (fun f => f.1)
  refine ⟨reap_gone ?_, fun occupied slot mine => ?_⟩
  · exact List.foldlRecOn l _ (motive := GoneFromDies id) (gone_drop s.pkg.cycle ds.contains (.inl among))
      (fun u gone e _ => discardFibre_gone e gone)
  · rw [(reap_keeps _).1, (discardFibres_keep l t).1]
    have marked : (s.ag.occupied && decide (s.ag.role ≠ .master) && ds.contains s.ag.spawnid.toNat) = true := by
      rw [occupied, mine, among, decide_eq_true slot]
      rfl
    show (mark s.ag).ending = true
    simp only [mark, marked, if_true]

end Cancel

/-- Settles O39: a drained `next` retires its unit into a slot that stays vacant; `cancel` is the cancelling of the agent's spawn. -/
theorem unitsRetireAndCancel : Obligations.UnitsRetireAndCancel := by
  intro s sp id die idle retires waits
  have nexts (slot : s.ag.role ≠ .master) : exec .next s = .next (s.nextTurn 4) ∧ exec .cNext s = .next (s.nextTurn 2) := by
    simp only [exec_next, execNext, exec_cNext, execCNext, inSlot_slot slot, if_true, and_self]
  refine ⟨fun master => ?_, fun slot none free => ?_, fun slot some ok => ?_, fun master none => ?_, fun has found => ?_⟩
  · simp only [Takes, exec_next, execNext, exec_cNext, execCNext, inSlot_master master, Bool.false_eq_true, if_false]
    exact ⟨rfl, rfl⟩
  · have vacant : (s.setWait .ready).Idle := free
    have done (len : Nat) (i : Instr) (runs : exec i s = .next (s.nextTurn len)) : retires i := by
      obtain ⟨occupied, nb, -, agId, g, fe⟩ := retire_vacates vacant
      exact ⟨(s.setWait .ready).retire, by rw [runs, nextTurn_done none], occupied, nb, agId, g, fe,
        fun role live top joined => retire_spawn vacant role rfl live top joined, fun role => retire_runtime vacant role⟩
    exact ⟨done 4 _ (nexts slot).1, done 2 _ (nexts slot).2⟩
  · have wait (len : Nat) (i : Instr) (runs : exec i s = .next (s.nextTurn len)) : waits len i :=
      ⟨s.setWait (.next len), by rw [runs, State.nextTurn, drained_waits some ok], rfl, rfl⟩
    exact ⟨wait 4 _ (nexts slot).1, wait 2 _ (nexts slot).2⟩
  · refine ⟨s.advance 4, ?_, setPc_jumped s _⟩
    simp only [exec_cancel, execCancel, master, none, decide_true, Bool.and_self, if_true]
  · have runs : exec .cancel s = .next ((s.advance 4).cancelSpawn id .cancelled) := by
      rcases has with busy | slot
      · simp only [exec_cancel, execCancel, busy, decide_false, Bool.and_false, Bool.false_eq_true, if_false]
        rfl
      · simp only [exec_cancel, execCancel, slot, decide_false, Bool.false_and, Bool.false_eq_true, if_false]
        rfl
    obtain ⟨⟨b, ag⟩, ended⟩ := cancelSpawn_keeps (s.advance 4) id .cancelled
    obtain ⟨gone, ends⟩ := cancelSpawn_clears (s := s.advance 4) .cancelled found
    refine ⟨_, runs, ?_, fun r => ?_, fun x at_ => ended _ (mem_of_lookup at_) rfl, gone, fun slot occupied => ends occupied slot rfl⟩
    · rw [State.pc, ag]
      rfl
    · rw [State.g, ag]
      rfl

end Sys2Proof.Machine
end


section
/-! PROOFS. An agent written to an entry (R38, R326): where its registers stand in the record, and what the writing leaves as it was. -/

namespace Sys2Proof.Machine

section Lists
variable {α β : Type}

theorem getD_append_at {l l' : List α} {k : Nat} (h : l.length = k) (i : Nat) (d : α) : (l ++ l').getD (k + i) d = l'.getD i d := by
  rw [List.getD_append_right _ _ _ _ (by omega), show k + i - l.length = i by omega]

/-- An element of a list made of pieces of one length. -/
theorem getD_flatMap {f : α → List β} {n : Nat} {l : List α} (h : ∀ x ∈ l, (f x).length = n) {k j : Nat} (hk : k < l.length) (hj : j < n)
    (d : β) : (l.flatMap f).getD (n * k + j) d = (f l[k]).getD j d := by
  induction l generalizing k with
  | nil => exact absurd hk (Nat.not_lt_zero k)
  | cons x l ih =>
    have first := h x List.mem_cons_self
    rw [List.flatMap_cons]
    cases k with
    | zero => rw [Nat.mul_zero, Nat.zero_add, List.getD_append _ _ _ _ (by omega), List.getElem_cons_zero]
    | succ k =>
      rw [show n * (k + 1) + j = n + (n * k + j) by ring, getD_append_at first,
        ih (fun y hy => h y (List.mem_cons_of_mem x hy)) (Nat.lt_of_succ_lt_succ hk), List.getElem_cons_succ]

theorem length_flatMap {f : α → List β} {n : Nat} {l : List α} (h : ∀ x ∈ l, (f x).length = n) : (l.flatMap f).length = n * l.length := by
  rw [List.length_flatMap, List.map_congr_left h, List.map_const', List.sum_replicate, smul_eq_mul, Nat.mul_comm]

end Lists

theorem length_unpackBits (w n x : Nat) : (unpackBits w n x).length = n := by
  induction n generalizing x with
  | zero => rfl
  | succ n ih => rw [unpackBits, List.length_cons, ih]

theorem getD_unpackBits (w : Nat) {n i : Nat} (h : i < n) (x d : Nat) : (unpackBits w n x).getD i d = x / 2 ^ (w * i) % 2 ^ w := by
  induction n generalizing i x with
  | zero => exact absurd h (Nat.not_lt_zero i)
  | succ n ih =>
    cases i with
    | zero => simp [unpackBits]
    | succ i => rw [unpackBits, List.getD_cons_succ, ih (Nat.lt_of_succ_lt_succ h), Nat.div_div_eq_div_mul, ← pow_add, Nat.mul_succ,
        Nat.add_comm w]

theorem length_vwords (x : VWord) : (vwords x).length = 8 := by rw [vwords, List.length_map, length_unpackBits]

theorem getD_vwords (x : VWord) {i : Nat} (h : i < 8) : (vwords x).getD i 0#64 = BitVec.ofNat 64 (laneAt 64 x i) := by
  rw [vwords, List.getD_map (d := 0) (f := BitVec.ofNat 64), getD_unpackBits 64 h, laneAt]

section Record
variable (s : State) (fst : Word)

/-- The dwords of a record behind the register files. -/
def State.recordTail : List Word :=
  [packFields ((s.ag.k.toList.take 4).zipIdx.map (fun x => (if x.2 = 0 then 0 else x.1.toNat, 16 * x.2))),
    packFields ((s.ag.k.toList.drop 4).zipIdx.map (fun x => (x.1.toNat, 16 * x.2))),
    s.ag.pc, s.ag.rmode, fst, if s.ag.role = .master then 0#64 else s.ag.tid, s.ag.spawnid, s.ag.upaddr,
    s.parkWord, s.mwaitWord] ++ s.poisonWords ++
    [packFields [(s.cpout s.ag % 2 ^ 16, 48), (s.tkout s.ag % 2 ^ 16, 32)], 0#64] ++ List.replicate 10 0#64

theorem length_poisonWords : s.poisonWords.length = 2 := by
  unfold State.poisonWords
  split <;> rfl

theorem fibreRecord_eq (more : List Word) : s.fibreRecord fst ++ more = s.ag.v.toList.flatMap vwords ++
    ((0#64 :: s.ag.g.toList.drop 1) ++ (s.ag.xe.toList ++ (s.recordTail fst ++ more))) := by
  simp only [State.fibreRecord, State.recordTail, List.append_assoc]

theorem length_recordV : (s.ag.v.toList.flatMap vwords).length = 64 := by
  rw [length_flatMap (fun x _ => length_vwords x), Vector.length_toList]

theorem length_recordG : (0#64 :: s.ag.g.toList.drop 1).length = 32 := by simp

theorem length_fibreRecord : (s.fibreRecord fst).length = 128 := by
  have e := congrArg List.length (fibreRecord_eq s fst [])
  rw [List.append_nil, List.append_nil] at e
  rw [e, List.length_append, List.length_append, List.length_append, length_recordV, length_recordG, Vector.length_toList,
    State.recordTail, List.length_append, List.length_append, List.length_append, length_poisonWords]
  rfl

variable (more : List Word)

/-- The vector registers stand at 0, the g registers at 0x200, the xe registers at 0x300, and the rest behind them (R326). -/
theorem record_v {i : Nat} (h : i < 64) : (s.fibreRecord fst ++ more).getD i 0#64 =
    BitVec.ofNat 64 (laneAt 64 (s.v (BitVec.ofNat 3 (i / 8))) (i % 8)) := by
  have reg : s.ag.v.toList[i / 8]'(by rw [Vector.length_toList]; omega) = s.v (BitVec.ofNat 3 (i / 8)) := by
    rw [Vector.getElem_toList, State.v, Fin.getElem_fin]
    congr 1
    show i / 8 = i / 8 % 2 ^ 3
    omega
  rw [fibreRecord_eq, List.getD_append _ _ _ _ (by rw [length_recordV]; exact h), ← reg, ← getD_vwords _ (by omega : i % 8 < 8),
    ← getD_flatMap (fun x _ => length_vwords x) _ (by omega), Nat.div_add_mod]

theorem record_g {i : Nat} (h : i < 32) : (s.fibreRecord fst ++ more).getD (64 + i) 0#64 = s.g (BitVec.ofNat 5 i) := by
  rw [fibreRecord_eq, getD_append_at (length_recordV s), List.getD_append _ _ _ _ (by rw [length_recordG]; exact h)]
  cases i with
  | zero => rfl
  | succ i =>
    have small : (i + 1) % 2 ^ 5 = i + 1 := Nat.mod_eq_of_lt (by omega)
    have nonzero : BitVec.ofNat 5 (i + 1) ≠ 0#5 := fun e => by
      have := congrArg BitVec.toNat e
      simp only [BitVec.toNat_ofNat, small] at this
      omega
    rw [State.g, if_neg nonzero, List.getD_cons_succ, List.getD_eq_getElem?_getD, List.getElem?_drop,
      Vector.getElem?_toList, Vector.getElem?_eq_getElem (by omega), Option.getD_some, Fin.getElem_fin]
    congr 1
    show 1 + i = (i + 1) % 2 ^ 5
    omega

theorem record_xe {i : Nat} (h : i < 8) : (s.fibreRecord fst ++ more).getD (64 + (32 + i)) 0#64 = s.xe (BitVec.ofNat 3 i) := by
  rw [fibreRecord_eq, getD_append_at (length_recordV s), getD_append_at (length_recordG s),
    List.getD_append _ _ _ _ (by rw [Vector.length_toList]; exact h), List.getD_eq_getElem?_getD, Vector.getElem?_toList,
    Vector.getElem?_eq_getElem h, Option.getD_some, State.xe, Fin.getElem_fin]
  congr 1
  show i = i % 2 ^ 3
  omega

theorem record_tail (i : Nat) : (s.fibreRecord fst ++ more).getD (64 + (32 + (8 + i))) 0#64 = (s.recordTail fst ++ more).getD i 0#64 := by
  rw [fibreRecord_eq, getD_append_at (length_recordV s), getD_append_at (length_recordG s), getD_append_at (Vector.length_toList)]

end Record

/-! What a save leaves as it was. -/

theorem markWords_eq (s : State) (cell : Nat) (bad : List Nat) : ∃ p, s.markWords cell bad = { s with poison := p } := by
  unfold State.markWords
  refine List.foldlRecOn bad _ (motive := fun t : State => ∃ p, t = { s with poison := p }) ⟨_, rfl⟩ ?_
  rintro t ⟨p, rfl⟩ i -
  exact ⟨_, rfl⟩

theorem touchTable_eq (s : State) (a : Nat) (home : Option Nat) :
    ∃ d, s.touchTable a home = { s with job := { s.job with dies := d } } := by
  unfold State.touchTable
  split
  · exact ⟨_, rfl⟩
  · exact ⟨_, rfl⟩

theorem releaseWaits_eq (s : State) :
    ∃ d p w, s.releaseWaits = { s with job := { s.job with dies := d, parked := p, armed := w } } := by
  unfold State.releaseWaits
  extract_lets t u
  have ht : ∃ d, t = { s with job := { s.job with dies := d } } := by
    refine List.foldlRecOn _ _ (motive := fun x : State => ∃ d, x = { s with job := { s.job with dies := d } }) ⟨_, rfl⟩ ?_
    rintro x ⟨d, rfl⟩ p -
    obtain ⟨d', e⟩ := touchTable_eq { s with job := { s.job with dies := d } } p.cell p.home
    exact ⟨d', e⟩
  have hu : ∃ d, u = { s with job := { s.job with dies := d } } := by
    refine List.foldlRecOn _ _ (motive := fun x : State => ∃ d, x = { s with job := { s.job with dies := d } }) ht ?_
    rintro x ⟨d, rfl⟩ p -
    have touched (a : Nat) (h : Option Nat) : ∃ d', State.touchTable { s with job := { s.job with dies := d } } a h =
        { s with job := { s.job with dies := d' } } := by
      obtain ⟨d', e⟩ := touchTable_eq { s with job := { s.job with dies := d } } a h
      exact ⟨d', e⟩
    split
    · exact touched _ _
    · exact touched _ _
    · exact ⟨d, rfl⟩
  obtain ⟨d, e⟩ := hu
  clear_value u
  subst e
  exact ⟨d, s.job.parked.filter (fun p => !(p.agent == s.agId)), s.job.armed.filter (fun p => !(p.agent == s.agId)), rfl⟩

section Save
variable (s : State) (cell : Nat) (home : Option Nat) (fst : Word)

/-- A save is the writing of the record and the stack image, the marks that go with it, and the waits given up. -/
theorem saveAt_eq : ∃ w stack p d k m, s.saveAt cell home fst =
    (let t := State.putWords w home cell (s.fibreRecord fst ++ stack) s
     { t with poison := p, job := { t.job with dies := d, parked := k, armed := m } }) := by
  unfold State.saveAt
  extract_lets slot stack bad
  refine ⟨engineWriter (coreKey s.agId), stack, ?_⟩
  generalize State.putWords (engineWriter (coreKey s.agId)) home cell (s.fibreRecord fst ++ stack) s = t
  obtain ⟨p, marked⟩ := markWords_eq t (cell + 1024) bad
  obtain ⟨d, k, m, released⟩ := releaseWaits_eq { t with poison := p }
  rw [marked]
  exact ⟨p, d, k, m, released⟩

/-- A save keeps the agent in focus, and of the job all but its dies' stamps, the waits, and cached translations. -/
theorem saveAt_keeps : let t := s.saveAt cell home fst
    t.ag = s.ag ∧ t.agId = s.agId ∧ ∃ d k m l, t.job = { s.job with dies := d, parked := k, armed := m, tlb := l } := by
  obtain ⟨w, stack, p, d, k, m, e⟩ := saveAt_eq s cell home fst
  obtain ⟨wrote, agId⟩ := putWords_keeps w home cell (s.fibreRecord fst ++ stack) s
  obtain ⟨_, l, job⟩ := wrote.job
  rw [e]
  refine ⟨wrote.ag, agId, d, k, m, l, ?_⟩
  show { (State.putWords w home cell (s.fibreRecord fst ++ stack) s).job with dies := d, parked := k, armed := m } = _
  rw [job]

/-- A record saved at a quiet home reads back. -/
theorem readWord_saveAt (m : Memory.wf s.mem = true) (q : QuietHome s home) :
    ∃ stack, ∀ i < 128, (s.saveAt cell home fst).readWord (cell + 8 * i) = (s.fibreRecord fst ++ stack).getD i 0#64 := by
  obtain ⟨w, stack, p, d, k, a, e⟩ := saveAt_eq s cell home fst
  refine ⟨stack, fun i h => ?_⟩
  rw [e]
  exact readWord_putWords w m q (by rw [List.length_append, length_fibreRecord]; omega)

/-- Where the registers of an agent in a slot stand in its record (R326). -/
theorem saveAt_record (slot : s.ag.role ≠ .master) (m : Memory.wf s.mem = true) (q : QuietHome s home) :
    let t := s.saveAt cell home fst
    t.readWord (cell + 0x350) = s.pc ∧ t.readWord (cell + 0x358) = s.ag.rmode ∧ t.readWord (cell + 0x368) = s.ag.tid ∧
      t.readWord (cell + 0x370) = s.ag.spawnid ∧ (∀ i < 32, t.readWord (cell + 0x200 + 8 * i) = s.g (BitVec.ofNat 5 i)) ∧
      (∀ i < 8, t.readWord (cell + 0x300 + 8 * i) = s.xe (BitVec.ofNat 3 i)) ∧
      ∀ i < 64, t.readWord (cell + 8 * i) = BitVec.ofNat 64 (laneAt 64 (s.v (BitVec.ofNat 3 (i / 8))) (i % 8)) := by
  obtain ⟨stack, reads⟩ := readWord_saveAt s cell home fst m q
  have tail (i : Nat) (h : i < 24) : (s.saveAt cell home fst).readWord (cell + 8 * (64 + (32 + (8 + i)))) =
      (s.recordTail fst ++ stack).getD i 0#64 := (reads _ (by omega)).trans (record_tail s fst stack i)
  refine ⟨tail 2 (by decide), tail 3 (by decide), (tail 5 (by decide)).trans (if_neg slot), tail 6 (by decide), fun i h => ?_,
    fun i h => ?_, fun i h => ?_⟩
  · rw [show cell + 0x200 + 8 * i = cell + 8 * (64 + i) by ring, reads _ (by omega), record_g s fst stack h]
  · rw [show cell + 0x300 + 8 * i = cell + 8 * (64 + (32 + i)) by ring, reads _ (by omega), record_xe s fst stack h]
  · rw [reads i (by omega), record_v s fst stack h]

end Save

end Sys2Proof.Machine
end


section
/-! PROOFS. Delivery by upcall (O40, O47): the runtime's registers, the record of the unit it serves, and the causes that go this way. -/

namespace Sys2Proof.Machine

theorem exec_fbsave (s : State) : exec .fbsave s = execFbsave s := rfl

theorem OnlyMemory.fibres {s t : State} (h : OnlyMemory s t) : t.job.fibres = s.job.fibres := by
  obtain ⟨_, _, e⟩ := h.job
  rw [e]

theorem firmwareCause_keeps (s : State) (t : Trap) :
    (s.firmwareCause t).ag = s.ag ∧ (s.firmwareCause t).job.fibres = s.job.fibres := by
  unfold State.firmwareCause
  split <;> exact ⟨rfl, rfl⟩

/-- The posting of a record keeps the agent in focus and the saved agents. -/
theorem postOldest_keeps (s : State) : s.postOldest.ag = s.ag ∧ s.postOldest.job.fibres = s.job.fibres := by
  unfold State.postOldest
  split
  · exact ⟨rfl, rfl⟩
  split
  · exact firmwareCause_keeps s _
  split
  · exact ⟨rfl, rfl⟩
  split
  · exact firmwareCause_keeps s _
  · next _ r _ _ _ _ _ t a home hc =>
    have wrote := (hwCell_onlyMemory hc).trans (putWords_keeps (engineWriter 0) home a (r.take 8) t).1
    exact ⟨wrote.ag, wrote.fibres⟩

theorem postRecord_keeps (s : State) (r : List Word) : (s.postRecord r).ag = s.ag ∧ (s.postRecord r).job.fibres = s.job.fibres :=
  postOldest_keeps { s with job := { s.job with records := s.job.records ++ [r] } }

section Runtime
variable (s : State) (sp : Spawn) (t : Trap) (entry : Word) (cell : Nat) (home : Option Nat)

theorem noteSaved_mem : (s.noteSaved entry cell).mem = s.mem := rfl
theorem enterRuntime_mem : (s.enterRuntime sp entry t).mem = s.mem := rfl

/-- A delivery by upcall puts the runtime in the slot and the unit among the saved agents; but for the record of a page fault, memory is as
the save leaves it (R40). -/
theorem deliverUpcall_enters : let r := s.deliverUpcall sp t entry cell home
    r.ag = (s.enterRuntime sp entry t).ag ∧ (∃ image, lookup entry.toNat r.job.fibres = some (s.savedInfo image)) ∧
      (pageFault t.cause = false → ∃ fst, ∀ a, r.readWord a = (s.saveAt cell home fst).readWord a) := by
  unfold State.deliverUpcall
  extract_lets st origin u w r
  let fst := fstate st origin t.cause.toNat s.agId s.ag.slStopped
  obtain ⟨ag, agId, _, _, _, _, job⟩ := saveAt_keeps s cell home fst
  have entered : w.ag = (s.enterRuntime sp entry t).ag := by
    show ((s.saveAt cell home fst).enterRuntime sp entry t).ag = _
    unfold State.enterRuntime
    rw [ag, agId, job]
  have info (image : List Word) : (s.saveAt cell home fst).savedInfo image = s.savedInfo image := by
    rw [State.savedInfo, ag, State.savedInfo]
  have noted : ∃ image, lookup entry.toNat w.job.fibres = some (s.savedInfo image) :=
    ⟨_, (lookup_assign_self entry.toNat _ _).trans (congrArg some (info _))⟩
  unfold r
  split
  · next fault =>
    obtain ⟨same, fibres⟩ := postRecord_keeps w (u.agentRecord 0 t entry)
    exact ⟨same.trans entered, by rw [fibres]; exact noted, fun no => by simp [no] at fault⟩
  · have mem : w.mem = (s.saveAt cell home fst).mem := (enterRuntime_mem u sp t entry).trans (noteSaved_mem _ entry cell)
    exact ⟨entered, noted, fun _ => ⟨fst, fun a => by rw [State.readWord, mem, State.readWord]⟩⟩

/-- The runtime's registers (R42). -/
theorem enterRuntime_registers {r : State} (h : r.ag = (s.enterRuntime sp entry t).ag) :
    r.ag.role = .runtime ∧ r.pc = sp.upentry ∧ r.ag.occupied = true ∧ r.ag.wait = .ready ∧ r.ag.rmode = sp.rmode ∧
      (∀ i < 23, r.g (BitVec.ofNat 5 (i + 1)) = sp.args.getD i 0#64) ∧ r.g 24#5 = entry ∧
      r.g 25#5 = BitVec.ofNat 64 t.cause.toNat ∧ r.g 26#5 = t.addr ∧ r.g 30#5 = stackTop s.agId ∧
      (∀ i, r.v i = 0#512) ∧ (∀ i, r.xe i = 0#64) ∧ r.ag.upcause = BitVec.ofNat 64 t.cause.toNat ∧ r.ag.upaddr = t.addr := by
  have reg (i : Nat) (pos : 0 < i) (hi : i < 32) : r.g (BitVec.ofNat 5 i) = if i < 24 then sp.args.getD (i - 1) 0#64
      else if i = 24 then entry else if i = 25 then BitVec.ofNat 64 t.cause.toNat else if i = 26 then t.addr
      else if i = 30 then stackTop s.agId else 0#64 := by
    have index : (BitVec.ofNat 5 i).toFin.val = i := Nat.mod_eq_of_lt hi
    have nonzero : BitVec.ofNat 5 i ≠ 0#5 := fun e => by
      rw [e] at index
      exact absurd index (Nat.ne_of_lt pos)
    rw [State.g, h, if_neg nonzero]
    simp only [State.enterRuntime, Fin.getElem_fin, Vector.getElem_ofFn, index, if_neg (Nat.ne_of_gt pos)]
  refine ⟨by rw [h]; rfl, by rw [State.pc, h]; rfl, by rw [h]; rfl, by rw [h]; rfl, by rw [h]; rfl, fun i hi => ?_,
    reg 24 (by decide) (by decide), reg 25 (by decide) (by decide), reg 26 (by decide) (by decide), reg 30 (by decide) (by decide),
    fun i => ?_, fun i => ?_, by rw [h]; rfl, by rw [h]; rfl⟩
  · rw [reg (i + 1) (Nat.succ_pos i) (by omega), if_pos (by omega), Nat.add_sub_cancel]
  · rw [State.v, h]
    exact Vector.getElem_replicate _
  · rw [State.xe, h]
    exact Vector.getElem_replicate _

end Runtime

/-- Settles O40: a drained `fbsave` saves the unit one instruction further on and enters the runtime of its spawn. -/
theorem fibreSaveEntersTheRuntime : Obligations.FibreSaveEntersTheRuntime := by
  intro s u sp entry cell home
  refine ⟨fun master => ?_, fun runtime => ?_, fun unit drained found => ?_⟩
  · simp only [Takes, exec_fbsave, execFbsave, master]
    rfl
  · simp only [Takes, exec_fbsave, execFbsave, runtime]
    rfl
  have runs : exec .fbsave s = .next (s.setWait .ready).fibreSave := by
    simp only [exec_fbsave, execFbsave, unit, State.fbsaveTurn, drained_done drained]
  have save : (s.setWait .ready).fibreSave = if sp.upentry = 0#64 then (s.setWait .ready).raise { cause := 0x48#8 } else
      match (s.setWait .ready).freePoolEntry sp.fibpool (poolSize sp.fibpool) 0 with
      | none => (s.setWait .ready).raise { cause := 0x49#8 }
      | some (entry, cell, home, u) =>
        ((({ u with ag := { u.ag with upaddr := 0#64 } } : State).trace 3 0x42 s.ag.pc 0#64).advance 4).deliverUpcall sp
          { cause := 0x42#8 } entry cell home := by
    simp only [State.fibreSave, setWait_ag_spawnid, setWait_job, found] <;> rfl
  refine ⟨fun none => by rw [runs, save, if_pos none], fun some => ⟨fun full => by rw [runs, save, if_neg some, full], fun free => ?_⟩⟩
  obtain ⟨walked, agId⟩ := freePoolEntry_keeps free
  let v : State := ({ u with ag := { u.ag with upaddr := 0#64 } } : State).trace 3 0x42 s.ag.pc 0#64
  have traced := trace_onlyMemory { u with ag := { u.ag with upaddr := 0#64 } } 3 0x42 s.ag.pc 0#64
  have counts := trace_countsOnly { u with ag := { u.ag with upaddr := 0#64 } } 3 0x42 s.ag.pc 0#64
  have ag : (v.advance 4).ag = { s.ag with wait := .ready, upaddr := 0#64, pc := s.pc + 4#64 } := by
    show { v.ag with pc := v.ag.pc + 4#64 } = _
    rw [traced.ag, walked.ag]
    rfl
  have id : (v.advance 4).agId = s.agId := counts.agId.trans agId
  obtain ⟨entered, ⟨image, noted⟩, memory⟩ := deliverUpcall_enters (v.advance 4) sp { cause := 0x42#8 } entry cell home
  obtain ⟨role, pc, occupied, wait, rmode, args, g24, g25, g26, g30, -, -, upcause, upaddr⟩ := enterRuntime_registers _ sp _ entry entered
  refine ⟨_, by rw [runs, save, if_neg some, free], role, pc, occupied, wait, rmode, args, g24, g25, g26, by rw [← id]; exact g30, upcause,
    upaddr, ⟨_, noted, ?_, ?_⟩, fun canonical quiet => ?_⟩
  · simp only [State.savedInfo, ag, unit, reduceCtorEq, if_false]
  · simp only [State.savedInfo, ag]
  · obtain ⟨fst, same⟩ := memory rfl
    have record := saveAt_record (v.advance 4) cell home fst (by rw [ag, unit]; decide) (traced.wf canonical.1) (traced.quietHome quiet)
    simp only [← same, State.pc, State.g, State.v, State.xe, ag] at record
    exact record

end Sys2Proof.Machine
end


section
/-! PROOFS. The causes of a unit that enter the upcall runtime (O47): what the raising of a cause comes to where no streaming access is
outstanding. -/

namespace Sys2Proof.Machine

theorem showSince_onlyMemory (t s : State) : (t.showSince s).ag = t.ag ∧ (t.showSince s).job = t.job ∧ (t.showSince s).mem = t.mem := by
  obtain ⟨_, e, -, -⟩ := showSince_countsOnly t s
  rw [e]
  exact ⟨rfl, rfl, rfl⟩

theorem settleAll_drained {s : State} (drained : s.ag.nb = []) : s.settleAll = s := by
  rw [State.settleAll, drained]
  rfl

/-- The agent in focus as it stands when its cause is delivered. -/
def State.stopped (s : State) (t : Trap) : State := { s with ag := { s.ag with upaddr := t.addr, wait := .ready, deferred := none } }

/-- A cause of a unit that goes by upcall into an entry of its pool (R40, R317). -/
theorem raise_upcall {s u : State} {t : Trap} {sp : Spawn} {entry : Word} {cell : Nat} {home : Option Nat} (unit : s.ag.role = .unit)
    (live : s.ag.ending = false) (drained : s.ag.nb = []) (untraced : s.trace 3 t.cause.toNat s.ag.pc 0#64 = s)
    (upcalls : t.upcalls (s.owned s.agId) = true) (found : lookup s.ag.spawnid.toNat s.job.spawns = some sp) (entered : sp.upentry ≠ 0#64)
    (free : (s.stopped t).freePoolEntry sp.fibpool (poolSize sp.fibpool) 0 = some (entry, cell, home, u)) :
    s.raise t = (u.deliverUpcall sp t entry cell home).showSince s := by
  have none : (s.stopped t).firstStreaming (fun _ => true) = none := firstStreaming_none (by simp [State.stopped, drained])
  unfold State.raise
  rw [live, if_neg Bool.false_ne_true]
  extract_lets s0 _ s1 owned debug _
  have quiet : s0 = s := by
    unfold s0
    rw [settleAll_drained drained, untraced, ite_self]
  have stands : s1 = s.stopped t := by
    show s0.stopped t = _
    rw [quiet]
  rw [stands]
  simp only [none, Option.isSome_none, Bool.false_and, Bool.false_eq_true, if_false, owned, upcalls, unit, decide_true, Bool.and_self,
    if_true, found, entered, free]

/-- Settles O47: each of the four causes is one that goes by upcall, and the runtime enters as by `fbsave`. -/
theorem unitCausesEnterTheRuntime : Obligations.UnitCausesEnterTheRuntime := by
  intro s u t sp entry cell home fault unit live drained untraced cause found enters free
  have isFault : pageFault t.cause = true ↔ fault := by simp only [pageFault, Bool.and_eq_true, decide_eq_true_eq, fault]
  have upcalls : t.upcalls (s.owned s.agId) = true := by
    simp only [Trap.upcalls, Bool.or_eq_true, Bool.and_eq_true, decide_eq_true_eq, isFault, Bool.not_eq_true']
    tauto
  obtain ⟨walked, agId⟩ := freePoolEntry_keeps free
  have ag : u.ag = { s.ag with upaddr := t.addr, wait := .ready, deferred := none } := walked.ag
  intro r
  have raised : r = (u.deliverUpcall sp t entry cell home).showSince s :=
    raise_upcall unit live drained untraced upcalls found enters free
  obtain ⟨sameAg, sameJob, sameMem⟩ := showSince_onlyMemory (u.deliverUpcall sp t entry cell home) s
  rw [← raised] at sameAg sameJob sameMem
  obtain ⟨entered, ⟨image, noted⟩, memory⟩ := deliverUpcall_enters u sp t entry cell home
  obtain ⟨role, pc, occupied, wait, rmode, args, g24, g25, g26, g30, v, xe, upcause, upaddr⟩ :=
    enterRuntime_registers u sp t entry (sameAg.trans entered)
  have top : stackTop u.agId = stackTop s.agId := by rw [agId]
  refine ⟨role, pc, occupied, wait, rmode, args, g24, g25, g26, g30.trans top, v, xe, upcause, upaddr,
    ⟨_, by rw [sameJob]; exact noted, ?_, ?_⟩, fun no canonical quiet => ?_⟩
  · simp only [State.savedInfo, ag, unit, reduceCtorEq, if_false]
  · simp only [State.savedInfo, ag, unit, reduceCtorEq, decide_false]
  · obtain ⟨fst, same⟩ := memory (Bool.not_eq_true _ ▸ fun h => no (isFault.mp h))
    obtain ⟨savedPc, -, -, -, savedG, -, -⟩ := saveAt_record u cell home fst (by rw [ag, unit]; decide) canonical.1 quiet
    have reads (a : Nat) : r.readWord a = (u.saveAt cell home fst).readWord a := by rw [← same, State.readWord, sameMem, State.readWord]
    refine ⟨by rw [reads, savedPc, State.pc, ag, State.pc], fun i h => ?_⟩
    rw [reads, savedG i h, State.g, ag, State.g]

end Sys2Proof.Machine
end


section
/-! PROOFS. Fibres come back (O41): the agent that a record holds, and the slot and the tables a resume leaves. -/

namespace Sys2Proof.Machine

theorem exec_fbload (a : Reg) (s : State) : exec (.fbload a) s = execFbload a s := rfl
theorem exec_fbret (a : Reg) (s : State) : exec (.fbret a) s = execFbret a s := rfl

theorem OnlyMemory.ready {s t : State} (h : OnlyMemory s t) : t.job.ready = s.job.ready := by
  obtain ⟨_, _, e⟩ := h.job
  rw [e]

theorem getD_getWords (s : State) {a n i : Nat} (h : i < n) : (s.getWords a n).getD i 0#64 = s.readWord (a + 8 * i) := by
  induction n generalizing a i with
  | zero => exact absurd h (Nat.not_lt_zero i)
  | succ n ih =>
    cases i with
    | zero => rfl
    | succ i => rw [State.getWords, List.getD_cons_succ, ih (Nat.lt_of_succ_lt_succ h), show a + 8 + 8 * i = a + 8 * (i + 1) by ring]

theorem getD_take {l : List Word} {n i : Nat} (h : i < n) : (l.take n).getD i 0#64 = l.getD i 0#64 := by
  rw [List.getD_eq_getElem?_getD, List.getD_eq_getElem?_getD, List.getElem?_take_of_lt h]

/-- Where no dword is poisoned there is none to list. -/
theorem badWords_none {s : State} {cell n : Nat} (clean : ∀ i < n, s.poisoned (cell + 8 * i) = false) : s.badWords cell n = [] := by
  rw [State.badWords, List.filter_eq_nil_iff]
  intro i hi
  rw [clean i (List.mem_range.mp hi)]
  exact Bool.false_ne_true

/-- An entry no software has written is resumed from as it stands (R182). -/
theorem resumeWords_image {s : State} {info : FibreInfo} {ws : List Word} (h : field (ws.getD 108 0#64).toNat 60 4 ≠ 5)
    (same : recordBody false ws = info.image) : s.resumeWords info ws = (ws, s) := by
  unfold State.resumeWords
  simp only [h, decide_false, same, decide_true, Bool.or_true, if_true]

section Agent
variable (ws : List Word) (a : Nat) {info : FibreInfo} (old : Agent)

/-- The agent of a fibre's record is a unit. -/
theorem agentOfRecord_role (fibre : field (ws.getD 108 0#64).toNat 60 4 ≠ 5) (unit : info.runtime = false) :
    (agentOfRecord ws a info old).role = .unit := by
  show (if field (ws.getD 108 0#64).toNat 60 4 = 5 then Role.master else if info.runtime = true then Role.runtime else Role.unit) = _
  rw [if_neg fibre, unit, if_neg Bool.false_ne_true]

/-- Its g registers are those of the record, g30 moved with its slot (R39). -/
theorem agentOfRecord_g (fibre : field (ws.getD 108 0#64).toNat 60 4 ≠ 5) (unit : info.runtime = false) {i : Nat} (pos : 0 < i)
    (hi : i < 32) : (agentOfRecord ws a info old).g[i] = if i = 30 then ws.getD (64 + 30) 0#64 +
      BitVec.ofNat 64 512 * (BitVec.ofNat 64 (slotOf a) - BitVec.ofNat 64 (field (ws.getD 108 0#64).toNat 29 4))
      else ws.getD (64 + i) 0#64 := by
  have role := agentOfRecord_role ws a old fibre unit
  simp only [agentOfRecord] at role ⊢
  simp only [Vector.getElem_ofFn, role, if_neg (Nat.ne_of_gt pos), show (0x200 + 8 * i) / 8 = 64 + i by omega]
  by_cases h : i = 30
  · subst h
    rfl
  · simp [h]

end Agent

/-- The stack image put back, and the entry freed, keep the agent in focus and the tables of saved agents. -/
theorem putBack_keeps (u : State) (w : Writer) (cell : Nat) (ws : List Word) (bad : List Nat) (entry : Word) :
    let r := ((State.putWords w none cell ws u).markWords cell bad).showStops.setEntryState entry 0
    r.ag = u.ag ∧ r.job.fibres = u.job.fibres ∧ r.job.ready = u.job.ready := by
  have wrote := (putWords_keeps w none cell ws u).1
  generalize State.putWords w none cell ws u = t at wrote
  obtain ⟨p, marked⟩ := markWords_eq t cell bad
  have shown := showStops_countsOnly (t.markWords cell bad)
  have freed := setEntryState_onlyMemory (t.markWords cell bad).showStops entry 0
  refine ⟨?_, ?_, ?_⟩
  · rw [freed.ag, shown.ag, marked]
    exact wrote.ag
  · rw [freed.fibres, shown.job, marked]
    exact wrote.fibres
  · rw [freed.ready, shown.job, marked]
    exact wrote.ready

/-- A fibre restored into the slot in focus: its agent, and the tables without its entry (R39, R181). -/
theorem restore_fibre {s u : State} {entry : Word} {cell : Nat} {home : Option Nat} {f : FibreInfo}
    (found : lookup entry.toNat s.job.fibres = some f) (reads : s.hwCell false entry 2048 = .ok (u, cell, home))
    (clean : ∀ i < 192, u.poisoned (cell + 8 * i) = false) (fibre : field (u.readWord (cell + 0x360)).toNat 60 4 ≠ 5)
    (same : recordBody false (u.getWords cell 192) = f.image) (unit : f.runtime = false) : let r := s.restore entry
    (∃ e p, r.ag = { agentOfRecord ((u.getWords cell 192).take 128) u.agId f u.ag with upentry := e, fibpool := p }) ∧
      r.job.fibres = remove entry.toNat u.job.fibres ∧ r.job.ready = u.job.ready.filter (fun r => !(r.entry == entry)) := by
  have word : (u.getWords cell 192).getD 108 0#64 = u.readWord (cell + 0x360) := getD_getWords u (by decide)
  obtain ⟨p, counted, -, -⟩ := account_countsOnly u u.pkg.cycle
  have resumed : (u.account u.pkg.cycle).resumeWords f (u.getWords cell 192) = (u.getWords cell 192, u.account u.pkg.cycle) :=
    resumeWords_image (by rw [word]; exact fibre) same
  have role : (agentOfRecord ((u.getWords cell 192).take 128) u.agId f u.ag).role = .unit :=
    agentOfRecord_role _ _ _ (by rw [getD_take (by decide), word]; exact fibre) unit
  have unmarked : u.badWords cell 128 = [] := badWords_none (fun i h => clean i (by omega))
  unfold State.restore
  simp only [found, reads, unmarked, ne_eq, not_true_eq_false, if_false, resumed]
  simp only [counted, role, reduceCtorEq, if_false]
  obtain ⟨ag, fibres, ready⟩ := putBack_keeps _ _ _ _ _ entry
  exact ⟨⟨_, _, ag⟩, fibres, ready⟩

/-- The unit that a fibre's record of 128 dwords gives, by the places of R326. -/
theorem resumed_registers {u r : State} {cell : Nat} {info : FibreInfo} {e p : Word}
    (fibre : field (u.readWord (cell + 0x360)).toNat 60 4 ≠ 5) (unit : info.runtime = false)
    (h : r.ag = { agentOfRecord ((u.getWords cell 192).take 128) u.agId info u.ag with upentry := e, fibpool := p }) :
    let w (off : Nat) : Word := u.readWord (cell + off)
    let moved : Word := BitVec.ofNat 64 512 * (BitVec.ofNat 64 (u.agId % 16) - BitVec.ofNat 64 ((w 0x360).toNat / 2 ^ 29 % 16))
    r.ag.role = .unit ∧ r.ag.occupied = true ∧ r.pc = w 0x350 ∧ r.ag.rmode = w 0x358 &&& 0x1F3#64 ∧ r.ag.tid = w 0x368 ∧
      r.ag.spawnid = w 0x370 ∧ r.ag.upaddr = w 0x378 ∧ r.ag.wait = .ready ∧ r.ag.uid = info.uid ∧
      (∀ i < 32, 0 < i → i ≠ 30 → r.g (BitVec.ofNat 5 i) = w (0x200 + 8 * i)) ∧ r.g 30#5 = w (0x200 + 8 * 30) + moved := by
  intro w moved
  have word (i : Nat) (h : i < 128) : ((u.getWords cell 192).take 128).getD i 0#64 = w (8 * i) :=
    (getD_take h).trans (getD_getWords u (by omega))
  have state : field (((u.getWords cell 192).take 128).getD 108 0#64).toNat 60 4 ≠ 5 := by
    rw [word 108 (by decide)]
    exact fibre
  have g (i : Nat) (pos : 0 < i) (hi : i < 32) : r.g (BitVec.ofNat 5 i) = if i = 30 then w (8 * (64 + 30)) + moved else w (8 * (64 + i)) := by
    have index : (BitVec.ofNat 5 i).toFin.val = i := Nat.mod_eq_of_lt hi
    have nonzero : BitVec.ofNat 5 i ≠ 0#5 := fun e => by
      rw [e] at index
      exact absurd index (Nat.ne_of_lt pos)
    rw [State.g, if_neg nonzero, h]
    simp only [Fin.getElem_fin, index]
    rw [agentOfRecord_g _ _ _ state unit pos hi, word (64 + 30) (by decide), word (64 + i) (by omega), word 108 (by decide)]
    rfl
  have role : r.ag.role = .unit := (congrArg Agent.role h).trans (agentOfRecord_role _ u.agId u.ag state unit)
  refine ⟨role, congrArg Agent.occupied h, (congrArg Agent.pc h).trans (word 106 (by decide)),
    (congrArg Agent.rmode h).trans (congrArg (· &&& 0x1F3#64) (word 107 (by decide))), (congrArg Agent.tid h).trans (word 109 (by decide)),
    (congrArg Agent.spawnid h).trans (word 110 (by decide)), (congrArg Agent.upaddr h).trans (word 111 (by decide)),
    congrArg Agent.wait h, congrArg Agent.uid h, fun i hi pos no => ?_, (g 30 (by decide) (by decide)).trans (if_pos rfl)⟩
  rw [g i pos hi, if_neg no, show 8 * (64 + i) = 0x200 + 8 * i by ring]

/-- A fibre made ready stands last on its core's list (R40). -/
theorem pushReady_keeps (s : State) (core : Nat) (entry : Word) :
    (s.pushReady core entry).ag = s.ag ∧ (s.pushReady core entry).job.ready = s.job.ready ++ [{ core := core, entry := entry }] := by
  have freed := setEntryState_onlyMemory s entry 3
  have called (t : State) (die : Nat) : (t.callDie die).ag = t.ag ∧ (t.callDie die).job = t.job := by
    unfold State.callDie
    split <;> exact ⟨rfl, rfl⟩
  obtain ⟨ag, job⟩ := called (s.setEntryState entry 3) (s.job.pdie (core / 128))
  refine ⟨ag.trans freed.ag, ?_⟩
  show ((s.setEntryState entry 3).callDie (s.job.pdie (core / 128))).job.ready ++ _ = _
  rw [job, freed.ready]

/-- Settles O41: what the hardware knows of the entry decides; a resume gives the agent its record holds. -/
theorem fibresComeBack : Obligations.FibresComeBack := by
  intro a s u st core cell home f entry
  refine ⟨fun master => ?_, fun unit => ?_, fun runtime none => ?_, fun runtime held => ⟨fun other => ?_, fun ready => ?_, fun wrong => ?_,
    fun state here drained found reads clean hst body unit => ?_⟩⟩
  · simp only [Takes, exec_fbload, execFbload, exec_fbret, execFbret, master]
    exact ⟨rfl, rfl⟩
  · simp only [Takes, exec_fbload, execFbload, exec_fbret, execFbret, unit]
    exact ⟨rfl, rfl⟩
  · have at_ : s.fibreAt (s.g a) = Option.none := none
    simp only [Takes, exec_fbload, execFbload, exec_fbret, execFbret, runtime, at_]
    exact ⟨rfl, rfl⟩
  all_goals have at_ : s.fibreAt (s.g a) = some (st, core) := held
  · simp only [Takes, exec_fbret, execFbret, runtime, at_]
    split
    · next two =>
      injection two with two
      injection two with two
      exact absurd two other
    · rfl
  · subst ready
    obtain ⟨ag, list⟩ := pushReady_keeps s core entry
    refine ⟨(s.pushReady core entry).advance 4, by simp only [exec_fbret, execFbret, runtime, at_]; rfl, ?_, fun r => ?_, list⟩
    · show (s.pushReady core entry).ag.pc + 4#64 = _
      rw [ag]
      rfl
    · exact g_of_ag ag r
  · have no : ¬ ((decide (st = 2) || decide (st = 3)) && decide (core = coreKey s.agId)) = true := by
      simpa only [Bool.and_eq_true, Bool.or_eq_true, decide_eq_true_eq] using wrong
    simp only [Takes, exec_fbload, execFbload, runtime, at_, no, if_false, Bool.false_eq_true]
    rfl
  · have yes : ((decide (st = 2) || decide (st = 3)) && decide (core = coreKey s.agId)) = true := by
      simpa only [Bool.and_eq_true, Bool.or_eq_true, decide_eq_true_eq] using And.intro state here
    have runs : exec (.fbload a) s = .next (s.restore entry) := by
      simp only [exec_fbload, execFbload, runtime, at_, yes, if_true, settleAll_drained drained,
        firstStreaming_none (p := fun _ => true) (show ∀ x ∈ s.ag.nb, _ by simp [drained]), Option.isSome_none, Bool.false_eq_true, if_false]
      rfl
    have fibre : field (u.readWord (cell + 0x360)).toNat 60 4 ≠ 5 := by
      rw [field, hst]
      omega
    obtain ⟨⟨e, p, ag⟩, fibres, ready⟩ := restore_fibre found reads clean fibre body unit
    obtain ⟨role, occupied, pc, rmode, tid, spawnid, upaddr, wait, uid, g, g30⟩ := resumed_registers fibre unit ag
    rw [hwCell_agId reads] at g30
    refine ⟨s.restore entry, runs, role, occupied, pc, rmode, tid, spawnid, upaddr, wait, uid, g, g30, ?_, fun r hr => ?_⟩
    · rw [fibres, (hwCell_onlyMemory reads).fibres]
    · rw [ready] at hr
      simpa using (List.mem_filter.mp hr).2

end Sys2Proof.Machine
end


section
/-! PROOFS. The ends of waits that a turn brings (O49): results, sleeps, drained accesses, promises and joins. -/

namespace Sys2Proof.Machine

theorem exec_longLatencyResult (a : Nat) (s : State) : exec (.longLatencyResult a) s = passing s (tryLongLatencyResult a s) := rfl
theorem exec_sleepWake (a : Nat) (s : State) : exec (.sleepWake a) s = passing s (trySleepWake a s) := rfl
theorem exec_waitcComplete (a : Nat) (s : State) : exec (.waitcComplete a) s = passing s (tryWaitcComplete a s) := rfl
theorem exec_fenceComplete (a : Nat) (s : State) : exec (.fenceComplete a) s = passing s (tryFenceComplete a s) := rfl
theorem exec_cpwaitPromiseReached (a : Nat) (s : State) :
    exec (.cpwaitPromiseReached a) s = passing s (tryCpwaitPromiseReached a s) := rfl
theorem exec_joinRetire (a : Nat) (s : State) : exec (.joinRetire a) s = passing s (tryJoinRetire a s) := rfl
theorem exec_nextDrainComplete (a : Nat) (s : State) : exec (.nextDrainComplete a) s = passing s (tryNextDrainComplete a s) := rfl

/-- A row that the state offers does what it does, and one that it does not offer nothing. -/
theorem passing_some (s u : State) : passing s (some u) = .next u := rfl
theorem passing_none (s : State) : passing s none = .next s := rfl

@[simp] theorem served_ag (s : State) (a : Nat) : (s.served a).ag = s.agent a := by
  obtain ⟨_, _, e, -⟩ := served_eq s a
  rw [e]
@[simp] theorem served_agId (s : State) (a : Nat) : (s.served a).agId = a := by
  obtain ⟨_, _, e, -⟩ := served_eq s a
  rw [e]
@[simp] theorem served_cycle (s : State) (a : Nat) : (s.served a).pkg.cycle = s.pkg.cycle := by
  obtain ⟨_, _, e, cycle, -⟩ := served_eq s a
  rw [e, cycle]
@[simp] theorem served_share (s : State) (a : Nat) : (s.served a).share = s.share := by
  obtain ⟨_, _, e, -⟩ := served_eq s a
  rw [e]
theorem served_job (s : State) (a : Nat) : ∃ l, (s.served a).job = { s.job with agents := l } := by
  obtain ⟨l, _, e, -⟩ := served_eq s a
  exact ⟨l, by rw [e]⟩

/-- The state a step about an agent acts on, as the steps write it. -/
theorem account_focus (s : State) (a : Nat) : (s.focus a).account (s.focus a).pkg.cycle = s.served a := by rw [focus_pkg, State.served]

section Wakes
variable {s : State} {a : Nat} {kind : Wait → Bool} {f : State → State}

/-- The wait of an agent whose level was cancelled is abandoned (R45). -/
theorem wakes_ending (ending : (s.agent a).ending = true) : passing s (s.wakes a kind f) = .next s := by
  simp only [State.wakes, focus_ag, ending, Bool.not_true, Bool.and_false, Bool.false_and, Bool.false_eq_true, if_false, passing_none]

variable (live : s.live = true) (occupied : (s.agent a).occupied = true) (going : (s.agent a).ending = false)
  (waits : kind (s.agent a).wait = true)
include live occupied going waits

/-- A step that leaves the wait it ends. -/
theorem wakes_leaves {u : State} (does : f (s.served a) = u) (left : kind u.ag.wait = false) :
    passing s (s.wakes a kind f) = .next u := by
  subst does
  simp only [State.wakes, focus_ag, focus_live, live, occupied, going, waits, account_focus, left, Bool.not_false, Bool.and_true, if_true,
    Bool.false_eq_true, if_false, passing_some]

/-- A step that would leave the agent in its wait is not offered. -/
theorem wakes_stays (does : f (s.served a) = s.served a) : passing s (s.wakes a kind f) = .next s := by
  have still : kind (s.served a).ag.wait = true := by rw [served_ag, waits]
  simp only [State.wakes, focus_ag, focus_live, live, occupied, going, waits, account_focus, does, still, Bool.not_false, Bool.and_true,
    if_true, passing_none]

end Wakes

/-- A wait of an agent that is to end is abandoned by every step that would end it (R45). -/
theorem endings_abandon {s : State} {a : Nat} (ending : (s.agent a).ending = true) :
    exec (.fenceComplete a) s = .next s ∧ exec (.waitcComplete a) s = .next s ∧ exec (.sleepWake a) s = .next s ∧
      exec (.cpwaitPromiseReached a) s = .next s ∧ exec (.joinRetire a) s = .next s ∧ exec (.nextDrainComplete a) s = .next s ∧
      exec (.longLatencyResult a) s = .next s :=
  ⟨wakes_ending ending, wakes_ending ending, wakes_ending ending, wakes_ending ending, wakes_ending ending, wakes_ending ending,
    wakes_ending ending⟩

section Ends
variable {s : State} {a : Nat} (live : s.live = true) (occupied : (s.agent a).occupied = true) (going : (s.agent a).ending = false)
include live occupied going

theorem longLatencyResult_gpr {due : Nat} {d : Reg} {v fl : Word} (waits : (s.agent a).wait = .long due (.gpr d v fl))
    (time : due ≤ s.pkg.cycle) : exec (.longLatencyResult a) s = .next ((((s.served a).setG d v).orFlags fl).setWait .ready) := by
  refine (exec_longLatencyResult a s).trans (wakes_leaves live occupied going (by rw [waits]) ?_ rfl)
  simp only [served_ag, waits, served_cycle, Nat.not_lt.mpr time, if_false]

theorem longLatencyResult_vec {due : Nat} {d : VReg} {v : VWord} {fl : Word} (waits : (s.agent a).wait = .long due (.vec d v fl))
    (time : due ≤ s.pkg.cycle) : exec (.longLatencyResult a) s = .next ((((s.served a).setV d v).orFlags fl).setWait .ready) := by
  refine (exec_longLatencyResult a s).trans (wakes_leaves live occupied going (by rw [waits]) ?_ rfl)
  simp only [served_ag, waits, served_cycle, Nat.not_lt.mpr time, if_false]

theorem sleepWake_completes {c : Word} (waits : (s.agent a).wait = .sleep c) (time : c.toNat ≤ s.pkg.cycle) :
    Completes (.sleepWake a) s (WaitOver (s.served a) 4) := by
  refine ⟨((s.served a).setWait .ready).advance 4,
    (exec_sleepWake a s).trans (wakes_leaves live occupied going (by rw [waits]) ?_ rfl), rfl, rfl, rfl⟩
  simp only [served_ag, waits, served_cycle, time, if_true]

theorem waitcComplete_completes {nl ns nc nt : Nat} (waits : (s.agent a).wait = .waitc nl ns nc nt)
    (ok : ∀ y ∈ (s.agent a).nb, y.failed = none) (loads : (s.agent a).nbload ≤ nl) (stores : (s.agent a).nbstore ≤ ns)
    (copies : s.cpout (s.agent a) ≤ nc) (tasks : s.tkout (s.agent a) ≤ nt) :
    Completes (.waitcComplete a) s (WaitOver (s.served a) 4) := by
  obtain ⟨l, _, e, -⟩ := served_eq s a
  have same : (s.served a).cpout (s.agent a) = s.cpout (s.agent a) ∧ (s.served a).tkout (s.agent a) = s.tkout (s.agent a) := by
    rw [e]
    exact ⟨rfl, rfl⟩
  have turn : (s.served a).waitcTurn nl ns nc nt = ((s.served a).setWait .ready).advance 4 := by
    rw [State.waitcTurn, report_none (by rw [served_ag]; exact ok)]
    simp only [served_ag, loads, stores, same, copies, tasks, decide_true, Bool.and_self, if_true]
  refine ⟨((s.served a).setWait .ready).advance 4,
    (exec_waitcComplete a s).trans (wakes_leaves live occupied going (by rw [waits]) ?_ rfl), rfl, rfl, rfl⟩
  simp only [served_ag, waits, turn]

theorem fenceComplete_completes (waits : (s.agent a).wait = .fence) (empty : (s.agent a).nb = []) :
    Completes (.fenceComplete a) s (WaitOver (s.served a) 4) := by
  refine ⟨((s.served a).setWait .ready).advance 4,
    (exec_fenceComplete a s).trans (wakes_leaves live occupied going (by rw [waits]) ?_ rfl), rfl, rfl, rfl⟩
  simp only [served_ag, waits, State.fenceTurn]
  rw [drained_done (by rw [served_ag]; exact empty)]

theorem joinRetire_completes {sp : Spawn} (waits : (s.agent a).wait = .join) (empty : (s.agent a).nb = [])
    (found : lookup (s.agent a).spawnid.toNat s.job.spawns = some sp)
    (complete : s.job.complete (s.agent a).spawnid.toNat sp = true) : Completes (.joinRetire a) s (fun u =>
      u.ag.joinst = (match sp.ended with
        | none => if sp.contained then 2#64 else 0#64
        | some .cancelled => 1#64
        | some .contained => 2#64) ∧
      u.ag.psLast = sp.ps ∧ u.ag.spawnid = 0#64 ∧ u.job.spawns = remove (s.agent a).spawnid.toNat s.job.spawns ∧
      u.ag.wait = .ready ∧ u.pc = (s.served a).pc + 4#64 ∧ (∀ r, u.g r = (s.served a).g r) ∧ SameMemory (s.served a) u) := by
  obtain ⟨l, job⟩ := served_job s a
  have turn := joinTurn_complete (s := s.served a) (sp := sp) (by rw [served_ag]; exact empty) (by rw [served_ag, job]; exact found)
    (by rw [served_ag, job]; exact complete)
  rw [served_ag] at turn
  refine ⟨_, (exec_joinRetire a s).trans (wakes_leaves live occupied going (by rw [waits]; rfl) turn rfl), joinstOf_eq sp, rfl, rfl, ?_,
    rfl, rfl, fun _ => rfl, sameMemory_refl (s.served a)⟩
  show remove _ (s.served a).job.spawns = _
  rw [job]

theorem nextDrainComplete_completes {n : Nat} (waits : (s.agent a).wait = .next n) (empty : (s.agent a).nb = [])
    (ready : ∀ r ∈ s.job.ready, r.core ≠ coreKey a) (basin : (s.job.die (vdieOf a)).basin = [])
    (spilled : (s.job.die (vdieOf a)).spilled = []) (entries : (s.job.die (vdieOf a)).entries = [])
    (again : s.job.again (vdieOf a) = none) : Completes (.nextDrainComplete a) s (fun u =>
      u.agId = a ∧ u.ag.occupied = false ∧ u.ag.wait = .ready ∧ ∀ r, u.g r = 0#64) := by
  obtain ⟨l, p, e, -⟩ := served_eq s a
  have idle : ((s.served a).setWait .ready).Idle := by
    rw [e]
    exact ⟨ready, basin, spilled, entries, again⟩
  obtain ⟨occupied', -, wait, agId, g, -⟩ := retire_vacates idle
  refine ⟨((s.served a).setWait .ready).retire,
    (exec_nextDrainComplete a s).trans (wakes_leaves live occupied going (by rw [waits]) ?_ (by rw [wait])), agId.trans (served_agId s a),
    occupied', wait, g⟩
  simp only [served_ag, waits]
  rw [nextTurn_done (by rw [served_ag]; exact empty)]

end Ends

/-! After a cause that no containment takes, the agent in focus is ready, or halts. -/

theorem deliverSupervisor_wait {s : State} (ready : s.ag.wait = .ready) (t : Trap) : (s.deliverSupervisor t).ag.wait = .ready := by
  unfold State.deliverSupervisor
  extract_lets put held
  rw [(showSince_onlyMemory _ s).1]
  split
  · rw [(firmwareCause_keeps _ t).1]
    exact ready
  split
  · rw [(firmwareCause_keeps _ _).1]
    exact ready
  · exact ready
  · next entry cell home u0 _ =>
    generalize (put u0 none).ag.role.saved = place
    obtain ⟨st, origin, kind⟩ := place
    show (State.postRecord _ _).ag.wait = _
    rw [(postRecord_keeps _ _).1]
    split_ifs <;> rfl

theorem raise_wait {t : Trap} (outside : t.contains = false) (s : State) : (s.raise t).ag.wait = .ready ∨ (s.raise t).ag.wait = .halt := by
  unfold State.raise
  split
  · exact .inl rfl
  extract_lets s0 _ s1 owned debug _
  have ready : s1.ag.wait = .ready := rfl
  clear_value s1
  split
  · rw [(showSince_onlyMemory _ s).1]
    exact .inl ready
  split
  · split
    · exact .inl (deliverSupervisor_wait ready t)
    split
    · exact .inl (deliverSupervisor_wait ready t)
    split
    · exact .inl (deliverSupervisor_wait ready t)
    · next sp _ _ _ entry cell home u _ =>
      rw [(showSince_onlyMemory _ s).1, (deliverUpcall_enters u sp t entry cell home).1]
      exact .inl rfl
  split
  · unfold State.deliverDebug
    rw [(trace_countsOnly _ _ _ _ _).ag, (showStops_countsOnly _).ag]
    exact .inl ready
  rw [outside, Bool.and_false, if_neg Bool.false_ne_true]
  split
  · rw [(firmwareCause_keeps _ t).1]
    exact .inr rfl
  · exact .inl (deliverSupervisor_wait ready t)

/-! The load of a copy's stamp (R210). -/

/-- Nothing stands in the way of an access where no streaming access is outstanding. -/
theorem clearWay_clear {s : State} (empty : s.ag.nb = []) (loose : ∀ l ∈ s.job.loose, l.agent ≠ s.agId) (pieces : List (Loc × Nat)) :
    s.clearWay pieces = (true, s) := by
  have none (p : Streaming → Bool) : s.firstStreaming p = Option.none := by rw [State.firstStreaming, empty, List.findIdx?_nil]
  have away (loc : Loc) (n : Nat) : s.looseAt loc n = false := by
    rw [State.looseAt, List.any_eq_false]
    intro l hl
    simp [loose l hl]
  have settled (p : Streaming → Bool) (n : Nat) : State.settle p n s = s := settle_none (by simp [empty]) n
  have nothing : pieces.any (fun y => s.looseAt y.1 y.2) = false := List.any_eq_false.mpr (fun y _ => by simp only [away, not_false_eq_true,
    Bool.false_eq_true])
  simp only [State.clearWay, settled, none, Option.isNone_none, nothing, Bool.not_false, Bool.and_self]

/-- A stamp's load that reaches its cell compares the low 40 bits (R210). -/
theorem perform_stamp {s0 s w : State} {seq c : Nat} {va : Word} {h : Option Nat}
    (checked : s.check s.ag.priv .load va 8 = .ok (w, .cell c h)) (awake : w.asleep (.cell c h) = false) (empty : w.ag.nb = [])
    (loose : ∀ l ∈ w.job.loose, l.agent ≠ w.agId) (share : w.share = none) (clean : w.poisoned c = false) :
    s0.perform s (.stamp seq) va 4 =
      if bytesAt w c 8 % 2 ^ 40 = seq then w.advance 4 else w.raise { cause := 0x41#8, addr := va } := by
  have effect : w.effect (w.atIssue (.stamp seq) (.cell c h)) (.stamp seq) va (.cell c h) 4 =
      if w.readNat c 8 % 2 ^ 40 = seq then .done w 0#5 0#64 else .trap { cause := 0x41#8, addr := va } := by
    have all : w.atIssue (.stamp seq) (.cell c h) = 16 := by simp only [State.atIssue, share, Option.getD_none]
    rw [all]
    simp only [State.effect, awake, OfNat.ofNat_ne_zero, decide_false, Bool.or_false, Bool.false_eq_true, if_false, State.readAt, clean]
  have reached : s0.perform s (.stamp seq) va 4 =
      w.finish (.stamp seq) va (.cell c h) 4 (w.effect (w.atIssue (.stamp seq) (.cell c h)) (.stamp seq) va (.cell c h) 4) := by
    unfold State.perform
    rw [show s.check s.ag.priv (MemOp.stamp seq).form va (MemOp.stamp seq).size = .ok (w, .cell c h) from checked]
    simp only [clearWay_clear empty loose]
  rw [reached, effect, readNat_eq_bytesAt]
  split <;> rfl

section Promise
variable {s : State} {a : Nat} (live : s.live = true) (occupied : (s.agent a).occupied = true) (going : (s.agent a).ending = false)
  {op : MemOp} {va target : Word} (waits : (s.agent a).wait = .cpwait op va target)
include live occupied going waits

theorem cpwait_early (early : s.pkg.cycle < target.toNat ∨ (s.served a).hasTurn = false) :
    exec (.cpwaitPromiseReached a) s = .next s := by
  refine (exec_cpwaitPromiseReached a s).trans (wakes_stays live occupied going (by rw [waits]) ?_)
  have no : (decide (target.toNat ≤ s.pkg.cycle) && (s.served a).hasTurn) = false := by
    rw [Bool.and_eq_false_iff, decide_eq_false_iff_not, Nat.not_le]
    exact early
  simp only [served_ag, waits, served_cycle, no, Bool.false_eq_true, if_false]

/-- At the first turn at or after the promise the stamp is loaded. -/
theorem cpwait_loads {u : State} (reached : target.toNat ≤ s.pkg.cycle) (turn : (s.served a).hasTurn = true)
    (does : ((s.served a).account (s.pkg.cycle + 1)).perform (((s.served a).account (s.pkg.cycle + 1)).setWait .ready) op va 4 = u)
    (left : u.ag.wait = .ready ∨ u.ag.wait = .halt) : exec (.cpwaitPromiseReached a) s = .next u := by
  refine (exec_cpwaitPromiseReached a s).trans (wakes_leaves live occupied going (by rw [waits]) ?_
    (by rcases left with e | e <;> rw [e]))
  simp only [served_ag, waits, served_cycle, reached, turn, decide_true, Bool.and_self, if_true]
  exact does

/-- What the load of the stamp comes to (R210). -/
theorem cpwait_answers {seq c : Nat} {w : State} {h : Option Nat} (stamp : op = .stamp seq) (reached : target.toNat ≤ s.pkg.cycle)
    (turn : (s.served a).hasTurn = true)
    (checked : (((s.served a).account (s.pkg.cycle + 1)).setWait .ready).check (s.agent a).priv .load va 8 = .ok (w, .cell c h))
    (awake : w.asleep (.cell c h) = false) (empty : w.ag.nb = []) (loose : ∀ l ∈ w.job.loose, l.agent ≠ a) (share : w.share = none)
    (clean : w.poisoned c = false) :
    (bytesAt w c 8 % 2 ^ 40 = seq → Completes (.cpwaitPromiseReached a) s (JumpedTo w (w.pc + 4#64))) ∧
    (bytesAt w c 8 % 2 ^ 40 ≠ seq → exec (.cpwaitPromiseReached a) s = .next (w.raise { cause := 0x41#8, addr := va })) := by
  subst stamp
  have counted := account_countsOnly (s.served a) (s.pkg.cycle + 1)
  have priv : (((s.served a).account (s.pkg.cycle + 1)).setWait .ready).ag.priv = (s.agent a).priv := by
    rw [setWait_ag_priv, counted.ag, served_ag]
  have id : w.agId = a := (check_agId checked).trans (counted.agId.trans (served_agId s a))
  have ready : w.ag.wait = .ready := congrArg Agent.wait (check_onlyMemory checked).ag
  have does := perform_stamp (s0 := (s.served a).account (s.pkg.cycle + 1)) (seq := seq) (by rw [priv]; exact checked) awake empty
    (by rw [id]; exact loose) share clean
  refine ⟨fun yes => ⟨w.advance 4, ?_, setPc_jumped w _⟩, fun no => ?_⟩
  · rw [if_pos yes] at does
    exact cpwait_loads live occupied going waits reached turn does (.inl ready)
  · rw [if_neg no] at does
    exact cpwait_loads live occupied going waits reached turn does (raise_wait (by simp [Trap.contains]) w)

end Promise

end Sys2Proof.Machine
end


section
/-! PROOFS. Requests and their replies (O49): running sums, requests at their home, replies that land, streaming accesses, and what the
tables of parked and watching accesses do by themselves. -/

namespace Sys2Proof.Machine

theorem exec_psWindow (id : Nat) (s : State) : exec (.psWindow id) s = passing s (tryPsWindow id s) := rfl
theorem exec_psResult (a : Nat) (s : State) : exec (.psResult a) s = passing s (tryPsResult a s) := rfl
theorem exec_memoryRequestAtHome (a : Nat) (s : State) :
    exec (.memoryRequestAtHome a) s = passing s (tryMemoryRequestAtHome a s) := rfl
theorem exec_loadReply (a : Nat) (s : State) : exec (.loadReply a) s = passing s (tryLoadReply a s) := rfl
theorem exec_streamingAccessPerform (a i : Nat) (s : State) :
    exec (.streamingAccessPerform a i) s = passing s (tryStreamingAccessPerform a i s) := rfl
theorem exec_idleWake (a : Nat) (s : State) : exec (.idleWake a) s = passing s (tryIdleWake a s) := rfl
theorem exec_mwaitPoll (a : Nat) (s : State) : exec (.mwaitPoll a) s = passing s (tryMwaitPoll a s) := rfl
theorem exec_watchLimit (a : Nat) (s : State) : exec (.watchLimit a) s = passing s (tryWatchLimit a s) := rfl

theorem psWindows_eq {s : State} {id : Nat} {sp : Spawn} (found : lookup id s.job.spawns = some sp) (bound : Nat) :
    s.psWindows id bound = { s with job := { s.job with
      psRequests := (applyPs id bound s.job.psRequests sp.ps).1
      spawns := assign id { sp with ps := (applyPs id bound s.job.psRequests sp.ps).2 } s.job.spawns } } := by
  simp only [State.psWindows, found]

/-- The windows that have ended take effect on the registers of their spawn (R28). -/
theorem psWindow_takesEffect {s : State} {id : Nat} {sp : Spawn} {i : Fin 8} (live : s.live = true) (pending : s.job.psRequests ≠ [])
    (due : ∀ r ∈ s.job.psRequests, r.spawn = id ∧ r.value = none ∧ r.lost ≠ some .request ∧ r.window < s.pkg.cycle / 16 ∧ r.n = i.val)
    (found : lookup id s.job.spawns = some sp) : Completes (.psWindow id) s (fun u =>
      lookup id u.job.spawns = some { sp with ps := sp.ps.set i (psBefore i sp.ps s.job.psRequests s.job.psRequests.length) } ∧
      (∀ k < s.job.psRequests.length, (u.job.psRequests[k]?).bind (fun r => r.value) = some (psBefore i sp.ps s.job.psRequests k)) ∧
      u.ag = s.ag ∧ SameMemory s u) := by
  obtain ⟨total, values⟩ := applyPs_sums s.job.psRequests sp.ps due
  have offers : s.job.psRequests.any (fun r => r.spawn == id && r.value.isNone && decide (r.lost ≠ some .request) &&
      decide (r.window < s.pkg.cycle / 16)) = true := by
    obtain ⟨r, hr⟩ := List.exists_mem_of_ne_nil _ pending
    obtain ⟨spawn, value, lost, window, -⟩ := due r hr
    exact List.any_eq_true.mpr ⟨r, hr, by simp [spawn, value, lost, window]⟩
  refine ⟨s.psWindows id (s.pkg.cycle / 16), ?_, ?_⟩
  · rw [exec_psWindow, tryPsWindow, live, offers]
    rfl
  · rw [psWindows_eq found, total]
    exact ⟨lookup_assign_self id _ s.job.spawns, values, rfl, sameMemory_refl s⟩

/-- A request that has its value keeps it, and its place among those of its agent. -/
theorem applyPs_find {id bound a : Nat} {r : PsRequest} {v : Word} (answered : r.value = some v) {rs : List PsRequest}
    (ps : Vector Word 8) (found : rs.find? (fun x => x.agent == a) = some r) :
    (applyPs id bound rs ps).1.find? (fun x => x.agent == a) = some r := by
  induction rs generalizing ps with
  | nil => cases found
  | cons x rs ih =>
    by_cases mine : x.agent = a
    · obtain rfl : x = r := by simpa [mine] using found
      simp [applyPs, answered, mine]
    · have rest : rs.find? (fun x => x.agent == a) = some r := by simpa [mine] using found
      unfold applyPs
      split
      · simp [mine, ih _ rest]
      · simp [mine, ih _ rest]

theorem psWindows_find {s : State} {a : Nat} {r : PsRequest} {v : Word} (answered : r.value = some v)
    (found : s.job.psRequests.find? (fun x => x.agent == a) = some r) (id bound : Nat) :
    (s.psWindows id bound).job.psRequests.find? (fun x => x.agent == a) = some r := by
  cases spawn : lookup id s.job.spawns with
  | none =>
    rw [State.psWindows, spawn]
    exact found
  | some sp =>
    rw [psWindows_eq spawn]
    exact applyPs_find answered sp.ps found

/-- What is left of requests when an agent's are dropped. -/
theorem filter_agent {α : Type} (agent : α → Nat) (a : Nat) {l : List α} : ∀ y ∈ l.filter (fun x => !(agent x == a)), agent y ≠ a := by
  intro y hy
  simpa using (List.mem_filter.mp hy).2

/-- A value that lands ends its agent's wait, and nothing else of the agent changes. -/
theorem setG_lands {t w : State} (ag : w.ag = t.ag) (mem : SameMemory t w) (d : Reg) (v : Word) : let u := (w.setG d v).setWait .ready
    GotG t u d v ∧ u.ag.wait = .ready ∧ u.pc = t.pc ∧ u.job = w.job ∧ SameMemory t u := by
  obtain ⟨bytes, bits, marks⟩ := mem
  obtain ⟨bytes', bits', marks'⟩ : SameMemory w (w.setG d v) := sameMemory_of_eq (setG_mem w d v) (setG_fe w d v) (setG_poison w d v)
  refine ⟨fun r => ?_, rfl, ?_, setG_job w d v, fun x => (bytes' x).trans (bytes x), fun x => (bits' x).trans (bits x),
    fun x => (marks' x).trans (marks x)⟩
  · rw [setWait_g, g_setG, g_of_ag ag]
  · show (w.setG d v).ag.pc = t.ag.pc
    rw [setG_ag_pc, ag]

/-- The result of a `ps` lands when it is due (R28). -/
theorem psResult_lands {s : State} {a : Nat} {r : PsRequest} {v : Word} (live : s.live = true)
    (found : s.job.psRequests.find? (fun x => x.agent == a) = some r) (waits : (s.agent a).wait = .ps) (due : r.due = s.pkg.cycle)
    (kept : r.lost = none) (answered : r.value = some v) : Completes (.psResult a) s (fun u =>
      GotG (s.served a) u r.d v ∧ u.ag.wait = .ready ∧ u.pc = (s.served a).pc ∧ (∀ y ∈ u.job.psRequests, y.agent ≠ a) ∧
      SameMemory (s.served a) u) := by
  obtain ⟨l, job⟩ := served_job s a
  obtain ⟨m, focus⟩ := focus_eq s a
  have asked : (s.served a).job.psRequests.find? (fun x => x.agent == a) = some r := by rw [job]; exact found
  have asked' : (s.focus a).job.psRequests.find? (fun x => x.agent == a) = some r := by rw [focus]; exact found
  let u := (s.served a).psWindows r.spawn (s.pkg.cycle / 16)
  have value : u.job.psRequests.find? (fun x => x.agent == a) = some r := psWindows_find answered asked _ _
  let w : State := { u with job := { u.job with psRequests := u.job.psRequests.filter (fun x => !(x.agent == a)) } }
  obtain ⟨rs, sps, frame⟩ := psWindows_frame (s.served a) r.spawn (s.pkg.cycle / 16)
  have same : w.ag = (s.served a).ag ∧ SameMemory (s.served a) w := by
    have frame' : u = { s.served a with job := { (s.served a).job with psRequests := rs, spawns := sps } } := frame
    unfold w
    rw [frame']
    exact ⟨rfl, sameMemory_refl (s.served a)⟩
  obtain ⟨got, ready, pc, jobOf, mem⟩ := setG_lands same.1 same.2 r.d v
  refine ⟨((w.setG r.d v).setTransaction none).setWait .ready, ?_, got, ready, pc, ?_, mem⟩
  · have try_ : tryPsResult a s = some ((((w.setG r.d
        (((u.job.psRequests.find? (fun x => x.agent == a)).bind (fun x => x.value)).getD 0#64)).setTransaction none).setWait .ready)) := by
      unfold tryPsResult
      simp only [asked', focus_live, live, focus_ag, waits, focus_pkg, due, kept, Bool.not_true, ne_eq, not_true_eq_false, decide_false,
        Bool.or_false, Option.isSome_none, Bool.false_eq_true, if_false]
      rw [← focus_pkg s a, account_focus, focus_pkg]
    rw [exec_psResult, try_, value, Option.bind_some, answered, Option.getD_some, passing_some]
  · show ∀ y ∈ (w.setG r.d v).job.psRequests, y.agent ≠ a
    rw [setG_job]
    exact filter_agent PsRequest.agent a

/-! A request at its home (R64). -/

/-- An asleep place or a lost share aside, a plain load performs with the value its cell holds. -/
theorem effect_load {s : State} {n c k len : Nat} {sg : Bool} {d : Reg} {va : Word} {h : Option Nat} (some : k ≠ 0)
    (awake : s.asleep (.cell c h) = false) (clean : s.poisoned c = false) :
    s.effect k (.load n sg d) va (.cell c h) len = .done s d (landed n sg (s.readNat c n)) := by
  simp only [State.effect, awake, some, decide_false, Bool.or_false, Bool.false_eq_true, if_false, State.readAt, clean]

/-- No replay holds a write at a quiet home (R371). -/
theorem held_quiet {s : State} {home : Option Nat} (q : QuietHome s home) (w : Writer) (a n : Nat) : s.held w a n home = false := by
  unfold State.held State.replay
  cases home with
  | none => rfl
  | some h =>
    have off : field (s.pkg.reg (s.job.sillage h)).toNat 62 2 = 0 := by
      rw [field, q.2 h rfl]
      rfl
    simp only [off, OfNat.zero_ne_ofNat, decide_false, Bool.false_and, Bool.false_eq_true, if_false, Option.isNone_some]

/-- A store at a quiet home puts its bytes there, and leaves every full/empty bit as it was. -/
theorem store_holds {s : State} {home : Option Nat} (canonical : Canonical s) (quiet : QuietHome s home) (w : Writer) (a n v : Nat) :
    Holds s (s.store w a n v home) a n v ∧ ∀ b, (s.store w a n v home).feBit b = s.feBit b := by
  refine ⟨fun b => ?_, fun b => ?_⟩
  · rw [State.readByte, store_mem_quiet quiet, read_writeNat a n v b canonical.1, State.readByte]
  · have fe : (s.store w a n v home).fe = s.fe := by
      unfold State.store
      extract_lets s1
      have q1 : QuietHome (if n = 8 then s1.setPoison a false else s1) home := by
        split <;> exact quiet
      rw [written_quiet q1, State.watchWrite]
      split <;> split <;> rfl
    rw [State.feBit, fe, State.feBit]

theorem effect_store {s : State} {n c k len : Nat} {v va : Word} {h : Option Nat} (some : k ≠ 0) (awake : s.asleep (.cell c h) = false)
    (quiet : QuietHome s h) :
    s.effect k (.store n v) va (.cell c h) len = .done (s.store (s.writer 0) c n v.toNat h) 0#5 0#64 := by
  have free : s.heldAt 0 (.cell c h) n = false := held_quiet quiet _ c n
  simp only [State.effect, awake, some, decide_false, Bool.or_false, Bool.false_eq_true, if_false, free, State.writeAt]

theorem noteReply_countsOnly (s : State) (op : MemOp) (x : Transaction) : CountsOnly s ((s.noteDedup op).setTransaction (some x)) := by
  unfold State.noteDedup
  split
  · exact ⟨_, rfl, rfl, rfl⟩
  · exact ⟨_, rfl, rfl, rfl⟩

/-- A load or store that performs at its home leaves its agent waiting for the reply, past the instruction. -/
theorem atHome_done {s t : State} {op : MemOp} {va v : Word} {loc : Loc} {len since : Nat} {d : Reg} (share : s.share = none)
    (plain : (∃ n sg r, op = .load n sg r) ∨ ∃ n x, op = .store n x) (does : s.effect 16 op va loc len = .done t d v) :
    ∃ u, CountsOnly t u ∧ s.atHome op va loc len since = some ((u.setWait (.reply d v)).advance len) := by
  let x : Transaction := s.transaction.getD { agent := s.slotPlace s.agId, sent := since, retries := 0 }
  have home : s.atHome op va loc len since =
      some (((if s.crosses loc then (t.noteDedup op).setTransaction (some x) else t).setWait (.reply d v)).advance len) := by
    unfold State.atHome
    rw [share, Option.getD_none, does]
    rcases plain with ⟨n, sg, r, rfl⟩ | ⟨n, y, rfl⟩ <;> rfl
  refine ⟨_, ?_, home⟩
  split
  · exact noteReply_countsOnly t op x
  · exact .refl t

/-- A request of a load or store on its way performs at its home. -/
theorem memoryRequest_performs {s u : State} {a : Nat} {op : MemOp} {va : Word} {loc : Loc} {len since : Nat} (live : s.live = true)
    (waits : (s.agent a).wait = .request op va loc len since) (plain : (∃ n sg r, op = .load n sg r) ∨ ∃ n x, op = .store n x)
    (does : (s.served a).atHome op va loc len since = some u) : exec (.memoryRequestAtHome a) s = .next u := by
  have performed : (s.focus a).performRequest a = some u := by
    have here : (s.focus a).focus a = s.focus a := by rw [State.focus, if_pos (focus_agId s a).symm]
    simp only [State.performRequest, here, focus_ag, waits, account_focus, does]
  have made : tryMemoryRequestAtHome a s = some u := by
    unfold tryMemoryRequestAtHome
    simp only [focus_ag, waits, focus_live, live, if_true]
    rcases plain with ⟨n, sg, r, rfl⟩ | ⟨n, y, rfl⟩ <;> simp only [performed]
  rw [exec_memoryRequestAtHome, made, passing_some]

section Requests
variable {s : State} {a : Nat} (live : s.live = true) (share : s.share = none)
include live share

theorem loadRequest_performs {n c len since : Nat} {sg : Bool} {d : Reg} {va : Word} {h : Option Nat}
    (waits : (s.agent a).wait = .request (.load n sg d) va (.cell c h) len since)
    (awake : (s.served a).asleep (.cell c h) = false) (clean : (s.served a).poisoned c = false) :
    Completes (.memoryRequestAtHome a) s (fun u =>
      u.ag.wait = .reply d (landed n sg ((s.served a).readNat c n)) ∧ u.pc = (s.served a).pc + BitVec.ofNat 64 len ∧
      (∀ r, u.g r = (s.served a).g r) ∧ SameMemory (s.served a) u) := by
  obtain ⟨u, ⟨p, rfl, -, -⟩, home⟩ := atHome_done (since := since) ((served_share s a).trans share) (.inl ⟨n, sg, d, rfl⟩)
    (effect_load (by decide) awake clean)
  exact ⟨_, memoryRequest_performs live waits (.inl ⟨n, sg, d, rfl⟩) home, rfl, rfl, fun _ => rfl, sameMemory_refl (s.served a)⟩

theorem storeRequest_performs {n c len since : Nat} {v va : Word} {h : Option Nat}
    (waits : (s.agent a).wait = .request (.store n v) va (.cell c h) len since)
    (awake : (s.served a).asleep (.cell c h) = false) (canonical : Canonical (s.served a)) (quiet : QuietHome (s.served a) h) :
    Completes (.memoryRequestAtHome a) s (fun u =>
      u.ag.wait = .reply 0#5 0#64 ∧ u.pc = (s.served a).pc + BitVec.ofNat 64 len ∧ (∀ r, u.g r = (s.served a).g r) ∧
      Holds (s.served a) u c n v.toNat ∧ ∀ b, u.feBit b = (s.served a).feBit b) := by
  obtain ⟨u, ⟨p, rfl, -, -⟩, home⟩ := atHome_done (va := va) (len := len) (since := since) ((served_share s a).trans share)
    (.inr ⟨n, v, rfl⟩) (effect_store (by decide) awake quiet)
  have kept := store_onlyMemory (s.served a) ((s.served a).writer 0) c n v.toNat h
  obtain ⟨holds, bits⟩ := store_holds canonical quiet ((s.served a).writer 0) c n v.toNat
  refine ⟨_, memoryRequest_performs live waits (.inr ⟨n, v, rfl⟩) home, rfl, ?_, fun r => g_of_ag kept.ag r, holds, bits⟩
  show ((s.served a).store ((s.served a).writer 0) c n v.toNat h).ag.pc + _ = _
  rw [kept.ag]
  rfl

end Requests

section Replies
variable {s : State} {a : Nat}

/-- A reply on its way lands. -/
theorem loadReply_lands {u : State} (live : s.live = true) (does : (s.served a).replyLands = some u) :
    exec (.loadReply a) s = .next u := by
  have made : tryLoadReply a s = some u := by simp only [tryLoadReply, focus_live, live, if_true, account_focus, does]
  rw [exec_loadReply, made, passing_some]

/-- An agent that is to end takes no reply (R45). -/
theorem loadReply_ending (ending : (s.agent a).ending = true) : exec (.loadReply a) s = .next s := by
  have none : (s.served a).replyLands = Option.none := by
    have ends : ((s.served a).setTransaction Option.none).ag.ending = true := (congrArg Agent.ending (served_ag s a)).trans ending
    simp only [State.replyLands, ends, if_true]
  have made : tryLoadReply a s = Option.none := by
    simp only [tryLoadReply, account_focus, none, ite_self]
  rw [exec_loadReply, made, passing_none]

variable (live : s.live = true) (going : (s.agent a).ending = false)
include live going

theorem loadReply_reply {d : Reg} {v : Word} (waits : (s.agent a).wait = .reply d v) : Completes (.loadReply a) s (fun u =>
    GotG (s.served a) u d v ∧ u.ag.wait = .ready ∧ u.pc = (s.served a).pc ∧ u.job = (s.served a).job ∧
      SameMemory (s.served a) u) := by
  have ends : ((s.served a).setTransaction none).ag.ending = false := (congrArg Agent.ending (served_ag s a)).trans going
  have wait : ((s.served a).setTransaction none).ag.wait = .reply d v := (congrArg Agent.wait (served_ag s a)).trans waits
  have does : (s.served a).replyLands = some ((((s.served a).setTransaction none).setG d v).setWait .ready) := by
    simp only [State.replyLands, ends, wait, Bool.false_eq_true, if_false]
  exact ⟨_, loadReply_lands live does,
    setG_lands (t := s.served a) (w := (s.served a).setTransaction none) rfl (sameMemory_refl (s.served a)) d v⟩

theorem loadReply_park {o : FeOp} {d : Reg} {v va y : Word} {len : Nat} {p : Parked}
    (waits : (s.agent a).wait = .park (.fe o d v) va len) (found : s.job.parked.find? (fun p => p.agent == a) = some p)
    (ended : p.ended = some (.ok y)) : Completes (.loadReply a) s (fun u =>
      GotG (s.served a) u d y ∧ u.ag.wait = .ready ∧ u.ag.wakes = 0 ∧ u.pc = (s.served a).pc + BitVec.ofNat 64 len ∧
      (∀ q ∈ u.job.parked, q.agent ≠ a) ∧ SameMemory (s.served a) u) := by
  obtain ⟨l, job⟩ := served_job s a
  have wait : (if ((s.served a).setTransaction none).ag.ending = true then Wait.ready else ((s.served a).setTransaction none).ag.wait) =
      .park (.fe o d v) va len := by
    show (if (s.served a).ag.ending = true then Wait.ready else (s.served a).ag.wait) = _
    rw [served_ag, going, if_neg Bool.false_ne_true, waits]
  have parked : ((s.served a).setTransaction none).job.parked.find?
      (fun p => p.agent == ((s.served a).setTransaction none).agId) = some p := by
    show (s.served a).job.parked.find? (fun p => p.agent == (s.served a).agId) = _
    rw [job, served_agId]
    exact found
  let t := (s.served a).setTransaction none
  let w : State := { t.releaseWaits with ag := { t.ag with wakes := 0, wait := .ready } }
  have does : (s.served a).replyLands = some ((w.setG d y).advance len) := by
    simp only [State.replyLands, wait, parked, ended, Option.bind_some]
    rfl
  have mem : SameMemory t w := by
    obtain ⟨_, _, _, frame⟩ := releaseWaits_eq t
    unfold w
    rw [frame]
    exact sameMemory_refl t
  obtain ⟨got, -, pc, jobOf, same⟩ := setG_lands (t := { t with ag := w.ag }) (w := w) rfl mem d y
  refine ⟨_, loadReply_lands live does, got, setG_ag_wait w d y, setG_ag_wakes w d y, ?_, ?_, same⟩
  · show (w.setG d y).ag.pc + _ = _
    rw [setG_ag_pc]
    rfl
  · show ∀ q ∈ (w.setG d y).job.parked, q.agent ≠ a
    rw [setG_job]
    intro q hq own
    exact filter_agent Parked.agent (s.served a).agId q hq (own.trans (served_agId s a).symm)

end Replies

section Streaming
variable {s : State} {a i : Nat} {y : Streaming} (live : s.live = true) (counted : (s.agent a).nb[i]? = some y)
  (outstanding : y.performed = false) (first : olderSame (s.agent a).nb i = none)
include live counted outstanding first

/-- An outstanding streaming access performs, and is marked (R66). -/
theorem streaming_performs {t : State} {v : Nat} (does : (s.focus a).doStreaming y = some (.ok v, t)) :
    exec (.streamingAccessPerform a i) s =
      .next ((if y.isStore then t else t.setG y.dest (landed y.size true v)).markStreaming i none) := by
  have inRange : ¬ (s.agent a).nb.length ≤ i := Nat.not_le.mpr (List.getElem?_eq_some_iff.mp counted).1
  have made : tryStreamingAccessPerform a i s =
      some ((if y.isStore then t else t.setG y.dest (landed y.size true v)).markStreaming i none) := by
    simp only [tryStreamingAccessPerform, State.performStreaming, focus_ag, inRange, if_false, counted, outstanding, first,
      Option.isSome_none, Bool.or_self, Bool.false_eq_true, does, Option.map_some, focus_live, live, if_true]
  rw [exec_streamingAccessPerform, made, passing_some]

omit live outstanding first in
/-- The last streaming access of an agent leaves its counter once it has performed (R162). -/
theorem markStreaming_last {u : State} (nb : u.ag.nb = (s.agent a).nb) (only : (s.agent a).nb = [y]) :
    (u.markStreaming i none).ag.nb = [] := by
  have zero : i = 0 := by
    rw [only] at counted
    simpa using (List.getElem?_eq_some_iff.mp counted).1
  subst zero
  simp only [State.markStreaming, nb, only, updateAt, leaveCounters, Option.isSome_none, Bool.false_eq_true, if_false, if_true, ite_self]

theorem streaming_load {c : Nat} {h : Option Nat} (loc : y.loc = .cell c h) (load : y.isStore = false)
    (clean : (s.focus a).poisoned c = false) : Completes (.streamingAccessPerform a i) s (fun u =>
      GotG (s.focus a) u y.dest (landed y.size true ((s.focus a).readNat c y.size)) ∧ u.pc = (s.focus a).pc ∧
      ((s.agent a).nb = [y] → u.ag.nb = []) ∧ SameMemory (s.focus a) u) := by
  have does : (s.focus a).doStreaming y = some (.ok ((s.focus a).readNat c y.size), s.focus a) := by
    simp only [State.doStreaming, load, Bool.false_eq_true, if_false, loc, State.readAt, clean]
  have runs := streaming_performs live counted outstanding first does
  rw [load, if_neg Bool.false_ne_true] at runs
  obtain ⟨got, -, pc, -, mem⟩ := setG_lands rfl (sameMemory_refl (s.focus a)) y.dest (landed y.size true ((s.focus a).readNat c y.size))
  exact ⟨_, runs, got, pc, markStreaming_last counted (by rw [setG_ag_nb, focus_ag]), mem⟩

theorem streaming_store {c : Nat} {h : Option Nat} (loc : y.loc = .cell c h) (store : y.isStore = true)
    (canonical : Canonical (s.focus a)) (quiet : QuietHome (s.focus a) h) : Completes (.streamingAccessPerform a i) s (fun u =>
      Holds (s.focus a) u c y.size y.data.toNat ∧ u.pc = (s.focus a).pc ∧ (∀ r, u.g r = (s.focus a).g r) ∧
      ((s.agent a).nb = [y] → u.ag.nb = []) ∧ ∀ b, u.feBit b = (s.focus a).feBit b) := by
  have does : (s.focus a).doStreaming y = some (.ok 0, (s.focus a).store y.by_ c y.size y.data.toNat h) := by
    simp only [State.doStreaming, store, if_true, loc, State.heldBy, held_quiet quiet, Bool.false_eq_true, if_false, State.writeAt,
      Option.map_some]
  have runs := streaming_performs live counted outstanding first does
  rw [store, if_pos rfl] at runs
  have kept := store_onlyMemory (s.focus a) y.by_ c y.size y.data.toNat h
  obtain ⟨holds, bits⟩ := store_holds canonical quiet y.by_ c y.size y.data.toNat
  refine ⟨_, runs, holds, ?_, fun r => g_of_ag kept.ag r, markStreaming_last counted (by rw [kept.ag, focus_ag]), bits⟩
  show ((s.focus a).store y.by_ c y.size y.data.toNat h).ag.pc = _
  rw [kept.ag]
  rfl

end Streaming

section Tables
variable {s : State} {a : Nat}

/-- A retry that leaves its dword's bit as it was changes the parked operation alone (R164). -/
theorem idleWake_retries {p q : Parked} (live : s.live = true)
    (found : s.job.parked.find? (fun p => p.agent == a && p.ended.isNone) = some p) (idle : p.tried + 65536 ≤ s.pkg.cycle)
    (retried : s.retry p = (q, s)) : exec (.idleWake a) s =
      .next { s with job := { s.job with parked := s.job.parked.map (fun y => if y.agent = a then q else y) } } := by
  have mine : p.agent = a := by
    have := List.find?_some found
    simp only [Bool.and_eq_true, beq_iff_eq] at this
    exact this.1
  let u : State := { s with job := { s.job with parked := s.job.parked.map (fun y => if y.agent = a then q else y) } }
  have same : s.retryOne p = u := by
    have unchanged : u.bitChanged p.cell (s.feBit p.cell) = u := if_pos rfl
    simp only [State.retryOne, retried, mine]
    exact unchanged
  have made : tryIdleWake a s = some u := by
    simp only [tryIdleWake, found, live, idle, decide_true, Bool.true_or, Bool.and_self, if_true, same]
  rw [exec_idleWake, made, passing_some]

theorem retry_empty {p : Parked} (op : p.op = .ldfe ∨ p.op = .ldff) (empty : s.feBit p.cell = false) : s.retry p = (s.wake p, s) := by
  rcases op with e | e <;>
    simp only [State.retry, e, reduceCtorEq, decide_false, Bool.false_and, Bool.false_eq_true, if_false, State.tryFe, empty,
      Bool.not_false, if_true]

theorem retry_full {p : Parked} (op : p.op = .ldff) (post : p.post = none) (full : s.feBit p.cell = true)
    (clean : s.poisoned p.cell = false) :
    s.retry p = ({ p with ended := some (.ok (s.readWord p.cell)), tried := s.pkg.cycle }, s) := by
  simp only [State.retry, op, reduceCtorEq, decide_false, Bool.false_and, Bool.false_eq_true, if_false, State.tryFe, full,
    Bool.not_true, clean, post]

/-- A polling `mwait` loads its dword (R70). -/
theorem mwaitPoll_loads {p : Armed} {c : Nat} {h : Option Nat} (live : s.live = true)
    (found : s.job.armed.find? (fun p => p.agent == a && p.polling && p.ended.isNone) = some p) (time : p.polled + 1024 ≤ s.pkg.cycle)
    (loc : p.loc = .cell c h) (clean : s.poisoned c = false) : exec (.mwaitPoll a) s =
      .next { s with job := { s.job with armed := s.job.armed.map (fun y => if y.agent = a then
        { p with
          polled := s.pkg.cycle
          ended := if p.test.holds (s.readWord (c / 8 * 8)) p.v then some none else none } else y) } } := by
  have going : p.ended = none := by
    have := List.find?_some found
    simp only [Bool.and_eq_true, Option.isNone_iff_eq_none] at this
    exact this.2
  have tried : ({ s.tryWatch p with polled := s.pkg.cycle } : Armed) = { p with
      polled := s.pkg.cycle
      ended := if p.test.holds (s.readWord (c / 8 * 8)) p.v then some none else none } := by
    have watch : s.tryWatch p = if p.test.holds (s.readWord (c / 8 * 8)) p.v then p.ends s.pkg.cycle none else p := by
      simp only [State.tryWatch, loc, clean, Bool.false_eq_true, if_false]
    rw [watch]
    split
    · rfl
    · rw [← going]
  have made : tryMwaitPoll a s = some { s with job := { s.job with armed := s.job.armed.map (fun y => if y.agent = a then
      { p with
        polled := s.pkg.cycle
        ended := if p.test.holds (s.readWord (c / 8 * 8)) p.v then some none else none } else y) } } := by
    simp only [tryMwaitPoll, found, live, time, decide_true, Bool.and_self, if_true, loc, tried]
  rw [exec_mwaitPoll, made, passing_some]

theorem watchLimit_ending (ending : (s.agent a).ending = true) : exec (.watchLimit a) s = .next s := by
  have made : tryWatchLimit a s = none := by
    unfold tryWatchLimit
    simp only [focus_ag, ending, Bool.not_true, Bool.and_false, Bool.false_and, Bool.false_eq_true, if_false]
    split <;> rfl
  rw [exec_watchLimit, made, passing_none]

/-- The watch limit is a cause of the agent that waits, whose watch is given up (R170). -/
theorem watchLimit_raises {op : MemOp} {va : Word} {len : Nat} {p : Armed} (live : s.live = true)
    (waits : (s.agent a).wait = .watch op va len) (found : s.job.armed.find? (fun p => p.agent == a && p.ended.isNone) = some p)
    (going : (s.agent a).ending = false) (time : 2 ^ 32 ≤ s.pkg.cycle - p.since + p.before) :
    ∃ w : State, exec (.watchLimit a) s = .next (w.raise { cause := 0x43#8, addr := va }) ∧
      w.ag = { (s.served a).ag with waited := 0 } ∧ SameMemory (s.served a) w ∧ ∀ q ∈ w.job.armed, q.agent ≠ a := by
  obtain ⟨l, focus⟩ := focus_eq s a
  have found' : (s.focus a).job.armed.find? (fun p => p.agent == a && p.ended.isNone) = some p := by rw [focus]; exact found
  have made : tryWatchLimit a s = some (({ (s.served a).releaseWaits with
      ag := { (s.served a).releaseWaits.ag with waited := 0 } } : State).raise { cause := 0x43#8, addr := va }) := by
    unfold tryWatchLimit
    simp only [focus_ag, waits, found', focus_live, live, going, focus_pkg, time, Bool.not_false, decide_true, Bool.and_self, if_true]
    rw [← focus_pkg s a, account_focus]
  obtain ⟨d, k, m, frame⟩ := releaseWaits_eq (s.served a)
  refine ⟨_, by rw [exec_watchLimit, made, passing_some], ?_, ?_, fun q hq own => ?_⟩
  · rw [frame]
  · rw [frame]
    exact sameMemory_refl (s.served a)
  · exact filter_agent Armed.agent (s.served a).agId q hq (own.trans (served_agId s a).symm)

end Tables

/-- A long-latency result that lands writes its register and its flags, and ends the wait (R145, R199). -/
theorem landGpr_changes (t : State) (d : Reg) (v fl : Word) : let u := ((t.setG d v).orFlags fl).setWait .ready
    GotG t u d v ∧ u.ag.rmode = t.ag.rmode ||| fl ∧ u.ag.wait = .ready ∧
      { u with ag := { u.ag with g := t.ag.g, rmode := t.ag.rmode, wait := t.ag.wait } } = t := by
  refine ⟨fun r => g_setG t d r v, congrArg (· ||| fl) (setG_ag_rmode t d v), rfl, ?_⟩
  unfold State.setG
  split <;> rfl

theorem landVec_changes (t : State) (d : VReg) (v : VWord) (fl : Word) : let u := ((t.setV d v).orFlags fl).setWait .ready
    (∀ r, u.v r = if r = d then v else t.v r) ∧ u.ag.rmode = t.ag.rmode ||| fl ∧ u.ag.wait = .ready ∧
      { u with ag := { u.ag with v := t.ag.v, rmode := t.ag.rmode, wait := t.ag.wait } } = t :=
  ⟨fun r => v_setV t d r v, rfl, rfl, rfl⟩

/-- Settles O49: each step about a wait does, on the agent in focus with its turns counted, what its instruction was to do; the sums of a
window by induction over its requests. -/
theorem waitsEndWhenTheirTimeComes : Obligations.WaitsEndWhenTheirTimeComes := by
  intro a s x f t now die live
  refine ⟨fun ending => ?_, fun occupied going => ⟨?_, ?_, ?_, ?_, ?_, ?_, ?_, ?_⟩, ?_, ?_, ?_, ?_, ?_, ?_, ?_, ?_, ?_, ?_,
    fun m line => rfl⟩
  · obtain ⟨fence, waitc, sleep, cpwait, join, next, long⟩ := endings_abandon ending
    exact ⟨loadReply_ending ending, watchLimit_ending ending, fence, waitc, sleep, cpwait, join, next, long⟩
  · exact fun due d v fl waits time => ⟨_, longLatencyResult_gpr live occupied going waits time, landGpr_changes t d v fl⟩
  · exact fun due d v fl waits time => ⟨_, longLatencyResult_vec live occupied going waits time, landVec_changes t d v fl⟩
  · exact fun c waits time => sleepWake_completes live occupied going waits time
  · exact fun nl ns nc nt waits ok loads stores copies tasks =>
      waitcComplete_completes live occupied going waits ok loads stores copies tasks
  · exact fun waits empty => fenceComplete_completes live occupied going waits empty
  · intro op va target seq w c h waits stamp u
    exact ⟨cpwait_early live occupied going waits, fun reached turn checked awake empty loose share clean =>
      cpwait_answers live occupied going waits stamp reached turn checked awake empty loose share clean⟩
  · exact fun sp waits empty found complete => joinRetire_completes live occupied going waits empty found complete
  · exact fun n waits empty ready basin spilled entries again =>
      nextDrainComplete_completes live occupied going waits empty ready basin spilled entries again
  · exact fun id sp i pending due found => psWindow_takesEffect live pending due found
  · exact fun r v found waits due kept answered => psResult_lands live found waits due kept answered
  · exact fun n sg d va c h len since waits share awake clean => loadRequest_performs live share waits awake clean
  · exact fun n v va c h len since waits share awake canonical quiet => storeRequest_performs live share waits awake canonical quiet
  · exact fun d v waits going => loadReply_reply live going waits
  · exact fun o d v va len p y waits found ended going => loadReply_park live going waits found ended
  · exact fun i y c h counted outstanding loc first =>
      ⟨fun load clean => streaming_load live counted outstanding first loc load clean,
        fun store canonical quiet => streaming_store live counted outstanding first loc store canonical quiet⟩
  · exact fun p found idle =>
      ⟨fun op empty => ⟨_, idleWake_retries live found idle (retry_empty op empty), rfl, rfl, rfl⟩,
        fun op post full clean => ⟨_, idleWake_retries live found idle (retry_full op post full clean), rfl, rfl, rfl⟩⟩
  · exact fun p c h found time loc clean => ⟨_, mwaitPoll_loads live found time loc clean, rfl, rfl, rfl⟩
  · exact fun op va len p waits found going time => watchLimit_raises live waits found going time

end Sys2Proof.Machine
end


section
/-! PROOFS. Turns, draws and the tables of dies (O50): a turn that passes, a unit that starts, and the steps of spawn tables and basins. -/

namespace Sys2Proof.Machine

theorem exec_rotationTurn (die core : Nat) (s : State) : exec (.rotationTurn die core) s = passing s (tryRotationTurn die core s) := rfl
theorem exec_slotDraw (a : Nat) (s : State) : exec (.slotDraw a) s = passing s (trySlotDraw a s) := rfl
theorem exec_spawnBroadcast (die m : Nat) (s : State) : exec (.spawnBroadcast die m) s = passing s (trySpawnBroadcast die m s) := rfl
theorem exec_chunkRequest (die m : Nat) (s : State) : exec (.chunkRequest die m) s = passing s (tryChunkRequest die m s) := rfl
theorem exec_basinRefill (die : Nat) (s : State) : exec (.basinRefill die) s = passing s (tryBasinRefill die s) := rfl

/-- Moving the focus changes no agent. -/
theorem agent_focus (s : State) (a b : Nat) : (s.focus a).agent b = s.agent b := by
  by_cases here : a = s.agId
  · rw [State.focus, if_pos here]
  · by_cases focused : b = a
    · subst focused
      rw [State.agent, if_pos (focus_agId s b).symm, focus_ag]
    · have moved : (s.focus a).agent b = (lookup b (remove a (assign s.agId s.ag s.job.agents))).getD Agent.vacant := by
        rw [State.agent, focus_agId, if_neg focused, State.focus, if_neg here]
      rw [moved, lookup_remove_other focused, State.agent]
      split
      · next own =>
        rw [own, lookup_assign_self, Option.getD_some]
      · next other => rw [lookup_assign_other other]

theorem CountsOnly.agent {s t : State} (h : CountsOnly s t) (b : Nat) : t.agent b = s.agent b := by
  rw [State.agent, State.agent, h.ag, h.agId, h.job]

/-- Where a physical place stands does not move with counts, nor with the focus. -/
theorem CountsOnly.slotPlace {s t : State} (h : CountsOnly s t) (a : Nat) : t.slotPlace a = s.slotPlace a := by
  rw [State.slotPlace, h.job, State.slotPlace]

theorem slotPlace_focus (s : State) (a b : Nat) : (s.focus a).slotPlace b = s.slotPlace b := by
  obtain ⟨_, e⟩ := focus_eq s a
  rw [e]
  rfl

theorem accounted_focus (s : State) (a b : Nat) : (s.focus a).accounted b = s.accounted b := by
  rw [State.accounted, slotPlace_focus, focus_pkg, State.accounted]

theorem accounted_setAccounted (s : State) (a n : Nat) : (s.setAccounted a n).accounted a = n :=
  congrArg (fun x => x.getD 0) (lookup_assign_self (s.slotPlace a) n s.pkg.turnAt)

/-- A turn that has not been taken is counted once it has passed (R360). -/
theorem account_passes {s : State} {now : Nat} (slot : isMasterId s.agId = false) (open_ : s.accounted s.agId < now) :
    (s.account now).accounted s.agId = now := by
  have goes : ¬ (isMasterId s.agId || decide (now ≤ s.accounted s.agId)) = true := by
    rw [slot, Bool.false_or, decide_eq_true_eq]
    omega
  unfold State.account
  extract_lets lo
  rw [if_neg goes]
  exact accounted_setAccounted _ s.agId now

/-- A turn of a slot is at the cycle of its number, and not taken (R34). -/
theorem hasTurn_slot {s : State} (turn : s.hasTurn = true) (slot : isMasterId s.agId = false) :
    slotOf s.agId = s.pkg.cycle % 16 ∧ s.accounted s.agId < s.pkg.cycle + 1 := by
  simp only [State.hasTurn, State.turnTaken, slot, Bool.false_or, Bool.and_eq_true, Bool.not_eq_true', decide_eq_false_iff_not,
    decide_eq_true_eq] at turn
  exact ⟨turn.2.1, by omega⟩

section Rotation
variable {s : State} {die core : Nat} (hd : die < 16) (hc : core < 128)
include hd hc

/-- The slot of a core whose turn this cycle is. -/
theorem turnSlot_id : let a := die * 2 ^ 11 + core * 16 + s.pkg.cycle % 16
    isMasterId a = false ∧ slotOf a = s.pkg.cycle % 16 := by
  intro a
  have bound : a < 2 ^ 15 := by
    unfold a
    omega
  refine ⟨decide_eq_false (by omega), ?_⟩
  unfold a slotOf
  omega

/-- What passes at the turn of a slot (R34, R37). -/
theorem rotationTurn_passes (die' : die < s.job.dies_n) : let a := die * 2 ^ 11 + core * 16 + s.pkg.cycle % 16
    let t := s.focus a
    t.hasTurn = true →
      (s.pkg.cycle % 16 = 15 → s.conduitBusy (die * 128 + core) = true → exec (.rotationTurn die core) s = .next s) ∧
      (s.pkg.cycle % 16 = 15 → s.conduitBusy (die * 128 + core) = false → Completes (.rotationTurn die core) s (fun u =>
        u.accounted a = s.pkg.cycle + 1 ∧ u.agId = s.agId ∧ u.ag = s.ag ∧ SameMemory s u)) ∧
      (s.pkg.cycle % 16 ≠ 15 → t.canEnd = false → t.canIssue = true →
        exec (.rotationTurn die core) s = .next { t with offered := true }) ∧
      (s.pkg.cycle % 16 ≠ 15 → t.canEnd = false → t.canIssue = false → Completes (.rotationTurn die core) s (fun u =>
        u.accounted a = s.pkg.cycle + 1 ∧ u.agId = a ∧ u.ag = s.agent a ∧ SameMemory s u)) := by
  intro a t turn
  obtain ⟨master, slot⟩ : isMasterId a = false ∧ slotOf a = s.pkg.cycle % 16 := turnSlot_id hd hc
  have id : t.agId = a := focus_agId s a
  have offered : (decide (s.job.dies_n ≤ die) || !t.hasTurn) = false := by
    rw [turn, decide_eq_false (by omega)]
    rfl
  have runs : tryRotationTurn die core s =
      if s.pkg.cycle % 16 = 15 then
        if s.conduitBusy (die * 128 + core) then none else some ((t.account (s.pkg.cycle + 1)).focus s.agId)
      else if t.canEnd then some t.endTurn
      else if t.canIssue then some { t with offered := true }
      else some (t.account (s.pkg.cycle + 1)) := by
    refine (if_neg (by rw [offered]; decide)).trans ?_
    rw [id, slot]
  have counts := account_countsOnly t (s.pkg.cycle + 1)
  have passed : (t.account (s.pkg.cycle + 1)).accounted a = s.pkg.cycle + 1 := by
    obtain ⟨-, open_⟩ := hasTurn_slot turn (by rw [id]; exact master)
    have cycle : t.pkg.cycle = s.pkg.cycle := congrArg Pkg.cycle (focus_pkg s a)
    rw [cycle, id] at open_
    have := account_passes (s := t) (now := s.pkg.cycle + 1) (by rw [id]; exact master) (by rw [id]; exact open_)
    rwa [id] at this
  have memory : SameMemory s (t.account (s.pkg.cycle + 1)) := by
    obtain ⟨_, e⟩ := focus_eq s a
    obtain ⟨_, f, -, -⟩ := counts
    rw [f, show t = _ from e]
    exact sameMemory_refl s
  refine ⟨fun last busy => ?_, fun last free => ?_, fun slot noEnd may => ?_, fun slot noEnd no => ?_⟩
  · rw [exec_rotationTurn, runs, if_pos last, if_pos busy, passing_none]
  · refine ⟨(t.account (s.pkg.cycle + 1)).focus s.agId, ?_, ?_, focus_agId _ _, ?_, ?_⟩
    · rw [exec_rotationTurn, runs, if_pos last, if_neg (by rw [free]; decide), passing_some]
    · rw [accounted_focus, passed]
    · rw [focus_ag, counts.agent, agent_focus, State.agent, if_pos rfl]
    · obtain ⟨_, e⟩ := focus_eq (t.account (s.pkg.cycle + 1)) s.agId
      rw [e]
      exact memory
  · rw [exec_rotationTurn, runs, if_neg slot, if_neg (by rw [noEnd]; decide), if_pos may, passing_some]
  · refine ⟨t.account (s.pkg.cycle + 1), ?_, passed, counts.agId.trans id, counts.ag.trans (focus_ag s a), memory⟩
    rw [exec_rotationTurn, runs, if_neg slot, if_neg (by rw [noEnd]; decide), if_neg (by rw [no]; decide), passing_some]

end Rotation

@[simp] theorem onDie_ag (s : State) (v : Nat) (f : DieState → DieState) : (s.onDie v f).ag = s.ag := rfl
@[simp] theorem onDie_agId (s : State) (v : Nat) (f : DieState → DieState) : (s.onDie v f).agId = s.agId := rfl
@[simp] theorem onDie_pkg (s : State) (v : Nat) (f : DieState → DieState) : (s.onDie v f).pkg = s.pkg := rfl
@[simp] theorem onDie_spawns (s : State) (v : Nat) (f : DieState → DieState) : (s.onDie v f).job.spawns = s.job.spawns := rfl

/-- A number taken from the chunk of a master's entry (R20). -/
def State.numberTaken (t : State) (die m : Nat) : State :=
  (t.onDie die (fun d => { d with lastMaster := m })).onDie die
    (fun d => { d with entries := modify m (fun x => { x.refill with next := x.refill.next + 1 }) d.entries })

/-- An entry whose chunk has a number left stays at it (R20). -/
theorem refill_left {e : TableEntry} (left : e.next ≤ e.last) : e.refill = e := by
  unfold TableEntry.refill
  split
  · exact if_neg (Nat.not_lt.mpr left)
  · rfl

theorem numberTaken_entry {t : State} {die m : Nat} {e : TableEntry} (entry : (t.job.die die).entries = [(m, e)])
    (left : e.next ≤ e.last) : lookup m ((t.numberTaken die m).job.die die).entries = some { e with next := e.next + 1 } := by
  simp only [State.numberTaken, die_onDie, lookup_modify_self, entry, lookup, if_true, Option.map_some, refill_left left]

/-- Where one top-level spawn has a number left on the die, the slot takes it (R43). -/
theorem takeTop_single {t : State} {die m : Nat} {e : TableEntry} {sp : Spawn} (entry : (t.job.die die).entries = [(m, e)])
    (drawable : t.job.drawable e = true) (found : lookup e.spawn t.job.spawns = some sp) (fresh : sp.redraw = [])
    (left : e.next ≤ e.last) : t.takeTop die = (t.numberTaken die m).startUnit e.spawn sp e.next := by
  have next : nextEntry (t.job.die die).lastMaster [(m, e)] = some (m, e) := by
    unfold nextEntry
    rw [List.find?_singleton]
    split_ifs <;> rfl
  simp only [State.takeTop, entry, List.filter_cons, drawable, if_true, List.filter_nil, next, found, fresh, refill_left left]
  rfl

section Draw

/-- A unit that starts in the slot in focus (R22): its registers, and of the job its identity and its spawn's count. -/
theorem startUnit_begins (s : State) (id : Nat) (sp : Spawn) (n : Nat) : let u := s.startUnit id sp n
    (u.agId = s.agId ∧ u.ag.occupied = true ∧ u.ag.role = .unit ∧ u.ag.priv = .user ∧ u.ag.wait = .ready ∧ u.pc = sp.target ∧
      u.ag.rmode = sp.rmode ∧ u.ag.tid = BitVec.ofNat 64 n ∧ u.ag.spawnid = BitVec.ofNat 64 id ∧
      u.ag.notBefore = turnAbove (slotOf s.agId) s.pkg.cycle + 16 ∧ u.g 24#5 = BitVec.ofNat 64 n ∧ u.g 30#5 = stackTop s.agId ∧
      ∀ i < 23, u.g (BitVec.ofNat 5 (i + 1)) = sp.args.getD i 0#64) ∧
    u.job.dies = s.job.dies ∧ u.job.spawns = modify id (fun x => { x with units := x.units + 1 }) s.job.spawns := by
  unfold State.startUnit
  extract_lets s1 regs _ _ t u
  have counted := account_countsOnly s s.pkg.cycle
  have traced : CountsOnly t u := trace_countsOnly t 4 0 sp.target t.ag.tid
  have agId : t.agId = s.agId := counted.agId
  have top : stackTop s1.agId = stackTop s.agId := congrArg stackTop counted.agId
  have cycle : turnAbove (slotOf s1.agId) s1.pkg.cycle + 16 = turnAbove (slotOf s.agId) s.pkg.cycle + 16 := by
    rw [show s1.agId = s.agId from counted.agId, show s1.pkg.cycle = s.pkg.cycle from counted.cycle]
  have reg (i : Nat) (pos : 0 < i) (hi : i < 32) : t.g (BitVec.ofNat 5 i) = if i < 24 then sp.args.getD (i - 1) 0#64
      else if i = 24 then BitVec.ofNat 64 n else if i = 30 then stackTop s1.agId else 0#64 := by
    have index : (BitVec.ofNat 5 i).toFin.val = i := Nat.mod_eq_of_lt hi
    have nonzero : BitVec.ofNat 5 i ≠ 0#5 := fun e => by
      rw [e] at index
      exact absurd index (Nat.ne_of_lt pos)
    rw [State.g, if_neg nonzero]
    show regs[(BitVec.ofNat 5 i).toFin] = _
    simp only [regs, Fin.getElem_fin, Vector.getElem_ofFn, index, if_neg (Nat.ne_of_gt pos)]
  simp only [State.pc, g_of_ag traced.ag, traced.ag, traced.agId, traced.job]
  refine ⟨⟨agId, rfl, rfl, rfl, rfl, rfl, rfl, rfl, rfl, cycle, reg 24 (by decide) (by decide),
    (reg 30 (by decide) (by decide)).trans top, fun i hi => ?_⟩, ?_, ?_⟩
  · rw [reg (i + 1) (Nat.succ_pos i) (by omega), if_pos (by omega), Nat.add_sub_cancel]
  · show (s.account s.pkg.cycle).job.dies = _
    rw [counted.job]
  · show modify id _ (s.account s.pkg.cycle).job.spawns = _
    rw [counted.job]

theorem turnAbove_now {slot now : Nat} (h : slot = now % 16) : turnAbove slot now + 16 = now + 32 := by
  rw [turnAbove, h]
  omega

/-- A unit begun at the turn of its slot (R22). -/
def Begins (sp : Spawn) (a now : Nat) (u : State) (id n : Nat) : Prop :=
  u.agId = a ∧ u.ag.occupied = true ∧ u.ag.role = .unit ∧ u.ag.priv = .user ∧ u.ag.wait = .ready ∧ u.pc = sp.target ∧
    u.ag.rmode = sp.rmode ∧ u.ag.tid = BitVec.ofNat 64 n ∧ u.ag.spawnid = BitVec.ofNat 64 id ∧ u.ag.notBefore = now + 32 ∧
    u.g 24#5 = BitVec.ofNat 64 n ∧ u.g 30#5 = stackTop a ∧ ∀ i < 23, u.g (BitVec.ofNat 5 (i + 1)) = sp.args.getD i 0#64

theorem startUnit_atTurn {s : State} {a now : Nat} (focused : s.agId = a) (cycle : s.pkg.cycle = now) (turn : slotOf a = now % 16) (id : Nat)
    (sp : Spawn) (n : Nat) : Begins sp a now (s.startUnit id sp n) id n := by
  obtain ⟨⟨agId, occupied, role, priv, wait, pc, rmode, tid, spawnid, notBefore, g24, g30, args⟩, -, -⟩ := startUnit_begins s id sp n
  subst focused
  subst cycle
  exact ⟨agId, occupied, role, priv, wait, pc, rmode, tid, spawnid, notBefore.trans (turnAbove_now turn), g24, g30, args⟩

variable {s : State} {a : Nat} {sp : Spawn} (mine : vdieOf a < s.job.dies_n) (turn : (s.focus a).hasTurn = true)
  (may : (s.focus a).mayDraw = true) (ready : ∀ r ∈ s.job.ready, r.core ≠ coreKey a)
include mine turn may ready

/-- The state in which a slot draws: its turn has passed, and no fibre is ready, nor a number to draw again. -/
theorem slotDraw_draws (work : (s.focus a).hasWork = true) : ∃ t : State, exec (.slotDraw a) s = .next t.draw ∧ t.mayDraw = true ∧
    t.readyHere = none ∧ t.agId = a ∧ t.pkg.cycle = s.pkg.cycle ∧ slotOf a = s.pkg.cycle % 16 ∧ ∃ l, t.job = { s.job with agents := l } := by
  obtain ⟨l, focus⟩ := focus_eq s a
  obtain ⟨p, counted, cycle, gated⟩ := account_countsOnly (s.focus a) (s.pkg.cycle + 1)
  have slot : isMasterId a = false := by
    simp only [State.mayDraw, focus_agId, Bool.and_eq_true, Bool.not_eq_true'] at may
    tauto
  refine ⟨(s.focus a).account (s.pkg.cycle + 1), ?_, ?_, ?_, ?_, ?_, ?_, l, ?_⟩
  · have made : trySlotDraw a s = some ((s.focus a).account (s.pkg.cycle + 1)).draw := by
      unfold trySlotDraw
      extract_lets t
      have goes : (decide (vdieOf a < s.job.dies_n) && t.hasTurn && t.mayDraw && t.hasWork) = true := by
        rw [decide_eq_true mine]
        unfold t
        rw [turn, may, work]
        rfl
      rw [if_pos goes]
    rw [exec_slotDraw, made, passing_some]
  · rw [counted]
    unfold State.mayDraw at may ⊢
    dsimp only
    rw [gated]
    exact may
  · rw [counted, focus, State.readyHere, List.find?_eq_none]
    intro r hr
    simp [ready r hr]
  · rw [counted, focus]
  · rw [counted]
    exact cycle.trans (congrArg Pkg.cycle (focus_pkg s a))
  · have := (hasTurn_slot turn (by rw [focus_agId]; exact slot)).1
    rwa [focus_agId, focus_pkg] at this
  · rw [counted, focus]

/-- The next number of the one top-level spawn of the die (R20, R43). -/
theorem slotDraw_top {m : Nat} {e : TableEntry} (again : s.job.again (vdieOf a) = none)
    (noChild : (s.job.die (vdieOf a)).basin ++ (s.job.die (vdieOf a)).spilled = []) (entry : (s.job.die (vdieOf a)).entries = [(m, e)])
    (found : lookup e.spawn s.job.spawns = some sp) (going : sp.ended = none) (fresh : sp.redraw = []) (left : e.next ≤ e.last) :
    Completes (.slotDraw a) s (fun u => Begins sp a s.pkg.cycle u e.spawn e.next ∧
      lookup m (u.job.die (vdieOf a)).entries = some { e with next := e.next + 1 } ∧
      lookup e.spawn u.job.spawns = some { sp with units := sp.units + 1 }) := by
  have drawable : s.job.drawable e = true := by
    simp only [Job.drawable, found, going, Option.isNone_none, left, decide_true, Bool.true_or, Bool.and_self]
  have work : (s.focus a).hasWork = true := by
    obtain ⟨l, focus⟩ := focus_eq s a
    have entries : ((s.focus a).job.die (vdieOf (s.focus a).agId)).entries.any (fun e => (s.focus a).job.drawable e.2) = true := by
      rw [focus]
      show (s.job.die (vdieOf a)).entries.any (fun e => s.job.drawable e.2) = true
      rw [entry, List.any_cons, drawable, Bool.true_or]
    rw [State.hasWork, entries, Bool.or_true]
  obtain ⟨t, runs, may', none, id, cycle, slot, l, job⟩ := slotDraw_draws mine turn may ready work
  have die : t.job.die (vdieOf a) = s.job.die (vdieOf a) := by rw [job]; rfl
  have again' : t.job.again (vdieOf a) = Option.none := by rw [job]; exact again
  have entry' : (t.job.die (vdieOf a)).entries = [(m, e)] := by rw [die, entry]
  have found' : lookup e.spawn t.job.spawns = some sp := by rw [job]; exact found
  have draws : t.draw = (t.numberTaken (vdieOf a) m).startUnit e.spawn sp e.next := by
    rw [← takeTop_single entry' (by rw [job]; exact drawable) found' fresh left]
    simp only [State.draw, may', Bool.not_true, Bool.false_eq_true, if_false, none, id, again', die, noChild]
  obtain ⟨-, dies, spawns⟩ := startUnit_begins (t.numberTaken (vdieOf a) m) e.spawn sp e.next
  refine ⟨t.draw, runs, ?_, ?_, ?_⟩
  · rw [draws]
    exact startUnit_atTurn (by simp only [State.numberTaken, onDie_agId, id]) (by simp only [State.numberTaken, onDie_pkg, cycle]) slot
      e.spawn sp e.next
  · rw [draws, Job.die, dies, ← Job.die, numberTaken_entry entry' left]
  · rw [draws, spawns, lookup_modify_self]
    simp only [State.numberTaken, onDie_spawns, found', Option.map_some]

/-- The next number of the newest child spawn of the die (R32, R43). -/
theorem slotDraw_child {id : Nat} {rest : List Nat} (again : s.job.again (vdieOf a) = none)
    (newest : (s.job.die (vdieOf a)).basin ++ (s.job.die (vdieOf a)).spilled = id :: rest) (found : lookup id s.job.spawns = some sp) :
    Completes (.slotDraw a) s (fun u => Begins sp a s.pkg.cycle u id sp.nextChunk ∧
      lookup id u.job.spawns = some { sp with nextChunk := sp.nextChunk + 1, units := sp.units + 1 }) := by
  have work : (s.focus a).hasWork = true := by
    obtain ⟨l, focus⟩ := focus_eq s a
    have children : (((s.focus a).job.die (vdieOf (s.focus a).agId)).basin ++
        ((s.focus a).job.die (vdieOf (s.focus a).agId)).spilled).isEmpty = false := by
      rw [focus]
      show ((s.job.die (vdieOf a)).basin ++ (s.job.die (vdieOf a)).spilled).isEmpty = false
      rw [newest]
      rfl
    rw [State.hasWork, children, Bool.not_false, Bool.or_true, Bool.true_or]
  obtain ⟨t, runs, may', none, focused, cycle, slot, l, job⟩ := slotDraw_draws mine turn may ready work
  have die : t.job.die (vdieOf a) = s.job.die (vdieOf a) := by rw [job]; rfl
  have again' : t.job.again (vdieOf a) = Option.none := by rw [job]; exact again
  have found' : lookup id t.job.spawns = some sp := by rw [job]; exact found
  have draws : t.draw = t.takeChild (vdieOf a) id sp := by
    simp only [State.draw, may', Bool.not_true, Bool.false_eq_true, if_false, none, focused, again', die, newest, found']
  obtain ⟨w, starts, id_, cycle_, spawns_⟩ : ∃ w : State, t.takeChild (vdieOf a) id sp = w.startUnit id sp sp.nextChunk ∧
      w.agId = t.agId ∧ w.pkg = t.pkg ∧ w.job.spawns = modify id (fun x => { x with nextChunk := x.nextChunk + 1 }) t.job.spawns := by
    refine ⟨_, rfl, ?_⟩
    split <;> exact ⟨rfl, rfl, rfl⟩
  obtain ⟨-, -, spawns⟩ := startUnit_begins w id sp sp.nextChunk
  refine ⟨t.draw, runs, ?_, ?_⟩
  · rw [draws, starts]
    exact startUnit_atTurn (id_.trans focused) ((congrArg Pkg.cycle cycle_).trans cycle) slot id sp sp.nextChunk
  · rw [draws, starts, spawns, lookup_modify_self, spawns_, lookup_modify_self, found']
    rfl

end Draw

end Sys2Proof.Machine
end


section
/-! PROOFS. The tables of dies and the supervisor's queue (O50): broadcasts, chunks, refills, and records that are posted. -/

namespace Sys2Proof.Machine

theorem exec_trapRecordPost (s : State) : exec .trapRecordPost s = passing s (tryTrapRecordPost s) := rfl
theorem exec_deferredSupervisorSave (a : Nat) (s : State) :
    exec (.deferredSupervisorSave a) s = passing s (tryDeferredSupervisorSave a s) := rfl

theorem wakeDie_keeps (s : State) (pdie : Nat) : (s.wakeDie pdie).ag = s.ag ∧ (s.wakeDie pdie).job = s.job ∧
    SameMemory s (s.wakeDie pdie) ∧ pdie ∉ (s.wakeDie pdie).pkg.gated := by
  unfold State.wakeDie
  split
  · refine ⟨rfl, rfl, sameMemory_refl s, fun still => ?_⟩
    simpa using (List.mem_filter.mp still).2
  · next awake => exact ⟨rfl, rfl, sameMemory_refl s, by simpa using awake⟩

/-- A broadcast reaches a die whose lower dies it has reached, or cannot reach (R19, log entry 113). -/
theorem spawnBroadcast_reaches {s : State} {die m id : Nat} {sp : Spawn} (spawn : s.job.spawnOf m = some (id, sp))
    (running : s.job.status = .running) (mine : die < s.job.dies_n)
    (absent : ∀ e, lookup m (s.job.die die).entries = some e → e.spawn ≠ id) (sent : s.job.castLost id die = false)
    (lower : ∀ d < die, s.job.holdsSpawn d m id = false → s.job.castLost id d = true ∨
      (s.job.pdie d ∈ s.pkg.gated ∧ s.job.pdie die ∉ s.pkg.gated)) : Completes (.spawnBroadcast die m) s (fun u =>
      lookup m (u.job.die die).entries = some { spawn := id, next := 1, last := 0, further := none } ∧
      s.job.pdie die ∉ u.pkg.gated ∧ u.ag = s.ag ∧ u.job.spawns = s.job.spawns ∧ SameMemory s u) := by
  have unheld : s.job.holdsSpawn die m id = false := by
    rw [Job.holdsSpawn, Option.any_eq_false]
    intro e he
    simpa using absent e he
  have may : s.mayReach die m id = true := by
    simp only [State.mayReach, sent, Bool.not_false, Bool.true_and, List.all_eq_true, Job.unreached, List.mem_filter,
      Bool.not_eq_true', Bool.or_eq_true, Bool.and_eq_true, decide_eq_true_eq, List.contains_iff_mem]
    rintro d ⟨-, unreached⟩
    by_cases below : d < die
    · rcases lower d below unreached with lost | ⟨asleep, awake⟩
      · exact .inl (.inr lost)
      · exact .inr ⟨asleep, by simpa using awake⟩
    · exact .inl (.inl (Nat.not_lt.mp below))
  let t : State := { s with job := { s.job with casts := s.job.casts.filter (fun c => !(c.spawn == id && c.die == die)) } }
  obtain ⟨ag, job, memory, awake⟩ := wakeDie_keeps t (s.job.pdie die)
  refine ⟨(t.wakeDie (s.job.pdie die)).onDie die (fun d => { d with
    entries := assign m { spawn := id, next := 1, last := 0, further := none } d.entries }), ?_, ?_, awake, ag, ?_, memory⟩
  · have made : trySpawnBroadcast die m s = some ((t.wakeDie (s.job.pdie die)).onDie die (fun d => { d with
        entries := assign m { spawn := id, next := 1, last := 0, further := none } d.entries })) := by
      have offers : (decide (s.job.status ≠ .running) || decide (s.job.dies_n ≤ die) || s.job.holdsSpawn die m id ||
          !s.mayReach die m id) = false := by
        rw [decide_eq_false (not_not.mpr running), decide_eq_false (Nat.not_le.mpr mine), unheld, may]
        rfl
      simp only [trySpawnBroadcast, spawn, offers, Bool.false_eq_true, if_false]
      rfl
    rw [exec_spawnBroadcast, made, passing_some]
  · rw [die_onDie, lookup_assign_self]
  · rw [onDie_spawns, job]

/-- The next chunk goes to the entry, or stands behind the one it holds (R20). -/
theorem chunkRequest_gives {s : State} {die m : Nat} {e : TableEntry} {sp : Spawn}
    (entry : lookup m (s.job.die die).entries = some e) (found : lookup e.spawn s.job.spawns = some sp)
    (running : s.job.status = .running) (going : sp.ended = none) (left : sp.nextChunk ≤ sp.hi) (one : e.further = none) :
    let last := min (sp.nextChunk + 63) sp.hi
    Completes (.chunkRequest die m) s (fun u => lookup e.spawn u.job.spawns = some { sp with nextChunk := last + 1 } ∧
      lookup m (u.job.die die).entries = some (if e.last < e.next then { e with next := sp.nextChunk, last := last }
        else { e with further := some (sp.nextChunk, last) }) ∧ SameButJob s u) := by
  intro last
  let u := (s.onSpawn e.spawn (fun x => { x with nextChunk := last + 1 })).onDie die (fun d => { d with
    entries := assign m (if e.last < e.next then { e with next := sp.nextChunk, last := last }
      else { e with further := some (sp.nextChunk, last) }) d.entries })
  have made : tryChunkRequest die m s = some u := by
    have offers : (decide (s.job.status ≠ .running) || sp.ended.isSome || decide (sp.hi < sp.nextChunk) || e.further.isSome) = false := by
      rw [decide_eq_false (not_not.mpr running), going, decide_eq_false (Nat.not_lt.mpr left), one]
      rfl
    simp only [tryChunkRequest, entry, found, offers, Bool.false_eq_true, if_false]
    rfl
  refine ⟨u, by rw [exec_chunkRequest, made, passing_some], ?_, ?_, rfl⟩
  · show lookup e.spawn (modify e.spawn _ s.job.spawns) = _
    rw [lookup_modify_self, found]
    rfl
  · rw [die_onDie, lookup_assign_self]

theorem basinRefill_returns {s : State} {die id : Nat} {rest : List Nat} (spilled : (s.job.die die).spilled = id :: rest)
    (live : s.live = true) (room : (s.job.die die).basin.length < 256) : Completes (.basinRefill die) s (fun u =>
      (u.job.die die).basin = (s.job.die die).basin ++ [id] ∧ (u.job.die die).spilled = rest ∧ SameButJob s u) := by
  have made : tryBasinRefill die s = some (s.onDie die (fun d => { d with basin := d.basin ++ [id], spilled := rest })) := by
    simp only [tryBasinRefill, spilled, live, room, decide_true, Bool.and_self, if_true]
  have runs := exec_basinRefill die s
  rw [made, passing_some] at runs
  refine ⟨_, runs, ?_, ?_, rfl⟩
  · rw [die_onDie]
  · rw [die_onDie]

/-- The oldest record is written to the tail of the queue (R319, R320). -/
theorem trapRecordPost_writes {s u : State} {r : List Word} {rest : List (List Word)} {cell : Nat} {home : Option Nat}
    (oldest : s.job.records = r :: rest) (size : r.length = 8) (live : s.live = true) (queue : s.job.queueSize ≠ 0)
    (room : s.job.queued ≠ s.job.queueSize) (reached : s.hwCell true (s.job.recordVa s.job.sqtail.toNat) 64 = .ok (u, cell, home))
    (canonical : Canonical u) (quiet : QuietHome u home) : Completes .trapRecordPost s (fun t =>
      (∀ i < 8, t.readWord (cell + 8 * i) = r.getD i 0#64) ∧ t.job.records = rest ∧
      t.job.sqtail = BitVec.ofNat 64 ((u.job.sqtail.toNat + 1) % 2 ^ 32) ∧ t.ag = u.ag) := by
  let w := State.putWords (engineWriter 0) home cell r u
  have posts : s.postOldest = { w with job := { w.job with
      records := rest, sqtail := BitVec.ofNat 64 ((w.job.sqtail.toNat + 1) % 2 ^ 32) } } := by
    simp only [State.postOldest, oldest, queue, room, if_false, reached, List.take_of_length_le (Nat.le_of_eq size)]
    rfl
  have made : tryTrapRecordPost s = some s.postOldest := by
    simp only [tryTrapRecordPost, oldest, live, queue, room, reduceCtorEq, decide_false, Bool.not_true, Bool.or_self, Bool.false_eq_true,
      if_false]
  obtain ⟨wrote, -⟩ := putWords_keeps (engineWriter 0) home cell r u
  obtain ⟨_, _, job⟩ := wrote.job
  have runs := exec_trapRecordPost s
  rw [made, passing_some, posts] at runs
  refine ⟨_, runs, fun i h => ?_, rfl, ?_, wrote.ag⟩
  · exact readWord_putWords (engineWriter 0) canonical.1 quiet (by omega)
  · show BitVec.ofNat 64 ((w.job.sqtail.toNat + 1) % 2 ^ 32) = _
    rw [show w.job = _ from job]

/-- A cause that was held is delivered once it can be (R318). -/
theorem deferredSupervisorSave_delivers {s : State} {a : Nat} {c : Trap} (held : (s.agent a).deferred = some c)
    (live : s.live = true) : let u := if c.toArea then (s.served a).deliverSupervisor c else (s.served a).raise c
    u.ag.deferred = none ∨ u.job.fwCause ≠ s.job.fwCause → exec (.deferredSupervisorSave a) s = .next u := by
  intro u done
  obtain ⟨l, focus⟩ := focus_eq s a
  have offers : (u.ag.deferred.isNone || decide (u.job.status ≠ (s.focus a).job.status) ||
      decide (u.job.fwCause ≠ (s.focus a).job.fwCause)) = true := by
    have cause : (s.focus a).job.fwCause = s.job.fwCause := by rw [focus]
    rw [cause]
    rcases done with delivered | reported
    · rw [delivered]
      rfl
    · rw [decide_eq_true reported, Bool.or_true]
  have made : tryDeferredSupervisorSave a s = some u := by
    simp only [tryDeferredSupervisorSave, focus_ag, held, account_focus, focus_live, live, Bool.true_and]
    exact if_pos offers
  rw [exec_deferredSupervisorSave, made, passing_some]

end Sys2Proof.Machine
end


section
/-! PROOFS. The graph scheduler and the host (O50): what its reads leave, uploads, triggers, and runs that come to their end. -/

namespace Sys2Proof.Machine

theorem exec_graphUpload (v : Word) (s : State) : exec (.graphUpload v) s = passing s (tryGraphUpload v s) := rfl
theorem exec_runTrigger (v : Word) (s : State) : exec (.runTrigger v) s = passing s (tryRunTrigger v s) := rfl
theorem exec_runCancel (v : Word) (s : State) : exec (.runCancel v) s = passing s (tryRunCancel v s) := rfl
theorem exec_nodeCompletion (run node : Nat) (s : State) :
    exec (.nodeCompletion run node) s = passing s (tryNodeCompletion run node s) := rfl

/-! The reads of an engine leave the runs of the job. -/

theorem bumpOwner_job (s : State) (a : Nat) (home : Option Nat) (off : Nat) : (s.bumpOwner a home off).job = s.job := by
  unfold State.bumpOwner
  split
  · rfl
  split
  · rfl
  · dsimp only
    split <;> rfl

theorem fillView_job (s : State) (pa : Nat) : (s.fillView pa).job = s.job := by
  unfold State.fillView
  split
  · dsimp only
    split
    · rfl
    · exact List.foldlRecOn _ _ (motive := fun t => t.job = s.job) rfl (fun t ht _ _ => (bumpOwner_job t _ _ _).trans ht)
  · rfl

theorem readAt_job {s t : State} {l : Loc} {n : Nat} {r : Except Byte Nat} (h : s.readAt l n = some (r, t)) : t.job = s.job := by
  cases l with
  | cell a home =>
    obtain ⟨-, rfl⟩ := Prod.mk.inj (Option.some.inj h)
    rfl
  | view pa =>
    obtain ⟨-, rfl⟩ := Prod.mk.inj (Option.some.inj h)
    exact fillView_job s pa
  | dev pa =>
    obtain ⟨-, rfl⟩ := Prod.mk.inj (Option.some.inj h)
    rfl
  | host port pasid iova =>
    unfold State.readAt at h
    dsimp only at h
    split_ifs at h
    · obtain ⟨-, rfl⟩ := Prod.mk.inj (Option.some.inj h)
      rfl
    · obtain ⟨_, -, h⟩ := Option.map_eq_some_iff.mp h
      obtain ⟨-, rfl⟩ := Prod.mk.inj h
      rfl

theorem OnlyMemory.runs {s t : State} (h : OnlyMemory s t) : t.job.runs = s.job.runs := by
  obtain ⟨_, _, e⟩ := h.job
  rw [e]

theorem engRead_runs {s t : State} {q : Chunk} {va : Word} {n x : Nat} (h : s.engRead q va n = .ok t x) : t.job.runs = s.job.runs := by
  unfold State.engRead at h
  split at h
  · cases h
  · next checked =>
    split_ifs at h
    split at h
    · cases h
    · split_ifs at h
    · next read =>
      obtain ⟨rfl, -⟩ := Eng.ok.inj h
      rw [readAt_job read, (check_onlyMemory checked).runs]

theorem engReads_runs {q : Chunk} {l : List (Word × Nat)} {s t : State} {xs : List Nat} (h : State.engReads q l s = .ok t xs) :
    t.job.runs = s.job.runs := by
  induction l generalizing s xs with
  | nil =>
    obtain ⟨rfl, -⟩ := Eng.ok.inj h
    rfl
  | cons x l ih =>
    unfold State.engReads at h
    split at h
    · next first =>
      split at h
      · next others =>
        obtain ⟨rfl, -⟩ := Eng.ok.inj h
        exact (ih others).trans (engRead_runs first)
      all_goals cases h
    all_goals cases h

theorem graphBusy_iff (j : Job) (id : Nat) : j.graphBusy id = true ↔ ∃ r ∈ j.runs, r.graph = id := by
  simp [Job.graphBusy, List.any_eq_true]

theorem graphBusy_free {j : Job} {id : Nat} (free : ∀ r ∈ j.runs, r.graph ≠ id) : j.graphBusy id = false := by
  rw [← Bool.not_eq_true, graphBusy_iff]
  rintro ⟨r, mem, names⟩
  exact free r mem names

/-- An upload has ended with a result (R286). -/
def UploadEnded (id : Nat) (u : State) (res : Nat) : Prop :=
  u.job.gstat = BitVec.ofNat 64 (res * 2 ^ 60 + id) ∧ u.job.upload = none

theorem uploadEnds_ended (s : State) (id res : Nat) : UploadEnded id (s.uploadEnds id res) res := by
  refine ⟨?_, rfl⟩
  show packFields [(res, 60), (id, 0)] = _
  simp only [packFields, List.foldl_cons, List.foldl_nil, Nat.zero_add, Nat.pow_zero, Nat.mul_one]

/-- An image is taken where no run of its graph is queued or in flight (R287). -/
theorem uploadTakes_free {s : State} {id : Nat} (free : s.job.graphBusy id = false) (g : Option Graph) :
    UploadEnded id (s.uploadTakes id g) 1 ∧
      (s.uploadTakes id g).job.graphs = match g with | some x => assign id x s.job.graphs | none => remove id s.job.graphs := by
  have takes : s.uploadTakes id g = ({ s with job := { s.job with
      graphs := match g with | some x => assign id x s.job.graphs | none => remove id s.job.graphs } }).uploadEnds id 1 :=
    if_neg (by rw [free]; decide)
  rw [takes]
  exact ⟨uploadEnds_ended _ id 1, rfl⟩

section Uploads
variable {s : State} (v : Word) (answers : s.answers = true)
include answers

theorem graphUpload_busy (busy : ∃ r ∈ s.job.runs, r.graph = graphId v) :
    Completes (.graphUpload v) s (fun u => UploadEnded (graphId v) u 2 ∧ u.job.graphs = s.job.graphs) := by
  have made : tryGraphUpload v s = some (s.uploadEnds (graphId v) 2) := by
    simp only [tryGraphUpload, answers, (graphBusy_iff _ _).mpr busy, Bool.not_true, Bool.false_eq_true, if_false, if_true]
  exact ⟨_, by rw [exec_graphUpload, made, passing_some], uploadEnds_ended s _ 2, rfl⟩

variable (free : ∀ r ∈ s.job.runs, r.graph ≠ graphId v)
include free

theorem graphUpload_held (posting : s.job.graphPosting = true) :
    exec (.graphUpload v) s = .next { s with job := { s.job with upload := some (v, addr6 v) } } := by
  have made : tryGraphUpload v s = some { s with job := { s.job with upload := some (v, addr6 v) } } := by
    simp only [tryGraphUpload, answers, graphBusy_free free, posting, Bool.not_true, Bool.false_eq_true, if_false, if_true]
  rw [exec_graphUpload, made, passing_some]

variable (still : s.job.graphPosting = false)
include still

theorem exec_graphUpload_step : exec (.graphUpload v) s = .next (s.uploadStep v) := by
  have made : tryGraphUpload v s = some (s.uploadStep v) := by
    simp only [tryGraphUpload, answers, graphBusy_free free, still, Bool.not_true, Bool.false_eq_true, if_false]
  rw [exec_graphUpload, made, passing_some]

variable {s1 : State} {head : List Nat} (headed : State.engReads schedulerChunk (items (addr6 v) 8 8) s = .ok s1 head)
include headed

/-- A header with no node takes the graph away (R287). -/
theorem graphUpload_empty (none : head.getD 0 0 / 2 ^ 48 % 2 ^ 16 = 0) : Completes (.graphUpload v) s (fun u =>
    UploadEnded (graphId v) u 1 ∧ u.job.graphs = remove (graphId v) s1.job.graphs) := by
  have step : s.uploadStep v = s1.uploadTakes (graphId v) Option.none := by
    simp only [State.uploadStep, headed, field, none, if_true]
  refine ⟨_, exec_graphUpload_step v answers free still, ?_⟩
  rw [step]
  exact uploadTakes_free (graphBusy_free (by rw [engReads_runs headed]; exact free)) Option.none

/-- A header with too many nodes or edges is refused (R285). -/
theorem graphUpload_large (large : 4096 < head.getD 0 0 / 2 ^ 48 % 2 ^ 16 ∨
      (head.getD 0 0 / 2 ^ 48 % 2 ^ 16 ≠ 0 ∧ 16384 < head.getD 0 0 / 2 ^ 32 % 2 ^ 16)) : Completes (.graphUpload v) s (fun u =>
    UploadEnded (graphId v) u 4 ∧ u.job.graphs = s1.job.graphs) := by
  have some : head.getD 0 0 / 2 ^ 48 % 2 ^ 16 ≠ 0 := by
    rcases large with nodes | ⟨some, -⟩
    · exact Nat.ne_of_gt (Nat.lt_of_le_of_lt (Nat.zero_le _) nodes)
    · exact some
  have refused : (decide (4096 < head.getD 0 0 / 2 ^ 48 % 2 ^ 16) || decide (16384 < head.getD 0 0 / 2 ^ 32 % 2 ^ 16)) = true := by
    rw [Bool.or_eq_true, decide_eq_true_eq, decide_eq_true_eq]
    exact large.imp id And.right
  have step : s.uploadStep v = s1.uploadEnds (graphId v) 4 := by
    simp only [State.uploadStep, headed, field, some, if_false]
    exact if_pos refused
  refine ⟨_, exec_graphUpload_step v answers free still, ?_⟩
  rw [step]
  exact ⟨uploadEnds_ended s1 _ 4, rfl⟩

variable {s2 : State} {body : List Nat} (some : 1 ≤ head.getD 0 0 / 2 ^ 48 % 2 ^ 16) (nodes : head.getD 0 0 / 2 ^ 48 % 2 ^ 16 ≤ 4096)
  (edges : head.getD 0 0 / 2 ^ 32 % 2 ^ 16 ≤ 16384)
  (read : State.engReads schedulerChunk (items (addr6 v + 64#64) 8
    (4 * (head.getD 0 0 / 2 ^ 48 % 2 ^ 16) + head.getD 0 0 / 2 ^ 32 % 2 ^ 16)) s1 = .ok s2 body)
include some nodes edges read

/-- An image that has been read whole is checked, weighed and taken (R285, R287). -/
theorem graphUpload_read : let g := graphOf head body
    let held := ((remove (graphId v) s2.job.graphs).map (fun x => x.2.bytes)).sum + (s2.jobs.map (fun x => x.2.graphBytes)).sum
    (g.ok head = false → Completes (.graphUpload v) s (fun u => UploadEnded (graphId v) u 4 ∧ u.job.graphs = s2.job.graphs)) ∧
    (g.ok head = true → 2 ^ 22 < held + g.bytes → Completes (.graphUpload v) s (fun u =>
      UploadEnded (graphId v) u 3 ∧ u.job.graphs = s2.job.graphs)) ∧
    (g.ok head = true → held + g.bytes ≤ 2 ^ 22 → Completes (.graphUpload v) s (fun u =>
      UploadEnded (graphId v) u 1 ∧ lookup (graphId v) u.job.graphs = Option.some g)) := by
  intro g held
  have nonempty : head.getD 0 0 / 2 ^ 48 % 2 ^ 16 ≠ 0 := Nat.ne_of_gt some
  have within : (decide (4096 < head.getD 0 0 / 2 ^ 48 % 2 ^ 16) || decide (16384 < head.getD 0 0 / 2 ^ 32 % 2 ^ 16)) = false := by
    rw [decide_eq_false (Nat.not_lt.mpr nodes), decide_eq_false (Nat.not_lt.mpr edges)]
    rfl
  have step : s.uploadStep v = if !g.ok head then s2.uploadEnds (graphId v) 4
      else if 2 ^ 22 < held + g.bytes then s2.uploadEnds (graphId v) 3 else s2.uploadTakes (graphId v) (Option.some g) := by
    simp only [State.uploadStep, headed, field, nonempty, read, if_false]
    exact if_neg (Bool.eq_false_iff.mp within)
  have runs := exec_graphUpload_step v answers free still
  rw [step] at runs
  refine ⟨fun bad => ?_, fun ok large => ?_, fun ok fits => ?_⟩
  · rw [bad] at runs
    exact ⟨_, runs, uploadEnds_ended s2 _ 4, rfl⟩
  · rw [ok, if_pos large] at runs
    exact ⟨_, runs, uploadEnds_ended s2 _ 3, rfl⟩
  · rw [ok, if_neg (Nat.not_lt.mpr fits)] at runs
    have same : ∀ r ∈ s2.job.runs, r.graph ≠ graphId v := by
      rw [engReads_runs read, engReads_runs headed]
      exact free
    obtain ⟨ended, graphs⟩ := uploadTakes_free (graphBusy_free same) (Option.some g)
    refine ⟨_, runs, ended, ?_⟩
    show lookup (graphId v) (s2.uploadTakes (graphId v) (Option.some g)).job.graphs = _
    rw [graphs, lookup_assign_self]

end Uploads

/-- The priority of a trigger is the top two bits of its dword (R288). -/
theorem trigger_prio (v : Word) : field v.toNat 62 2 = v.toNat / 2 ^ 62 := by
  have := v.isLt
  unfold field
  omega

/-- A run is queued, or the trigger is refused and counted (R288). -/
theorem runTrigger_queues {s : State} (v : Word) (answers : s.answers = true) : let prio := v.toNat / 2 ^ 62
    let fits : Prop := v.toNat / 2 ^ 59 % 8 = 0 ∧ (s.job.runs.filter (fun r => !r.started && r.prio == prio)).length < 64
    (∀ g, lookup (graphId v) s.job.graphs = some g → fits → Completes (.runTrigger v) s (fun u =>
      (∃ r : Run, u.job.runs = s.job.runs ++ [r] ∧ r.id = s.job.nextRun ∧ r.prio = prio ∧ r.graph = graphId v ∧
        r.plist = addr6 v ∧ r.started = false ∧ r.nodes.length = g.nodes.length) ∧
      u.job.nextRun = s.job.nextRun + 1 ∧ SameButJob s u)) ∧
    (lookup (graphId v) s.job.graphs = none ∨ ¬fits → Completes (.runTrigger v) s (fun u =>
      u.job.runRefused = min (s.job.runRefused + 1) 0xFFFF ∧ u.job.runs = s.job.runs ∧ SameButJob s u)) := by
  intro prio fits
  have test : (decide (field v.toNat 59 3 ≠ 0) ||
      decide (64 ≤ (s.job.runs.filter (fun r => !r.started && decide (r.prio = field v.toNat 62 2))).length)) = true ↔ ¬ fits := by
    rw [trigger_prio v, Bool.or_eq_true, decide_eq_true_eq, decide_eq_true_eq, not_and_or, Nat.not_lt]
    rfl
  constructor
  · intro g known room
    have runs := exec_runTrigger v s
    simp only [tryRunTrigger, answers, Bool.not_true, Bool.false_eq_true, if_false, known, if_neg (fun h => test.mp h room),
      passing_some] at runs
    refine ⟨_, runs, ⟨_, rfl, rfl, trigger_prio v, rfl, rfl, rfl, List.length_replicate⟩, rfl, rfl⟩
  · intro refused
    have runs := exec_runTrigger v s
    have made : tryRunTrigger v s = some { s with job := { s.job with runRefused := min (s.job.runRefused + 1) 0xFFFF } } := by
      simp only [tryRunTrigger, answers, Bool.not_true, Bool.false_eq_true, if_false]
      cases known : lookup (graphId v) s.job.graphs with
      | none => rfl
      | some g => exact if_pos (test.mpr (refused.resolve_left (by rw [known]; exact Option.some_ne_none g)))
    rw [made, passing_some] at runs
    exact ⟨_, runs, rfl, rfl, rfl⟩

section RunsEnd

theorem run?_id {j : Job} {id : Nat} {r : Run} (h : j.run? id = some r) : r.id = id := by
  simpa using List.find?_some h

/-- A run that leaves takes what was changed in it along. -/
theorem runLeaves_onRun {f : Run → Run} (keeps : ∀ r, (f r).id = r.id) (s : State) (id : Nat) :
    (s.onRun id f).runLeaves id = s.runLeaves id := by
  have runs : (s.job.runs.map (fun r => if r.id = id then f r else r)).filter (fun r => !(r.id == id)) =
      s.job.runs.filter (fun r => !(r.id == id)) := by
    induction s.job.runs with
    | nil => rfl
    | cons r rs ih =>
      by_cases named : r.id = id
      · simp [named, keeps, ih]
      · simp [named, ih]
  simp only [State.runLeaves, State.onRun, runs]

variable {s : State} {id : Nat} {r : Run} (found : s.job.run? id = some r) (final : ∀ n ∈ r.nodes, n.final = true)
  (still : s.job.graphPosting = false)
include final

include found still in
/-- A run whose nodes are all final leaves at once where its graph names no completion dword (R292). -/
theorem finishIfOver_leaves (silent : ((lookup r.graph s.job.graphs).map (fun g => g.donea)).getD 0#64 = 0#64) :
    s.finishIfOver id = s.runLeaves id := by
  have ends : (r.nodes.all RunNode.final && !s.job.graphPosting) = true := by
    rw [List.all_eq_true.mpr final, still]
    rfl
  rw [State.finishIfOver, found]
  dsimp only
  rw [if_pos ends, State.finishRun, if_pos silent, run?_id found]

/-- In such a run no node resolves (R291). -/
theorem resolvable_final (g : Graph) (k : Nat) : r.resolvable g k = false := by
  have nobody : (r.nodes[k]?).any (fun n => n.st == .waiting) = false := by
    rw [Option.any_eq_false]
    intro n at_
    have over_ := final n (List.mem_of_getElem? at_)
    unfold RunNode.final at over_
    cases h : n.st <;> simp_all
  rw [Run.resolvable, nobody, Bool.false_and]

include found in
theorem runStep_final : s.runStep id = s.finishIfOver id := by
  have stays (g : Graph) (fuel : Nat) : State.resolveAll id g fuel s = s := by
    cases fuel with
    | zero => rfl
    | succ fuel =>
      unfold State.resolveAll
      split
      · rfl
      · next q at_ =>
        have same : q = r := by
          split at at_
          · cases at_
          · exact (Option.some.inj (found.symm.trans at_)).symm
        have none : (List.range g.nodes.length).filter (q.resolvable g) = [] := by
          rw [List.filter_eq_nil_iff, same]
          intro k _
          rw [resolvable_final final]
          decide
        rw [none]
  unfold State.runStep
  split
  · rw [stays]
  · rfl

end RunsEnd

/-- A queued run leaves at once when it is cancelled (R295). -/
theorem runCancel_queued {s : State} {v : Word} {r : Run} (answers : s.answers = true) (found : s.job.run? (v.toNat % 2 ^ 48) = some r)
    (queued : r.started = false) (still : s.job.graphPosting = false)
    (silent : ((lookup r.graph s.job.graphs).map (fun g => g.donea)).getD 0#64 = 0#64) : exec (.runCancel v) s = .next (s.runLeaves r.id) := by
  let f (q : Run) : Run := { q with started := true, cancelled := true, nodes := q.nodes.map (fun n => { n with st := .skipped }) }
  have keeps (q : Run) : (f q).id = q.id := rfl
  have found' : (s.onRun r.id f).job.run? r.id = some (f r) := by
    rw [run?_onRun keeps, run?_id found, found]
    rfl
  have final : ∀ n ∈ (f r).nodes, n.final = true := by
    intro n mem
    obtain ⟨_, -, rfl⟩ := List.mem_map.mp mem
    rfl
  have made : tryRunCancel v s = some (s.runLeaves r.id) := by
    simp only [tryRunCancel, answers, found, queued, Bool.not_true, Bool.false_eq_true, if_false]
    exact congrArg some ((finishIfOver_leaves found' final still silent).trans (runLeaves_onRun keeps s r.id))
  rw [exec_runCancel, made, passing_some]

theorem runCancel_unknown {s : State} {v : Word} (answers : s.answers = true) (unknown : s.job.run? (v.toNat % 2 ^ 48) = none) :
    exec (.runCancel v) s = .next s := by
  have made : tryRunCancel v s = some s := by
    simp only [tryRunCancel, answers, unknown, Bool.not_true, Bool.false_eq_true, if_false]
  rw [exec_runCancel, made, passing_some]

/-- The last node of a run completes, and the run with it (R291, R292). -/
theorem nodeCompletion_last {s : State} {run node m : Nat} {r : Run} {n : RunNode} (found : s.job.run? run = some r)
    (at_ : r.nodes[node]? = some n) (started : r.started = true) (patched : r.patched = none) (exited : n.st = .exited m)
    (idle : n.requests = 0) (lasting : n.ending = false) (spawnless : s.job.spawnless run node = true) (works : s.graphWorks = true)
    (settled : ∀ o ∈ s.job.owing, ¬(o.run = run ∧ o.node = node))
    (others : ∀ (k : Nat) (x : RunNode), k ≠ node → r.nodes[k]? = some x → x.final = true)
    (silent : ((lookup r.graph s.job.graphs).map (fun g => g.donea)).getD 0#64 = 0#64) :
    exec (.nodeCompletion run node) s = .next (s.runLeaves run) := by
  let f (x : RunNode) : RunNode := { x with st := .complete, ending := false, restart := false }
  have still : s.job.graphPosting = false := by
    rw [State.graphWorks, Bool.and_eq_true, Bool.not_eq_true'] at works
    exact works.2
  have offers : (!s.graphWorks || !r.started || r.patched.isSome) = false := by
    rw [works, started, patched]
    rfl
  have owes : s.job.owing.any (fun o => o.run == run && o.node == node) = false := by
    rw [List.any_eq_false]
    intro o mem
    simpa using settled o mem
  have node? : s.job.node? run node = some n := by
    rw [Job.node?, found]
    exact at_
  have ends : s.job.nodeEnds run node n = true := by
    simp only [Job.nodeEnds, exited, idle, spawnless, owes, decide_true, Bool.and_self, Bool.not_false]
  have found' : (s.onNode run node f).job.run? run = some { r with nodes := updateAt f node r.nodes } := by
    rw [run?_onNode, found]
    rfl
  have final : ∀ x ∈ updateAt f node r.nodes, x.final = true := by
    intro x mem
    obtain ⟨k, hk⟩ := List.getElem?_of_mem mem
    by_cases own : k = node
    · rw [own, getElem?_updateAt_self, at_] at hk
      rw [← Option.some.inj hk]
      rfl
    · rw [getElem?_updateAt_other own] at hk
      exact others k x own hk
  have made : tryNodeCompletion run node s = some (s.runLeaves run) := by
    simp only [tryNodeCompletion, found, node?, offers, ends, lasting, Bool.false_eq_true, if_false, if_true]
    exact congrArg some ((runStep_final found' final).trans ((finishIfOver_leaves found' final still silent).trans
      (runLeaves_onRun (f := fun q => { q with nodes := updateAt f node q.nodes }) (fun _ => rfl) s run)))
  rw [exec_nodeCompletion, made, passing_some]

end Sys2Proof.Machine
end


section
/-! PROOFS. Levels that firmware cancels, nodes that start, and the first nodes of a run (O50). -/

namespace Sys2Proof.Machine

theorem exec_lvlcmdCancel (s : State) : exec .lvlcmdCancel s = passing s (tryLvlcmdCancel s) := rfl
theorem exec_nodeStart (s : State) : exec .nodeStart s = passing s (tryNodeStart s) := rfl

/-! Replacing any agent, the one in focus as well. -/

theorem agent_putAgent_self (s : State) (id : Nat) (x : Agent) : (s.putAgent id x).agent id = x := by
  by_cases own : id = s.agId
  · rw [State.putAgent, if_pos own]
    exact if_pos own
  · exact (agent_putAgent own x).1

theorem agent_putAgent_other (s : State) {b id : Nat} (h : b ≠ id) (x : Agent) : (s.putAgent id x).agent b = s.agent b := by
  by_cases own : id = s.agId
  · have other : b ≠ s.agId := fun e => h (e.trans own.symm)
    rw [State.putAgent, if_pos own, State.agent, State.agent, if_neg other, if_neg other]
  · exact (agent_putAgent own x).2 b h

theorem putAgent_memory (s : State) (id : Nat) (x : Agent) : SameMemory s (s.putAgent id x) := by
  unfold State.putAgent
  split <;> exact sameMemory_refl s

theorem putAgent_runs (s : State) (id : Nat) (x : Agent) : (s.putAgent id x).job.runs = s.job.runs := by
  unfold State.putAgent
  split <;> rfl

section Levels
variable {s : State} (answers : s.answers = true)
include answers

theorem lvlcmdCancel_cancels : exec .lvlcmdCancel s = .next (s.cancelLevel s.job.selected.1 s.job.selected.2) := by
  have made : tryLvlcmdCancel s = some (s.cancelLevel s.job.selected.1 s.job.selected.2) := if_pos answers
  rw [exec_lvlcmdCancel, made, passing_some]

theorem lvlcmdCancel_job (kind : s.job.selected.1 = 0) :
    Completes .lvlcmdCancel s (fun u => u.job = Job.absent ∧ u.ag = Agent.vacant) := by
  refine ⟨s.endJob, ?_, rfl, rfl⟩
  rw [lvlcmdCancel_cancels answers, kind, cancelLevel_job]

theorem lvlcmdCancel_unit {a : Nat} (kind : s.job.selected = (4, a)) (slot : a < 2 ^ 15) (occupied : (s.agent a).occupied = true)
    (unit : (s.agent a).role = .unit) : Completes .lvlcmdCancel s (fun u => u.agent a = { s.agent a with ending := true } ∧
      (∀ b, b ≠ a → u.agent b = s.agent b) ∧ SameMemory s u) := by
  have live : s.levelCount 4 a ≠ none := by
    rw [levelCount_unit slot occupied unit]
    exact Option.some_ne_none _
  refine ⟨s.putAgent a { s.agent a with ending := true }, ?_, agent_putAgent_self s a _, fun b h => agent_putAgent_other s h _,
    putAgent_memory s a _⟩
  rw [lvlcmdCancel_cancels answers, kind, cancelLevel_unit live]

end Levels

/-- A node starts on a master: its registers, and its place in the run (R291). -/
theorem startNode_starts {s : State} (m : Nat) {run node : Nat} {n : RunNode} (at_ : s.job.node? run node = some n) (g : GraphNode) :
    let u := s.startNode m run node g
    let x := u.agent (masterId m)
    x.occupied = true ∧ x.role = .master ∧ x.priv = .user ∧ x.wait = .ready ∧ x.pc = g.entry ∧
      (∀ i : Fin 32, x.g[i] = if i.val = 1 then g.args else if i.val = 2 then BitVec.ofNat 64 run else 0#64) ∧
      u.job.node? run node = some { n with st := .running (masterId m) } ∧ SameMemory s u := by
  intro u x
  let a : Agent := { Agent.vacant with
    role := .master, priv := .user, occupied := true, pc := g.entry
    g := (Vector.replicate 32 0#64 |>.set 1 g.args |>.set 2 (BitVec.ofNat 64 run)), run := run, node := node
    dbgStopped := (s.agent (masterId m)).dbgStopped }
  have put : x = a := agent_putAgent_self s (masterId m) a
  have node? : u.job.node? run node = (s.job.node? run node).map (fun y => { y with st := .running (masterId m) }) := by
    refine (node?_onNode _ run node _).trans (congrArg _ ?_)
    show ((s.putAgent (masterId m) a).job.runs.find? _).bind _ = _
    rw [putAgent_runs]
    rfl
  rw [put, node?, at_]
  refine ⟨rfl, rfl, rfl, rfl, rfl, fun i => ?_, rfl, putAgent_memory s (masterId m) a⟩
  simp only [a, Fin.getElem_fin, Vector.getElem_set, Vector.getElem_replicate]
  by_cases second : i.val = 2
  · simp [second]
  · simp [second, eq_comm]

theorem nodeStart_first {s : State} {p c run node m : Nat} {n : RunNode} {g : GraphNode} (running : s.job.status = .running)
    (still : s.job.graphPosting = false) (first : firstNode s.job.readyNodes = some (p, c, run, node))
    (at_ : s.job.node? run node = some n) (pos : 1 ≤ m) (mine : m < 2 * s.job.dies_n) (free : s.masterFree m = true)
    (taken : ∀ k, 1 ≤ k → k < m → s.masterFree k = false) (graph : s.job.graphNode run node = some g) :
    Completes .nodeStart s (fun u =>
      let x := u.agent (masterId m)
      x.occupied = true ∧ x.role = .master ∧ x.priv = .user ∧ x.wait = .ready ∧ x.pc = g.entry ∧
      (∀ i : Fin 32, x.g[i] = if i.val = 1 then g.args else if i.val = 2 then BitVec.ofNat 64 run else 0#64) ∧
      u.job.node? run node = some { n with st := .running (masterId m) } ∧ SameMemory s u) := by
  have lowest : ((List.range (2 * s.job.dies_n)).drop 1).find? s.masterFree = some m := by
    rw [List.range_eq_range', List.drop_range', List.find?_range'_eq_some]
    refine ⟨free, List.mem_range'_1.mpr (by omega), fun k above below => ?_⟩
    rw [taken k (by omega) below]
    rfl
  have offers : (!s.working || s.job.graphPosting) = false := by
    rw [State.working, running, still]
    rfl
  have made : tryNodeStart s = some (s.startNode m run node g) := by
    simp only [tryNodeStart, offers, first, lowest, graph, Bool.false_eq_true, if_false]
  refine ⟨_, ?_, startNode_starts m at_ g⟩
  rw [exec_nodeStart, made, passing_some]

end Sys2Proof.Machine
end


section
/-! PROOFS. A run starts (O50): resolving its nodes changes nothing but them, and its sources become ready. -/

namespace Sys2Proof.Machine

theorem exec_runStart (s : State) : exec .runStart s = passing s (tryRunStart s) := rfl

/-- Nothing but the nodes of a run differs. -/
structure OnlyNodes (id : Nat) (s t : State) : Prop where
  frame : ∃ runs, t = { s with job := { s.job with runs := runs } }
  run : ∀ q, t.job.run? id = some q → ∃ q' nodes, s.job.run? id = some q' ∧ q = { q' with nodes := nodes }

namespace OnlyNodes
variable {s t : State} {id : Nat}

theorem refl (id : Nat) (s : State) : OnlyNodes id s s := ⟨⟨_, rfl⟩, fun q h => ⟨q, _, h, rfl⟩⟩

theorem onNode (h : OnlyNodes id s t) (k : Nat) (f : RunNode → RunNode) : OnlyNodes id s (t.onNode id k f) := by
  obtain ⟨⟨runs, frame⟩, run⟩ := h
  refine ⟨⟨_, by rw [frame]; rfl⟩, fun q found => ?_⟩
  rw [run?_onNode, Option.map_eq_some_iff] at found
  obtain ⟨p, old, rfl⟩ := found
  obtain ⟨q', nodes, first, rfl⟩ := run p old
  exact ⟨q', _, first, rfl⟩

theorem cycle (h : OnlyNodes id s t) : t.pkg.cycle = s.pkg.cycle := by
  obtain ⟨⟨_, e⟩, -⟩ := h
  rw [e]

theorem graphPosting (h : OnlyNodes id s t) : t.job.graphPosting = s.job.graphPosting := by
  obtain ⟨⟨_, e⟩, -⟩ := h
  rw [e]
  rfl

theorem graphs (h : OnlyNodes id s t) : t.job.graphs = s.job.graphs := by
  obtain ⟨⟨_, e⟩, -⟩ := h
  rw [e]

theorem lastRun (h : OnlyNodes id s t) : t.job.lastRun = s.job.lastRun := by
  obtain ⟨⟨_, e⟩, -⟩ := h
  rw [e]

end OnlyNodes

/-- A node of a run stands ready since a cycle. -/
def ReadySince (id k now : Nat) (t : State) : Prop := (t.job.node? id k).map (fun n => n.st) = some (.ready now)

section Resolving
variable {g : Graph} (plain : ∀ n ∈ g.nodes, n.conditional = false)
include plain

/-- A node with no predicate resolves where it stands (R291). -/
theorem resolve_plain (t : State) (r : Run) {k : Nat} (hk : k < g.nodes.length) : ∃ runs : Bool, (g.into k = [] → runs = true) ∧
    t.resolve r g k = t.onNode r.id k (fun x => { x with pred := false, st := if runs then .ready t.pkg.cycle else .skipped }) := by
  have value : t.predicate r g.nodes[k] = .value t false := if_pos (by rw [plain _ (List.getElem_mem hk)]; rfl)
  refine ⟨(g.into k).isEmpty || (g.into k).any r.enabled, fun source => by rw [source]; rfl, ?_⟩
  simp only [State.resolve, List.getElem?_eq_getElem hk, value]

omit plain in
theorem resolve_beyond (t : State) (r : Run) {k : Nat} (hk : g.nodes.length ≤ k) : t.resolve r g k = t := by
  simp only [State.resolve, List.getElem?_eq_none hk]

theorem resolve_onlyNodes {s t : State} {r : Run} (h : OnlyNodes r.id s t) (k : Nat) : OnlyNodes r.id s (t.resolve r g k) := by
  rcases Nat.lt_or_ge k g.nodes.length with inside | beyond
  · obtain ⟨_, -, e⟩ := resolve_plain plain t r inside
    rw [e]
    exact h.onNode k _
  · rw [resolve_beyond t r beyond]
    exact h

variable {k : Nat} (hk : k < g.nodes.length) (source : g.into k = [])
include hk source

/-- A node with no edge into it becomes ready (R291). -/
theorem resolve_source {t : State} {r : Run} (known : t.job.node? r.id k ≠ none) : ReadySince r.id k t.pkg.cycle (t.resolve r g k) := by
  obtain ⟨n, at_⟩ := Option.ne_none_iff_exists'.mp known
  obtain ⟨_, ready, e⟩ := resolve_plain plain t r hk
  rw [ReadySince, e, node?_onNode, at_, ready source]
  rfl

theorem resolve_keepsReady {t : State} {r : Run} (ready : ReadySince r.id k t.pkg.cycle t) (j : Nat) :
    ReadySince r.id k t.pkg.cycle (t.resolve r g j) := by
  by_cases own : j = k
  · rw [own]
    refine resolve_source plain hk source (fun none => ?_)
    rw [ReadySince, none] at ready
    cases ready
  · rcases Nat.lt_or_ge j g.nodes.length with inside | beyond
    · obtain ⟨_, -, e⟩ := resolve_plain plain t r inside
      rw [ReadySince, e, node?_onNode_other t r.id (Ne.symm own)]
      exact ready
    · rw [resolve_beyond t r beyond]
      exact ready

theorem resolve_keepsKnown {t : State} {r : Run} (known : t.job.node? r.id k ≠ none) (j : Nat) :
    (t.resolve r g j).job.node? r.id k ≠ none := by
  by_cases own : j = k
  · rw [own]
    intro none
    have ready := resolve_source plain hk source known
    rw [ReadySince, none] at ready
    cases ready
  · rcases Nat.lt_or_ge j g.nodes.length with inside | beyond
    · obtain ⟨_, -, e⟩ := resolve_plain plain t r inside
      rw [e, node?_onNode_other t r.id (Ne.symm own)]
      exact known
    · rw [resolve_beyond t r beyond]
      exact known

end Resolving

/-- One round of resolving, while no record of the scheduler waits. -/
def State.resolveRound (t : State) (r : Run) (g : Graph) (ks : List Nat) : State :=
  ks.foldl (fun t k => if t.job.graphPosting then t else t.resolve r g k) t

section Rounds
variable {g : Graph} (plain : ∀ n ∈ g.nodes, n.conditional = false) {s : State} (still : s.job.graphPosting = false)
include plain

theorem resolveRound_onlyNodes {t : State} {r : Run} (h : OnlyNodes r.id s t) (ks : List Nat) :
    OnlyNodes r.id s (t.resolveRound r g ks) :=
  List.foldlRecOn ks _ h (fun u hu k _ => by
    split
    · exact hu
    · exact resolve_onlyNodes plain hu k)

theorem resolveAll_onlyNodes {t : State} {id : Nat} (h : OnlyNodes id s t) (fuel : Nat) :
    OnlyNodes id s (State.resolveAll id g fuel t) := by
  induction fuel generalizing t with
  | zero => exact h
  | succ fuel ih =>
    unfold State.resolveAll
    split
    · exact h
    · next r at_ =>
      split
      · exact h
      · have named : r.id = id := by
          split at at_
          · cases at_
          · exact run?_id at_
        subst named
        exact ih (resolveRound_onlyNodes plain h _)

variable {k : Nat} (hk : k < g.nodes.length) (source : g.into k = [])
include still hk source

theorem resolveRound_keepsReady {t : State} {r : Run} (h : OnlyNodes r.id s t) (ready : ReadySince r.id k s.pkg.cycle t) (ks : List Nat) :
    ReadySince r.id k s.pkg.cycle (t.resolveRound r g ks) := by
  induction ks generalizing t with
  | nil => exact ready
  | cons j ks ih =>
    rw [State.resolveRound, List.foldl_cons, if_neg (by rw [h.graphPosting, still]; decide)]
    refine ih (resolve_onlyNodes plain h j) ?_
    rw [← h.cycle] at ready ⊢
    exact resolve_keepsReady plain hk source ready j

theorem resolveRound_source {t : State} {r : Run} (h : OnlyNodes r.id s t) (known : t.job.node? r.id k ≠ none) {ks : List Nat}
    (mem : k ∈ ks) : ReadySince r.id k s.pkg.cycle (t.resolveRound r g ks) := by
  induction ks generalizing t with
  | nil => cases mem
  | cons j ks ih =>
    rw [State.resolveRound, List.foldl_cons, if_neg (by rw [h.graphPosting, still]; decide)]
    rcases List.mem_cons.mp mem with rfl | later
    · refine resolveRound_keepsReady plain still hk source (resolve_onlyNodes plain h k) ?_ ks
      rw [← h.cycle]
      exact resolve_source plain hk source known
    · exact ih (resolve_onlyNodes plain h j) (resolve_keepsKnown plain hk source known j) later

theorem resolveAll_keepsReady {t : State} {id : Nat} (h : OnlyNodes id s t) (ready : ReadySince id k s.pkg.cycle t) (fuel : Nat) :
    ReadySince id k s.pkg.cycle (State.resolveAll id g fuel t) := by
  induction fuel generalizing t with
  | zero => exact ready
  | succ fuel ih =>
    unfold State.resolveAll
    split
    · exact ready
    · next r at_ =>
      split
      · exact ready
      · have named : r.id = id := by
          split at at_
          · cases at_
          · exact run?_id at_
        subst named
        exact ih (resolveRound_onlyNodes plain h _) (resolveRound_keepsReady plain still hk source h ready _)

/-- A waiting source is ready once the nodes have been resolved (R291). -/
theorem resolveAll_source {id : Nat} {x : RunNode} (at_ : s.job.node? id k = some x) (waiting : x.st = .waiting) :
    ReadySince id k s.pkg.cycle (State.resolveAll id g g.nodes.length s) := by
  obtain ⟨r, found, node⟩ := Option.bind_eq_some_iff.mp at_
  have named := run?_id found
  subst named
  have resolvable : r.resolvable g k = true := by
    rw [Run.resolvable, node, source, Option.any_some, waiting]
    rfl
  have chosen : k ∈ (List.range g.nodes.length).filter (r.resolvable g) :=
    List.mem_filter.mpr ⟨List.mem_range.mpr hk, resolvable⟩
  obtain ⟨fuel, size⟩ := Nat.exists_eq_succ_of_ne_zero (Nat.ne_of_gt (Nat.lt_of_le_of_lt (Nat.zero_le k) hk))
  have round : State.resolveAll r.id g g.nodes.length s =
      State.resolveAll r.id g fuel (s.resolveRound r g ((List.range g.nodes.length).filter (r.resolvable g))) := by
    rw [size, State.resolveAll, still, ← size]
    simp only [Bool.false_eq_true, if_false, found]
    split
    · next empty =>
      rw [empty] at chosen
      cases chosen
    · rfl
  rw [round]
  have start := OnlyNodes.refl r.id s
  exact resolveAll_keepsReady plain still hk source (resolveRound_onlyNodes plain start _)
    (resolveRound_source plain still hk source start (by rw [at_]; exact Option.some_ne_none x) chosen) fuel

end Rounds

theorem run?_runLeaves (s : State) (id : Nat) : (s.runLeaves id).job.run? id = none := by
  rw [Job.run?, List.find?_eq_none]
  intro r mem
  simpa using (List.mem_filter.mp mem).2

/-- A run whose completion is silent goes on, or leaves with its nodes final (R292). -/
theorem finishIfOver_cases {s : State} {id : Nat}
    (silent : ∀ q, s.job.run? id = some q → ((lookup q.graph s.job.graphs).map (fun g => g.donea)).getD 0#64 = 0#64) :
    s.finishIfOver id = s ∨
      (s.finishIfOver id = s.runLeaves id ∧ ∃ q, s.job.run? id = some q ∧ ∀ n ∈ q.nodes, n.final = true) := by
  cases found : s.job.run? id with
  | none =>
    rw [State.finishIfOver, found]
    exact .inl rfl
  | some q =>
    cases ends : (q.nodes.all RunNode.final && !s.job.graphPosting) with
    | true =>
      rw [Bool.and_eq_true, List.all_eq_true, Bool.not_eq_true'] at ends
      exact .inr ⟨finishIfOver_leaves found ends.1 ends.2 (silent q found), q, rfl, ends.1⟩
    | false =>
      simp only [State.finishIfOver, found, ends, Bool.false_eq_true, if_false]
      exact .inl trivial

/-- A run entered in flight, its patch list written. -/
def State.inFlight (s : State) (id : Nat) : State :=
  let t := s.onRun id (fun q => { q with started := true, patched := some 0 })
  ({ t with job := { t.job with lastRun := id } }).onRun id (fun q => { q with patched := none })

theorem run?_inFlight (s : State) (id : Nat) :
    (s.inFlight id).job.run? id = (s.job.run? id).map (fun q => { q with started := true, patched := none }) := by
  let t := s.onRun id (fun q => { q with started := true, patched := some 0 })
  have first : t.job.run? id = (s.job.run? id).map (fun q => { q with started := true, patched := some 0 }) :=
    run?_onRun (f := fun q => { q with started := true, patched := some 0 }) (fun _ => rfl) s id
  refine (run?_onRun (f := fun q => { q with patched := none }) (fun _ => rfl)
    { t with job := { t.job with lastRun := id } } id).trans ?_
  rw [show ({ t with job := { t.job with lastRun := id } } : State).job.run? id = t.job.run? id from rfl, first, Option.map_map]
  rfl

/-- The next run to start, with no patch list, has its nodes resolved (R289, R291). -/
theorem runStart_starts {s : State} {r : Run} {g : Graph} (running : s.job.status = .running) (still : s.job.graphPosting = false)
    (whole : ∀ q ∈ s.job.runs, q.patched = none) (next : s.job.nextToStart = some r) (found : s.job.run? r.id = some r)
    (graph : lookup r.graph s.job.graphs = some g) (unpatched : r.plist = 0#64) :
    exec .runStart s = .next ((State.resolveAll r.id g g.nodes.length (s.inFlight r.id)).finishIfOver r.id) := by
  have none : s.job.runs.find? (fun r => r.patched.isSome && s.serviced .engWrite r.faulted) = none := by
    rw [List.find?_eq_none]
    intro q mem
    simp [whole q mem]
  have offers : (!s.working || s.job.graphPosting) = false := by
    rw [State.working, running, still]
    rfl
  have steps : (s.inFlight r.id).runStep r.id =
      (State.resolveAll r.id g g.nodes.length (s.inFlight r.id)).finishIfOver r.id := by
    have known : ((s.inFlight r.id).job.run? r.id).bind (fun q => lookup q.graph (s.inFlight r.id).job.graphs) = some g := by
      rw [run?_inFlight, found]
      exact graph
    rw [State.runStep, known]
  have made : tryRunStart s = some ((s.inFlight r.id).runStep r.id) := by
    simp only [tryRunStart, offers, none, next, graph, State.startRun, unpatched, State.patch, Bool.false_eq_true, if_false, if_true]
    rfl
  rw [exec_runStart, made, passing_some, steps]

/-- What has become of the run and its sources (R289, R291). -/
theorem runStart_ready {s : State} {r : Run} {g : Graph} (running : s.job.status = .running) (still : s.job.graphPosting = false)
    (whole : ∀ q ∈ s.job.runs, q.patched = none) (next : s.job.nextToStart = some r) (found : s.job.run? r.id = some r)
    (graph : lookup r.graph s.job.graphs = some g) (unpatched : r.plist = 0#64) (silent : g.donea = 0#64)
    (plain : ∀ n ∈ g.nodes, n.conditional = false) : Completes .runStart s (fun u => u.job.lastRun = r.id ∧
      (∀ q, u.job.run? r.id = some q → q.started = true ∧ q.patched = none) ∧
      ∀ (k : Nat) (x : RunNode), k < g.nodes.length → g.into k = [] → r.nodes[k]? = some x → x.st = .waiting →
        (u.job.node? r.id k).map (fun y => y.st) = some (.ready s.pkg.cycle)) := by
  let w := State.resolveAll r.id g g.nodes.length (s.inFlight r.id)
  have only : OnlyNodes r.id (s.inFlight r.id) w := resolveAll_onlyNodes plain (OnlyNodes.refl _ _) _
  have run (q : Run) (h : w.job.run? r.id = some q) : q.graph = r.graph ∧ q.started = true ∧ q.patched = none := by
    obtain ⟨q', nodes, entered, rfl⟩ := only.run q h
    rw [run?_inFlight, found] at entered
    obtain rfl := Option.some.inj entered
    exact ⟨rfl, rfl, rfl⟩
  have ready (k : Nat) (x : RunNode) (hk : k < g.nodes.length) (source : g.into k = []) (at_ : r.nodes[k]? = some x)
      (waiting : x.st = .waiting) : ReadySince r.id k s.pkg.cycle w := by
    refine resolveAll_source plain (s := s.inFlight r.id) still hk source (x := x) ?_ waiting
    rw [Job.node?, run?_inFlight, found]
    exact at_
  have quiet (q : Run) (h : w.job.run? r.id = some q) :
      ((lookup q.graph w.job.graphs).map (fun g => g.donea)).getD 0#64 = 0#64 := by
    rw [(run q h).1, only.graphs]
    show ((lookup r.graph s.job.graphs).map (fun g => g.donea)).getD 0#64 = _
    rw [graph]
    exact silent
  have runs := runStart_starts running still whole next found graph unpatched
  rcases finishIfOver_cases quiet with stays | ⟨leaves, q, over_, final⟩
  · exact ⟨w, by rw [runs, stays], only.lastRun, fun q h => (run q h).2, ready⟩
  · refine ⟨w.runLeaves r.id, by rw [runs, leaves], only.lastRun, fun q h => ?_, fun k x hk source at_ waiting => ?_⟩
    · rw [run?_runLeaves] at h
      cases h
    · have stands := ready k x hk source at_ waiting
      rw [ReadySince, Job.node?, over_] at stands
      obtain ⟨n, node, st⟩ := Option.map_eq_some_iff.mp stands
      have ended := final n (List.mem_of_getElem? node)
      rw [RunNode.final, st] at ended
      cases ended

end Sys2Proof.Machine
end


section
/-! PROOFS. O50, from the steps above. -/

namespace Sys2Proof.Machine

/-- What an upload does, by what is read of its image (R286, R287). -/
theorem graphUpload_ends {s : State} (answers : s.answers = true) (v : Word) : let id := graphId v
    ((∃ r ∈ s.job.runs, r.graph = id) → Completes (.graphUpload v) s (fun u => UploadEnded id u 2 ∧ u.job.graphs = s.job.graphs)) ∧
    ((∀ r ∈ s.job.runs, r.graph ≠ id) → s.job.graphPosting = true → exec (.graphUpload v) s =
      .next { s with job := { s.job with upload := some (v, addr6 v) } }) ∧
    ((∀ r ∈ s.job.runs, r.graph ≠ id) → s.job.graphPosting = false → ∀ s1 head,
      State.engReads schedulerChunk (items (addr6 v) 8 8) s = .ok s1 head →
      let n := head.getD 0 0 / 2 ^ 48 % 2 ^ 16
      let e := head.getD 0 0 / 2 ^ 32 % 2 ^ 16
      (n = 0 → Completes (.graphUpload v) s (fun u => UploadEnded id u 1 ∧ u.job.graphs = remove id s1.job.graphs)) ∧
      (4096 < n ∨ (n ≠ 0 ∧ 16384 < e) → Completes (.graphUpload v) s (fun u => UploadEnded id u 4 ∧ u.job.graphs = s1.job.graphs)) ∧
      (1 ≤ n → n ≤ 4096 → e ≤ 16384 → ∀ s2 body,
        State.engReads schedulerChunk (items (addr6 v + 64#64) 8 (4 * n + e)) s1 = .ok s2 body →
        let g := graphOf head body
        let held := ((remove id s2.job.graphs).map (fun x => x.2.bytes)).sum + (s2.jobs.map (fun x => x.2.graphBytes)).sum
        (g.ok head = false → Completes (.graphUpload v) s (fun u => UploadEnded id u 4 ∧ u.job.graphs = s2.job.graphs)) ∧
        (g.ok head = true → 2 ^ 22 < held + g.bytes → Completes (.graphUpload v) s (fun u =>
          UploadEnded id u 3 ∧ u.job.graphs = s2.job.graphs)) ∧
        (g.ok head = true → held + g.bytes ≤ 2 ^ 22 → Completes (.graphUpload v) s (fun u =>
          UploadEnded id u 1 ∧ lookup id u.job.graphs = some g)))) :=
  ⟨graphUpload_busy v answers, graphUpload_held v answers, fun free still _ _ headed =>
    ⟨graphUpload_empty v answers free still headed, graphUpload_large v answers free still headed,
      fun some nodes edges _ _ read => graphUpload_read v answers free still headed some nodes edges read⟩⟩

/-- Settles O50: each clause is the lemma on its step; a run in flight is resolved node by node, and leaves once all are final. -/
theorem turnsDrawsAndRunsMoveOn : Obligations.TurnsDrawsAndRunsMoveOn := by
  intro s now
  refine ⟨fun die core hd hc mine => rotationTurn_passes hd hc mine, fun a sp => ?_, ?_, ?_, ?_, ?_, ?_, fun c => rfl, ?_, ?_⟩
  · intro die begins mine turn may ready again
    refine ⟨fun m e noChild entry found going fresh left => ?_, fun id rest newest found _ _ => ?_⟩
    · exact slotDraw_top mine turn may ready again noChild entry found going fresh left
    · exact slotDraw_child mine turn may ready again newest found
  · exact fun die m id sp spawn running mine absent sent lower => spawnBroadcast_reaches spawn running mine absent sent lower
  · exact fun die m e sp entry found running going left one => chunkRequest_gives entry found running going left one
  · exact fun die id rest spilled live room => basinRefill_returns spilled live room
  · exact fun r rest u cell home oldest size live queue room reached canonical quiet =>
      trapRecordPost_writes oldest size live queue room reached canonical quiet
  · exact fun a c held live => deferredSupervisorSave_delivers held live
  · intro answers
    refine ⟨graphUpload_ends answers, fun v => runTrigger_queues v answers, fun v => runCancel_unknown answers, ?_, ?_, ?_,
      lvlcmdCancel_job answers, fun a => lvlcmdCancel_unit answers⟩
    · exact fun v r found queued still silent => ⟨_, runCancel_queued answers found queued still silent, rfl, rfl, rfl⟩
    · exact fun run node r n m found at_ started patched exited idle lasting spawnless works settled others silent =>
        ⟨_, nodeCompletion_last found at_ started patched exited idle lasting spawnless works settled others silent, rfl, rfl, rfl⟩
    · intro dead
      rw [lvlcmdCancel_cancels answers, cancelLevel_dead dead]
  · intro running still
    refine ⟨fun r g whole next found graph unpatched silent plain => ?_, fun p c run node n m g first at_ pos mine free taken graph => ?_⟩
    · exact runStart_ready running still whole next found graph unpatched silent plain
    · exact nodeStart_first running still first at_ pos mine free taken graph

end Sys2Proof.Machine
end

section
/-! PROOFS. The checks of an access in their order (R48, R51 to R53), and what a passed check leaves as it was. -/

namespace Sys2Proof.Machine

/-- What a check that passes may change: memory, by a walker's write and what follows it at its home, with the watches of the dword,
and the cached entries (R304, R306). -/
def WalkOnly (s u : State) : Prop :=
  ∃ m armed tlb, u = { s with mem := m, job := { s.job with armed := armed, tlb := tlb } }

namespace WalkOnly

theorem refl (s : State) : WalkOnly s s := ⟨s.mem, s.job.armed, s.job.tlb, rfl⟩

theorem trans {s t u : State} (h : WalkOnly s t) (k : WalkOnly t u) : WalkOnly s u := by
  obtain ⟨_, _, _, rfl⟩ := h
  obtain ⟨m, armed, tlb, rfl⟩ := k
  exact ⟨m, armed, tlb, rfl⟩

theorem ag {s u : State} (h : WalkOnly s u) : u.ag = s.ag := by
  obtain ⟨_, _, _, rfl⟩ := h
  rfl

/-- Memory, watches and cached entries put back, the state is the one before. -/
theorem restored {s u : State} (h : WalkOnly s u) :
    { u with mem := s.mem, job := { u.job with tlb := s.job.tlb, armed := s.job.armed } } = s := by
  obtain ⟨_, _, _, rfl⟩ := h
  rfl

end WalkOnly

theorem watchWrite_walkOnly (s : State) (a : Nat) : WalkOnly s (s.watchWrite a) := by
  unfold State.watchWrite
  split
  · exact ⟨s.mem, _, s.job.tlb, rfl⟩
  · exact .refl s

/-- A dword that a walker wrote is logged at its base die, which keeps no epochs of lines (R306, R340). -/
theorem logDirty_none_walkOnly (s : State) (a : Nat) : WalkOnly s (s.logDirty a none) := by
  unfold State.logDirty
  split
  · exact .refl s
  extract_lets epoch
  split
  · exact .refl s
  change WalkOnly s (if _ then _ else _)
  split
  · exact .refl s
  · exact .trans ⟨_, s.job.armed, s.job.tlb, rfl⟩ (watchWrite_walkOnly _ _)

theorem walked_walkOnly (s : State) (wrote : Option Nat) : WalkOnly s (s.walked wrote) := by
  cases wrote with
  | none => exact .refl s
  | some a => exact (logDirty_none_walkOnly s a).trans (watchWrite_walkOnly _ a)

theorem walk_walkOnly {s : State} {f : Form} {va : Word} {e : Entry} (h : s.walk f va = .ok e) : WalkOnly s e.s := by
  unfold State.walk at h
  extract_lets need at h
  split at h
  · cases h
  split at h
  · cases h
  · cases h
  extract_lets d1 at h
  iterate 4
    split at h
    · cases h
  obtain rfl := Except.ok.inj h
  exact ⟨_, s.job.armed, _, rfl⟩

theorem entryFor_walkOnly {s : State} {f : Form} {va : Word} {e : Entry} (h : s.entryFor f va = .ok e) : WalkOnly s e.s := by
  unfold State.entryFor at h
  split at h
  · obtain rfl := Except.ok.inj h
    exact .refl s
  · exact walk_walkOnly h

theorem check_walkOnly {s u : State} {p : Priv} {f : Form} {va : Word} {n : Nat} {l : Loc} (h : s.check p f va n = .ok (u, l)) :
    WalkOnly s u := by
  unfold State.check at h
  split_ifs at h
  · split at h
    · cases h
    · obtain ⟨rfl, -⟩ := Prod.mk.inj (Except.ok.inj h)
      exact .refl s
  · split at h
    · cases h
    · next he =>
      split at h
      · cases h
      · obtain ⟨rfl, -⟩ := Prod.mk.inj (Except.ok.inj h)
        exact (entryFor_walkOnly he).trans (walked_walkOnly _ _)

section Order
variable {s : State} {p : Priv} {f : Form} {va : Word} {z : Nat}

theorem canonical_iff : canonical va = true ↔ va.toNat / 2 ^ 56 = 0 ∨ va.toNat / 2 ^ 56 = 0xFF := by
  simp [canonical]

/-- Of a canonical address bit 56 says which half it lies in (R48). -/
theorem supervisorHalf_iff (h : canonical va = true) : supervisorHalf va = true ↔ va.toNat / 2 ^ 56 = 0xFF := by
  rw [supervisorHalf, decide_eq_true_iff]
  rcases canonical_iff.mp h with e | e <;> rw [e] <;> decide

theorem canonical_of_inWindow (h : inWindow va = true) : canonical va = true := by
  have base : va.toNat / 2 ^ 32 = 0xFFFF00 := of_decide_eq_true h
  rw [canonical_iff]
  omega

/-- An address that is not canonical fails first, whatever else is wrong with it (R48, R51). -/
theorem check_noncanonical (h : canonical va = false) : s.check p f va z = .error (fault1 f 2 0 va) := by
  unfold State.check
  simp [h]

/-- Then user privilege in the supervisor half (R48, R51). -/
theorem check_privilege (h : canonical va = true) (low : p = .user) (upper : supervisorHalf va = true) :
    s.check p f va z = .error (fault1 f 3 0 va) := by
  unfold State.check
  simp [h, low, upper]

/-- Then the alignment of an access that is no fetch (R51). -/
theorem check_misaligned (h : canonical va = true) (may : ¬(p = .user ∧ supervisorHalf va = true)) (off : f ≠ .fetch ∧ va.toNat % z ≠ 0) :
    s.check p f va z = .error (fault1 f 4 0 va) := by
  unfold State.check
  simp [h, may, off]

/-- A window address that passes those goes where R52 and R53 lead it. -/
theorem check_window (h : inWindow va = true) (may : ¬(p = .user ∧ supervisorHalf va = true)) (on : ¬(f ≠ .fetch ∧ va.toNat % z ≠ 0)) :
    s.check p f va z = (s.window f va z).map (fun l => (s, l)) := by
  unfold State.check
  simp only [canonical_of_inWindow h, h, Bool.not_true, Bool.false_eq_true, if_false, if_true, Bool.and_eq_true, decide_eq_true_eq, may, on]
  cases s.window f va z <;> rfl

/-- An access of at most a dword touches one offset of the local store (R53). -/
theorem window_small (pos : 0 < z) (small : z ≤ 8) :
    s.window f va z =
      if va.toNat / 2 ^ 29 % 8 ≠ 0 ∨ s.job.dies_n ≤ va.toNat / 2 ^ 25 % 16 then .error (fault1 f 5 0 va)
      else if systemArea (va.toNat % 2 ^ 18) f then
        .ok (.cell (lsCell (s.job.pdie (va.toNat / 2 ^ 25 % 16)) (va.toNat / 2 ^ 18 % 128) (va.toNat % 2 ^ 18)) none)
      else .error (fault1 f 5 1 va) := by
  have one : (z + 7) / 8 = 1 := by omega
  unfold State.window
  simp only [one, List.range_one, List.all_cons, List.all_nil, Bool.and_true, mul_zero, add_zero, Bool.or_eq_true, decide_eq_true_eq]
  simp only [field, pow_zero, Nat.div_one, Nat.reducePow]

/-- The class-1 trap of a failed check, its code written out (R323). -/
theorem fault1_eq (f : Form) (reason subr : Nat) (va : Word) : fault1 f reason subr va =
    { cause := BitVec.ofNat 8 (0x20 + reason + 8 * (match f.kind with | .load => 0 | .store => 1 | .fetch => 2 | .engine => 3))
      subr := subr, addr := va } := by
  rw [fault1, class1, Nat.add_right_comm, Nat.mul_comm 8] <;> rfl

end Order

/-- Settles O33: the checks one by one in their order, then what the walk of a passed check has changed. -/
theorem checksComeInTheirOrder : Obligations.ChecksComeInTheirOrder := by
  intro s p f va z size x code fails offset
  refine ⟨?_, fun u loc h => ⟨(check_walkOnly h).ag, (check_walkOnly h).restored⟩⟩
  have bounds : 0 < z ∧ z ≤ 8 := by
    simp only [List.mem_cons, List.not_mem_nil, or_false] at size
    omega
  have fails_of {reason subr : Nat} (h : s.check p f va z = .error (fault1 f reason subr va)) : fails reason subr := by
    rw [fault1_eq] at h
    exact h
  by_cases form : x / 2 ^ 56 ≠ 0 ∧ x / 2 ^ 56 ≠ 0xFF
  · rw [if_pos form]
    exact fails_of (check_noncanonical (by rw [← Bool.not_eq_true, canonical_iff]; omega))
  rw [if_neg form]
  have form : canonical va = true := canonical_iff.mpr (by omega)
  simp only [← supervisorHalf_iff form, x]
  by_cases low : p = .user ∧ supervisorHalf va = true
  · rw [if_pos low]
    exact fails_of (check_privilege form low.1 low.2)
  rw [if_neg low]
  by_cases off : f ≠ .fetch ∧ x % z ≠ 0
  · rw [if_pos off]
    exact fails_of (check_misaligned form low off)
  rw [if_neg off]
  intro window
  have goes := check_window (s := s) (p := p) (decide_eq_true window) low off
  rw [window_small bounds.1 bounds.2] at goes
  split_ifs at goes ⊢
  · exact fails_of goes
  · exact goes
  · exact fails_of goes

end Sys2Proof.Machine
end

section
/-! PROOFS. Rising lists of numbers, which hold the full/empty bits and the marks of poison (R61, R343), and the reads of a dword's bit
and mark after a change of one. -/

namespace Sys2Proof.Machine

theorem rising_mono {lo hi : Nat} {l : List Nat} (h : lo ≤ hi) (r : rising hi l = true) : rising lo l = true := by
  cases l with
  | nil => rfl
  | cons i l =>
    simp only [rising, Bool.and_eq_true, decide_eq_true_eq] at r ⊢
    exact ⟨h.trans r.1, r.2⟩

/-- The numbers of a rising list stand above its bound. -/
theorem le_of_mem_rising {lo i : Nat} {l : List Nat} (r : rising lo l = true) (h : i ∈ l) : lo ≤ i := by
  induction l generalizing lo with
  | nil => cases h
  | cons k l ih =>
    simp only [rising, Bool.and_eq_true, decide_eq_true_eq] at r
    rcases List.mem_cons.mp h with rfl | h
    · exact r.1
    · have := ih r.2 h
      omega

theorem rising_insertNat {lo k : Nat} {l : List Nat} (h : lo ≤ k) (r : rising lo l = true) : rising lo (insertNat k l) = true := by
  induction l generalizing lo with
  | nil => simp [insertNat, rising, h]
  | cons i l ih =>
    simp only [rising, Bool.and_eq_true, decide_eq_true_eq] at r
    unfold insertNat
    split_ifs with hlt heq
    · simp [rising, h, Nat.succ_le_of_lt hlt, r.2]
    · simp [rising, r]
    · simp [rising, r.1, ih (by omega) r.2]

theorem rising_eraseNat {lo : Nat} (k : Nat) {l : List Nat} (r : rising lo l = true) : rising lo (eraseNat k l) = true := by
  induction l generalizing lo with
  | nil => rfl
  | cons i l ih =>
    simp only [rising, Bool.and_eq_true, decide_eq_true_eq] at r
    unfold eraseNat
    split_ifs
    · exact rising_mono (by omega) r.2
    · simp [rising, r.1, ih r.2]

theorem mem_insertNat {i k : Nat} {l : List Nat} : i ∈ insertNat k l ↔ i = k ∨ i ∈ l := by
  induction l with
  | nil => simp [insertNat]
  | cons j l ih =>
    unfold insertNat
    split_ifs with hlt heq
    · simp
    · subst heq
      simp
    · simp only [List.mem_cons, ih]
      tauto

theorem mem_eraseNat {lo i k : Nat} {l : List Nat} (r : rising lo l = true) : i ∈ eraseNat k l ↔ i ≠ k ∧ i ∈ l := by
  induction l generalizing lo with
  | nil => simp [eraseNat]
  | cons j l ih =>
    simp only [rising, Bool.and_eq_true, decide_eq_true_eq] at r
    unfold eraseNat
    split_ifs with heq
    · subst heq
      have above (h : i ∈ l) : i ≠ j := by
        have := le_of_mem_rising r.2 h
        omega
      simp only [List.mem_cons]
      tauto
    · simp only [List.mem_cons, ih r.2]
      constructor
      · rintro (rfl | ⟨ne, h⟩)
        · exact ⟨heq, .inl rfl⟩
        · exact ⟨ne, .inr h⟩
      · rintro ⟨ne, rfl | h⟩
        · exact .inl rfl
        · exact .inr ⟨ne, h⟩

section Parts
variable {s : State} (h : Canonical s)
include h

theorem Canonical.mem : Memory.wf s.mem = true := h.1
theorem Canonical.fe : rising 0 s.fe = true := h.2.1
theorem Canonical.poison : rising 0 s.poison = true := h.2.2.1
theorem Canonical.dev : rising 0 (s.pkg.dev.map (fun x => x.1)) = true := h.2.2.2

end Parts

theorem Canonical.setFe {s : State} (canonical : Canonical s) {a : Nat} {full : Bool} : Canonical (s.setFe a full) := by
  refine ⟨canonical.mem, ?_, canonical.poison, canonical.dev⟩
  unfold State.setFe
  split
  · exact rising_eraseNat _ canonical.fe
  · exact rising_insertNat (Nat.zero_le _) canonical.fe

theorem Canonical.setPoison {s : State} (canonical : Canonical s) {a : Nat} {bad : Bool} : Canonical (s.setPoison a bad) := by
  refine ⟨canonical.mem, canonical.fe, ?_, canonical.dev⟩
  unfold State.setPoison
  split
  · exact rising_insertNat (Nat.zero_le _) canonical.poison
  · exact rising_eraseNat _ canonical.poison

theorem feBit_setFe {s : State} (r : rising 0 s.fe = true) (a b : Nat) (full : Bool) :
    (s.setFe a full).feBit b = if b / 8 = a / 8 then full else s.feBit b := by
  have listed : (s.setFe a full).fe.contains (b / 8) = if b / 8 = a / 8 then !(full == feDefault (a / 8)) else s.fe.contains (b / 8) := by
    rw [Bool.eq_iff_iff, List.contains_iff_mem]
    unfold State.setFe
    by_cases d : full = feDefault (a / 8) <;> by_cases e : b / 8 = a / 8 <;> simp [d, e, mem_eraseNat r, mem_insertNat]
  unfold State.feBit
  rw [listed]
  by_cases e : b / 8 = a / 8
  · rw [if_pos e, if_pos e, e]
    cases full <;> cases feDefault (a / 8) <;> rfl
  · rw [if_neg e, if_neg e]

theorem poisoned_setPoison {s : State} (r : rising 0 s.poison = true) (a b : Nat) (bad : Bool) :
    (s.setPoison a bad).poisoned b = if b / 8 = a / 8 then bad else s.poisoned b := by
  unfold State.poisoned State.setPoison
  rw [Bool.eq_iff_iff, List.contains_iff_mem]
  cases bad <;> by_cases e : b / 8 = a / 8 <;> simp [e, mem_eraseNat r, mem_insertNat]

end Sys2Proof.Machine
end

section
/-! PROOFS. The full/empty operations (R62, R63, R163): the access that reaches its cell, and what follows it there. -/

namespace Sys2Proof.Machine

section Way
variable {s : State} {loc : Loc} {n : Nat}

/-- Where every streaming access to the place has performed, nothing stands in the way of an access to it (R66). -/
theorem clearWay_performed (done : ∀ x ∈ s.ag.nb, x.performed = true ∨ x.touches loc n = false)
    (loose : ∀ l ∈ s.job.loose, l.agent ≠ s.agId ∨ l.access.touches loc n = false) : s.clearWay [(loc, n)] = (true, s) := by
  have first : s.firstStreaming (fun x => x.touches loc n) = none := by
    rw [State.firstStreaming, List.findIdx?_eq_none_iff]
    intro x hx
    rcases done x hx with h | h <;> simp [h]
  have settled (k : Nat) : State.settle (fun x => x.touches loc n) k s = s := by
    cases k with
    | zero => rfl
    | succ k => simp only [State.settle, first]
  have away : s.looseAt loc n = false := by
    rw [State.looseAt, List.any_eq_false]
    intro l hl
    rcases loose l hl with h | h <;> simp [h]
  simp only [State.clearWay, List.any_cons, List.any_nil, Bool.or_false, settled, first, Option.isNone_none, away, Bool.not_false,
    Bool.and_self]

/-- A data access that gets to its cell in one piece has its effect there at its issue. -/
theorem access_reaches {u : State} {op : MemOp} {va : Word} {c : Nat} {h : Option Nat} (reached : Reaches s op va u c h)
    (whole : u.pieces op (.cell c h) op.size = [(.cell c h, op.size)]) (len : Nat) :
    s.access op va len = u.finish op va (.cell c h) len (u.effect (u.atIssue op (.cell c h)) op va (.cell c h) len) := by
  obtain ⟨w, watched, checked, -, done, loose, -⟩ := reached
  unfold State.access
  simp only [watched, Bool.false_eq_true, if_false, State.perform, checked, whole, clearWay_performed done loose]

end Way

/-- A full/empty operation that gets to its cell has its effect there, for no replay holds it (R371). -/
theorem access_fe {s u : State} {f : FeOp} {d : Reg} {v va : Word} {c : Nat} {h : Option Nat} (reached : Reaches s (.fe f d v) va u c h)
    (quiet : QuietHome u h) :
    s.access (.fe f d v) va 4 = u.finish (.fe f d v) va (.cell c h) 4 (u.feEffect (.fe f d v) f d v va c h 4 none) := by
  obtain ⟨-, -, -, awake, -, -, all⟩ := id reached
  have free : u.heldAt 1 (.cell c h) 8 = false := held_quiet quiet _ c 8
  have issue : u.atIssue (.fe f d v) (.cell c h) = 16 := by simp only [State.atIssue, all, Option.getD_none]
  rw [access_reaches reached rfl, issue]
  simp only [State.effect, awake, OfNat.ofNat_ne_zero, decide_false, Bool.or_false, Bool.false_eq_true, if_false, free, Bool.and_false]

theorem feBit_congr {s : State} {a b : Nat} (h : b / 8 = a / 8) : s.feBit b = s.feBit a := by
  unfold State.feBit
  rw [h]

/-- Emptying a mailbox looks at no full/empty bit. -/
theorem withdraw_setFe (s : State) (a c : Nat) (full : Bool) : (s.setFe a full).withdraw c = (s.withdraw c).setFe a full := by
  unfold State.withdraw
  rw [show (s.setFe a full).mailboxAt c = s.mailboxAt c from rfl]
  split
  · rfl
  · rw [show (s.setFe a full).job = s.job from rfl]
    split
    · rfl
    · next p _ => cases p.level <;> rfl

/-- A retry pass over parked operations of other dwords changes nothing (R63). -/
theorem retryPass_nobody {a : Nat} {ps : List Parked} (away : ∀ p ∈ ps, p.ended = none → p.cell / 8 ≠ a / 8) (s : State) :
    State.retryPass a ps s = (ps, s, false) := by
  induction ps with
  | nil => rfl
  | cons p ps ih =>
    have other : (p.ended.isNone && decide (p.cell / 8 = a / 8)) = false := by
      have := away p List.mem_cons_self
      cases ended : p.ended <;> simp_all
    rw [State.retryPass, other, ih (fun q hq => away q (List.mem_cons_of_mem p hq))]
    rfl

/-- A change of a dword's bit at which nobody is parked wakes nobody. -/
theorem bitChanged_nobody {s : State} {a : Nat} (nobody : NobodyParked s a) (before : Bool) : s.bitChanged a before = s := by
  unfold State.bitChanged
  split
  · rfl
  · rw [State.retryPasses, retryPass_nobody nobody]
    rfl

/-- What a full/empty operation at a cell leaves at its home: the bit, and the dword it writes, if it writes one, which clears the mark
(R61, R62). -/
structure FeMoved (u t : State) (a : Nat) (full : Bool) (data : Option Word) : Prop where
  bits : ∀ b, t.feBit b = if b / 8 = a / 8 then full else u.feBit b
  bytes : match data with
    | some x => Holds u t a 8 x.toNat
    | none => ∀ b, t.readByte b = u.readByte b
  marks : ∀ b, t.poisoned b = if data.isSome ∧ b / 8 = a / 8 then false else u.poisoned b
  rest : ∃ m l p w, t = { u with mem := m, fe := l, poison := p, job := { u.job with armed := w } }

namespace FeMoved

/-- An operation that looks at the bit alone leaves it as it was. -/
theorem refl (u : State) (a : Nat) : FeMoved u u a (u.feBit a) none where
  bits b := by
    split_ifs with e
    · exact feBit_congr e
    · rfl
  bytes := fun _ => rfl
  marks b := by simp
  rest := ⟨_, _, _, _, rfl⟩

theorem setFe {u : State} (canonical : Canonical u) (a : Nat) (full : Bool) : FeMoved u (u.setFe a full) a full none where
  bits b := feBit_setFe canonical.fe a b full
  bytes := fun _ => rfl
  marks b := by simp [State.setFe, State.poisoned]
  rest := ⟨_, _, _, _, rfl⟩

end FeMoved

/-- A dword stored at a quiet home: its bytes, its mark cleared, and its watches tried (R61, R70). -/
theorem store_dword_quiet {s : State} {home : Option Nat} (quiet : QuietHome s home) (w : Writer) (a v : Nat) :
    s.store w a 8 v home = (({ s with mem := Memory.writeNat a 8 v s.mem } : State).setPoison a false).watchWrite a :=
  written_quiet (s := ({ s with mem := Memory.writeNat a 8 v s.mem } : State).setPoison a false) quiet w a _

theorem watchWrite_frame (s : State) (a : Nat) : ∃ w, s.watchWrite a = { s with job := { s.job with armed := w } } := by
  unfold State.watchWrite
  split
  · exact ⟨_, rfl⟩
  · exact ⟨_, rfl⟩

/-- A store that sets the bit full (R62, R163). -/
theorem FeMoved.store {u : State} {home : Option Nat} (canonical : Canonical u) (quiet : QuietHome u home) (w : Writer) (a : Nat) (x : Word) :
    FeMoved u ((u.setFe a true).store w a 8 x.toNat home) a true (some x) := by
  have quiet' : QuietHome (u.setFe a true) home := quiet
  obtain ⟨holds, bits⟩ := store_holds canonical.setFe quiet' w a 8 x.toNat
  obtain ⟨l, frame⟩ := watchWrite_frame (({ u.setFe a true with mem := Memory.writeNat a 8 x.toNat u.mem } : State).setPoison a false) a
  have stored : (u.setFe a true).store w a 8 x.toNat home = _ := (store_dword_quiet quiet' w a x.toNat).trans frame
  refine ⟨fun b => (bits b).trans (feBit_setFe canonical.fe a b true), holds, fun b => ?_, ?_⟩
  · rw [stored]
    simp only [Option.isSome_some, true_and]
    exact poisoned_setPoison (s := u) canonical.poison a b false
  · rw [stored]
    exact ⟨_, _, _, _, rfl⟩

section Done
variable {s u t : State} {f : FeOp} {d : Reg} {v va x : Word} {c : Nat} {h : Option Nat} {full : Bool} {data : Option Word}

/-- A full/empty operation whose requirement is met, on a dword at which nobody is parked. -/
theorem access_fe_done (reached : Reaches s (.fe f d v) va u c h) (quiet : QuietHome u h) (nobody : NobodyParked u c)
    (tried : u.tryFe (u.writer 1) f v c h = some (.ok x, t)) (moved : FeMoved u t c full data) :
    FullEmptyDone u d x c full data (s.access (.fe f d v) va 4) := by
  let w : State := { t with ag := { t.ag with wakes := 0 } }
  obtain ⟨bits, bytes, marks, m, l, p, armed, rest⟩ := moved
  have woken : NobodyParked w c := by
    unfold w
    rw [rest]
    exact nobody
  have result : s.access (.fe f d v) va 4 = w.result d x := by
    rw [access_fe reached quiet, State.feEffect, tried]
    change u.finish _ _ _ _ (.done (w.bitChanged c (u.feBit c)) d x) = _
    rw [bitChanged_nobody woken]
    rfl
  obtain ⟨got, pc, -, sameBytes, sameBits, sameMarks⟩ := result_wrote w d x
  rw [result]
  refine ⟨fun r => ?_, ?_, fun b => (sameBits b).trans (bits b), ?_, fun b => (sameMarks b).trans (marks b), ?_⟩
  · rw [got r]
    unfold w
    rw [rest]
    rfl
  · rw [pc]
    unfold w
    rw [rest]
    rfl
  · cases data with
    | none => exact fun b => (sameBytes b).trans (bytes b)
    | some y => exact fun b => (sameBytes b).trans (bytes b)
  · unfold w State.result State.setG
    rw [rest]
    split <;> rfl

/-- One whose requirement is not met parks, while the owner's table has room (R63). -/
theorem access_fe_parks (reached : Reaches s (.fe f d v) va u c h) (quiet : QuietHome u h)
    (tried : u.tryFe (u.writer 1) f v c h = none)
    (room : (u.job.parked.filter (fun p => p.ended.isNone && u.owner p.cell p.home == u.owner c h)).length < parkRoom c) :
    (s.access (.fe f d v) va 4).pc = u.pc ∧ (s.access (.fe f d v) va 4).ag.wait = .park (.fe f d v) va 4 ∧
      SameMemory u (s.access (.fe f d v) va 4) ∧
      { s.access (.fe f d v) va 4 with
        ag := { (s.access (.fe f d v) va 4).ag with wait := u.ag.wait }
        job := { (s.access (.fe f d v) va 4).job with parked := u.job.parked } } = u := by
  rw [access_fe reached quiet, State.feEffect, tried]
  dsimp only
  rw [if_pos room]
  exact ⟨rfl, rfl, sameMemory_refl u, rfl⟩

end Done

/-- The address of a full/empty operation (R163). -/
theorem eaIdx_eq (s : State) (a b : Reg) (off : BitVec 6) : s.eaIdx a b off = s.g a + s.g b + BitVec.ofNat 64 (8 * off.toNat) := by
  rw [State.eaIdx, Nat.mul_comm]

section Tries
variable {u : State} {c : Nat} (w : Writer) (v : Word) (h : Option Nat)

theorem tryFe_ldfe_full (full : u.feBit c = true) (clean : u.poisoned c = false) (kept : u.withdraw c = u) :
    u.tryFe w .ldfe v c h = some (.ok (u.readWord c), u.setFe c false) := by
  simp [State.tryFe, full, clean, withdraw_setFe, kept]

theorem tryFe_ldff_full (full : u.feBit c = true) (clean : u.poisoned c = false) :
    u.tryFe w .ldff v c h = some (.ok (u.readWord c), u) := by
  simp [State.tryFe, full, clean]

theorem tryFe_load_empty {f : FeOp} (load : f = .ldfe ∨ f = .ldff) (empty : u.feBit c = false) : u.tryFe w f v c h = none := by
  rcases load with rfl | rfl <;> simp [State.tryFe, empty]

theorem tryFe_stfe_empty (empty : u.feBit c = false) :
    u.tryFe w .stfe v c h = some (.ok 0#64, (u.setFe c true).store w c 8 v.toNat h) := by
  simp [State.tryFe, empty]

theorem tryFe_stfe_full (full : u.feBit c = true) : u.tryFe w .stfe v c h = none := by
  simp [State.tryFe, full]

theorem tryFe_feclr (kept : u.withdraw c = u) : u.tryFe w .feclr v c h = some (.ok 0#64, u.setFe c false) := by
  simp only [State.tryFe, withdraw_setFe, kept]

end Tries

theorem readWord_eq_bytesAt (s : State) (a : Nat) : s.readWord a = BitVec.ofNat 64 (bytesAt s a 8) := by
  rw [← readNat_eq_bytesAt]
  rfl

/-- Settles O29: what each operation's try leaves at its home, and that nobody parked on the dword is woken by it. -/
theorem fullEmptyOperationsMoveTheBit : Obligations.FullEmptyOperationsMoveTheBit := by
  intro d a b off s u c h va word x room parks does canonical quiet nobody kept
  have ea : s.eaIdx a b off = va := eaIdx_eq s a b off
  have completes {i : Instr} {f : FeOp} {d : Reg} {v y : Word} {full : Bool} {data : Option Word} {t : State}
      (runs : exec i s = .next (s.access (.fe f d v) va 4)) (tried : u.tryFe (u.writer 1) f v c h = some (.ok y, t))
      (moved : FeMoved u t c full data) : does i (.fe f d v) d y full data :=
    fun reached => ⟨_, runs, access_fe_done reached quiet nobody tried moved⟩
  have waits {i : Instr} {f : FeOp} {d : Reg} {v : Word} (runs : exec i s = .next (s.access (.fe f d v) va 4))
      (tried : u.tryFe (u.writer 1) f v c h = none) (free : room) (reached : Reaches s (.fe f d v) va u c h) : parks i (.fe f d v) :=
    ⟨_, runs, access_fe_parks reached quiet tried free⟩
  have ldfe : exec (.ldfe d a b off) s = .next (s.access (.fe .ldfe d 0#64) va 4) := by rw [← ea]; rfl
  have ldff : exec (.ldff d a b off) s = .next (s.access (.fe .ldff d 0#64) va 4) := by rw [← ea]; rfl
  have stfe : exec (.stfe d a b off) s = .next (s.access (.fe .stfe 0#5 x) va 4) := by rw [← ea]; rfl
  have stff : exec (.stff d a b off) s = .next (s.access (.fe .stff 0#5 x) va 4) := by rw [← ea]; rfl
  have feclr : exec (.feclr a b off) s = .next (s.access (.fe .feclr 0#5 0#64) va 4) := by rw [← ea]; rfl
  have feset : exec (.feset a b off) s = .next (s.access (.fe .feset 0#5 0#64) va 4) := by rw [← ea]; rfl
  have fetst : exec (.fetst d a b off) s = .next (s.access (.fe .fetst d 0#64) va 4) := by rw [← ea]; rfl
  have asFull (full : u.feBit c = true) : FeMoved u u c true none := full ▸ FeMoved.refl u c
  have stored := FeMoved.store canonical quiet (u.writer 1) c x
  refine ⟨fun full clean => ⟨?_, ?_⟩, fun empty free => ⟨?_, ?_⟩, fun empty => ?_, fun full free => ?_, ?_, ?_, ?_, ?_⟩
  · rw [show word = u.readWord c from (readWord_eq_bytesAt u c).symm]
    exact completes ldfe (tryFe_ldfe_full _ _ _ full clean kept) (.setFe canonical c false)
  · rw [show word = u.readWord c from (readWord_eq_bytesAt u c).symm]
    exact completes ldff (tryFe_ldff_full _ _ _ full clean) (asFull full)
  · exact waits ldfe (tryFe_load_empty _ _ _ (.inl rfl) empty) free
  · exact waits ldff (tryFe_load_empty _ _ _ (.inr rfl) empty) free
  · exact completes stfe (tryFe_stfe_empty _ _ _ empty) stored
  · exact waits stfe (tryFe_stfe_full _ _ _ full) free
  · exact completes stff rfl stored
  · exact completes feclr (tryFe_feclr _ _ _ kept) (.setFe canonical c false)
  · exact completes feset rfl (.setFe canonical c true)
  · exact completes fetst rfl (FeMoved.refl u c)

end Sys2Proof.Machine
end

section
/-! PROOFS. The canonical form of memory, its bits, its marks and the device registers (R61, R343), and the ways an update of the state
keeps it. Every function of the model that answers a state has a lemma under its own name below: given that the state it starts from is
canonical, so is the one it answers. -/

namespace Sys2Proof.Machine

/-- The device registers stand in rising order. -/
def Pkg.Ordered (p : Pkg) : Prop := rising 0 (p.dev.map (fun x => x.1)) = true

namespace Pkg.Ordered
variable {p q : Pkg}

/-- An update of the package that leaves the device registers. -/
theorem update (h : p.Ordered) {cycle viewLines epochs atc ats pri refused invalidating portsDown links transactions dedup consumed slowed
    gated calls gatedAt spans rotations turnAt retired lanes snapshot traces fjob fwValue reports leftAt boot} :
    Pkg.Ordered ⟨cycle, p.dev, viewLines, epochs, atc, ats, pri, refused, invalidating, portsDown, links, transactions, dedup, consumed,
      slowed, gated, calls, gatedAt, spans, rotations, turnAt, retired, lanes, snapshot, traces, fjob, fwValue, reports, leftAt, boot⟩ :=
  h

theorem ite {c : Prop} [Decidable c] (hp : p.Ordered) (hq : q.Ordered) : Pkg.Ordered (if c then p else q) := by
  split
  · exact hp
  · exact hq

theorem foldl {α : Type} {f : Pkg → α → Pkg} {l : List α} (h : p.Ordered) (k : ∀ q x, Pkg.Ordered q → Pkg.Ordered (f q x)) :
    Pkg.Ordered (l.foldl f p) :=
  List.foldlRecOn l f (motive := Pkg.Ordered) h (fun q hq x _ => k q x hq)

end Pkg.Ordered

namespace Canonical
variable {s t : State}

/-- An update of the state that leaves memory and the package. -/
theorem update (h : Canonical s) {ag agId job jobNo jobs agenda offered share free} :
    Canonical ⟨ag, agId, job, jobNo, jobs, s.mem, s.fe, s.poison, s.pkg, agenda, offered, share, free⟩ := h

theorem pkg (h : Canonical s) : s.pkg.Ordered := h.dev

/-- An update that leaves memory, and of the package keeps the order of the device registers. -/
theorem withPkg (h : Canonical s) {p : Pkg} (o : p.Ordered) {ag agId job jobNo jobs agenda offered share free} :
    Canonical ⟨ag, agId, job, jobNo, jobs, s.mem, s.fe, s.poison, p, agenda, offered, share, free⟩ := ⟨h.mem, h.fe, h.poison, o⟩

/-- An update of the package that leaves the device registers. -/
theorem updatePkg (h : Canonical s) {cycle viewLines epochs atc ats pri refused invalidating portsDown links transactions dedup consumed
    slowed gated calls gatedAt spans rotations turnAt retired lanes snapshot traces fjob fwValue reports leftAt boot ag agId job jobNo jobs
    agenda offered share free} :
    Canonical ⟨ag, agId, job, jobNo, jobs, s.mem, s.fe, s.poison, ⟨cycle, s.pkg.dev, viewLines, epochs, atc, ats, pri, refused,
      invalidating, portsDown, links, transactions, dedup, consumed, slowed, gated, calls, gatedAt, spans, rotations, turnAt, retired,
      lanes, snapshot, traces, fjob, fwValue, reports, leftAt, boot⟩, agenda, offered, share, free⟩ := h

/-- An update that writes bytes of memory. -/
theorem withMem (h : Canonical s) {m : List Host.Cell} (w : Memory.wf m = true) {ag agId job jobNo jobs agenda offered share free} :
    Canonical ⟨ag, agId, job, jobNo, jobs, m, s.fe, s.poison, s.pkg, agenda, offered, share, free⟩ := ⟨w, h.fe, h.poison, h.dev⟩

theorem ite {c : Prop} [Decidable c] (hs : Canonical s) (ht : Canonical t) : Canonical (if c then s else t) := by
  split
  · exact hs
  · exact ht

theorem getD {o : Option State} (h : Canonical s) (k : ∀ t, o = some t → Canonical t) : Canonical (o.getD s) := by
  cases o with
  | none => exact h
  | some t => exact k t rfl

theorem ofSome (h : Canonical s) (e : Option.some s = .some t) : Canonical t := Option.some.inj e ▸ h

theorem ofOk {ε : Type} (h : Canonical s) (e : (Except.ok s : Except ε State) = .ok t) : Canonical t := Except.ok.inj e ▸ h

theorem ofPair {α : Type} {x y : α} (h : Canonical s) (e : (x, s) = (y, t)) : Canonical t := (Prod.mk.inj e).2 ▸ h

theorem ofSomePair {α : Type} {x y : α} (h : Canonical s) (e : some (x, s) = some (y, t)) : Canonical t :=
  h.ofPair (Option.some.inj e)

theorem foldl {α : Type} {f : State → α → State} {l : List α} (h : Canonical s) (k : ∀ t x, Canonical t → Canonical (f t x)) :
    Canonical (l.foldl f s) :=
  List.foldlRecOn l f (motive := Canonical) h (fun t ht x _ => k t x ht)

theorem foldlBind {α : Type} {f : State → α → Option State} {l : List α} (h : Canonical s)
    (k : ∀ t x u, Canonical t → f t x = some u → Canonical u) (e : l.foldl (fun o x => o.bind (fun t => f t x)) (some s) = some t) :
    Canonical t :=
  List.foldlRecOn l _ (motive := fun o : Option State => ∀ t, o = some t → Canonical t) (fun _ e => Option.some.inj e ▸ h)
    (fun _ ho x _ _ e => by
      obtain ⟨u, eu, e⟩ := Option.bind_eq_some_iff.mp e
      exact k u x _ (ho u eu) e) t e

end Canonical

/-! Tables keyed by numbers in rising order. -/

section Tables
variable {α : Type}

/-- The keys of a table stand in rising order above a bound. -/
def Keyed (lo : Nat) (t : Table α) : Prop := rising lo (t.map (fun x => x.1)) = true

variable {lo hi k : Nat} {t : Table α}

theorem keyed_cons {x : Nat × α} : Keyed lo (x :: t) ↔ lo ≤ x.1 ∧ Keyed (x.1 + 1) t := by
  simp [Keyed, rising]

theorem keyed_mono (h : lo ≤ hi) (w : Keyed hi t) : Keyed lo t := rising_mono h w

theorem keyed_assign {v : α} (h : lo ≤ k) (w : Keyed lo t) : Keyed lo (assign k v t) := by
  induction t generalizing lo with
  | nil => simp [assign, Keyed, rising, h]
  | cons x t ih =>
    obtain ⟨i, y⟩ := x
    obtain ⟨hi, ht⟩ := keyed_cons.mp w
    unfold assign
    split_ifs with hlt heq
    · exact keyed_cons.mpr ⟨h, keyed_cons.mpr ⟨hlt, ht⟩⟩
    · exact keyed_cons.mpr ⟨h, heq ▸ ht⟩
    · exact keyed_cons.mpr ⟨hi, ih (by dsimp only at hi; omega) ht⟩

theorem keyed_remove (w : Keyed lo t) : Keyed lo (remove k t) := by
  induction t generalizing lo with
  | nil => exact w
  | cons x t ih =>
    obtain ⟨i, y⟩ := x
    obtain ⟨hi, ht⟩ := keyed_cons.mp w
    unfold remove
    split_ifs
    · exact keyed_mono (by dsimp only at hi ⊢; omega) ht
    · exact keyed_cons.mpr ⟨hi, ih ht⟩

theorem keyed_filter (p : Nat × α → Bool) (w : Keyed lo t) : Keyed lo (t.filter p) := by
  induction t generalizing lo with
  | nil => exact w
  | cons x t ih =>
    obtain ⟨hi, ht⟩ := keyed_cons.mp w
    rw [List.filter_cons]
    split
    · exact keyed_cons.mpr ⟨hi, ih ht⟩
    · exact ih (keyed_mono (by omega) ht)

theorem keyed_foldl_assign {β : Type} {f : β → Nat} {g : β → α} {l : List β} (w : Keyed 0 t) :
    Keyed 0 (l.foldl (fun t x => assign (f x) (g x) t) t) :=
  List.foldlRecOn l _ (motive := Keyed 0) w (fun _ w _ _ => keyed_assign (Nat.zero_le _) w)

/-- New values under the keys that were there. -/
theorem keyed_map_values {g : Nat × α → α} (w : Keyed lo t) : Keyed lo (t.map (fun x => (x.1, g x))) := by
  unfold Keyed
  rwa [List.map_map]

end Tables

theorem rising_filter {lo : Nat} {l : List Nat} (p : Nat → Bool) (w : rising lo l = true) : rising lo (l.filter p) = true := by
  induction l generalizing lo with
  | nil => exact w
  | cons x l ih =>
    simp only [rising, Bool.and_eq_true, decide_eq_true_eq] at w
    obtain ⟨hx, hl⟩ := w
    rw [List.filter_cons]
    split
    · simp [rising, hx, ih hl]
    · exact ih (rising_mono (by omega) hl)

theorem rising_foldl_insertNat {l t : List Nat} (w : rising 0 t = true) : rising 0 (l.foldl (fun t d => insertNat d t) t) = true :=
  List.foldlRecOn l _ (motive := fun t => rising 0 t = true) w (fun _ w _ _ => rising_insertNat (Nat.zero_le _) w)

namespace Memory

theorem wfFrom_filter {lo : Nat} {m : List Host.Cell} (p : Host.Cell → Bool) (w : wfFrom lo m = true) :
    wfFrom lo (m.filter p) = true := by
  induction m generalizing lo with
  | nil => exact w
  | cons x m ih =>
    simp only [wfFrom, Bool.and_eq_true, decide_eq_true_eq] at w
    obtain ⟨hx, hm⟩ := w
    rw [List.filter_cons]
    split
    · simp [wfFrom, hx, ih hm]
    · exact ih (wfFrom_mono (by omega) hm)

theorem wf_filter {m : List Host.Cell} (p : Host.Cell → Bool) (w : wf m = true) : wf (m.filter p) = true := wfFrom_filter p w

theorem wf_foldl_write {α : Type} {f : α → Nat} {g : α → Byte} {l : List α} {m : List Host.Cell} (h : wf m = true) :
    wf (l.foldl (fun m b => write (f b) (g b) m) m) = true :=
  List.foldlRecOn l _ (motive := fun m => wf m = true) h (fun _ w b _ => wf_write (f b) (g b) w)

theorem wf_foldl_writeNat {α : Type} {f n v : α → Nat} {l : List α} {m : List Host.Cell} (h : wf m = true) :
    wf (l.foldl (fun m b => writeNat (f b) (n b) (v b) m) m) = true :=
  List.foldlRecOn l _ (motive := fun m => wf m = true) h (fun _ w b _ => wf_writeNat (f b) (n b) (v b) w)

end Memory

end Sys2Proof.Machine
end
section
/-! PROOFS. Results that hold states: every state in them is canonical. -/

namespace Sys2Proof.Machine

/-- The state an outcome goes on in is canonical. -/
def Out.Kept : Out → Prop
  | .next t => Canonical t
  | _ => True

theorem Out.Kept.of {r x : Out} (k : r.Kept) (e : r = x) : Out.Kept x := e ▸ k

def Eng.Kept {α : Type} : Eng α → Prop
  | .ok t _ | .bad t | .wait t => Canonical t
  | .fault _ => True

theorem Eng.Kept.of {α : Type} {r x : Eng α} (k : r.Kept) (e : r = x) : x.Kept := e ▸ k

def Effect.Kept : Effect → Prop
  | .done t _ _ | .limit t _ | .blocked t | .partly t _ | .waiting t | .again t => Canonical t
  | .trap _ => True

theorem Effect.Kept.of {r x : Effect} (k : r.Kept) (e : r = x) : x.Kept := e ▸ k

def BlockRead.Kept : BlockRead → Prop
  | .ok t _ | .trap t _ | .again t => Canonical t

theorem BlockRead.Kept.of {r x : BlockRead} (k : r.Kept) (e : r = x) : x.Kept := e ▸ k

def Version.Kept : Version → Prop
  | .even t _ | .bad t | .wait t => Canonical t
  | _ => True

theorem Version.Kept.of {r x : Version} (k : r.Kept) (e : r = x) : x.Kept := e ▸ k

def BagRead.Kept : BagRead → Prop
  | .ok t _ | .bad t | .wait t => Canonical t
  | _ => True

theorem BagRead.Kept.of {r x : BagRead} (k : r.Kept) (e : r = x) : x.Kept := e ▸ k

def BagOut.Kept : BagOut → Prop
  | .ok t _ _ | .odd t _ | .bad t | .wait t => Canonical t
  | _ => True

theorem BagOut.Kept.of {r x : BagOut} (k : r.Kept) (e : r = x) : x.Kept := e ▸ k

def Written.Kept : Written → Prop
  | .on t | .stop t => Canonical t

theorem Written.Kept.of {r x : Written} (k : r.Kept) (e : r = x) : x.Kept := e ▸ k

def ColWritten.Kept : ColWritten → Prop
  | .on t | .stop t => Canonical t

theorem ColWritten.Kept.of {r x : ColWritten} (k : r.Kept) (e : r = x) : x.Kept := e ▸ k

def CommStep.Kept : CommStep → Prop
  | .finished t _ | .waiting t => Canonical t

theorem CommStep.Kept.of {r x : CommStep} (k : r.Kept) (e : r = x) : x.Kept := e ▸ k

def Predicate.Kept : Predicate → Prop
  | .value t _ | .later t => Canonical t

theorem Predicate.Kept.of {r x : Predicate} (k : r.Kept) (e : r = x) : x.Kept := e ▸ k

def Fetched.Kept : Fetched → Prop
  | .parcel t _ | .trap t _ => Canonical t
  | _ => True

theorem Fetched.Kept.of {r x : Fetched} (k : r.Kept) (e : r = x) : x.Kept := e ▸ k

def Prepared.Kept : Prepared → Prop
  | .go _ t | .stop t => Canonical t

theorem Prepared.Kept.of {r x : Prepared} (k : r.Kept) (e : r = x) : x.Kept := e ▸ k

end Sys2Proof.Machine
end

section
/-! PROOFS. The functions of memory, translation, views and homes keep the canonical form. -/

namespace Sys2Proof.Machine

variable {s t : State} {p : Pkg}

theorem Canonical.callDie (h : Canonical s) {pdie} : Canonical (s.callDie pdie) := .ite h.updatePkg h

theorem Canonical.wakeDie (h : Canonical s) {pdie} : Canonical (s.wakeDie pdie) := .ite h.updatePkg h

theorem Pkg.Ordered.setReg (h : p.Ordered) {pa v} : Pkg.Ordered (p.setReg pa v) := by
  unfold Pkg.setReg Pkg.Ordered
  dsimp only
  split
  · exact keyed_remove h
  · exact keyed_assign (Nat.zero_le pa) h

theorem Pkg.Ordered.bump (h : p.Ordered) {pa} : Pkg.Ordered (p.bump pa) := h.setReg

theorem Canonical.bumpOwner (h : Canonical s) {a home off} : Canonical (s.bumpOwner a home off) := by
  unfold State.bumpOwner
  split
  · exact h
  · split
    · exact h.withPkg h.pkg.bump
    · exact .ite h (h.withPkg h.pkg.bump)

theorem Canonical.fresh (h : Canonical s) {x} (e : s.fresh = (x, t)) : Canonical t := h.update.ofPair e

theorem Canonical.onSpawn (h : Canonical s) {id f} : Canonical (s.onSpawn id f) := h.update

theorem Canonical.onRun (h : Canonical s) {id f} : Canonical (s.onRun id f) := h.update

theorem Canonical.onNode (h : Canonical s) {run node f} : Canonical (s.onNode run node f) := h.onRun

theorem Canonical.addRequest (h : Canonical s) {a} : Canonical (s.addRequest a) := by
  unfold State.addRequest
  split
  · exact h.update
  · exact h.onNode
  · exact h.onSpawn

theorem Canonical.onConduit (h : Canonical s) {key f} : Canonical (s.onConduit key f) := h.update

theorem Canonical.dropRequest (h : Canonical s) {a} : Canonical (s.dropRequest a) := by
  unfold State.dropRequest
  split
  · exact h.update
  · exact h.onNode
  · exact h.onSpawn

theorem Canonical.withdraw (h : Canonical s) {a} : Canonical (s.withdraw a) := by
  unfold State.withdraw
  split
  · exact h
  · split
    · exact h
    · exact h.onConduit.dropRequest

theorem Canonical.posted (h : Canonical s) {key box q} : Canonical (s.posted key box q) := h.onConduit.addRequest

theorem Canonical.walk (h : Canonical s) {f va x} (e : s.walk f va = .ok x) : Canonical x.s := by
  have kept := (walk_onlyMemory e).wf h.mem
  obtain ⟨_, _, _, same⟩ := walk_walkOnly e
  rw [same] at kept ⊢
  exact h.withMem kept

theorem Canonical.entryFor (h : Canonical s) {f va x} (e : s.entryFor f va = .ok x) : Canonical x.s := by
  unfold State.entryFor at e
  split at e
  · cases e
    exact h
  · exact h.walk e

theorem Canonical.fillView (h : Canonical s) {pa} : Canonical (s.fillView pa) := by
  unfold State.fillView
  split
  · exact (Canonical.ite h (h.foldl (fun _ _ h1 => h1.bumpOwner))).updatePkg
  · exact h

theorem Pkg.Ordered.discardView (h : p.Ordered) {w} : Pkg.Ordered (p.discardView w) := h.update

theorem Canonical.writeFwctl (h : Canonical s) {stack w v} : Canonical (s.writeFwctl stack w v) :=
  .ite (.ite (h.withPkg (Pkg.Ordered.ite h.pkg h.pkg.setReg).discardView) h) (.ite (h.withPkg h.pkg.setReg.discardView) (h.withPkg
    h.pkg.setReg))

theorem Canonical.writeStackReg (h : Canonical s) {pa v} (e : s.writeStackReg pa v = .ok t) : Canonical t := by
  unfold State.writeStackReg at e
  extract_lets _ _ put at e
  have hput (x : ℕ) (x1 : Word) : Canonical (put x x1) := .ite h (h.withPkg h.pkg.setReg)
  split at e
  · split at e
    · split at e
      · cases e
      · exact h.writeFwctl.ofOk e
    · exact (hput _ _).ofOk e
    · exact (hput _ _).ofOk e
    · exact (hput _ _).ofOk e
    · exact h.ofOk e
  · split at e
    · exact (hput _ _).ofOk e
    · exact h.ofOk e

theorem Canonical.watchWrite (h : Canonical s) {a} : Canonical (s.watchWrite a) := .ite h.update h

theorem Canonical.logDirty (h : Canonical s) {a home} : Canonical (s.logDirty a home) := by
  unfold State.logDirty
  split
  · exact h
  extract_lets epoch
  split
  · exact h
  extract_lets dw bit
  have hbit : Canonical bit := .ite h (h.withMem (Memory.wf_writeNat _ _ _ h.mem)).watchWrite
  cases s.awakeHome home with
  | none => exact hbit
  | some _ => exact .ite h (hbit.withPkg hbit.pkg.update)

theorem Canonical.recordSillage (h : Canonical s) {w a mask home} : Canonical (s.recordSillage w a mask home) := by
  unfold State.recordSillage
  split
  · exact h
  · exact .ite ⟨Memory.wf_writeNat _ _ _ (Memory.wf_writeNat _ _ _ (Memory.wf_writeNat _ _ _ (Memory.wf_writeNat _ _ _ h.mem))),
      h.fe, h.poison, h.pkg.setReg⟩ h

theorem Canonical.replay (h : Canonical s) {w a mask home} (e : s.replay w a mask home = some t) : Canonical t := by
  unfold State.replay at e
  split at e
  · exact h.ofSome e
  · extract_lets at e
    split at e
    · split at e
      · exact h.ofSome e
      · extract_lets at e
        split at e
        · exact (h.withPkg h.pkg.update).ofSome e
        · cases e
    · exact h.ofSome e

theorem Canonical.written (h : Canonical s) {w a mask home} : Canonical (s.written w a mask home) :=
  (h.getD fun _ e => h.replay e).logDirty.recordSillage.watchWrite

theorem Canonical.store (h : Canonical s) {w a n v home} : Canonical (s.store w a n v home) := by
  unfold State.store
  extract_lets s1
  have h1 : Canonical s1 := h.withMem (Memory.wf_writeNat a n v h.mem)
  exact (Canonical.ite h1.setPoison h1).written

theorem Canonical.storeBytes (h : Canonical s) {w a bs home} : Canonical (s.storeBytes w a bs home) :=
  (h.withMem (Memory.wf_foldl_write h.mem)).written

theorem Canonical.storeBad (h : Canonical s) {w a home} : Canonical (s.storeBad w a home) := h.setPoison.written

theorem Canonical.tryFe (h : Canonical s) {w op v a home r} (e : s.tryFe w op v a home = some (r, t)) : Canonical t := by
  unfold State.tryFe at e
  extract_lets at e
  split at e
  · split at e
    · cases e
    · split at e
      · exact h.ofSomePair e
      · exact h.setFe.withdraw.ofSomePair e
  · split at e
    · cases e
    · split at e
      · exact h.ofSomePair e
      · exact h.ofSomePair e
  · split at e
    · cases e
    · exact h.setFe.store.ofSomePair e
  · exact h.setFe.store.ofSomePair e
  · exact h.setFe.withdraw.ofSomePair e
  · exact h.setFe.ofSomePair e
  · exact h.ofSomePair e

theorem Canonical.retry (h : Canonical s) {q x} (e : s.retry q = (x, t)) : Canonical t := by
  unfold State.retry at e
  split at e
  · exact h.ofPair e
  · split at e
    · next e2 =>
        obtain ⟨-, rfl⟩ := Prod.mk.inj e
        split
        · exact (h.tryFe e2).posted
        · exact h.tryFe e2
    · exact h.ofPair e

theorem Canonical.retryPass (h : Canonical s) {a ps x b} (e : State.retryPass a ps s = (x, t, b)) : Canonical t := by
  induction ps generalizing s x b with
  | nil =>
    cases e
    exact h
  | cons p ps ih =>
    rw [State.retryPass] at e
    split at e
    · cases e
      exact ih (h.retry rfl) rfl
    · cases e
      exact ih h rfl

theorem Canonical.retryPasses (h : Canonical s) {a n} : Canonical (State.retryPasses a n s) := by
  induction n generalizing s with
  | zero => exact h
  | succ n ih =>
    have first : Canonical (State.retryPass a s.job.parked s).2.1 := h.retryPass rfl
    exact .ite (ih first.update) first.update

theorem Canonical.bitChanged (h : Canonical s) {a before} : Canonical (s.bitChanged a before) := .ite h h.retryPasses

theorem Canonical.storeFull (h : Canonical s) {w a v home} : Canonical (s.storeFull w a v home) := h.setFe.store.bitChanged

theorem Canonical.atomic (h : Canonical s) {w op v x a home y} (e : s.atomic w op v x a home = (y, t)) : Canonical t := by
  unfold State.atomic at e
  dsimp only at e
  split at e
  · exact h.store.ofPair e
  · exact h.ofPair e

theorem Canonical.walked (h : Canonical s) {a} : Canonical (s.walked a) := by
  unfold State.walked
  split
  · exact h
  · exact h.logDirty.watchWrite

theorem Canonical.check (h : Canonical s) {q f va size l} (e : s.check q f va size = .ok (t, l)) : Canonical t := by
  unfold State.check at e
  split_ifs at e
  · split at e
    · cases e
    · cases e
      exact h
  · split at e
    · cases e
    · next entry =>
      split at e
      · cases e
      · cases e
        exact (h.entryFor entry).walked

theorem Canonical.afterDenied (h : Canonical s) {q f va} : Canonical (s.afterDenied q f va) := by
  unfold State.afterDenied
  split
  · split
    · next entry => exact (h.entryFor entry).walked
    · exact h
  · exact h

end Sys2Proof.Machine
end

section
/-! PROOFS. The functions of agents and their tasks keep the canonical form. -/

namespace Sys2Proof.Machine

variable {s t : State} {p : Pkg}

theorem Canonical.passing (h : Canonical s) {o} (k : ∀ t, o = some t → Canonical t) : Out.Kept (passing s o) := h.getD k

theorem Canonical.setG (h : Canonical s) {r v} : Canonical (s.setG r v) := .ite h h.update

theorem Canonical.setV (h : Canonical s) {r x} : Canonical (s.setV r x) := h.update

theorem Canonical.setK (h : Canonical s) {r x} : Canonical (s.setK r x) := .ite h h.update

theorem Canonical.setXe (h : Canonical s) {r x} : Canonical (s.setXe r x) := h.update

theorem Canonical.setPc (h : Canonical s) {x} : Canonical (s.setPc x) := h.update

theorem Canonical.advance (h : Canonical s) {n} : Canonical (s.advance n) := h.setPc

theorem Canonical.orFlags (h : Canonical s) {f} : Canonical (s.orFlags f) := h.update

theorem Canonical.setWait (h : Canonical s) {w} : Canonical (s.setWait w) := h.update

theorem Canonical.putAgent (h : Canonical s) {a x} : Canonical (s.putAgent a x) := .ite h.update h.update

theorem Canonical.focus (h : Canonical s) {a} : Canonical (s.focus a) := .ite h h.update

theorem Canonical.focusJob (h : Canonical s) {n} : Canonical (s.focusJob n) := .ite h h.update

theorem Canonical.readAt (h : Canonical s) {loc size r} (e : s.readAt loc size = some (r, t)) : Canonical t := by
  unfold State.readAt at e
  split at e
  · exact h.ofSomePair e
  · extract_lets at e
    exact h.fillView.ofSomePair e
  · exact h.ofSomePair e
  · split at e
    · exact h.ofSomePair e
    · obtain ⟨y, -, e⟩ := Option.map_eq_some_iff.mp e
      exact h.ofPair e

theorem Canonical.writeAt (h : Canonical s) {w loc size v} (e : s.writeAt w loc size v = some (.ok t)) : Canonical t := by
  unfold State.writeAt at e
  split at e
  · obtain rfl := Except.ok.inj (Option.some.inj e)
    exact h.store
  · cases e
  · replace e := Option.some.inj e
    exact h.writeStackReg e
  · split at e
    · cases e
    · obtain ⟨y, -, e⟩ := Option.map_eq_some_iff.mp e
      dsimp only at e
      exact (Canonical.ite (h.withMem (Memory.wf_writeNat _ _ _ h.mem)).setPoison (h.withMem (Memory.wf_writeNat _ _ _ h.mem))).ofOk e

theorem Canonical.markStreaming (h : Canonical s) {i failed} : Canonical (s.markStreaming i failed) := h.update

theorem Canonical.doStreaming (h : Canonical s) {x r} (e : s.doStreaming x = some (r, t)) : Canonical t := by
  unfold State.doStreaming at e
  split at e
  · split at e
    · cases e
    · obtain ⟨y, ey, e⟩ := Option.map_eq_some_iff.mp e
      split at e
      · exact (h.writeAt ey).ofPair e
      · exact h.ofPair e
  · exact h.readAt e

theorem Canonical.performStreaming (h : Canonical s) {i} (e : s.performStreaming i = some t) : Canonical t := by
  unfold State.performStreaming at e
  split at e
  · cases e
  · split at e
    · cases e
    · obtain ⟨y, ey, e⟩ := Option.map_eq_some_iff.mp e
      split at e
      · subst e
        exact (Canonical.ite (h.doStreaming ey) (h.doStreaming ey).setG).markStreaming
      · subst e
        exact (h.doStreaming ey).markStreaming

theorem Canonical.settle (h : Canonical s) {q n} : Canonical (State.settle q n s) := by
  induction n generalizing s with
  | zero => exact h
  | succ n ih =>
    rw [State.settle]
    split
    · exact h
    · split
      · exact h
      · next e => exact ih (h.performStreaming e)

theorem Canonical.settleAll (h : Canonical s) : Canonical s.settleAll := h.settle

theorem Canonical.dropFailed (h : Canonical s) {q} : Canonical (s.dropFailed q) := h.update

theorem Canonical.countTurns (h : Canonical s) {cls n} : Canonical (s.countTurns cls n) := .ite h (h.withPkg h.pkg.setReg)

theorem Pkg.Ordered.bin (h : p.Ordered) {block k n} : Pkg.Ordered (p.bin block k n) := .ite h h.setReg

theorem Pkg.Ordered.rollRotations (h : p.Ordered) {block die now} : Pkg.Ordered (p.rollRotations block die now) := by
  unfold Pkg.rollRotations
  split
  · exact .ite h (Pkg.Ordered.ite h h.bin.bin).update

theorem Canonical.countRotation (h : Canonical s) {now} : Canonical (s.countRotation now) := by
  unfold State.countRotation
  extract_lets
  split
  · exact h.withPkg h.pkg.rollRotations
  · split
    · exact h.withPkg h.pkg.rollRotations.update

theorem Canonical.setAccounted (h : Canonical s) {a n} : Canonical (s.setAccounted a n) := h.updatePkg

theorem Canonical.loseTurns (h : Canonical s) {cls lo hi} : Canonical (s.loseTurns cls lo hi) := h.countTurns

theorem Canonical.account (h : Canonical s) {now} : Canonical (s.account now) := .ite h h.loseTurns.loseTurns.setAccounted

theorem Canonical.conduitTurn (h : Canonical s) {key} : Canonical (s.conduitTurn key) :=
  .ite h h.focus.account.countTurns.setAccounted.focus

theorem Canonical.setTransaction (h : Canonical s) {x} : Canonical (s.setTransaction x) := h.updatePkg

theorem Canonical.trace (h : Canonical s) {ty cause pc data} : Canonical (s.trace ty cause pc data) := .ite h (.ite h h.updatePkg)

theorem Canonical.traceOut (h : Canonical s) {block} (e : s.traceOut block = some t) : Canonical t := by
  unfold State.traceOut at e
  split at e
  · cases e
  · obtain ⟨x, -, rfl⟩ := Option.map_eq_some_iff.mp e
    exact .ite h.updatePkg ⟨Memory.wf_foldl_writeNat h.mem, h.fe, h.poison, h.pkg.setReg.update⟩

theorem Pkg.Ordered.setBits (h : p.Ordered) {pa clear set} : Pkg.Ordered (p.setBits pa clear set) := h.setReg

theorem Canonical.showStops (h : Canonical s) : Canonical s.showStops := h.withPkg h.pkg.setBits

theorem Canonical.showSince (h : Canonical s) {z} : Canonical (s.showSince z) := .ite h h.showStops

theorem Canonical.clearDstop (h : Canonical s) : Canonical s.clearDstop := h.withPkg h.pkg.setBits

theorem Canonical.onTile (h : Canonical s) {die f} : Canonical (s.onTile die f) := h.update

theorem Canonical.onAcc (h : Canonical s) {die i f} : Canonical (s.onAcc die i f) := h.onTile

theorem Canonical.tick (h : Canonical s) {die i} : Canonical (s.tick die i) := by
  unfold State.tick
  split
  · exact h.onAcc
  · exact h

theorem Canonical.tickAll (h : Canonical s) : Canonical s.tickAll := h.update

end Sys2Proof.Machine
end

section
/-! PROOFS. The functions of records and levels of work keep the canonical form. -/

namespace Sys2Proof.Machine

variable {s t : State} {p : Pkg}

theorem Canonical.cellAs (h : Canonical s) {q write va size c k} (e : s.cellAs q write va size = .ok (t, c, k)) : Canonical t := by
  unfold State.cellAs at e
  split at e
  · cases e
  · next e1 =>
      cases e
      exact h.check e1
  · cases e

theorem Canonical.hwCell (h : Canonical s) {write va size c k} (e : s.hwCell write va size = .ok (t, c, k)) : Canonical t := h.cellAs e

theorem Canonical.putWords (h : Canonical s) {w home a l} : Canonical (State.putWords w home a l s) := by
  induction l generalizing s a with
  | nil => exact h
  | cons x l ih => exact ih h.store

theorem Canonical.hwWrite (h : Canonical s) {va v} (e : s.hwWrite va v = .ok t) : Canonical t := by
  unfold State.hwWrite at e
  split at e
  · cases e
  · next e1 => exact (h.hwCell e1).store.ofOk e

theorem Canonical.hwRead (h : Canonical s) {va x} (e : s.hwRead va = .ok (t, x)) : Canonical t := by
  unfold State.hwRead at e
  split at e
  · cases e
  · next e1 =>
      split at e
      · cases e
      · obtain ⟨rfl, -⟩ := Prod.mk.inj (Except.ok.inj e)
        exact h.hwCell e1

theorem Canonical.onDie (h : Canonical s) {v f} : Canonical (s.onDie v f) := h.update

theorem Canonical.touchTable (h : Canonical s) {a home} : Canonical (s.touchTable a home) := by
  unfold State.touchTable
  split
  · exact h.onDie
  · exact h

theorem Canonical.releaseWaits (h : Canonical s) : Canonical s.releaseWaits := by
  unfold State.releaseWaits
  extract_lets t u
  have ht : Canonical t := h.foldl (fun _ _ h1 => h1.touchTable)
  have hu : Canonical u := by
    unfold u
    refine Canonical.foldl ?_ ?_
    · exact ht
    · intro t1 x h1
      split
      · exact h1.touchTable
      · exact h1.touchTable
      · exact h1
  exact hu.update

theorem Canonical.markWords (h : Canonical s) {cell bad} : Canonical (s.markWords cell bad) := h.foldl (fun _ _ h1 => h1.setPoison)

theorem Canonical.saveAt (h : Canonical s) {cell home fst} : Canonical (s.saveAt cell home fst) := h.putWords.markWords.releaseWaits

theorem Canonical.freePoolEntry (h : Canonical s) {q n i x c k} (e : s.freePoolEntry q n i = some (x, c, k, t)) : Canonical t := by
  induction n generalizing i with
  | zero => cases e
  | succ n ih =>
    rw [State.freePoolEntry] at e
    split_ifs at e
    · split at e
      · next e1 =>
        cases e
        exact h.cellAs e1
      · exact ih e
    · exact ih e

theorem Canonical.firmwareCause (h : Canonical s) {y} : Canonical (s.firmwareCause y) := (Canonical.ite h.tickAll h).update

theorem Canonical.freeAreaEntry (h : Canonical s) {n i x c k} (e : s.freeAreaEntry n i = .ok (some (x, c, k, t))) : Canonical t := by
  induction n generalizing s i with
  | zero => cases e
  | succ n ih =>
    rw [State.freeAreaEntry] at e
    split at e
    · cases e
    · next e1 =>
      split_ifs at e
      · split at e
        · cases e
        · next e2 =>
          cases e
          exact (h.hwRead e1).hwCell e2
      · exact ih (h.hwRead e1) e

theorem Canonical.setEntryState (h : Canonical s) {va st} : Canonical (s.setEntryState va st) := by
  unfold State.setEntryState
  split
  · exact h
  · next e =>
      split
      · next e1 => exact (h.hwRead e).hwWrite e1
      · exact h

theorem Canonical.setNotice (h : Canonical s) {va n} : Canonical (s.setNotice va n) := by
  unfold State.setNotice
  split
  · next e => exact h.hwWrite e
  · exact h

theorem Canonical.postOldest (h : Canonical s) : Canonical s.postOldest := by
  unfold State.postOldest
  split
  · exact h
  · split
    · exact h.firmwareCause
    · split
      · exact h
      · split
        · exact h.firmwareCause
        · next e3 => exact (h.hwCell e3).putWords.update

theorem Canonical.postRecord (h : Canonical s) {r} : Canonical (s.postRecord r) := h.update.postOldest

theorem Canonical.reap (h : Canonical s) : Canonical s.reap := by
  unfold State.reap
  refine Canonical.foldl ?_ ?_
  · exact h
  · intro t x h1
    split
    · exact h1
    · exact .ite h1.update h1

theorem Canonical.endRequest (h : Canonical s) {a} : Canonical (s.endRequest a) := by
  unfold State.endRequest
  split
  · exact h.update
  · exact h.onNode
  · exact h.onSpawn.reap

theorem Canonical.vacate (h : Canonical s) : Canonical s.vacate := h.setTransaction.update

theorem Canonical.retireOne (h : Canonical s) {id} : Canonical (s.retireOne id) := h.onSpawn.reap

theorem Canonical.freeMaster (h : Canonical s) {entry} : Canonical (s.freeMaster entry) := h.setEntryState.update

theorem Canonical.endAgent (h : Canonical s) : Canonical s.endAgent := by
  unfold State.endAgent
  extract_lets _ _ _ _ t
  have ht : Canonical t := h.releaseWaits.update
  split
  · exact ht.vacate.retireOne
  · exact ht.vacate
  · exact .ite (ht.vacate.foldl (fun _ _ h1 => h1.freeMaster)).onNode ht.vacate

theorem Canonical.discardFibre (h : Canonical s) {entry} : Canonical (s.discardFibre entry) := by
  unfold State.discardFibre
  split
  · exact h
  · exact .ite h.setEntryState.update h.setEntryState.update.retireOne

theorem Canonical.cancelSpawn (h : Canonical s) {id kind} : Canonical (s.cancelSpawn id kind) :=
  (h.update.foldl (fun _ _ h1 => h1.discardFibre)).reap

theorem Canonical.cancelNode (h : Canonical s) {run node restart} : Canonical (s.cancelNode run node restart) :=
  (h.onNode.foldl (fun _ _ h1 => h1.cancelSpawn)).update

theorem Canonical.cancelRun (h : Canonical s) {run} : Canonical (s.cancelRun run) := by
  unfold State.cancelRun
  split
  · exact h
  · exact (h.foldl (fun _ _ h1 => h1.cancelNode)).onRun

theorem Canonical.accountAll (h : Canonical s) : Canonical s.accountAll := (h.foldl (fun _ _ h1 => h1.focus.account)).focus

theorem Pkg.Ordered.freeStops (h : p.Ordered) {dies} : Pkg.Ordered (p.freeStops dies) := by
  unfold Pkg.freeStops
  refine Pkg.Ordered.foldl ?_ ?_
  · exact h
  · intro x x1 h1
    split
    · exact .ite h1.setBits h1
    · exact h1

theorem Canonical.endJob (h : Canonical s) : Canonical s.endJob := h.accountAll.withPkg h.accountAll.pkg.freeStops.update

theorem Canonical.absorbed (h : Canonical s) {y kind id pol spawn} : Canonical (s.absorbed y kind id pol spawn) := h.postRecord

theorem Canonical.containJob (h : Canonical s) {y} : Canonical (s.containJob y) := h.absorbed.endJob

theorem Canonical.containRun (h : Canonical s) {y run} : Canonical (s.containRun y run) := by
  unfold State.containRun
  split
  · exact h.containJob
  · split
    · exact h.containJob
    · exact h.absorbed.endJob
    · exact h.cancelRun.absorbed

theorem Canonical.containNode (h : Canonical s) {y run node} : Canonical (s.containNode y run node) := by
  unfold State.containNode
  split
  · extract_lets
    split
    · exact h.containRun
    · exact .ite (Canonical.ite h h.cancelNode.onNode).absorbed h.containRun
    · exact h.cancelNode.absorbed
    · exact h.cancelRun.absorbed
  · exact h.containRun

theorem Canonical.redrawNumber (h : Canonical s) {id n} : Canonical (s.redrawNumber id n) := h.onSpawn

theorem Canonical.noteContained (h : Canonical s) {n id} : Canonical (State.noteContained n id s) := by
  induction n generalizing s id with
  | zero => exact h
  | succ n ih =>
    rw [State.noteContained]
    split
    · exact h
    · exact .ite h.onSpawn (ih h.onSpawn)

theorem Canonical.containSpawn (h : Canonical s) {y unit stop n id} (kstop : ∀ t, Canonical t → Canonical (stop t)) :
    Canonical (State.containSpawn y unit stop n id s) := by
  induction n generalizing s id with
  | zero => exact h.containJob
  | succ n ih =>
    rw [State.containSpawn]
    split
    · exact h.containJob
    · next sp _ =>
      extract_lets up
      have hup (u : State) (hu : Canonical u) : Canonical (up u) := .ite hu.containNode (ih hu)
      split
      · exact hup s h
      · split
        · exact .ite (kstop _ h.noteContained.redrawNumber).absorbed (hup s h)
        · exact hup s h
      · exact h.noteContained.cancelSpawn.absorbed
      · exact (Canonical.ite h.cancelNode h.noteContained.cancelSpawn).absorbed

theorem Canonical.containUnitOf (h : Canonical s) {y id n slot stop}
    (kstop : ∀ t, Canonical t → Canonical (stop t)) : Canonical (s.containUnitOf y id n slot stop) := by
  unfold State.containUnitOf
  extract_lets
  split
  · exact h.containJob
  · split
    · exact h.containSpawn kstop
    · exact .ite (kstop _ h.noteContained.redrawNumber).absorbed (h.containSpawn kstop)
    · exact (kstop _ h.noteContained).absorbed
    · exact h.noteContained.cancelSpawn.absorbed

theorem Canonical.containSaved (h : Canonical s) {y entry f slot} : Canonical (s.containSaved y entry f slot) := by
  unfold State.containSaved
  split
  · exact .ite h.containNode h.containNode.discardFibre
  · split
    · extract_lets
      split
      · exact h.discardFibre.containUnitOf (fun _ h1 => h1)
      · exact h.discardFibre.containUnitOf (fun _ h1 => h1.discardFibre)
    · exact (h.containUnitOf (fun _ h1 => h1.discardFibre)).discardFibre

theorem Canonical.containUnit (h : Canonical s) {y} : Canonical (s.containUnit y) :=
  .ite (h.containUnitOf (fun _ h1 => h1.endAgent)).endAgent (h.containUnitOf (fun _ h1 => h1.endAgent))

theorem Canonical.containAt (h : Canonical s) {y a} : Canonical (s.containAt y a) := by
  unfold State.containAt
  split
  · exact h.containJob
  · exact h.containNode
  · exact h.containSpawn (fun _ h1 => h1)

end Sys2Proof.Machine
end

section
/-! PROOFS. The functions of traps, draws, accesses and the scalar instructions keep the canonical form. -/

namespace Sys2Proof.Machine

variable {s t : State} {p : Pkg}

theorem Canonical.enterRuntime (h : Canonical s) {sp entry y} : Canonical (s.enterRuntime sp entry y) := h.update

theorem Canonical.noteSaved (h : Canonical s) {entry cell} : Canonical (s.noteSaved entry cell) := h.update

theorem Canonical.deliverUpcall (h : Canonical s) {sp y entry cell home} : Canonical (s.deliverUpcall sp y entry cell home) :=
  .ite h.saveAt.noteSaved.enterRuntime.postRecord h.saveAt.noteSaved.enterRuntime

theorem Canonical.deliverSupervisor (h : Canonical s) {y} : Canonical (s.deliverSupervisor y) := by
  unfold State.deliverSupervisor
  extract_lets put held
  have hput (t : State) (d : Option Trap) (ht : Canonical t) : Canonical (put t d) := ht.update
  refine Canonical.showSince ?_
  split
  · exact (hput _ _ h).firmwareCause
  · split
    · exact (hput _ _ h).firmwareCause
    · exact hput _ _ h
    · next e =>
      extract_lets u
      have hu : Canonical u := hput _ _ (h.freeAreaEntry e)
      split
      exact (Canonical.ite hu.saveAt.noteSaved.update hu.saveAt.noteSaved.update.vacate).postRecord

theorem Canonical.deliverDebug (h : Canonical s) {y} : Canonical (s.deliverDebug y) := (h.withPkg h.pkg.setBits.update).showStops.trace

theorem Canonical.stopDebug (h : Canonical s) {c} : Canonical (s.stopDebug c) := h.trace.deliverDebug

theorem Canonical.raise (h : Canonical s) {y} : Canonical (s.raise y) := by
  unfold State.raise
  split
  · exact h.update
  · extract_lets s0
    have hs0 : Canonical s0 := .ite h.settleAll h.settleAll.trace
    split
    · exact hs0.update.update.showSince
    · split
      · split
        · exact hs0.update.deliverSupervisor
        · split
          · exact hs0.update.deliverSupervisor
          · split
            · exact hs0.update.deliverSupervisor
            · next e5 => exact (hs0.update.freePoolEntry e5).deliverUpcall.showSince
      · exact .ite hs0.update.update.deliverDebug (.ite hs0.update.containUnit (.ite hs0.update.setWait.firmwareCause
          hs0.update.deliverSupervisor))

theorem Canonical.raiseCause (h : Canonical s) {c} : Canonical (s.raiseCause c) := h.raise

theorem Canonical.resumeWords (h : Canonical s) {info ws x} (e : s.resumeWords info ws = (x, t)) : Canonical t := by
  unfold State.resumeWords at e
  extract_lets at e
  split at e
  · exact h.ofPair e
  · exact h.update.ofPair e

theorem Canonical.restore (h : Canonical s) {entry} : Canonical (s.restore entry) := by
  unfold State.restore
  split
  · exact h
  · split
    · exact h
    · next e1 =>
        split
        · exact (h.hwCell e1).containSaved
        · extract_lets
          split
          · next e3 => exact (Canonical.ite ((h.hwCell e1).account.resumeWords e3).update ((h.hwCell e1).account.resumeWords
              e3).update.putWords.markWords).showStops.setEntryState

theorem Canonical.startUnit (h : Canonical s) {id sp n} : Canonical (s.startUnit id sp n) := h.account.update.trace

theorem Canonical.takeChild (h : Canonical s) {die id sp} : Canonical (s.takeChild die id sp) :=
  (Canonical.ite h.onSpawn.onDie h.onSpawn).startUnit

theorem Canonical.takeAgain (h : Canonical s) {id sp n} : Canonical (s.takeAgain id sp n) := h.onSpawn.startUnit

theorem Canonical.takeTop (h : Canonical s) {die} : Canonical (s.takeTop die) := by
  unfold State.takeTop
  split
  · exact h
  · split
    · exact h
    · extract_lets
      split
      · exact h.onDie.takeAgain
      · exact h.onDie.onDie.startUnit

theorem Canonical.drawFibre (h : Canonical s) {entry} : Canonical (s.drawFibre entry) := .ite h.restore.update.trace h.restore

theorem Canonical.draw (h : Canonical s) : Canonical s.draw := by
  unfold State.draw
  split
  · exact h
  · split
    · exact h.drawFibre
    · extract_lets
      split
      · exact h.takeAgain
      · split
        · exact h.takeChild
        · exact h
      · exact h.takeTop

theorem Pkg.Ordered.askHost (h : p.Ordered) {loc write engine} : Pkg.Ordered (p.askHost loc write engine) := by
  unfold Pkg.askHost
  split
  · exact .ite h.update h.update
  · exact h

theorem Canonical.callFor (h : Canonical s) {l} : Canonical (s.callFor l) := by
  unfold State.callFor
  split
  · exact .ite h.callDie h
  · exact h

theorem Canonical.vloadFrom (h : Canonical s) {ty k d va loc l n got} : Effect.Kept (State.vloadFrom ty k d va loc l n got s) := by
  induction l generalizing s n got with
  | nil => exact h.setV
  | cons i rest ih =>
    cases n with
    | zero => exact h
    | succ n =>
      rw [State.vloadFrom]
      split
      · exact h.withPkg h.pkg.askHost
      · trivial
      · next e => exact ih (h.readAt e)

theorem Canonical.vstoreTo (h : Canonical s) {ty k d va loc l n put} : Effect.Kept (State.vstoreTo ty k d va loc l n put s) := by
  induction l generalizing s n put with
  | nil => exact h
  | cons i rest ih =>
    cases n with
    | zero => exact h
    | succ n =>
      rw [State.vstoreTo]
      dsimp only
      split
      · exact h
      · split
        · exact h.withPkg h.pkg.askHost
        · trivial
        · next e => exact ih (h.writeAt e)

theorem Canonical.gatherFrom (h : Canonical s) {b k d all l n got} : Effect.Kept (State.gatherFrom b k d all l n got s) := by
  induction l generalizing n got with
  | nil => exact h.setV
  | cons c rest ih =>
    cases n with
    | zero => exact h
    | succ n =>
      rw [State.gatherFrom]
      split
      · trivial
      · exact ih

theorem Canonical.scatterTo (h : Canonical s) {b k d l n put} : Effect.Kept (State.scatterTo b k d l n put s) := by
  induction l generalizing s n put with
  | nil => exact h
  | cons c rest ih =>
    cases n with
    | zero => exact h
    | succ n => exact ih h.store

theorem Canonical.feEffect (h : Canonical s) {op f d v va a home len post} : Effect.Kept (s.feEffect op f d v va a home len post) := by
  unfold State.feEffect
  split
  · next e =>
      extract_lets _ _ w
      have hw : Canonical w := by
        unfold w
        split
        · exact (h.tryFe e).update.posted
        · exact (h.tryFe e).update
      exact hw.bitChanged
  · trivial
  · split
    · extract_lets
      exact h.update
    · extract_lets
      split
      · exact h.bumpOwner
      · exact h.update.bumpOwner

theorem Canonical.watchEffect (h : Canonical s) {op w v va loc len} : Effect.Kept (s.watchEffect op w v va loc len) := by
  unfold State.watchEffect
  extract_lets s0 _ _ _ t
  have hs0 : Canonical s0 := by
    unfold s0
    split
    · exact h.fillView
    · exact h
  have ht : Canonical t := by
    unfold t
    split
    · split
      · exact hs0.bumpOwner
      · exact hs0.bumpOwner
      · exact hs0
    · exact hs0
  split
  · exact hs0.update
  · trivial
  · exact ht.update

theorem Canonical.amoEffect (h : Canonical s) {f d v x va loc} : Effect.Kept (s.amoEffect f d v x va loc) := by
  unfold State.amoEffect
  split
  · split
    · trivial
    · split
      · exact h
      · split
        · next e2 => exact h.atomic e2
  · trivial

theorem Canonical.effect (h : Canonical s) {n op va loc len} : Effect.Kept (s.effect n op va loc len) := by
  unfold State.effect
  split
  · exact h
  · split
    · split
      · exact h.withPkg h.pkg.askHost
      · trivial
      · next e1 => exact h.readAt e1
    · split
      · exact h
      · split
        · exact h.withPkg h.pkg.askHost
        · trivial
        · next e2 => exact h.writeAt e2
    · split
      · split
        · exact h
        · exact h.feEffect
      · trivial
    · split
      · exact h.feEffect
      · trivial
    · exact h.amoEffect
    · exact h.watchEffect
    · exact h.vloadFrom
    · exact h.vstoreTo
    · split
      · trivial
      · exact h.gatherFrom
    · split
      · trivial
      · exact h.scatterTo
    · split
      · exact h.withPkg h.pkg.askHost
      · trivial
      · next e1 =>
          split
          · exact h.readAt e1
          · trivial

theorem Canonical.watchpoint (h : Canonical s) {va x} (e : s.watchpoint va = (x, t)) : Canonical t := by
  unfold State.watchpoint at e
  split at e
  · exact h.ofPair e
  · extract_lets at e
    split at e
    · exact h.ofPair e
    · split at e
      · exact (h.withPkg h.pkg.setBits).ofPair e
      · exact h.ofPair e

theorem Canonical.finish (h : Canonical s) {op va loc len r} (k : Effect.Kept r) : Canonical (s.finish op va loc len r) := by
  unfold State.finish
  split
  · exact Canonical.advance k.setG
  · exact h.raise
  · exact Canonical.raise k
  · exact k.callFor.setWait
  · exact k.setWait
  · exact k
  · exact k

theorem Canonical.clearWay (h : Canonical s) {pieces x} (e : s.clearWay pieces = (x, t)) : Canonical t := by
  unfold State.clearWay at e
  extract_lets at e
  exact h.settle.ofPair e

theorem Canonical.yieldTurn {z cls} (hz : Canonical z) : Canonical (s.yieldTurn z cls) := hz.setWait.withPkg hz.pkg.setReg

theorem Canonical.perform {z op va len} (hz : Canonical z) : Canonical (s.perform z op va len) := by
  unfold State.perform
  split
  · exact hz.raise
  · next e =>
      split
      · next e1 => exact ((hz.check e).clearWay e1).yieldTurn
      · next e1 => exact ((hz.check e).clearWay e1).finish ((hz.check e).clearWay e1).effect

theorem Canonical.access (h : Canonical s) {op va len} : Canonical (s.access op va len) := by
  unfold State.access
  split
  · next e => exact .ite (h.watchpoint e).raise (h.watchpoint e).perform

theorem Canonical.result (h : Canonical s) {d v} : Canonical (s.result d v) := h.setG.advance

theorem Canonical.result2 (h : Canonical s) {d v} : Canonical (s.result2 d v) := h.setG.advance

theorem Canonical.fpResult (h : Canonical s) {d r} : Canonical (s.fpResult d r) := h.setG.orFlags.advance

theorem Canonical.longResult (h : Canonical s) {latency d r} : Canonical (s.longResult latency d r) := .ite h.fpResult h.setWait.advance

theorem Canonical.branch (h : Canonical s) {n taken target} : Canonical (s.branch n taken target) := .ite h.setPc h.advance

theorem Canonical.jumpLink (h : Canonical s) {n d target} : Canonical (s.jumpLink n d target) := h.setG.setPc

theorem Canonical.jumpReg (h : Canonical s) {n d target} : Canonical (s.jumpReg n d target) := .ite h.raiseCause h.jumpLink

theorem Canonical.stream (h : Canonical s) {isStore size d va} : Canonical (s.stream isStore size d va) := by
  unfold State.stream
  split
  · exact h.setWait
  · split
    · next e1 =>
        split
        · exact (h.watchpoint e1).raise
        · split
          · exact (h.watchpoint e1).raise
          · next e3 => exact ((h.watchpoint e1).check e3).update.advance

end Sys2Proof.Machine
end

section
/-! PROOFS. The functions of the engines' common parts and the waiting instructions keep the canonical form. -/

namespace Sys2Proof.Machine

variable {s t : State} {p : Pkg}

theorem Canonical.wakeFor (h : Canonical s) {l} : Canonical (s.wakeFor l) := by
  unfold State.wakeFor
  split
  · exact h.wakeDie
  · exact h

theorem Canonical.engRead (h : Canonical s) {q va n} : Eng.Kept (s.engRead q va n) := by
  unfold State.engRead
  split
  · trivial
  · next e =>
      split
      · trivial
      · split
        · exact (h.check e).wakeFor
        · split
          · exact (h.check e).withPkg (h.check e).pkg.askHost
          · next e3 =>
              split
              · exact (h.check e).readAt e3
              · trivial
          · next e3 => exact (h.check e).readAt e3

theorem Canonical.engReads (h : Canonical s) {q l} : Eng.Kept (State.engReads q l s) := by
  induction l generalizing s with
  | nil => exact h
  | cons p rest ih =>
    rw [State.engReads]
    split
    · next e =>
      have kept := ih (h.engRead.of e)
      split
      · next e1 => exact (kept.of e1 :)
      · trivial
      · next e1 => exact (kept.of e1 :)
      · next e1 => exact (kept.of e1 :)
    · trivial
    · next e => exact h.engRead.of e
    · next e => exact h.engRead.of e

theorem Canonical.engLoc (h : Canonical s) {q va n} : Eng.Kept (s.engLoc q va n) := by
  unfold State.engLoc
  split
  · trivial
  · next e =>
      split
      · trivial
      · split
        · exact h.check e
        · exact (h.check e).withPkg (h.check e).pkg.askHost
  · next e1 =>
      split
      · exact (h.check e1).wakeFor
      · exact h.check e1

theorem Canonical.engLocs (h : Canonical s) {q l} : Eng.Kept (State.engLocs q l s) := by
  induction l generalizing s with
  | nil => exact h
  | cons p rest ih =>
    rw [State.engLocs]
    split
    · next e =>
      have kept := ih (h.engLoc.of e)
      split
      · next e1 => exact (kept.of e1 :)
      · trivial
      · next e1 => exact (kept.of e1 :)
      · next e1 => exact (kept.of e1 :)
    · trivial
    · next e => exact h.engLoc.of e
    · next e => exact h.engLoc.of e

theorem Canonical.readByteOf (h : Canonical s) {q l x} (e : s.readByteOf q l = (x, t)) : Canonical t := by
  unfold State.readByteOf at e
  extract_lets now at e
  have read : Canonical now.2 := by
    unfold now
    split
    · next e1 => exact h.readAt e1
    · next e1 => exact h.readAt e1
    · exact h
  have kept : now = (x, t) → Canonical t := fun e => by
    rw [e] at read
    exact read
  split at e
  · split at e
    · exact h.ofPair e
    · exact kept e
  · exact kept e

theorem Canonical.readLocs (h : Canonical s) {q l x} (e : State.readLocs q l s = (x, t)) : Canonical t := by
  induction l generalizing s x with
  | nil =>
    cases e
    exact h
  | cons p rest ih =>
    rw [State.readLocs] at e
    split at e
    · next e1 =>
      have kept := fun x => ih (x := x) (h.readByteOf e1)
      split at e
      · next e2 =>
        cases e
        exact kept _ e2
      · next e2 =>
        cases e
        exact kept _ e2
    · next e1 =>
      cases e
      exact h.readByteOf e1

theorem Canonical.engBytes (h : Canonical s) {q va n} : Eng.Kept (s.engBytes q va n) := by
  unfold State.engBytes
  split
  · trivial
  · next e => exact h.engLocs.of e
  · next e => exact h.engLocs.of e
  · next e =>
      extract_lets _ u
      have hu : Canonical u := by
        unfold u
        refine Canonical.foldl ?_ ?_
        · exact h.engLocs.of e
        · intro t1 x h1
          split
          · exact h1.fillView
          · exact h1
      exact hu

theorem Canonical.engSpotAs (h : Canonical s) {f q va n} : Eng.Kept (s.engSpotAs f q va n) := by
  unfold State.engSpotAs
  split
  · trivial
  · next e =>
      split
      · exact (h.check e).wakeFor
      · exact h.check e
  · next e =>
      split
      · trivial
      · split
        · exact h.check e
        · exact (h.check e).withPkg (h.check e).pkg.askHost
  · trivial

theorem Canonical.engSpot (h : Canonical s) {q va n} : Eng.Kept (s.engSpot q va n) := h.engSpotAs

theorem Canonical.engSpots (h : Canonical s) {q l} : Eng.Kept (State.engSpots q l s) := by
  induction l generalizing s with
  | nil => exact h
  | cons p rest ih =>
    rw [State.engSpots]
    split
    · next e =>
      have kept := ih (h.engSpot.of e)
      split
      · next e1 => exact (kept.of e1 :)
      · trivial
      · next e1 => exact (kept.of e1 :)
      · next e1 => exact (kept.of e1 :)
    · trivial
    · next e => exact h.engSpot.of e
    · next e => exact h.engSpot.of e

theorem Canonical.doWrite (h : Canonical s) {x} : Canonical (s.doWrite x) := by
  unfold State.doWrite
  split
  · exact h.storeBad
  · exact h.setFe.bitChanged
  · exact .ite h.store h.storeBytes

theorem Canonical.doWrites (h : Canonical s) {l} : Canonical (s.doWrites l) := (h.foldl (fun _ _ h1 => h1.doWrite)).update

theorem Canonical.forget (h : Canonical s) {request} : Canonical (s.forget request) := h.update

theorem Canonical.poisonSpots (h : Canonical s) {q w ss} : Canonical (State.poisonSpots q w ss s) := h.doWrites

theorem Canonical.writeWords (h : Canonical s) {q w xs} : Canonical (State.writeWords q w xs s) := h.doWrites

theorem Canonical.putBytes (h : Canonical s) {q w bs} : Canonical (State.putBytes q w bs s) := h.doWrites

theorem Canonical.completionWrite (h : Canonical s) {q w full va v} : Eng.Kept (s.completionWrite q w full va v) := by
  unfold State.completionWrite
  split
  · next e => exact .ite (h.engSpotAs.of e).storeFull (h.engSpotAs.of e).store
  · trivial
  · next e => exact h.engSpotAs.of e
  · next e => exact h.engSpotAs.of e

theorem Pkg.Ordered.metRefusal (h : p.Ordered) {request y} : Pkg.Ordered (p.metRefusal request y) := .ite h.update h

theorem Canonical.afterEngine (h : Canonical s) {q y} : Canonical (s.afterEngine q y) := .ite h.afterDenied h

theorem Canonical.requestRecord (h : Canonical s) {kind y handle number q} : Canonical (s.requestRecord kind y handle number q) :=
  (h.withPkg h.pkg.metRefusal).postRecord

theorem Canonical.requestCause (h : Canonical s) {kind handle number q a} : Canonical (s.requestCause kind handle number q a) := by
  unfold State.requestCause
  split
  · exact h
  · exact .ite h.update h.requestRecord

theorem Canonical.requestGone (h : Canonical s) {kind handle number q} : Canonical (s.requestGone kind handle number q) :=
  .ite h.update h.endRequest.forget

theorem Canonical.containOwed (h : Canonical s) {o} : Canonical (s.containOwed o) := by
  unfold State.containOwed
  split
  · exact .ite h.containAt (.ite h.containNode h)
  · exact h.containAt

theorem Canonical.raiseOwed (h : Canonical s) {i} (e : s.raiseOwed i = some t) : Canonical t := by
  unfold State.raiseOwed at e
  obtain ⟨y, -, e⟩ := Option.bind_eq_some_iff.mp e
  dsimp only at e
  split at e
  · exact (Canonical.ite h.update.containOwed.requestGone h.update.containOwed).ofSome e
  · cases e

theorem Canonical.writeTimeline (h : Canonical s) {off v} : Canonical (s.writeTimeline off v) := by
  unfold State.writeTimeline
  split
  · next e => exact (h.hwCell e).store
  · exact h

theorem Canonical.onMs (h : Canonical s) {key f} : Canonical (s.onMs key f) := h.update

theorem Canonical.onComm (h : Canonical s) {i f} : Canonical (s.onComm i f) := h.update

theorem Canonical.report (h : Canonical s) {q} (e : s.report q = some t) : Canonical t := by
  unfold State.report at e
  obtain ⟨y, -, e⟩ := Option.map_eq_some_iff.mp e
  subst e
  exact h.dropFailed.raise

theorem Canonical.waitcTurn (h : Canonical s) {nl ns nc nt} : Canonical (s.waitcTurn nl ns nc nt) := by
  unfold State.waitcTurn
  split
  · next e => exact h.report e
  · exact .ite h.setWait.advance h.setWait

theorem Canonical.drained (h : Canonical s) {w done} (kdone : ∀ t, Canonical t → Canonical (done t)) : Canonical (s.drained w done) := by
  unfold State.drained
  split
  · next e => exact h.report e
  · exact .ite (kdone _ h.setWait) h.setWait

theorem Canonical.fenceTurn (h : Canonical s) : Canonical s.fenceTurn := h.drained (fun _ h1 => h1.advance)

theorem Canonical.execCpwait (h : Canonical s) {q r c} : Out.Kept (execCpwait q r c s) := by
  unfold Machine.execCpwait
  extract_lets op
  change Canonical _
  split
  · exact h.raiseCause
  · split
    · exact h.access
    · split
      · next e2 =>
          split
          · exact (h.watchpoint e2).raise
          · split
            · exact (h.watchpoint e2).raise
            · next e4 => exact ((h.watchpoint e2).check e4).setWait

theorem Canonical.writeStatus (h : Canonical s) {y} : Canonical (s.writeStatus y) := h.store

theorem Canonical.execTkstat (h : Canonical s) {d a b} : Out.Kept (execTkstat d a b s) := by
  unfold Machine.execTkstat
  change Canonical _
  split
  · exact h.result
  · exact h.raise

theorem Canonical.blockLoads (h : Canonical s) {va loc n i} : BlockRead.Kept (State.blockLoads va loc n i s) := by
  induction n generalizing s i with
  | zero => exact h
  | succ n ih =>
    rw [State.blockLoads]
    split
    · exact (h.withPkg h.pkg.askHost).setWait
    · next e => exact h.readAt e
    · next e =>
      have kept := ih (i := i + 1) (h.readAt e)
      split
      · next e1 => exact (kept.of e1 :)
      · exact kept

theorem Canonical.readBlock (h : Canonical s) {va} : BlockRead.Kept (s.readBlock va) := by
  unfold State.readBlock
  split
  · next e =>
      split
      · exact h.watchpoint e
      · split
        · exact h.watchpoint e
        · next e2 =>
            split
            · next e3 => exact (((h.watchpoint e).check e2).clearWay e3).yieldTurn
            · next e3 =>
                split
                · exact (((h.watchpoint e).check e2).clearWay e3).callFor.yieldTurn
                · split
                  · next e5 => exact ((((h.watchpoint e).check e2).clearWay e3).blockLoads.of e5).yieldTurn.setWait
                  · exact (((h.watchpoint e).check e2).clearWay e3).blockLoads

theorem Canonical.postMemSide (h : Canonical s) {d ws key} (e : s.postMemSide d ws key = some t) : Canonical t := by
  unfold State.postMemSide at e
  extract_lets at e
  split at e
  · cases e
  · exact h.onMs.addRequest.result.ofSome e

theorem Canonical.checkDestination (h : Canonical s) {daddr c} (e : s.checkDestination daddr = .ok (t, c)) : Canonical t := by
  unfold State.checkDestination at e
  split at e
  · cases e
  · next e1 =>
      split at e
      · cases e
      · obtain ⟨rfl, -⟩ := Prod.mk.inj (Except.ok.inj e)
        exact h.check e1
  · cases e

theorem Canonical.execMspost (h : Canonical s) {d a} : Out.Kept (execMspost d a s) := by
  unfold Machine.execMspost
  change Canonical _
  split
  · next e => exact (h.readBlock.of e).raise
  · next e => exact h.readBlock.of e
  · next e =>
      split
      · exact (h.readBlock.of e).raise
      · next e1 => exact ((h.readBlock.of e).checkDestination e1).setWait.getD (fun _ h1 => ((h.readBlock.of e).checkDestination
          e1).postMemSide h1)

theorem Canonical.postCollective (h : Canonical s) {d ws i} (e : s.postCollective d ws i = some t) : Canonical t := by
  unfold State.postCollective at e
  split at e
  · exact h.raise.ofSome e
  · split at e
    · cases e
    · extract_lets at e
      exact h.onComm.addRequest.result.ofSome e

theorem Canonical.execColpost (h : Canonical s) {d a b} : Out.Kept (execColpost d a b s) := by
  unfold Machine.execColpost
  change Canonical _
  split
  · next e =>
      split
      · exact (h.watchpoint e).raise
      · split
        · exact (h.watchpoint e).raise
        · extract_lets
          split
          · exact (h.watchpoint e).raise
          · split
            · next e4 => exact (h.readBlock.of e4).raise
            · next e4 => exact h.readBlock.of e4
            · next e4 => exact (h.readBlock.of e4).setWait.getD (fun _ h2 => (h.readBlock.of e4).postCollective h2)

theorem Canonical.madeRoom (h : Canonical s) (e : s.madeRoom = some t) : Canonical t := by
  unfold State.madeRoom at e
  split at e
  · exact h.setWait.postMemSide e
  · exact h.setWait.postCollective e
  · cases e

end Sys2Proof.Machine
end

section
/-! PROOFS. The functions of the copy engine keep the canonical form. -/

namespace Sys2Proof.Machine

variable {s t : State} {p : Pkg}

theorem Canonical.onCopy (h : Canonical s) {key seq f} : Canonical (s.onCopy key seq f) := h.onConduit

theorem Canonical.copyEnd (h : Canonical s) {key seq st y} : Canonical (s.copyEnd key seq st y) := h.onCopy

theorem Canonical.copyRecord (h : Canonical s) {key c y} : Canonical (s.copyRecord key c y) := h.requestRecord

theorem Canonical.copyFault (h : Canonical s) {key c y} : Canonical (s.copyFault key c y) := .ite h.onCopy.copyRecord h.afterEngine.copyEnd

theorem Canonical.copyBad (h : Canonical s) {key c} : Canonical (s.copyBad key c) := h.copyEnd

theorem Canonical.readLayout (h : Canonical s) {q va} : Eng.Kept (s.readLayout q va) := by
  unfold State.readLayout
  split
  · trivial
  · exact h.engReads

theorem Canonical.takeReads (h : Canonical s) {q r} : Eng.Kept (s.takeReads q r) := by
  unfold State.takeReads
  extract_lets
  split
  · exact h
  · split
    · split
      · trivial
      · next e2 => exact h.readLayout.of e2
      · next e2 => exact h.readLayout.of e2
      · next e2 =>
          split
          · trivial
          · next e3 => exact (h.readLayout.of e2).readLayout.of e3
          · next e3 => exact (h.readLayout.of e2).readLayout.of e3
          · next e3 =>
              extract_lets
              split
              · exact (h.readLayout.of e2).readLayout.of e3
              · exact (h.readLayout.of e2).readLayout.of e3
    · split
      · trivial
      · next e2 => exact h.engReads.of e2
      · next e2 => exact h.engReads.of e2
      · next e2 => exact h.engReads.of e2
    · exact h
    · exact h

theorem Canonical.writePromise (h : Canonical s) {key box q} : Canonical (s.writePromise key box q) := h.storeFull

theorem Canonical.emptyMailbox (h : Canonical s) {key box x} (e : s.emptyMailbox key box = (x, t)) : Canonical t := by
  unfold State.emptyMailbox at e
  extract_lets at e
  split at e
  · exact h.onConduit.setFe.bitChanged.ofPair e
  · exact h.onConduit.setFe.addRequest.bitChanged.ofPair e

theorem Canonical.takeCopy (h : Canonical s) {key box} : Canonical (s.takeCopy key box) := by
  unfold State.takeCopy
  extract_lets _ _ _ add
  have hadd (t1 : State) (x : Copy) (ht1 : Canonical t1) : Canonical (add t1 x) := ht1.onConduit.writePromise
  split
  · next e =>
      extract_lets _ _ _ _ s2
      have hs2 : Canonical s2 := (h.emptyMailbox e).store
      split
      · exact hadd _ _ (h.emptyMailbox e)
      · split
        · next e2 => exact hadd _ _ (hs2.takeReads.of e2)
        · next e2 => exact hadd _ _ (hs2.takeReads.of e2)
        · next e2 => exact hadd _ _ (hs2.takeReads.of e2)
        · next e2 => exact hadd _ _ (hs2.takeReads.of e2)
        · exact .ite (hadd _ _ hs2).copyRecord (hadd _ _ hs2.afterEngine)

theorem Canonical.tryConduitTake (h : Canonical s) {die core} (e : tryConduitTake die core s = some t) : Canonical t := by
  unfold Machine.tryConduitTake at e
  extract_lets at e
  split at e
  · split at e
    · exact h.conduitTurn.takeCopy.ofSome e
    · cases e
  · cases e

theorem Canonical.copyChecks (h : Canonical s) {key c} : Canonical (s.copyChecks key c) := by
  unfold State.copyChecks
  split
  · next e => exact (h.takeReads.of e).copyEnd
  · next e => exact (h.takeReads.of e).onCopy
  · next e => exact h.takeReads.of e
  · next e => exact (h.takeReads.of e).copyBad
  · exact h.copyFault

theorem Canonical.copyStep (h : Canonical s) {die core seq ops go} (kgo : ∀ a b, Canonical (go a b))
    (e : s.copyStep die core seq ops go = some t) : Canonical t := by
  unfold State.copyStep at e
  extract_lets at e
  split at e
  · split at e
    · exact (Canonical.ite h.copyChecks (kgo _ _)).conduitTurn.ofSome e
    · cases e
  · cases e

theorem Canonical.copyDone (h : Canonical s) {key c full cost} : Canonical (s.copyDone key c full cost) := h.onCopy

theorem Canonical.moveBytes (h : Canonical s) {key c src dst done}
    (kdone : ∀ t, Canonical t → Canonical (done t)) : Canonical (s.moveBytes key c src dst done) := by
  unfold State.moveBytes
  extract_lets
  split
  · exact h.copyFault
  · next e => exact (h.engLocs.of e).copyBad
  · next e => exact h.engLocs.of e
  · next e =>
      split
      · exact h.copyFault
      · next e1 => exact ((h.engLocs.of e).engSpots.of e1).copyBad
      · next e1 => exact (h.engLocs.of e).engSpots.of e1
      · next e1 =>
          split
          · next e2 => exact kdone _ (((h.engLocs.of e).engSpots.of e1).readLocs e2).putBytes
          · next e2 => exact (((h.engLocs.of e).engSpots.of e1).readLocs e2).poisonSpots.copyBad

theorem Canonical.poisonRow (h : Canonical s) {key c dst} : Canonical (s.poisonRow key c dst) := by
  unfold State.poisonRow
  split
  · exact h.copyFault
  · next e => exact (h.engSpots.of e).copyBad
  · next e => exact h.engSpots.of e
  · next e => exact (h.engSpots.of e).poisonSpots.copyBad

theorem Canonical.denseChunk (h : Canonical s) {key c} : Canonical (s.denseChunk key c) := h.moveBytes (fun _ h1 => h1.copyDone)

theorem Canonical.version (h : Canonical s) {key c x} : Version.Kept (s.version key c x) := by
  unfold State.version
  split
  · next e =>
      split
      · exact h.engRead.of e
      · trivial
  · trivial
  · next e => exact h.engRead.of e
  · next e => exact h.engRead.of e

theorem Canonical.attempt (h : Canonical s) {key c x} : Canonical (s.attempt key c x) := h.onCopy

theorem Canonical.gatherRow (h : Canonical s) {key c} : Canonical (s.gatherRow key c) := by
  unfold State.gatherRow
  extract_lets
  split
  · exact h.copyFault
  · next e => exact h.engRead.of e
  · next e => exact (h.engRead.of e).poisonRow
  · next e =>
      extract_lets move
      have hmove (t1 : State) (ht1 : Canonical t1) : Canonical (move t1) := ht1.moveBytes (fun _ h1 => h1.copyDone)
      split
      · split
        · next e2 => exact hmove _ ((h.engRead.of e).version.of e2)
        · exact (h.engRead.of e).attempt
        · exact h.copyFault
        · next e2 => exact ((h.engRead.of e).version.of e2).poisonRow
        · next e2 => exact (h.engRead.of e).version.of e2
      · exact hmove _ (h.engRead.of e)

theorem Canonical.versionGoOn (h : Canonical s) {key c w n} : Canonical (s.versionGoOn key c w n) :=
  .ite (h.foldl (fun _ _ h1 => h1.doWrite)).store.copyDone (h.foldl (fun _ _ h1 => h1.doWrite)).onCopy

theorem Canonical.versionedWrite (h : Canonical s) {key c src x} : Canonical (s.versionedWrite key c src x) := by
  unfold State.versionedWrite
  extract_lets
  split
  · exact h.copyFault
  · next e => exact (h.engLocs.of e).copyBad
  · next e => exact h.engLocs.of e
  · next e =>
      split
      · next e1 => exact ((h.engLocs.of e).readLocs e1).copyBad
      · next e1 =>
          split
          · exact h.copyFault
          · next e2 => exact (((h.engLocs.of e).readLocs e1).engSpots.of e2).copyBad
          · next e2 => exact ((h.engLocs.of e).readLocs e1).engSpots.of e2
          · next e2 => exact ((h.engLocs.of e).readLocs e1).engSpots.of e2
          · next e2 => exact .ite h.copyFault (.ite (((h.engLocs.of e).readLocs e1).engSpots.of e2).copyBad (.ite (((h.engLocs.of
              e).readLocs e1).engSpots.of e2).onCopy (((h.engLocs.of e).readLocs e1).engSpots.of e2).store.versionGoOn))

theorem Canonical.versionStep (h : Canonical s) {key c begin_} (hbegin_ : Canonical begin_) : Canonical (s.versionStep key c begin_) := by
  unfold State.versionStep
  split
  · exact h.versionGoOn
  · exact hbegin_

theorem Canonical.writerFails (h : Canonical s) {key c} (e : s.writerFails key c = some t) : Canonical t := by
  unfold State.writerFails at e
  obtain ⟨y, -, e⟩ := Option.map_eq_some_iff.mp e
  dsimp only at e
  subst e
  exact (h.foldl (fun _ _ h1 => h1.doWrite)).store.onCopy.copyBad

theorem Canonical.scatterRow (h : Canonical s) {key c} : Canonical (s.scatterRow key c) := by
  unfold State.scatterRow
  extract_lets
  refine Canonical.versionStep ?_ ?_
  · exact h
  · split
    · exact h.copyFault
    · next e => exact h.engRead.of e
    · next e => exact (h.engRead.of e).copyBad
    · next e => exact .ite (h.engRead.of e).versionedWrite ((h.engRead.of e).moveBytes (fun _ h1 => h1.copyDone))

theorem Canonical.replaceRow (h : Canonical s) {key c} : Canonical (s.replaceRow key c) := h.versionStep h.versionedWrite

theorem Canonical.bagRows (h : Canonical s) {key c q l} : BagRead.Kept (State.bagRows key c q l s) := by
  induction l generalizing s with
  | nil => exact h
  | cons k rest ih =>
    rw [State.bagRows]
    split
    · trivial
    · next e => exact h.engRead.of e
    · next e => exact h.engRead.of e
    · next t x e =>
      have ht : Canonical t := h.engRead.of e
      extract_lets go
      have hgo (u : State) (hu : Canonical u) : (go u).Kept := by
        unfold go
        split
        · trivial
        · next e1 => exact hu.engLocs.of e1
        · next e1 => exact hu.engLocs.of e1
        · next e1 =>
          have hw := hu.engLocs.of e1
          split
          · next e2 => exact Canonical.readLocs hw e2
          · next e2 =>
            have kept := ih (Canonical.readLocs hw e2)
            split
            · next e3 => exact (kept.of e3 :)
            · exact kept
      split
      · split
        · next e1 => exact hgo _ (ht.version.of e1)
        · trivial
        · trivial
        · next e1 => exact ht.version.of e1
        · next e1 => exact ht.version.of e1
      · exact hgo t ht

theorem Canonical.formBag (h : Canonical s) {key c b} : BagOut.Kept (s.formBag key c b) := by
  unfold State.formBag
  extract_lets
  split
  · trivial
  · next e => exact h.engReads.of e
  · next e => exact h.engReads.of e
  · next e =>
      extract_lets
      split
      · trivial
      · next e1 => exact (h.engReads.of e).bagRows.of e1
      · next e1 => exact (h.engReads.of e).bagRows.of e1
      · exact h.engReads.of e
      · next e1 => exact (h.engReads.of e).bagRows.of e1

theorem Canonical.writeBag (h : Canonical s) {key c bytes cost} : Canonical (s.writeBag key c bytes cost) := by
  unfold State.writeBag
  extract_lets
  split
  · exact h.copyFault
  · next e => exact (h.engSpots.of e).copyBad
  · next e => exact h.engSpots.of e
  · next e => exact (h.engSpots.of e).putBytes.copyDone

theorem Canonical.poolBag (h : Canonical s) {key c} : Canonical (s.poolBag key c) := by
  unfold State.poolBag
  split
  · exact h.writeBag
  · split
    · exact h.copyFault
    · next e1 => exact h.formBag.of e1
    · next e1 => exact (h.formBag.of e1).poisonRow
    · next e1 => exact (h.formBag.of e1).attempt
    · next e1 => exact (h.formBag.of e1).writeBag

theorem Canonical.earlyBag (h : Canonical s) {die core seq b} (e : s.earlyBag die core seq b = some t) : Canonical t := by
  unfold State.earlyBag at e
  extract_lets at e
  split at e
  · split at e
    · split at e
      · next e3 => exact (h.formBag.of e3).onCopy.ofSome e
      · cases e
    · cases e
  · cases e

theorem Canonical.tryDenseCopy (h : Canonical s) {die core seq} (e : tryDenseCopy die core seq s = some t) : Canonical t :=
  h.copyStep (fun _ _ => h.denseChunk) e

theorem Canonical.tryGather (h : Canonical s) {die core seq} (e : tryGather die core seq s = some t) : Canonical t :=
  h.copyStep (fun _ _ => h.gatherRow) e

theorem Canonical.tryScatter (h : Canonical s) {die core seq} (e : tryScatter die core seq s = some t) : Canonical t :=
  h.copyStep (fun _ _ => h.scatterRow) e

theorem Canonical.tryPooledGather (h : Canonical s) {die core seq} (e : tryPooledGather die core seq s = some t) : Canonical t :=
  h.copyStep (fun _ _ => h.poolBag) e

theorem Canonical.tryRowReplace (h : Canonical s) {die core seq} (e : tryRowReplace die core seq s = some t) : Canonical t :=
  h.copyStep (fun _ _ => h.replaceRow) e

theorem Canonical.tryPromiseRevision (h : Canonical s) {die core seq} (e : tryPromiseRevision die core seq s = some t) : Canonical t := by
  unfold Machine.tryPromiseRevision at e
  extract_lets at e
  split at e
  · split at e
    · extract_lets at e
      exact (Canonical.ite h.onCopy h.onCopy.writePromise).ofSome e
    · cases e
  · cases e

theorem Canonical.tryVersionWaitWake (h : Canonical s) {die core seq} (e : tryVersionWaitWake die core seq s = some t) : Canonical t := by
  unfold Machine.tryVersionWaitWake at e
  extract_lets at e
  split at e
  · split at e
    · extract_lets at e
      split at e
      · exact h.onCopy.ofSome e
      · cases e
    · cases e
  · cases e

theorem Canonical.tryCopyResume (h : Canonical s) {die core seq} (e : tryCopyResume die core seq s = some t) : Canonical t := by
  unfold Machine.tryCopyResume at e
  extract_lets at e
  split at e
  · split at e
    · exact h.onCopy.ofSome e
    · cases e
  · cases e

theorem Canonical.copyLeaves (h : Canonical s) {key c causes} : Canonical (s.copyLeaves key c causes) :=
  (h.store.onConduit.foldl (fun _ _ h1 => h1.requestCause)).requestGone

theorem Canonical.completeCopy (h : Canonical s) {key c st} : Canonical (s.completeCopy key c st) := by
  unfold State.completeCopy
  extract_lets
  split
  · exact h.copyLeaves
  · split
    · next e1 => exact (h.completionWrite.of e1).copyLeaves
    · next e1 => exact h.completionWrite.of e1
    · next e1 => exact h.completionWrite.of e1
    · exact .ite h.copyFault h.afterEngine.copyLeaves

theorem Canonical.tryCopyCompletion (h : Canonical s) {die core} (e : tryCopyCompletion die core s = some t) : Canonical t := by
  unfold Machine.tryCopyCompletion at e
  extract_lets at e
  split at e
  · split at e
    · split at e
      · exact h.completeCopy.ofSome e
      · cases e
    · cases e
  · cases e

end Sys2Proof.Machine
end

section
/-! PROOFS. The functions of the memory-side engines and the collectives keep the canonical form. -/

namespace Sys2Proof.Machine

variable {s t : State} {p : Pkg}

theorem Canonical.onMsRequest (h : Canonical s) {key queue seq f} : Canonical (s.onMsRequest key queue seq f) := h.onMs

theorem Canonical.tryMsRequestStart (h : Canonical s) {die stack} (e : tryMsRequestStart die stack s = some t) : Canonical t := by
  unfold Machine.tryMsRequestStart at e
  extract_lets at e
  split at e
  · split at e
    · extract_lets at e
      exact h.onMs.onMsRequest.ofSome e
    · cases e
  · cases e

theorem Canonical.msEnd (h : Canonical s) {key r st y} : Canonical (s.msEnd key r st y) := h.onMsRequest

theorem Canonical.msFault (h : Canonical s) {key r y} : Canonical (s.msFault key r y) :=
  .ite h.onMsRequest.requestRecord h.afterEngine.msEnd

theorem Canonical.msLine (h : Canonical s) {key q f va} : Eng.Kept (s.msLine key q f va) := by
  unfold State.msLine
  split
  · trivial
  · next e =>
      split
      · exact h.check e
      · trivial
  · trivial

theorem Canonical.msLinesAt (h : Canonical s) {key q l} : Eng.Kept (State.msLinesAt key q l s) := by
  induction l generalizing s with
  | nil => exact h
  | cons va rest ih =>
    rw [State.msLinesAt]
    split
    · next e =>
      have kept := ih (h.msLine.of e)
      split
      · next e1 => exact (kept.of e1 :)
      · exact kept
    · trivial
    · next e => exact h.msLine.of e
    · next e => exact h.msLine.of e

theorem Canonical.msDone (h : Canonical s) {key r sat} : Canonical (s.msDone key r sat) := h.onMsRequest

theorem Canonical.msLineStep (h : Canonical s) {key r srcs go}
    (kgo : ∀ t b c, Canonical t → Canonical (go t b c)) : Canonical (s.msLineStep key r srcs go) := by
  unfold State.msLineStep
  extract_lets
  split
  · exact h.msFault
  · next e => exact h.msLine.of e
  · next e => exact h.msLine.of e
  · next e =>
      split
      · exact h.msFault
      · next e1 => exact (h.msLine.of e).msLinesAt.of e1
      · next e1 => exact (h.msLine.of e).msLinesAt.of e1
      · next e1 => exact .ite ((h.msLine.of e).msLinesAt.of e1).poisonSpots.msEnd (kgo _ _ _ ((h.msLine.of e).msLinesAt.of e1))

theorem Canonical.writeLine (h : Canonical s) {key r d ws} : Canonical (s.writeLine key r d ws) := h.writeWords

theorem Canonical.readTable (h : Canonical s) {key r} : Canonical (s.readTable key r) := by
  unfold State.readTable
  split
  · exact h.msFault
  · next e => exact h.msLine.of e
  · next e => exact h.msLine.of e
  · next e =>
      extract_lets
      split
      · split
        · exact (h.msLine.of e).msFault
        · next e2 => exact (h.msLine.of e).msLine.of e2
        · next e2 => exact (h.msLine.of e).msLine.of e2
        · next e2 => exact ((h.msLine.of e).msLine.of e2).poisonSpots.msEnd
      · exact (h.msLine.of e).onMsRequest

theorem Canonical.msReduceLine (h : Canonical s) {key r} : Canonical (s.msReduceLine key r) :=
  .ite h.readTable (h.msLineStep (fun _ _ _ h1 => h1.writeLine.msDone))

theorem Canonical.fillBits (h : Canonical s) {key r d} : Canonical (s.fillBits key r d) := h.doWrites

theorem Canonical.msStep {die stack op go} (kgo : ∀ a b, Canonical (go a b)) (e : s.msStep die stack op go = some t) : Canonical t := by
  unfold State.msStep at e
  extract_lets at e
  split at e
  · split at e
    · exact (kgo _ _).ofSome e
    · cases e
  · cases e

theorem Canonical.tryMsReduce (h : Canonical s) {die stack} (e : tryMsReduce die stack s = some t) : Canonical t :=
  msStep (fun _ _ => h.msReduceLine) e

theorem Canonical.tryMsFill (h : Canonical s) {die stack} (e : tryMsFill die stack s = some t) : Canonical t :=
  msStep (fun _ _ => h.msLineStep (fun _ _ _ h1 => h1.writeLine.msDone)) e

theorem Canonical.tryMsCopy (h : Canonical s) {die stack} (e : tryMsCopy die stack s = some t) : Canonical t :=
  msStep (fun _ _ => h.msLineStep (fun _ _ _ h1 => h1.writeLine.msDone)) e

theorem Canonical.tryMsFeInit (h : Canonical s) {die stack} (e : tryMsFeInit die stack s = some t) : Canonical t :=
  msStep (fun _ _ => h.msLineStep (fun _ _ _ h1 => h1.fillBits.msDone)) e

theorem Canonical.tryMsResume (h : Canonical s) {die stack} (e : tryMsResume die stack s = some t) : Canonical t := by
  unfold Machine.tryMsResume at e
  extract_lets at e
  split at e
  · split at e
    · exact h.onMsRequest.ofSome e
    · cases e
  · cases e

theorem Canonical.msWrite (h : Canonical s) {key r n full va v} : Written.Kept (s.msWrite key r n full va v) := by
  unfold State.msWrite
  extract_lets past
  have hpast (t1 : State) (ht1 : Canonical t1) : Canonical (past t1) := ht1.onMsRequest
  split
  · exact h
  · split
    · next e1 => exact hpast _ (h.completionWrite.of e1)
    · next e1 => exact h.completionWrite.of e1
    · next e1 => exact hpast _ (h.completionWrite.of e1)
    · split
      · exact h.msFault
      · exact (hpast _ h.afterEngine).requestCause

theorem Canonical.msLeaves (h : Canonical s) {key r} : Canonical (s.msLeaves key r) := h.onMs.writeTimeline.requestCause.requestGone

theorem Canonical.msComplete (h : Canonical s) {key r st} : Canonical (s.msComplete key r st) := by
  unfold State.msComplete
  extract_lets statVa first
  have kept : first.Kept := by
    unfold first
    split
    · exact h
    · exact h.msWrite
  cases hf : first with
  | stop t => exact kept.of hf
  | on t =>
    have ht : Canonical t := kept.of hf
    dsimp only
    split
    · next e => exact ht.msWrite.of e
    · next e => exact Canonical.msLeaves (ht.msWrite.of e)

theorem Canonical.tryMsCompletion (h : Canonical s) {die stack} (e : tryMsCompletion die stack s = some t) : Canonical t := by
  unfold Machine.tryMsCompletion at e
  extract_lets at e
  split at e
  · split at e
    · split at e
      · exact h.msComplete.ofSome e
      · cases e
    · cases e
  · cases e

theorem Canonical.onInstance (h : Canonical s) {i n f} : Canonical (s.onInstance i n f) := h.onComm

theorem Canonical.colEnd (h : Canonical s) {i n st y} : Canonical (s.colEnd i n st y) := h.onInstance

theorem Canonical.colStart (h : Canonical s) {i c i1 peers} : Canonical (s.colStart i c i1 peers) := .ite h.onInstance h.onInstance.colEnd

theorem Canonical.tryCollectiveInstanceStart (h : Canonical s) {i peers}
    (e : tryCollectiveInstanceStart i peers s = some t) : Canonical t := by
  unfold Machine.tryCollectiveInstanceStart at e
  split at e
  · split at e
    · exact h.colStart.ofSome e
    · cases e
  · cases e

theorem Canonical.colFault (h : Canonical s) {i i1 y} : Canonical (s.colFault i i1 y) :=
  .ite h.onInstance.requestRecord h.afterEngine.colEnd

theorem Canonical.ownPost (h : Canonical s) {i c i1} : Eng.Kept (s.ownPost i c i1) := by
  unfold State.ownPost
  extract_lets
  split
  · trivial
  · next e => exact h.engBytes.of e
  · next e => exact h.engBytes.of e
  · next e =>
      split
      · trivial
      · next e1 => exact (h.engBytes.of e).engBytes.of e1
      · next e1 => exact (h.engBytes.of e).engBytes.of e1
      · next e1 => exact (h.engBytes.of e).engBytes.of e1

theorem Canonical.colRun (h : Canonical s) {i c i1} : Canonical (s.colRun i c i1) := by
  unfold State.colRun
  split
  · exact h.colFault
  · next e => exact h.ownPost.of e
  · next e => exact h.ownPost.of e
  · next e => exact .ite (h.ownPost.of e).colEnd (h.ownPost.of e).onInstance

theorem Canonical.colStep (h : Canonical s) {i op} (e : s.colStep i op = some t) : Canonical t := by
  unfold State.colStep at e
  split at e
  · split at e
    · exact h.colRun.ofSome e
    · cases e
  · cases e

theorem Canonical.tryColDenseAllreduce (h : Canonical s) {i} (e : tryColDenseAllreduce i s = some t) : Canonical t := h.colStep e

theorem Canonical.tryColSparseAllreduce (h : Canonical s) {i} (e : tryColSparseAllreduce i s = some t) : Canonical t := h.colStep e

theorem Canonical.tryColBroadcast (h : Canonical s) {i} (e : tryColBroadcast i s = some t) : Canonical t := h.colStep e

theorem Canonical.tryColAllGather (h : Canonical s) {i} (e : tryColAllGather i s = some t) : Canonical t := h.colStep e

theorem Canonical.tryColResume (h : Canonical s) {i} (e : tryColResume i s = some t) : Canonical t := by
  unfold Machine.tryColResume at e
  split at e
  · split at e
    · exact h.onInstance.ofSome e
    · cases e
  · cases e

theorem Canonical.colReceive (h : Canonical s) {i x} : ColWritten.Kept (s.colReceive i x) := by
  unfold State.colReceive
  split
  · exact h
  · split
    · next e1 => exact h.engSpots.of e1
    · next e1 => exact h.engSpots.of e1
    · exact h.colFault
    · next e1 =>
        extract_lets
        exact (h.engSpots.of e1).doWrites.onInstance

theorem Canonical.colWrite (h : Canonical s) {i x step full va v} : ColWritten.Kept (s.colWrite i x step full va v) := by
  unfold State.colWrite
  extract_lets past
  have hpast (t1 : State) (ht1 : Canonical t1) : Canonical (past t1) := ht1.onInstance
  split
  · exact h
  · split
    · next e1 => exact hpast _ (h.completionWrite.of e1)
    · next e1 => exact h.completionWrite.of e1
    · next e1 => exact hpast _ (h.completionWrite.of e1)
    · split
      · exact h.onInstance.requestRecord
      · exact (hpast _ h.afterEngine).requestCause

theorem Canonical.colLeaves (h : Canonical s) {i i1} : Canonical (s.colLeaves i i1) :=
  (h.onComm.writeTimeline.foldl (fun _ _ h1 => h1.requestCause)).requestGone

theorem Canonical.colComplete (h : Canonical s) {i i1} : Canonical (s.colComplete i i1) := by
  unfold State.colComplete
  extract_lets
  split
  · next e => exact h.colReceive.of e
  · next e =>
      split
      · exact h.colReceive.of e
      · split
        · next e2 => exact (h.colReceive.of e).colWrite.of e2
        · next e2 =>
            split
            · next e3 => exact ((h.colReceive.of e).colWrite.of e2).colWrite.of e3
            · next e3 => exact (((h.colReceive.of e).colWrite.of e2).colWrite.of e3).colLeaves

theorem Canonical.tryColCompletion (h : Canonical s) {i} (e : tryColCompletion i s = some t) : Canonical t := by
  unfold Machine.tryColCompletion at e
  split at e
  · split at e
    · exact h.colComplete.ofSome e
    · cases e
  · cases e

theorem Canonical.abortInstance (h : Canonical s) {i i1} : Canonical (s.abortInstance i i1) := .ite h.colEnd.onInstance h.onInstance

theorem Canonical.abortInstances (h : Canonical s) {i c} : Canonical (s.abortInstances i c) := h.foldl (fun _ _ h1 => h1.abortInstance)

theorem Canonical.tryColAbort (h : Canonical s) {i} (e : tryColAbort i s = some t) : Canonical t := by
  unfold Machine.tryColAbort at e
  split at e
  · split at e
    · exact h.abortInstances.ofSome e
    · cases e
  · cases e

theorem Canonical.commCreate (h : Canonical s) {b tree} : Canonical (s.commCreate b tree) :=
  (h.update.foldl (fun _ _ h1 => h1.writeTimeline)).writeTimeline

theorem Canonical.commCommand (h : Canonical s) {b} : CommStep.Kept (s.commCommand b) := by
  unfold State.commCommand
  extract_lets
  split
  · split
    · split
      · next e2 => exact (h.engReads.of e2).commCreate
      · next e2 => exact h.engReads.of e2
      · next e2 => exact h.engReads.of e2
      · exact h.withPkg h.pkg.metRefusal
    · exact h
  · split
    · exact h
    · split
      · exact h
      · split
        · exact h.update
        · exact h.onComm
  · exact h

theorem Canonical.firmwareComm (h : Canonical s) {va q} (e : s.firmwareComm va q = some t) : Canonical t := by
  unfold State.firmwareComm at e
  split at e
  · cases e
  · next e1 =>
      extract_lets _ keep at e
      have hkeep (t1 : State) (x : List Word) (ht1 : Canonical t1) : Canonical (keep t1 x) := ht1.update
      split at e
      · cases e
      · split at e
        · next e3 => exact (hkeep _ _ ((h.hwCell e1).commCommand.of e3)).ofSome e
        · next e3 =>
            split at e
            · next e4 => exact ((hkeep _ _ ((h.hwCell e1).commCommand.of e3)).hwWrite e4).ofSome e
            · exact (hkeep _ _ ((h.hwCell e1).commCommand.of e3)).ofSome e

theorem Canonical.tryCommCreate (h : Canonical s) {va} (e : tryCommCreate va s = some t) : Canonical t := by
  unfold Machine.tryCommCreate at e
  split at e
  · next e1 =>
      split at e
      · exact (h.firmwareComm e1).ofSome e
      · cases e
  · cases e

theorem Canonical.tryCommEnd (h : Canonical s) {va} (e : tryCommEnd va s = some t) : Canonical t := by
  unfold Machine.tryCommEnd at e
  split at e
  · next e1 =>
      split at e
      · exact (h.firmwareComm e1).ofSome e
      · cases e
  · cases e

theorem Canonical.trySegmentDeliveryFailure (h : Canonical s) {i} (e : trySegmentDeliveryFailure i s = some t) : Canonical t := by
  unfold Machine.trySegmentDeliveryFailure at e
  split at e
  · split at e
    · exact h.abortInstance.ofSome e
    · cases e
  · cases e

theorem Canonical.tryMemberPackageLost (h : Canonical s) {i rank} (e : tryMemberPackageLost i rank s = some t) : Canonical t := by
  unfold Machine.tryMemberPackageLost at e
  split at e
  · split at e
    · exact h.onComm.abortInstances.ofSome e
    · cases e
  · cases e

end Sys2Proof.Machine
end

section
/-! PROOFS. The functions of the swarm and the system instructions keep the canonical form. -/

namespace Sys2Proof.Machine

variable {s t : State} {p : Pkg}

theorem Canonical.addSpawn (h : Canonical s) {sp} : Canonical (s.addSpawn sp) := h.update

theorem Canonical.setSpawnid (h : Canonical s) {id} : Canonical (s.setSpawnid id) := h.update

theorem Canonical.execSpawn (h : Canonical s) {r a b} : Out.Kept (execSpawn r a b s) := by
  unfold Machine.execSpawn
  change Canonical _
  split
  · exact h.raiseCause
  · split
    · exact h.raiseCause
    · split
      · exact h.raiseCause
      · exact h.advance
      · exact h.addSpawn.setSpawnid.advance

theorem Canonical.spillRecord (h : Canonical s) : Canonical s.spillRecord := by
  unfold State.spillRecord
  extract_lets
  refine Canonical.foldl ?_ ?_
  · exact h
  · intro t x h1
    split
    · next e =>
        split
        · next e1 => exact (h1.fresh e).hwWrite e1
        · exact h1.fresh e

theorem Canonical.pushBasin (h : Canonical s) {die id} : Canonical (s.pushBasin die id) := (Canonical.ite h h.spillRecord).onDie

theorem Canonical.execSpawnn (h : Canonical s) {r a b} : Out.Kept (execSpawnn r a b s) := by
  unfold Machine.execSpawnn
  change Canonical _
  split
  · exact h.raiseCause
  · split
    · exact h.raiseCause
    · exact h.advance
    · exact h.advance
    · exact .ite h.addSpawn.pushBasin.advance h.raiseCause

theorem Canonical.joined (h : Canonical s) {id sp} : Canonical (s.joined id sp) := h.update

theorem Canonical.joinTurn (h : Canonical s) : Canonical s.joinTurn := by
  unfold State.joinTurn
  refine Canonical.drained ?_ ?_
  · exact h
  · intro t h1
    split
    · exact h1.update.advance
    · exact .ite h1.joined.advance h1.setWait

theorem Canonical.retire (h : Canonical s) : Canonical s.retire :=
  (Canonical.ite (Canonical.ite h.trace h).vacate.retireOne (Canonical.ite h.trace h).vacate).draw

theorem Canonical.nextTurn (h : Canonical s) {len} : Canonical (s.nextTurn len) := h.drained (fun _ h1 => h1.retire)

theorem Canonical.psWindows (h : Canonical s) {spawn bound} : Canonical (s.psWindows spawn bound) := by
  unfold State.psWindows
  split
  · exact h
  · split
    · exact h.update

theorem Canonical.prefixSum (h : Canonical s) {len d n} : Canonical (s.prefixSum len d n) := .ite h.raiseCause h.update.setWait.advance

theorem Canonical.fibreSave (h : Canonical s) : Canonical s.fibreSave := by
  unfold State.fibreSave
  split
  · exact h.raiseCause
  · split
    · exact h.raiseCause
    · split
      · exact h.raiseCause
      · next e2 => exact (h.freePoolEntry e2).update.trace.advance.deliverUpcall

theorem Canonical.fbsaveTurn (h : Canonical s) : Canonical s.fbsaveTurn := h.drained (fun _ h1 => h1.fibreSave)

theorem Canonical.execFbsave (h : Canonical s) : Out.Kept (execFbsave s) := by
  unfold Machine.execFbsave
  change Canonical _
  split
  · exact h.raiseCause
  · exact h.raiseCause
  · exact h.fbsaveTurn

theorem Canonical.execFbload (h : Canonical s) {a} : Out.Kept (execFbload a s) := by
  unfold Machine.execFbload
  change Canonical _
  split
  · exact h.raiseCause
  · exact h.raiseCause
  · split
    · exact .ite (.ite h.settleAll.setWait h.settleAll.restore) h.raiseCause
    · exact h.raiseCause

theorem Canonical.pushReady (h : Canonical s) {core entry} : Canonical (s.pushReady core entry) := h.setEntryState.callDie.update

theorem Canonical.execFbret (h : Canonical s) {a} : Out.Kept (execFbret a s) := by
  unfold Machine.execFbret
  change Canonical _
  split
  · exact h.raiseCause
  · exact h.raiseCause
  · split
    · exact h.pushReady.advance
    · exact h.raiseCause

theorem Canonical.cancelLevel (h : Canonical s) {kind id} : Canonical (s.cancelLevel kind id) := by
  unfold State.cancelLevel
  split
  · exact h
  · split
    · exact h.endJob
    · exact h.cancelRun
    · split
      · exact h.cancelNode
      · exact h
    · exact h.cancelSpawn
    · exact h.putAgent

theorem Canonical.execMfs (h : Canonical s) {d n} : Out.Kept (execMfs d n s) := by
  unfold Machine.execMfs
  change Canonical _
  split
  · exact h.raiseCause
  · split
    · exact h.raiseCause
    · split
      · exact h.result
      · exact h.result
      · exact h.result

theorem Canonical.setNamed (h : Canonical s) {n x} : Canonical (s.setNamed n x) := by
  unfold State.setNamed
  extract_lets
  split
  · exact h.update
  · exact h.update
  · exact h.update
  · exact h.update
  · exact h.update
  · exact h.update
  · exact h.update
  · exact h.update
  · exact h.update
  · exact h.update
  · exact h.update
  · exact h.update
  · exact h.update
  · exact h

theorem Canonical.comctl (h : Canonical s) {va} : Canonical (s.comctl va) := by
  unfold State.comctl
  split
  · next e => exact (h.readBlock.of e).raise
  · next e => exact h.readBlock.of e
  · next e =>
      split
      · exact (h.readBlock.of e).raise
      · next e1 =>
          split
          · exact (((h.readBlock.of e).check e1).withPkg ((h.readBlock.of e).check e1).pkg.askHost).setWait
          · split
            · next e3 => exact (((h.readBlock.of e).check e1).commCommand.of e3).setWait
            · next e3 =>
                split
                · exact (((h.readBlock.of e).check e1).commCommand.of e3).setWait
                · exact (((h.readBlock.of e).check e1).commCommand.of e3).raise
                · next e4 => exact ((((h.readBlock.of e).check e1).commCommand.of e3).writeAt e4).advance

theorem Canonical.execMts (h : Canonical s) {n a} : Out.Kept (execMts n a s) := by
  unfold Machine.execMts
  change Canonical _
  extract_lets
  split
  · exact h.raiseCause
  · split
    · exact h.raiseCause
    · split
      · exact h.raiseCause
      · exact h.raiseCause
      · exact .ite h.raiseCause (.ite (.ite h.advance.cancelLevel h.advance) (.ite h.comctl h.setNamed.advance))

theorem Canonical.firmwareWrite (h : Canonical s) {n v} : Canonical (s.firmwareWrite n v) := by
  unfold State.firmwareWrite
  extract_lets
  split
  · exact h.withPkg h.pkg.update
  · split
    · exact h
    · split
      · exact h.focusJob.update
      · exact .ite h.focusJob.update h
      · exact .ite h.focusJob.update h
      · exact .ite h.focusJob.cancelLevel h
      · exact h.getD (fun _ h1 => h.focusJob.firmwareComm h1)
      · exact .ite h.focusJob.setNamed h

theorem Canonical.exitNode (h : Canonical s) : Canonical s.exitNode := .ite h.advance h.onNode.vacate

end Sys2Proof.Machine
end

section
/-! PROOFS. The functions of the graph scheduler keep the canonical form. -/

namespace Sys2Proof.Machine

variable {s t : State} {p : Pkg}

theorem Canonical.graphRecord (h : Canonical s) {y run} : Canonical (s.graphRecord y run) := (h.withPkg h.pkg.metRefusal).postRecord

theorem Canonical.uploadEnds (h : Canonical s) {id res} : Canonical (s.uploadEnds id res) := h.withPkg (.ite h.pkg.metRefusal h.pkg)

theorem Canonical.uploadStops (h : Canonical s) {v r} (k : Eng.Kept r) : Canonical (s.uploadStops v r) := by
  unfold State.uploadStops
  split
  · exact Canonical.update k
  · exact .ite (.ite h.update h.update.graphRecord) h.afterEngine.uploadEnds
  · exact Canonical.uploadEnds k
  · exact Canonical.uploadEnds k

theorem Canonical.uploadTakes (h : Canonical s) {id g} : Canonical (s.uploadTakes id g) := .ite h.uploadEnds h.update.uploadEnds

theorem Canonical.uploadStep (h : Canonical s) {v} : Canonical (s.uploadStep v) := by
  unfold State.uploadStep
  extract_lets
  split
  · next e =>
      extract_lets
      split
      · exact (h.engReads.of e).uploadTakes
      · split
        · exact (h.engReads.of e).uploadEnds
        · split
          · next e4 => exact .ite ((h.engReads.of e).engReads.of e4).uploadEnds (.ite ((h.engReads.of e).engReads.of e4).uploadEnds
              ((h.engReads.of e).engReads.of e4).uploadTakes)
          · exact (h.engReads.of e).uploadStops (h.engReads.of e).engReads
  · exact h.uploadStops h.engReads

theorem Canonical.tryGraphUpload (h : Canonical s) {v} (e : tryGraphUpload v s = some t) : Canonical t := by
  unfold Machine.tryGraphUpload at e
  split at e
  · cases e
  · split at e
    · exact h.uploadEnds.ofSome e
    · split at e
      · exact h.update.ofSome e
      · exact h.uploadStep.ofSome e

theorem Canonical.tryRunTrigger (h : Canonical s) {v} (e : tryRunTrigger v s = some t) : Canonical t := by
  unfold Machine.tryRunTrigger at e
  split at e
  · cases e
  · extract_lets at e
    split at e
    · exact h.update.ofSome e
    · split at e
      · exact h.update.ofSome e
      · extract_lets at e
        exact h.update.ofSome e

theorem Canonical.runLeaves (h : Canonical s) {id} : Canonical (s.runLeaves id) := h.update

theorem Canonical.runFault (h : Canonical s) {r y} : Canonical (s.runFault r y) := .ite h h.onRun.graphRecord

theorem Canonical.finishRun (h : Canonical s) {r} : Canonical (s.finishRun r) := by
  unfold State.finishRun
  extract_lets
  split
  · exact h.runLeaves
  · split
    · next e1 => exact (h.completionWrite.of e1).runLeaves
    · next e1 => exact h.completionWrite.of e1
    · next e1 => exact (h.completionWrite.of e1).runLeaves
    · exact .ite h.runFault h.afterEngine.runLeaves.graphRecord

theorem Canonical.finishIfOver (h : Canonical s) {id} : Canonical (s.finishIfOver id) := by
  unfold State.finishIfOver
  split
  · exact .ite h.finishRun h
  · exact h

theorem Canonical.predicate (h : Canonical s) {r n} : Predicate.Kept (s.predicate r n) := by
  unfold State.predicate
  split
  · exact h
  · split
    · next e1 => exact h.engRead.of e1
    · next e1 => exact h.engRead.of e1
    · next e1 =>
        split
        · next e2 => exact ((h.engRead.of e1).fresh e2).graphRecord
    · split
      · exact h.runFault
      · split
        · next e3 => exact (h.afterEngine.fresh e3).graphRecord

theorem Canonical.resolve (h : Canonical s) {r g k} : Canonical (s.resolve r g k) := by
  unfold State.resolve
  split
  · exact h
  · split
    · next e1 => exact h.predicate.of e1
    · next e1 => exact (h.predicate.of e1).onNode

theorem Canonical.resolveAll (h : Canonical s) {id g n} : Canonical (State.resolveAll id g n s) := by
  induction n generalizing s with
  | zero => exact h
  | succ n ih =>
    rw [State.resolveAll]
    split
    · exact h
    · split
      · exact h
      · exact ih (h.foldl fun _ _ ht => .ite ht ht.resolve)

theorem Canonical.runStep (h : Canonical s) {id} : Canonical (s.runStep id) := by
  unfold State.runStep
  split
  · exact h.resolveAll.finishIfOver
  · exact h.finishIfOver

theorem Canonical.rejectRun (h : Canonical s) {id y} : Canonical (s.rejectRun id y) := h.onRun.graphRecord.finishIfOver

theorem Canonical.patch (h : Canonical s) {g id l i} : Canonical (State.patch g id l i s) := by
  induction l generalizing s i with
  | nil => exact h.update.onRun.runStep
  | cons x rest ih =>
    rw [State.patch]
    split
    · next e => exact ih (Canonical.store (h.engSpot.of e))
    · next e => exact Canonical.onRun (h.engSpot.of e)
    · next e => exact Canonical.onRun (h.engSpot.of e)
    · split
      · split
        · exact h.onRun.runFault
        · exact h
      · exact h.afterEngine.rejectRun

theorem Canonical.startRun (h : Canonical s) {r g i} : Canonical (s.startRun r g i) := by
  unfold State.startRun
  extract_lets _ stop
  split
  · exact h.onRun.patch
  · split
    · next e1 =>
        extract_lets
        split
        · exact (h.onRun.engReads.of e1).rejectRun
        · split
          · next e3 => exact .ite ((h.onRun.engReads.of e1).engReads.of e3).patch ((h.onRun.engReads.of e1).engReads.of e3).rejectRun
          · unfold stop
            split
            · next e4 => exact (h.onRun.engReads.of e1).engReads.of e4
            · exact .ite h.onRun.runFault h.onRun.afterEngine.rejectRun
            · next e4 => exact ((h.onRun.engReads.of e1).engReads.of e4).rejectRun
            · next e4 => exact ((h.onRun.engReads.of e1).engReads.of e4).rejectRun
    · unfold stop
      split
      · next e2 => exact h.onRun.engReads.of e2
      · exact .ite h.onRun.runFault h.onRun.afterEngine.rejectRun
      · next e2 => exact (h.onRun.engReads.of e2).rejectRun
      · next e2 => exact (h.onRun.engReads.of e2).rejectRun

theorem Canonical.tryRunStart (h : Canonical s) (e : tryRunStart s = some t) : Canonical t := by
  unfold Machine.tryRunStart at e
  split at e
  · cases e
  · split at e
    · split at e
      · exact h.startRun.ofSome e
      · cases e
    · split at e
      · split at e
        · exact h.startRun.ofSome e
        · cases e
      · cases e

theorem Canonical.startNode (h : Canonical s) {m run node g} : Canonical (s.startNode m run node g) := h.putAgent.setAccounted.onNode

theorem Canonical.tryNodeStart (h : Canonical s) (e : tryNodeStart s = some t) : Canonical t := by
  unfold Machine.tryNodeStart at e
  split at e
  · cases e
  · split at e
    · split at e
      · exact h.startNode.ofSome e
      · cases e
    · cases e

theorem Canonical.tryNodeCompletion (h : Canonical s) {run node} (e : tryNodeCompletion run node s = some t) : Canonical t := by
  unfold Machine.tryNodeCompletion at e
  split at e
  · split at e
    · cases e
    · split at e
      · extract_lets at e
        exact h.onNode.runStep.ofSome e
      · split at e
        · split at e
          · exact h.runStep.ofSome e
          · cases e
        · cases e
  · cases e

theorem Canonical.tryRunCancel (h : Canonical s) {v} (e : tryRunCancel v s = some t) : Canonical t := by
  unfold Machine.tryRunCancel at e
  split at e
  · cases e
  · split at e
    · exact h.ofSome e
    · split at e
      · exact h.cancelRun.finishIfOver.ofSome e
      · exact h.onRun.finishIfOver.ofSome e

theorem Canonical.tryUploadResume (h : Canonical s) (e : tryUploadResume s = some t) : Canonical t := by
  unfold Machine.tryUploadResume at e
  split at e
  · split at e
    · exact h.uploadStep.ofSome e
    · cases e
  · cases e

theorem Canonical.writeJobPage (h : Canonical s) {off size v} (e : s.writeJobPage off size v = some t) : Canonical t := by
  unfold State.writeJobPage at e
  split at e
  · cases e
  · split at e
    · exact h.update.ofSome e
    · split at e
      · exact h.tryRunTrigger e
      · exact h.tryGraphUpload e
      · exact h.tryRunCancel e
      · exact h.ofSome e

theorem Canonical.tryLvlcmdCancel (h : Canonical s) (e : tryLvlcmdCancel s = some t) : Canonical t := by
  unfold Machine.tryLvlcmdCancel at e
  split at e
  · exact h.cancelLevel.ofSome e
  · cases e

end Sys2Proof.Machine
end

section
/-! PROOFS. The functions of the tile engines keep the canonical form. -/

namespace Sys2Proof.Machine

variable {s t : State} {p : Pkg}

theorem Canonical.setTask (h : Canonical s) {die y} : Canonical (s.setTask die y) := h.onTile.writeStatus

theorem Canonical.taskEnd (h : Canonical s) {die y st trap} : Canonical (s.taskEnd die y st trap) := h.setTask

theorem Canonical.taskReject (h : Canonical s) {die y c} : Canonical (s.taskReject die y c) := h.taskEnd

theorem Canonical.startOp (h : Canonical s) {die i y} : Canonical (s.startOp die i y) := h.onAcc.setTask

theorem Canonical.advanceAcc (h : Canonical s) {die i n} : Canonical (State.advanceAcc die i n s) := by
  induction n generalizing s with
  | zero => exact h
  | succ n ih =>
    rw [State.advanceAcc]
    split
    · exact h
    · split
      · exact h
      · split
        · exact h
        · dsimp only
          split
          · exact h.onAcc
          · exact .ite (ih h.onAcc.onAcc.taskEnd) h.onAcc.startOp

theorem Canonical.advance1 (h : Canonical s) {die i} : Canonical (s.advance1 die i) := h.advanceAcc

theorem Canonical.opEnd (h : Canonical s) {die i y st trap} : Canonical (s.opEnd die i y st trap) := h.taskEnd.onAcc.advance1

theorem Canonical.taskFault (h : Canonical s) {die i y c stop}
    (kstop : ∀ t b c d, Canonical t → Canonical (stop t b c d)) : Canonical (s.taskFault die i y c stop) :=
  .ite h.tick.setTask.requestRecord (kstop _ _ _ _ h.afterEngine)

theorem Canonical.cancelOne (h : Canonical s) {die y} : Canonical (s.cancelOne die y) := h.onAcc.taskEnd.advance1

theorem Canonical.cancelHeld (h : Canonical s) {die q} : Canonical (s.cancelHeld die q) := h.foldl (fun _ _ h1 => h1.cancelOne)

theorem Canonical.meetAcc (h : Canonical s) {die y} : Canonical (s.meetAcc die y) := by
  unfold State.meetAcc
  extract_lets
  split
  · exact h.cancelHeld.taskReject
  · exact .ite h.cancelHeld.onAcc.taskReject (.ite h.cancelHeld.onAcc.taskReject (.ite h.cancelHeld.onAcc.startOp (.ite
      h.cancelHeld.onAcc.onAcc.taskEnd.advance1 h.cancelHeld.onAcc.onAcc.setTask.advance1)))

theorem Canonical.dispatch (h : Canonical s) {die list t0} : Canonical (s.dispatch die list t0) :=
  .ite h.onTile.taskReject (.ite h.onTile.setTask h.onTile.meetAcc)

theorem Canonical.tryTaskDispatch (h : Canonical s) {die} (e : tryTaskDispatch die s = some t) : Canonical t := by
  unfold Machine.tryTaskDispatch at e
  split at e
  · split at e
    · exact h.dispatch.ofSome e
    · cases e
  · cases e

theorem Canonical.clearAcc (h : Canonical s) {die y} : Canonical (s.clearAcc die y) := .ite h.taskReject h.onTile.taskEnd

theorem Canonical.tryAclr (h : Canonical s) {die list} (e : tryAclr die list s = some t) : Canonical t := by
  unfold Machine.tryAclr at e
  split at e
  · extract_lets at e
    split at e
    · exact h.clearAcc.ofSome e
    · cases e
  · cases e

theorem Canonical.readColumns (h : Canonical s) {q y n j} : Eng.Kept (State.readColumns q y n j s) := by
  induction n generalizing s j with
  | zero => exact h
  | succ n ih =>
    rw [State.readColumns]
    split
    · trivial
    · next e => exact h.engBytes.of e
    · next e => exact h.engBytes.of e
    · next e =>
      have hu := h.engBytes.of e
      split
      · trivial
      · next e1 => exact (Canonical.engBytes hu).of e1
      · next e1 => exact (Canonical.engBytes hu).of e1
      · next e1 =>
        have kept := ih (j := j + 1) ((Canonical.engBytes hu).of e1)
        split
        · next e2 => exact (kept.of e2 :)
        · trivial
        · next e2 => exact (kept.of e2 :)
        · next e2 => exact (kept.of e2 :)

theorem Canonical.loadPanels (h : Canonical s) {die y l} : Eng.Kept (State.loadPanels die y l s) := by
  induction l generalizing s with
  | nil => exact h
  | cons x rest ih =>
    rw [State.loadPanels]
    split
    · exact ih h
    · split
      · trivial
      · next e => exact h.readColumns.of e
      · next e => exact h.readColumns.of e
      · next e => exact ih (Canonical.onTile (h.readColumns.of e))

theorem Canonical.beginMma (h : Canonical s) {die i a y} : Canonical (s.beginMma die i a y) := by
  unfold State.beginMma
  extract_lets
  split
  · exact h.taskFault (fun _ _ _ _ h1 => h1.opEnd)
  · next e => exact h.loadPanels.of e
  · next e => exact h.loadPanels.of e
  · next e => exact (h.loadPanels.of e).onAcc.onTile

theorem Canonical.tryMma (h : Canonical s) {die i} (e : tryMma die i s = some t) : Canonical t := by
  unfold Machine.tryMma at e
  split at e
  · split at e
    · exact h.tick.beginMma.ofSome e
    · cases e
  · cases e

theorem Canonical.applyRow (h : Canonical s) {die i a y i1 row} : Canonical (s.applyRow die i a y i1 row) := by
  unfold State.applyRow
  extract_lets
  split
  · split
    · exact h.tick.opEnd
    · split
      · exact .ite h.onAcc.opEnd h.onAcc

theorem Canonical.tryApplyBlock (h : Canonical s) {die i row} (e : tryApplyBlock die i row s = some t) : Canonical t := by
  unfold Machine.tryApplyBlock at e
  split at e
  · split at e
    · split at e
      · exact h.applyRow.ofSome e
      · cases e
    · cases e
  · cases e

theorem Canonical.tryExponentMessage (h : Canonical s) {die i row} (e : tryExponentMessage die i row s = some t) : Canonical t := by
  unfold Machine.tryExponentMessage at e
  split at e
  · split at e
    · split at e
      · exact h.tick.onAcc.ofSome e
      · cases e
    · cases e
  · cases e

theorem Canonical.engPut (h : Canonical s) {q w va bytes} : Eng.Kept (s.engPut q w va bytes) := by
  unfold State.engPut
  split
  · trivial
  · next e => exact h.engSpots.of e
  · next e => exact h.engSpots.of e
  · next e => exact (h.engSpots.of e).putBytes

theorem Canonical.rowOut (h : Canonical s) {die i y va bytes ovf last} : Canonical (s.rowOut die i y va bytes ovf last) := by
  unfold State.rowOut
  split
  · exact h.taskFault (fun _ _ _ _ h1 => h1.opEnd)
  · next e => exact h.engPut.of e
  · next e => exact h.engPut.of e
  · next e => exact .ite (h.engPut.of e).onAcc.opEnd (h.engPut.of e).onAcc.onTile

theorem Canonical.tryRdout (h : Canonical s) {die i} (e : tryRdout die i s = some t) : Canonical t := by
  unfold Machine.tryRdout at e
  split at e
  · split at e
    · split at e
      · exact h.rowOut.ofSome e
    · cases e
  · cases e

theorem Canonical.tryAsave (h : Canonical s) {die i} (e : tryAsave die i s = some t) : Canonical t := by
  unfold Machine.tryAsave at e
  split at e
  · split at e
    · extract_lets at e
      exact (Canonical.ite h.rowOut h.rowOut).ofSome e
    · cases e
  · cases e

theorem Canonical.imageRead (h : Canonical s) {die y off n go} (kgo : ∀ t l u, Canonical t → go t l = some u → Canonical u)
    (e : s.imageRead die y off n go = some t) : Canonical t := by
  unfold State.imageRead at e
  split at e
  · exact (h.taskFault (fun _ _ _ _ ht => ht.taskEnd)).ofSome e
  · next e1 => exact (h.engBytes.of e1).ofSome e
  · next e1 => exact (Canonical.taskEnd (h.engBytes.of e1)).ofSome e
  · next e1 =>
    have hu := h.engBytes.of e1
    split at e
    · exact (Canonical.taskEnd hu).ofSome e
    · exact kgo _ _ _ hu e

theorem Canonical.keepTask (h : Canonical s) {die y} : Canonical (s.keepTask die y) := h.onTile

theorem Canonical.loadAcc (h : Canonical s) {die y} (e : s.loadAcc die y = some t) : Canonical t := by
  unfold State.loadAcc at e
  extract_lets at e
  split at e
  · exact h.taskReject.ofSome e
  · split at e
    · refine h.imageRead (fun u ws v hu e => ?_) e
      dsimp only at e
      split at e
      · exact hu.taskReject.ofSome e
      · exact hu.keepTask.ofSome e
    · split at e
      · cases e
      · refine h.imageRead (fun u ws v hu e => ?_) e
        split at e
        · exact hu.taskReject.ofSome e
        · dsimp only at e
          split at e
          · exact hu.keepTask.ofSome e
          · exact hu.onTile.taskEnd.ofSome e

theorem Canonical.tryAload (h : Canonical s) {die list} (e : tryAload die list s = some t) : Canonical t := by
  unfold Machine.tryAload at e
  split at e
  · split at e
    · split at e
      · next e3 => exact (h.loadAcc e3).ofSome e
      · cases e
    · cases e
  · cases e

theorem Canonical.freeAcc (h : Canonical s) {die i a y} : Canonical (s.freeAcc die i a y) := by
  unfold State.freeAcc
  extract_lets _ _ v
  have hv : Canonical v := by
    unfold v
    refine Canonical.foldl ?_ ?_
    · exact h.cancelHeld.onTile
    · intro t x h1
      split
      · exact .ite h1.taskReject h1
      · exact h1
  exact hv.taskEnd

theorem Canonical.tryAfree (h : Canonical s) {die i} (e : tryAfree die i s = some t) : Canonical t := by
  unfold Machine.tryAfree at e
  split at e
  · exact h.freeAcc.ofSome e
  · cases e

theorem Canonical.tryGroupWatchdog (h : Canonical s) {die i} (e : tryGroupWatchdog die i s = some t) : Canonical t := by
  unfold Machine.tryGroupWatchdog at e
  split at e
  · split at e
    · exact h.onAcc.opEnd.ofSome e
    · cases e
  · cases e

theorem Canonical.tryTaskResume (h : Canonical s) {die i} (e : tryTaskResume die i s = some t) : Canonical t := by
  unfold Machine.tryTaskResume at e
  split at e
  · split at e
    · exact h.tick.setTask.ofSome e
    · cases e
  · cases e

theorem Canonical.completeTasks (h : Canonical s) {die list} : Canonical (s.completeTasks die list) :=
  ((Canonical.ite h.cancelHeld.onTile h.cancelHeld.onTile.onTile.writeTimeline).foldl (fun _ _ h1 => h1.requestCause)).foldl (fun _ _ h1 =>
    h1.requestGone)

theorem Canonical.tryTaskCompletion (h : Canonical s) {die list} (e : tryTaskCompletion die list s = some t) : Canonical t := by
  unfold Machine.tryTaskCompletion at e
  extract_lets at e
  split at e
  · exact h.completeTasks.ofSome e
  · cases e

end Sys2Proof.Machine
end

section
/-! PROOFS. The functions of the privileged instructions keep the canonical form. -/

namespace Sys2Proof.Machine

variable {s t : State} {p : Pkg}

theorem Canonical.privileged (h : Canonical s) {x} (hx : Canonical x) : Out.Kept (s.privileged x) := .ite h.raiseCause hx

theorem Canonical.within (h : Canonical s) {a f} (kf : ∀ t, Canonical t → Canonical (f t)) : Canonical (s.within a f) :=
  .ite (kf _ h.focus) (kf _ h.focus).focus

theorem Canonical.quiet (h : Canonical s) (e : s.quiet = some t) : Canonical t := by
  unfold State.quiet at e
  extract_lets at e
  split at e
  · exact h.settleAll.ofSome e
  · cases e

theorem Canonical.giveUp (h : Canonical s) : Canonical s.giveUp := by
  unfold State.giveUp
  extract_lets _ t
  have ht : Canonical t := by
    unfold t
    split
    · exact h.update
    · exact h.update
    · exact h
  exact ht.releaseWaits.setWait

theorem Canonical.idleTurn (h : Canonical s) : Canonical s.idleTurn := .ite h.setWait h.setWait.advance

theorem Canonical.takeImage (h : Canonical s) {va} : Canonical (s.takeImage va) := by
  unfold State.takeImage
  split
  · exact h
  · next e => exact (h.hwCell e).update

theorem Canonical.resumeEntry (h : Canonical s) {va st} : Canonical (s.resumeEntry va st) :=
  .ite (h.setNotice.within (fun _ h1 => h1.restore)) (Canonical.ite h.setNotice.takeImage h.setNotice).pushReady

theorem Canonical.endMaster (h : Canonical s) {va info} : Canonical (s.endMaster va info) :=
  (Canonical.ite (.ite h h.cancelNode) ((Canonical.ite h h.cancelNode).within (fun _ h1 => h1.endAgent))).discardFibre

theorem Canonical.endEntry (h : Canonical s) {va} : Canonical (s.endEntry va) := by
  unfold State.endEntry
  split
  · exact h
  · exact .ite h.setNotice.endMaster h.setNotice.discardFibre

theorem Canonical.containEntry (h : Canonical s) {va y} : Canonical (s.containEntry va y) := by
  unfold State.containEntry
  split
  · exact h
  · split
    · exact .ite h.setNotice.containNode h.setNotice.containNode.endMaster
    · split
      · extract_lets
        split
        · exact h.endEntry.containUnitOf (fun _ h1 => h1)
        · exact h.endEntry.containUnitOf (fun _ h1 => h1.discardFibre)
      · exact (h.setNotice.containUnitOf (fun _ h1 => h1.discardFibre)).discardFibre

theorem Canonical.resumeRequest (h : Canonical s) {kind handle number} : Canonical (s.resumeRequest kind handle number) := by
  unfold State.resumeRequest
  extract_lets
  split
  · exact h.onCopy
  · exact h.onTile
  · exact h.onMs
  · exact h.onInstance

theorem Canonical.endSuspended (h : Canonical s) {kind handle number cause} : Canonical (s.endSuspended kind handle number cause) := by
  unfold State.endSuspended
  split
  · extract_lets
    split
    · exact .ite h (.ite h.onCopy.copyLeaves h.onCopy.copyEnd)
    · exact h
  · extract_lets
    split
    · exact .ite h (.ite h.taskEnd h.opEnd)
    · exact h
  · extract_lets
    split
    · exact .ite h (.ite h.onMsRequest.onMsRequest h.onMsRequest.msEnd)
    · exact h
  · split
    · exact .ite h (.ite h.colEnd h.onInstance)
    · exact h

theorem Canonical.dispose (h : Canonical s) {r} : Canonical (s.dispose r) := by
  unfold State.dispose
  extract_lets _ _ disp _ _ _ level _ u w
  have hu : Canonical u := h.update
  have hw : Canonical w := hu.endSuspended
  clear_value disp level
  refine .ite ?entry (.ite ?request h)
  case entry =>
    split
    · exact h
    · refine .ite h ?_
      split
      · exact h.resumeEntry
      · exact h.endEntry
      · exact h.containEntry
      · exact h
  case request =>
    split
    · exact hu.resumeRequest
    · exact hu.endSuspended
    · split
      · exact hw.containAt
      · exact hw
    · exact hu

theorem Canonical.serviceRecord (h : Canonical s) : Canonical s.serviceRecord := by
  unfold State.serviceRecord
  split
  · exact h.advance
  · extract_lets
    split
    · exact h.raise
    · next e1 => exact .ite (h.hwCell e1).raise (.ite (h.hwCell e1).advance.dispose (h.hwCell e1).advance.dispose.update)

theorem Canonical.settleEvery (h : Canonical s) : Canonical s.settleEvery := h.foldl (fun _ _ h1 => h1.within (fun _ h2 => h2.settleAll))

theorem Canonical.invalidate (h : Canonical s) {a b} : Canonical (s.invalidate a b) := by
  unfold State.invalidate
  split
  · exact h.raiseCause
  · extract_lets _ done _ _ u
    have hdone (t1 : State) (ht1 : Canonical t1) : Canonical (done t1) := ht1.update
    have hu : Canonical u := h.settleEvery.update
    split
    · exact .ite h.settleEvery.setWait (hdone _ h.settleEvery).advance
    · exact .ite hu.setWait (hdone _ hu).advance

theorem Canonical.dropDrain (h : Canonical s) : Canonical s.dropDrain := .ite h h.update

theorem Canonical.spillSlot (h : Canonical s) {va slot} : Canonical (s.spillSlot va slot) := by
  unfold State.spillSlot
  split
  · exact h.raiseCause
  · split
    · exact h.raiseCause
    · split
      · exact h.raiseCause
      · split
        · exact h.raise
        · next e3 =>
            split
            · exact (h.hwRead e3).raiseCause
            · split
              · exact (h.hwRead e3).advance
              · split
                · exact (h.hwRead e3).raise
                · next e6 =>
                    split
                    · exact ((h.hwRead e3).hwCell e6).setWait
                    · next e7 => exact (((h.hwRead e3).hwCell e6).focus.quiet e7).saveAt.noteSaved.vacate.focus.advance

theorem Canonical.loadEntry (h : Canonical s) {va st b} : Canonical (s.loadEntry va st b) := by
  unfold State.loadEntry
  extract_lets
  split
  · exact h.raiseCause
  · split
    · split
      · exact .ite (h.within (fun _ h1 => h1.restore)).advance h.raiseCause
      · exact h.raiseCause
    · exact .ite h.raiseCause (.ite h.raiseCause (h.within (fun _ h1 => h1.restore)).advance)

theorem Canonical.loadSlot (h : Canonical s) {va b} : Canonical (s.loadSlot va b) := by
  unfold State.loadSlot
  split
  · exact h.raiseCause
  · exact h.loadEntry
  · exact .ite h.raiseCause (.ite h.raiseCause h.resumeEntry.advance)
  · exact .ite h.raiseCause h.endEntry.advance
  · exact h.raiseCause

theorem Canonical.stopSlot (h : Canonical s) {slot} : Canonical (s.stopSlot slot) := by
  unfold State.stopSlot
  split
  · exact h.raiseCause
  · split
    · exact h.setWait
    · next e1 => exact (Canonical.ite (h.focus.quiet e1).giveUp (h.focus.quiet e1)).account.update.showStops.trace.focus.advance

theorem Canonical.goSlot (h : Canonical s) {slot} : Canonical (s.goSlot slot) :=
  .ite h.raiseCause (h.within (fun _ h1 => .ite h1.account.update.showStops.trace h1.account)).advance

end Sys2Proof.Machine
end

section
/-! PROOFS. The functions of the steps of turns, waits and traps keep the canonical form. -/

namespace Sys2Proof.Machine

variable {s t : State} {p : Pkg}

theorem Canonical.loseTurn (h : Canonical s) {cls} : Canonical (s.loseTurn cls) := (Canonical.ite h h.countTurns).setAccounted

theorem Canonical.endTurn (h : Canonical s) : Canonical s.endTurn := .ite h.account.endAgent h.account.endAgent.loseTurn.draw

theorem Canonical.tryRotationTurn (h : Canonical s) {die core} (e : tryRotationTurn die core s = some t) : Canonical t := by
  unfold Machine.tryRotationTurn at e
  extract_lets at e
  split at e
  · cases e
  · split at e
    · split at e
      · cases e
      · exact h.focus.account.focus.ofSome e
    · split at e
      · exact h.focus.endTurn.ofSome e
      · split at e
        · exact h.focus.update.ofSome e
        · exact h.focus.account.ofSome e

theorem Canonical.trySlotDraw (h : Canonical s) {a} (e : trySlotDraw a s = some t) : Canonical t := by
  unfold Machine.trySlotDraw at e
  extract_lets at e
  split at e
  · exact h.focus.account.draw.ofSome e
  · cases e

theorem Canonical.trySpawnBroadcast (h : Canonical s) {die m} (e : trySpawnBroadcast die m s = some t) : Canonical t := by
  unfold Machine.trySpawnBroadcast at e
  split at e
  · split at e
    · cases e
    · extract_lets at e
      exact h.update.wakeDie.onDie.ofSome e
  · cases e

theorem Canonical.tryChunkRequest (h : Canonical s) {die m} (e : tryChunkRequest die m s = some t) : Canonical t := by
  unfold Machine.tryChunkRequest at e
  split at e
  · cases e
  · split at e
    · cases e
    · split at e
      · cases e
      · extract_lets at e
        exact h.onSpawn.onDie.ofSome e

theorem Canonical.tryPsWindow (h : Canonical s) {spawn} (e : tryPsWindow spawn s = some t) : Canonical t := by
  unfold Machine.tryPsWindow at e
  split at e
  · exact h.psWindows.ofSome e
  · cases e

theorem Canonical.tryPsResult (h : Canonical s) {a} (e : tryPsResult a s = some t) : Canonical t := by
  unfold Machine.tryPsResult at e
  extract_lets at e
  split at e
  · split at e
    · cases e
    · extract_lets u at e
      have hu : Canonical u := h.focus.account.psWindows
      exact hu.update.setG.setTransaction.setWait.ofSome e
  · cases e

theorem Canonical.putPs (h : Canonical s) {r} : Canonical (s.putPs r) := h.update

theorem Canonical.delayPs (h : Canonical s) {a k} (e : s.delayPs a k = some t) : Canonical t := by
  unfold State.delayPs at e
  obtain ⟨y, -, e⟩ := Option.map_eq_some_iff.mp e
  split at e
  · subst e
    exact h.putPs
  · subst e
    exact h.putPs

theorem Canonical.losePs (h : Canonical s) {a} (e : s.losePs a = some t) : Canonical t := by
  unfold State.losePs at e
  obtain ⟨y, -, e⟩ := Option.map_eq_some_iff.mp e
  subst e
  exact h.putPs

theorem Canonical.resendPs (h : Canonical s) {a} : Canonical (s.resendPs a) := by
  unfold State.resendPs
  split
  · exact h
  · exact h.putPs

theorem Canonical.tryBasinRefill (h : Canonical s) {die} (e : tryBasinRefill die s = some t) : Canonical t := by
  unfold Machine.tryBasinRefill at e
  split at e
  · split at e
    · exact h.onDie.ofSome e
    · cases e
  · cases e

theorem Canonical.wakes (h : Canonical s) {a kind f} (kf : ∀ t, Canonical t → Canonical (f t))
    (e : s.wakes a kind f = some t) : Canonical t := by
  unfold State.wakes at e
  extract_lets _ u at e
  have hu : Canonical u := kf _ h.focus.account
  split at e
  · split at e
    · cases e
    · exact hu.ofSome e
  · cases e

theorem Canonical.tryJoinRetire (h : Canonical s) {a} (e : tryJoinRetire a s = some t) : Canonical t := h.wakes (fun _ h1 => h1.joinTurn) e

theorem Canonical.tryNextDrainComplete (h : Canonical s) {a} (e : tryNextDrainComplete a s = some t) : Canonical t := by
  unfold Machine.tryNextDrainComplete at e
  refine h.wakes (fun u hu => ?_) e
  split
  · exact hu.nextTurn
  · exact hu

theorem Canonical.tryLongLatencyResult (h : Canonical s) {a} (e : tryLongLatencyResult a s = some t) : Canonical t := by
  unfold Machine.tryLongLatencyResult at e
  refine h.wakes (fun u hu => ?_) e
  split
  · split
    · exact hu
    · split
      · exact hu.setG.orFlags.setWait
      · exact hu.setV.orFlags.setWait
  · exact hu

theorem Canonical.noteDedup (h : Canonical s) {op} : Canonical (s.noteDedup op) := .ite h.updatePkg h

theorem Canonical.atHome (h : Canonical s) {op va loc len since} (e : s.atHome op va loc len since = some t) : Canonical t := by
  unfold State.atHome at e
  split at e
  · next e1 =>
      split at e
      · exact (h.effect.of e1).setWait.advance.ofSome e
      · exact (h.effect.of e1).setWait.advance.ofSome e
      · extract_lets _ u1 at e
        have hu1 : Canonical u1 := .ite (h.effect.of e1).noteDedup.setTransaction (h.effect.of e1)
        exact hu1.setWait.advance.ofSome e
  · extract_lets u at e
    have hu : Canonical u := h.setTransaction.setWait
    exact (Canonical.ite hu hu.raise).ofSome e
  · next e1 =>
      extract_lets v at e
      have hv : Canonical v := (h.effect.of e1).setTransaction.setWait
      exact (Canonical.ite hv hv.raise).ofSome e
  · next e1 =>
      split at e
      · exact (h.effect.of e1).ofSome e
      · cases e
  · next e1 =>
      split at e
      · cases e
      · exact (h.effect.of e1).setWait.ofSome e
  · next e1 => exact (h.effect.of e1).setTransaction.ofSome e
  · next e1 => exact (h.effect.of e1).setTransaction.setWait.ofSome e

theorem Canonical.performRequest (h : Canonical s) {a} (e : s.performRequest a = some t) : Canonical t := by
  unfold State.performRequest at e
  extract_lets at e
  split at e
  · exact h.focus.account.atHome e
  · cases e

theorem Canonical.tryMemoryRequestAtHome (h : Canonical s) {a} (e : tryMemoryRequestAtHome a s = some t) : Canonical t := by
  unfold Machine.tryMemoryRequestAtHome at e
  extract_lets u made at e
  have hu : Canonical u := h.focus
  have kept (v : State) (e : made = some v) : Canonical v := by
    unfold made at e
    split at e
    · split at e
      · exact hu.performRequest e
      · split at e
        · cases e
        · split at e
          · cases e
          · obtain ⟨y, ey, rfl⟩ := Option.map_eq_some_iff.mp e
            exact (hu.performRequest ey).foldl fun _ _ hw => hw.getD fun _ e => hw.performRequest e
    · exact hu.performRequest e
  cases hm : made with
  | none =>
    rw [hm] at e
    cases e
  | some v =>
    rw [hm] at e
    dsimp only at e
    split at e
    · exact (kept _ hm).ofSome e
    · cases e

theorem Canonical.replyLands (h : Canonical s) (e : s.replyLands = some t) : Canonical t := by
  unfold State.replyLands at e
  extract_lets _ src at e
  have hsrc : Canonical src := h.setTransaction.releaseWaits
  split at e
  · exact h.setTransaction.setG.setWait.ofSome e
  · split at e
    · split at e
      · exact hsrc.update.setG.advance.ofSome e
      · exact hsrc.update.raise.ofSome e
    · cases e
  · split at e
    · split at e
      · exact hsrc.update.advance.ofSome e
      · exact hsrc.update.raise.ofSome e
    · cases e
  · cases e

theorem Canonical.tryLoadReply (h : Canonical s) {a} (e : tryLoadReply a s = some t) : Canonical t := by
  unfold Machine.tryLoadReply at e
  extract_lets at e
  split at e
  · split at e
    · next e2 => exact (h.focus.account.replyLands e2).ofSome e
    · cases e
  · cases e

theorem Canonical.askFor (h : Canonical s) {x} (e : s.askFor x = some t) : Canonical t := by
  unfold State.askFor at e
  extract_lets at e
  split at e
  · exact (h.withPkg h.pkg.askHost).ofSome e
  · cases e

theorem Canonical.performLoose (h : Canonical s) {a i} (e : s.performLoose a i = some t) : Canonical t := by
  unfold State.performLoose at e
  extract_lets at e
  split at e
  · cases e
  · split at e
    · cases e
    · split at e
      · next e3 => exact (h.doStreaming e3).update.reap.ofSome e
      · exact h.askFor e

theorem Canonical.tryStreamingAccessPerform (h : Canonical s) {a i} (e : tryStreamingAccessPerform a i s = some t) : Canonical t := by
  unfold Machine.tryStreamingAccessPerform at e
  extract_lets u made at e
  have hu : Canonical u := h.focus
  have kept (v : State) (e : made = some v) : Canonical v := by
    unfold made at e
    split at e
    · exact hu.performLoose e
    · split at e
      · next e1 => exact (hu.performStreaming e1).ofSome e
      · obtain ⟨y, -, e1⟩ := Option.bind_eq_some_iff.mp e
        exact hu.askFor e1
  cases hm : made with
  | none =>
    rw [hm] at e
    cases e
  | some v =>
    rw [hm] at e
    dsimp only at e
    split at e
    · exact (kept _ hm).ofSome e
    · cases e

theorem Canonical.retryOne (h : Canonical s) {q} : Canonical (s.retryOne q) := by
  unfold State.retryOne
  split
  · next e => exact (h.retry e).update.bitChanged

theorem Canonical.tryIdleWake (h : Canonical s) {a} (e : tryIdleWake a s = some t) : Canonical t := by
  unfold Machine.tryIdleWake at e
  split at e
  · split at e
    · exact h.retryOne.ofSome e
    · cases e
  · cases e

theorem Canonical.tryMwaitPoll (h : Canonical s) {a} (e : tryMwaitPoll a s = some t) : Canonical t := by
  unfold Machine.tryMwaitPoll at e
  split at e
  · split at e
    · extract_lets t1 at e
      have ht1 : Canonical t1 := by
        unfold t1
        split
        · exact h.fillView
        · exact h
      exact ht1.update.ofSome e
    · cases e
  · cases e

theorem Canonical.tryWatchLimit (h : Canonical s) {a} (e : tryWatchLimit a s = some t) : Canonical t := by
  unfold Machine.tryWatchLimit at e
  extract_lets _ u at e
  have hu : Canonical u := h.focus.account.releaseWaits
  split at e
  · split at e
    · exact hu.update.raise.ofSome e
    · cases e
  · cases e

theorem Canonical.trySleepWake (h : Canonical s) {a} (e : trySleepWake a s = some t) : Canonical t := by
  unfold Machine.trySleepWake at e
  refine h.wakes (fun u hu => ?_) e
  split
  · exact .ite hu.setWait.advance hu
  · exact hu

theorem Canonical.tryWaitcComplete (h : Canonical s) {a} (e : tryWaitcComplete a s = some t) : Canonical t := by
  unfold Machine.tryWaitcComplete at e
  refine h.wakes (fun u hu => ?_) e
  split
  · exact hu.waitcTurn
  · exact hu

theorem Canonical.tryFenceComplete (h : Canonical s) {a} (e : tryFenceComplete a s = some t) : Canonical t := by
  unfold Machine.tryFenceComplete at e
  refine h.wakes (fun u hu => ?_) e
  split
  · exact hu.drained (fun _ h1 => h1.exitNode)
  · exact hu.fbsaveTurn
  · exact hu.fenceTurn

theorem Canonical.roomMade (h : Canonical s) {a} (e : s.roomMade a = some t) : Canonical t := by
  unfold State.roomMade at e
  extract_lets at e
  split at e
  · next e2 => exact (h.focus.account.madeRoom e2).ofSome e
  · cases e

theorem Canonical.tryCpwaitPromiseReached (h : Canonical s) {a} (e : tryCpwaitPromiseReached a s = some t) : Canonical t := by
  unfold Machine.tryCpwaitPromiseReached at e
  refine h.wakes (fun u hu => ?_) e
  split
  · exact .ite hu.account.setWait.perform hu
  · exact hu

theorem Canonical.tryTrapRecordPost (h : Canonical s) (e : tryTrapRecordPost s = some t) : Canonical t := by
  unfold Machine.tryTrapRecordPost at e
  split at e
  · cases e
  · split at e
    · split at e
      · exact h.postOldest.ofSome e
      · cases e
    · split at e
      · cases e
      · exact h.postOldest.ofSome e

theorem Canonical.tryDeferredSupervisorSave (h : Canonical s) {a} (e : tryDeferredSupervisorSave a s = some t) : Canonical t := by
  unfold Machine.tryDeferredSupervisorSave at e
  extract_lets at e
  split at e
  · extract_lets u at e
    have hu : Canonical u := .ite h.focus.account.deliverSupervisor h.focus.account.raise
    split at e
    · exact hu.ofSome e
    · cases e
  · cases e

end Sys2Proof.Machine
end

section
/-! PROOFS. The functions of the steps of translation, jobs and restoration keep the canonical form. -/

namespace Sys2Proof.Machine

variable {s t : State} {p : Pkg}

theorem Canonical.tryPageWalk (h : Canonical s) {va k} (e : tryPageWalk va k s = some t) : Canonical t := by
  unfold Machine.tryPageWalk at e
  split at e
  · cases e
  · split at e
    · next e1 => exact (h.walk e1).walked.ofSome e
    · exact h.ofSome e

theorem Canonical.overJobs (h : Canonical s) {f} (kf : ∀ t, Canonical t → Canonical (f t)) : Canonical (State.overJobs f s) :=
  .ite ((kf _ h).foldl (fun _ _ h1 => kf _ h1.focusJob)).focusJob ((kf _ h).foldl (fun _ _ h1 => kf _ h1.focusJob)).focusJob.focus

theorem Canonical.overAgents (h : Canonical s) {f} (kf : ∀ t, Canonical t → Canonical (f t)) : Canonical (State.overAgents f s) :=
  h.foldl (fun _ _ h1 => .ite h1 (kf _ h1.focus))

theorem Canonical.refuseHere (h : Canonical s) {q} : Canonical (State.refuseHere q s) := by
  unfold State.refuseHere
  extract_lets _ _ _ refused
  have hrefused (x : Word) (x1 : Loc) (x2 : Bool) : Canonical (refused x x1 x2) := .ite (.ite h.update.setWait h.update.account.raise)
      h.update
  split
  · exact hrefused _ _ _
  · exact hrefused _ _ _
  · exact h.update

theorem Canonical.refuseAll (h : Canonical s) {q} : Canonical (State.refuseAll q s) :=
  h.overJobs (fun _ h1 => (h1.overAgents (fun _ h2 => h2.refuseHere)).update.reap)

theorem Canonical.refusePage (h : Canonical s) {r} : Canonical (s.refusePage r) := .ite h.refuseAll.updatePkg h.refuseAll

theorem Pkg.Ordered.endPri (h : p.Ordered) {r} : Pkg.Ordered (p.endPri r) := h.update.update

theorem Canonical.tryAtsTranslationResponse (h : Canonical s) {port pasid page a}
    (e : tryAtsTranslationResponse port pasid page a s = some t) : Canonical t := by
  unfold Machine.tryAtsTranslationResponse at e
  split at e
  · cases e
  · extract_lets at e
    split at e
    · exact (h.withPkg h.pkg.update).refusePage.ofSome e
    · extract_lets at e
      split at e
      · split at e
        · exact (h.withPkg (.ite h.pkg.update.update h.pkg.update)).ofSome e
        · split at e
          · exact (h.withPkg (.ite h.pkg.update.update h.pkg.update)).refusePage.ofSome e
          · exact (h.withPkg (Pkg.Ordered.ite h.pkg.update.update h.pkg.update).update).ofSome e
      · split at e
        · exact (h.withPkg (.ite h.pkg.update.update h.pkg.update)).ofSome e
        · split at e
          · exact (h.withPkg (.ite h.pkg.update.update h.pkg.update)).refusePage.ofSome e
          · exact (h.withPkg (Pkg.Ordered.ite h.pkg.update.update h.pkg.update).update).ofSome e

theorem Canonical.tryPriResponse (h : Canonical s) {port pasid page a} (e : tryPriResponse port pasid page a s = some t) : Canonical t := by
  unfold Machine.tryPriResponse at e
  split at e
  · cases e
  · extract_lets at e
    split at e
    · cases e
    · split at e
      · exact (h.withPkg h.pkg.endPri.update).ofSome e
      · exact (h.withPkg h.pkg.endPri).refusePage.ofSome e
      · exact (h.withPkg h.pkg.endPri).refusePage.ofSome e

theorem Canonical.tryPriTimeout (h : Canonical s) {port pasid page} (e : tryPriTimeout port pasid page s = some t) : Canonical t := by
  unfold Machine.tryPriTimeout at e
  split at e
  · cases e
  · split at e
    · exact (h.withPkg h.pkg.endPri).refusePage.ofSome e
    · cases e

theorem Canonical.tryAtsInvalidation (h : Canonical s) {port pasid page pages}
    (e : tryAtsInvalidation port pasid page pages s = some t) : Canonical t := by
  unfold Machine.tryAtsInvalidation at e
  split at e
  · cases e
  · extract_lets at e
    exact (h.withPkg h.pkg.update).ofSome e

theorem Canonical.tryInvalidationCompletion (h : Canonical s) {port} (e : tryInvalidationCompletion port s = some t) : Canonical t := by
  unfold Machine.tryInvalidationCompletion at e
  split at e
  · split at e
    · cases e
    · exact h.updatePkg.ofSome e
  · cases e

theorem Canonical.tryHostReadCompletion (h : Canonical s) {a bad} (e : tryHostReadCompletion a bad s = some t) : Canonical t := by
  unfold Machine.tryHostReadCompletion at e
  extract_lets _ _ v at e
  have hv : Canonical v := h.focus.account.setTransaction.setWait
  split at e
  · split at e
    · cases e
    · split at e
      · exact (Canonical.ite hv hv.raise).ofSome e
      · split at e
        · next e4 => exact (h.focus.account.atHome e4).ofSome e
        · cases e
  · cases e

theorem Canonical.tryFormatWindowArm (h : Canonical s) {stack w} (e : tryFormatWindowArm stack w s = some t) : Canonical t := by
  unfold Machine.tryFormatWindowArm at e
  split at e
  · exact h.writeFwctl.ofSome e
  · cases e

theorem Canonical.tryFormatWindowDisarm (h : Canonical s) {stack w} (e : tryFormatWindowDisarm stack w s = some t) : Canonical t := by
  unfold Machine.tryFormatWindowDisarm at e
  split at e
  · exact h.writeFwctl.ofSome e
  · cases e

theorem Canonical.tryDirtyLogEpochFlip (h : Canonical s) {epoch} (e : tryDirtyLogEpochFlip epoch s = some t) : Canonical t := by
  unfold Machine.tryDirtyLogEpochFlip at e
  split at e
  · cases e
  · extract_lets at e
    exact h.settleEvery.update.ofSome e

theorem Canonical.allQuiet (h : Canonical s) (e : s.allQuiet = some t) : Canonical t :=
  h.foldlBind (fun _ _ _ ht => ht.focus.quiet) e

theorem Pkg.Ordered.dropLines (h : p.Ordered) {dies} : Pkg.Ordered (p.dropLines dies) := h.update

theorem Canonical.saveImage (h : Canonical s) : Canonical s.saveImage := .ite h.giveUp.update.vacate h

theorem Canonical.loadImage (h : Canonical s) {x} : Canonical (s.loadImage x) :=
  (Canonical.ite h.focus.update h.focus.update.putWords.markWords).showStops

theorem Canonical.tryJobSuspend (h : Canonical s) (e : tryJobSuspend s = some t) : Canonical t := by
  unfold Machine.tryJobSuspend at e
  split at e
  · exact h.tickAll.update.ofSome e
  · split at e
    · cases e
    · split at e
      · cases e
      · next e3 =>
          extract_lets u1 at e
          have hu1 : Canonical u1 := ((h.allQuiet e3).accountAll.overAgents (fun _ h1 => h1.saveImage)).focus.tickAll
          exact (hu1.withPkg hu1.pkg.dropLines).ofSome e
  · cases e
  · cases e

theorem Canonical.tryJobSaveAbandon (h : Canonical s) (e : tryJobSaveAbandon s = some t) : Canonical t := by
  unfold Machine.tryJobSaveAbandon at e
  split at e
  · exact h.tickAll.update.ofSome e
  · cases e

theorem Canonical.copyDie (h : Canonical s) {q r} : Canonical (s.copyDie q r) :=
  ⟨Memory.wf_foldl_write (Memory.wf_filter _ h.mem), rising_foldl_insertNat (rising_filter _ h.fe),
    rising_foldl_insertNat (rising_filter _ h.poison), h.pkg⟩

theorem Canonical.moveDword (h : Canonical s) {q q1 a} : Canonical (s.moveDword q q1 a) :=
  .ite h (h.withMem (Memory.wf_writeNat _ _ _ h.mem))

theorem Canonical.moveEntry (h : Canonical s) {q q1 a} : Canonical (s.moveEntry q q1 a) := .ite h.moveDword h

theorem Canonical.moveTable (h : Canonical s) {q q1} : Canonical (s.moveTable q q1) :=
  .ite h (h.foldl (fun _ _ h1 => .ite (h1.moveDword.foldl (fun _ _ h2 => h2.moveEntry)) h1.moveDword))

theorem Canonical.moveWindows (h : Canonical s) {q r} : Canonical (s.moveWindows q r) :=
  ⟨h.mem, h.fe, h.poison, keyed_foldl_assign (keyed_map_values (keyed_filter _ h.dev))⟩

theorem Canonical.tryVirtualDieRemap (h : Canonical s) {v q} (e : tryVirtualDieRemap v q s = some t) : Canonical t := by
  unfold Machine.tryVirtualDieRemap at e
  extract_lets _ t1 _ _ _ u at e
  have ht1 : Canonical t1 := h.copyDie.moveWindows
  have hu : Canonical u := ht1.withPkg ht1.pkg.dropLines
  split at e
  · cases e
  · exact hu.moveTable.ofSome e

theorem Canonical.rewritePromises (h : Canonical s) {key} : Canonical (s.rewritePromises key) :=
  h.onConduit.foldl (fun _ _ h1 => h1.writePromise)

theorem Canonical.tryJobRestore (h : Canonical s) (e : tryJobRestore s = some t) : Canonical t := by
  unfold Machine.tryJobRestore at e
  split at e
  · split at e
    · extract_lets r _ _ t1 u at e
      have hr : Canonical r := (h.tickAll.foldl (fun _ _ h1 => h1.loadImage)).focus
      have ht1 : Canonical t1 := hr.withPkg hr.pkg.dropLines.update
      have hu : Canonical u := ht1.foldl (fun _ _ h1 => h1.rewritePromises)
      exact hu.postRecord.ofSome e
    · cases e
  · cases e

theorem Canonical.keepStops (h : Canonical s) {dies} : Canonical (s.keepStops dies) := by
  unfold State.keepStops
  refine Canonical.foldl ?_ ?_
  · exact h
  · intro t x h1
    split
    · split
      · exact .ite h1.putAgent h1
      · exact h1
    · exact h1

theorem Canonical.startJob (h : Canonical s) {number dies entry states} : Canonical (s.startJob number dies entry states) := by
  unfold State.startJob
  extract_lets sup held _ _ t u
  have ht : Canonical t := ⟨Memory.wf_filter _ h.mem, rising_filter _ h.fe, h.poison, h.dev⟩
  have hu : Canonical u := ht.foldl fun _ _ hx => .ite hx.setNamed hx
  exact (hu.foldl fun _ _ hx => hx.wakeDie).keepStops.setAccounted

theorem Canonical.tryJobStart (h : Canonical s) {number dies entry states}
    (e : tryJobStart number dies entry states s = some t) : Canonical t := by
  unfold Machine.tryJobStart at e
  extract_lets at e
  split at e
  · cases e
  · exact h.focusJob.startJob.ofSome e

theorem Canonical.tryJobEnd (h : Canonical s) (e : tryJobEnd s = some t) : Canonical t := by
  unfold Machine.tryJobEnd at e
  split at e
  · cases e
  · exact h.endJob.ofSome e

theorem Canonical.tryPatrolScrub (h : Canonical s) {codeword f} (e : tryPatrolScrub codeword f s = some t) : Canonical t := by
  unfold Machine.tryPatrolScrub at e
  extract_lets _ _ src at e
  have hsrc : Canonical src := h.foldl (fun _ _ h1 => h1.setPoison)
  split at e
  · cases e
  · split at e
    · exact h.ofSome e
    · exact (h.withPkg h.pkg.bump).ofSome e
    · exact (hsrc.withPkg h.pkg.setReg).ofSome e

theorem Canonical.wordError (h : Canonical s) {cell home uncorrectable} : Canonical (s.wordError cell home uncorrectable) :=
  .ite h.bumpOwner (.ite h.setPoison (h.foldl (fun _ _ h1 => h1.setPoison)))

theorem Canonical.panelError (h : Canonical s) {die engine} : Canonical (s.panelError die engine) := h.tickAll.onTile

theorem Canonical.rowError (h : Canonical s) {die i row} : Canonical (s.rowError die i row) := by
  unfold State.rowError
  extract_lets
  split
  · exact h.onAcc.containAt
  · exact h.onAcc

theorem Canonical.spawnError (h : Canonical s) {id} (e : s.spawnError id = some t) : Canonical t := by
  unfold State.spawnError at e
  split at e
  · exact h.containAt.ofSome e
  · cases e

theorem Canonical.containOwner (h : Canonical s) {t0} : Canonical (s.containOwner t0) := by
  unfold State.containOwner
  extract_lets
  split
  · exact h.raise
  · split
    · exact h.endAgent.containUnitOf (fun _ h1 => h1)
    · exact h.endAgent.containUnitOf (fun _ h1 => h1.discardFibre)
  · exact .ite h.raise h.containNode

theorem Canonical.tryAgentStateUe (h : Canonical s) {a} (e : tryAgentStateUe a s = some t) : Canonical t := by
  unfold Machine.tryAgentStateUe at e
  extract_lets at e
  split at e
  · cases e
  · split at e
    · cases e
    · next e2 => exact (h.focus.quiet e2).account.giveUp.containOwner.ofSome e

theorem Canonical.setLink (h : Canonical s) {n l} : Canonical (s.setLink n l) := h.updatePkg

theorem Canonical.tryFlitReceive (h : Canonical s) {link seq crcOk isVoid payload}
    (e : tryFlitReceive link seq crcOk isVoid payload s = some t) : Canonical t := by
  unfold Machine.tryFlitReceive at e
  split at e
  · exact h.setLink.ofSome e
  · cases e

theorem Canonical.tryNackReceive (h : Canonical s) {link seq copyOk} (e : tryNackReceive link seq copyOk s = some t) : Canonical t := by
  unfold Machine.tryNackReceive at e
  extract_lets at e
  split at e
  · exact h.setLink.ofSome e
  · cases e

theorem Canonical.tryAcknowledgementReceive (h : Canonical s) {link seq}
    (e : tryAcknowledgementReceive link seq s = some t) : Canonical t := by
  unfold Machine.tryAcknowledgementReceive at e
  extract_lets at e
  split at e
  · exact h.setLink.ofSome e
  · cases e

theorem Canonical.resend (h : Canonical s) : Canonical s.resend := by
  unfold State.resend
  split
  · exact h.resendPs
  · exact h.account.setWait
  · exact h

theorem Canonical.tryTransactionRetry (h : Canonical s) {a} (e : tryTransactionRetry a s = some t) : Canonical t := by
  unfold Machine.tryTransactionRetry at e
  extract_lets _ u at e
  have hu : Canonical u := h.focus.account.setTransaction.releaseWaits.setWait
  split at e
  · split at e
    · cases e
    · split at e
      · exact h.focus.setTransaction.resend.ofSome e
      · exact hu.update.raise.ofSome e
  · cases e

theorem Canonical.streamingLost (h : Canonical s) {i} (e : s.streamingLost i = some t) : Canonical t := by
  unfold State.streamingLost at e
  split at e
  · split at e
    · cases e
    · exact h.markStreaming.ofSome e
  · cases e

theorem Canonical.requestLost (h : Canonical s) {kind handle number} (e : s.requestLost kind handle number = some t) : Canonical t := by
  unfold State.requestLost at e
  obtain ⟨y, -, e⟩ := Option.bind_eq_some_iff.mp e
  dsimp only at e
  split at e
  · cases e
  · split at e
    · exact h.update.requestCause.ofSome e
    · split at e
      · exact h.requestCause.ofSome e
      · cases e

theorem Canonical.castLost (h : Canonical s) {id die} (e : s.castLost id die = some t) : Canonical t := by
  unfold State.castLost at e
  obtain ⟨y, -, e⟩ := Option.bind_eq_some_iff.mp e
  dsimp only at e
  split at e
  · cases e
  · exact h.update.ofSome e

theorem Canonical.tryCastRetry (h : Canonical s) {id die} (e : tryCastRetry id die s = some t) : Canonical t := by
  unfold Machine.tryCastRetry at e
  split at e
  · extract_lets at e
    split at e
    · cases e
    · split at e
      · exact h.update.ofSome e
      · split at e
        · next e5 => exact (h.update.focus.quiet e5).account.giveUp.raise.ofSome e
        · cases e
  · cases e

theorem Canonical.tryDedupExpiry (h : Canonical s) {ident} (e : tryDedupExpiry ident s = some t) : Canonical t := by
  unfold Machine.tryDedupExpiry at e
  split at e
  · exact h.updatePkg.ofSome e
  · cases e

theorem Canonical.tryHostPortDown (h : Canonical s) {port} (e : tryHostPortDown port s = some t) : Canonical t := by
  unfold Machine.tryHostPortDown at e
  split at e
  · cases e
  · extract_lets _ t1 at e
    have ht1 : Canonical t1 := h.withPkg h.pkg.update
    exact ht1.refuseAll.ofSome e

theorem Canonical.tryScaleUpPortLaneLoss (h : Canonical s) {port lost} (e : tryScaleUpPortLaneLoss port lost s = some t) : Canonical t := by
  unfold Machine.tryScaleUpPortLaneLoss at e
  extract_lets at e
  split at e
  · cases e
  · exact (h.withPkg h.pkg.update).ofSome e

theorem Canonical.tryBlockRateLimit (h : Canonical s) {b} (e : tryBlockRateLimit b s = some t) : Canonical t := by
  unfold Machine.tryBlockRateLimit at e
  split at e
  · cases e
  · exact h.updatePkg.ofSome e

theorem Canonical.tryBlockRateRestore (h : Canonical s) {b} (e : tryBlockRateRestore b s = some t) : Canonical t := by
  unfold Machine.tryBlockRateRestore at e
  split at e
  · exact h.updatePkg.ofSome e
  · cases e

theorem Canonical.tryDieGate (h : Canonical s) {pdie} (e : tryDieGate pdie s = some t) : Canonical t := by
  unfold Machine.tryDieGate at e
  extract_lets at e
  split at e
  · cases e
  · exact (h.withPkg h.pkg.update).ofSome e

theorem Canonical.tryDieWake (h : Canonical s) {pdie} (e : tryDieWake pdie s = some t) : Canonical t := by
  unfold Machine.tryDieWake at e
  split at e
  · exact h.wakeDie.ofSome e
  · cases e

theorem Canonical.tryPseudoChannelRetire (h : Canonical s) {stack channel}
    (e : tryPseudoChannelRetire stack channel s = some t) : Canonical t := by
  unfold Machine.tryPseudoChannelRetire at e
  split at e
  · cases e
  · extract_lets at e
    exact (h.withPkg h.pkg.update).ofSome e

theorem Canonical.tryDieOutOfService (h : Canonical s) {pdie} (e : tryDieOutOfService pdie s = some t) : Canonical t := by
  unfold Machine.tryDieOutOfService at e
  split at e
  · cases e
  · exact h.updatePkg.ofSome e

end Sys2Proof.Machine
end

section
/-! PROOFS. The functions of the steps of links, dies, debugging and start-up keep the canonical form. -/

namespace Sys2Proof.Machine

variable {s t : State} {p : Pkg}

theorem Canonical.countIdle (h : Canonical s) {now pdie core slot} : Canonical (s.countIdle now pdie core slot) :=
  .ite h (h.withPkg (Pkg.Ordered.ite h.pkg h.pkg.setReg).update)

theorem Canonical.onOwner (h : Canonical s) {pdie f} (kf : ∀ a t, Canonical t → Canonical (f a t)) : Canonical (s.onOwner pdie f) := by
  unfold State.onOwner
  refine Canonical.overJobs ?_ ?_
  · exact h
  · intro t h1
    split
    · exact .ite h1 (kf _ _ h1).focus
    · exact h1

theorem Canonical.settleCore (h : Canonical s) {now pdie core} : Canonical (s.settleCore now pdie core) :=
  (Canonical.ite (h.onOwner (fun _ _ h1 => h1.foldl (fun _ _ h2 => h2.focus.account))) (h.foldl (fun _ _ h1 => h1.countIdle))).withPkg
    (Canonical.ite (h.onOwner (fun _ _ h1 => h1.foldl (fun _ _ h2 => h2.focus.account))) (h.foldl (fun _ _ h1 =>
    h1.countIdle))).pkg.rollRotations

theorem Canonical.accountPackage (h : Canonical s) {now} : Canonical (s.accountPackage now) := h.foldl (fun _ _ h1 => h1.settleCore)

theorem Canonical.clearCore (h : Canonical s) {pdie core} : Canonical (s.clearCore pdie core) :=
  ⟨h.settleCore.mem, h.settleCore.fe, h.settleCore.poison, keyed_filter _ h.settleCore.dev⟩

theorem Canonical.askStop (h : Canonical s) : Canonical s.askStop := by
  unfold State.askStop
  split
  · exact h.withPkg h.pkg.setBits
  · next e => exact (h.quiet e).account.giveUp.stopDebug

theorem Canonical.tryDebugStop (h : Canonical s) {a} (e : tryDebugStop a s = some t) : Canonical t := by
  unfold Machine.tryDebugStop at e
  extract_lets at e
  split at e
  · cases e
  · exact h.focus.askStop.ofSome e

theorem Canonical.resumeDebug (h : Canonical s) : Canonical s.resumeDebug := h.account.update.showStops.clearDstop.trace

theorem Canonical.tryDebugResume (h : Canonical s) {a} (e : tryDebugResume a s = some t) : Canonical t := by
  unfold Machine.tryDebugResume at e
  extract_lets at e
  split at e
  · exact h.focus.resumeDebug.ofSome e
  · cases e

theorem Canonical.startStep (h : Canonical s) : Canonical s.startStep := h.account.update

theorem Canonical.tryDebugStep (h : Canonical s) {a} (e : tryDebugStep a s = some t) : Canonical t := by
  unfold Machine.tryDebugStep at e
  extract_lets at e
  split at e
  · cases e
  · split at e
    · exact h.focus.startStep.ofSome e
    · split at e
      · exact h.focus.account.stopDebug.ofSome e
      · cases e

theorem Canonical.release (h : Canonical s) {a} : Canonical (s.release a) :=
  (Canonical.ite h.focus.resumeDebug h.focus.update).withPkg (Canonical.ite h.focus.resumeDebug h.focus.update).pkg.setBits

theorem Canonical.tryDebugRelease (h : Canonical s) {a} (e : tryDebugRelease a s = some t) : Canonical t := by
  unfold Machine.tryDebugRelease at e
  split at e
  · exact h.release.ofSome e
  · cases e

theorem Canonical.tryWatchPass (h : Canonical s) {a} (e : tryWatchPass a s = some t) : Canonical t := by
  unfold Machine.tryWatchPass at e
  split at e
  · cases e
  · exact (h.withPkg h.pkg.setBits).ofSome e

theorem Canonical.requestSnapshot (h : Canonical s) {c} : Canonical (s.requestSnapshot c) :=
  .ite (h.withPkg h.pkg.setReg) (h.withPkg h.pkg.setReg.update)

theorem Pkg.Ordered.latch (h : p.Ordered) {at_} : Pkg.Ordered (p.latch at_) := by
  unfold Pkg.latch
  extract_lets kept copied cores
  have hkept : kept.Ordered := keyed_filter _ h
  have hcopied : copied.Ordered := by
    refine hkept.foldl fun q x hq => ?_
    split
    · exact hq.setReg
    · exact hq
  exact (hcopied.foldl fun _ _ hq => hq.setReg).setReg

theorem Canonical.trySnapshotLatch (h : Canonical s) (e : trySnapshotLatch s = some t) : Canonical t := by
  unfold Machine.trySnapshotLatch at e
  split at e
  · split at e
    · cases e
    · extract_lets at e
      exact (h.accountPackage.withPkg h.accountPackage.pkg.latch.update).ofSome e
  · cases e

theorem Canonical.unheld (h : Canonical s) {home f} (kf : ∀ t u, Canonical t → f t = some u → Canonical u)
    (e : s.unheld home f = some t) : Canonical t := by
  unfold State.unheld at e
  split at e
  · cases e
  · obtain ⟨y, ey, rfl⟩ := Option.map_eq_some_iff.mp e
    have hy : Canonical y := kf _ _ (h.withPkg h.pkg.setReg) ey
    exact hy.withPkg hy.pkg.setReg

theorem Canonical.holdRelease (h : Canonical s) (e : s.holdRelease = some t) : Canonical t := by
  unfold State.holdRelease at e
  extract_lets at e
  split at e
  · exact h.unheld (fun _ _ ht => ht.performLoose) e
  · split at e
    · split at e
      · obtain ⟨y, ey, rfl⟩ := Option.map_eq_some_iff.mp e
        exact (h.unheld (fun _ _ ht => ht.update.atHome) ey).update
      · cases e
    · obtain ⟨q, -, e1⟩ := Option.bind_eq_some_iff.mp e
      exact h.unheld (fun _ _ ht e2 => Option.some.inj e2 ▸ ht.retryOne) e1
    · split at e
      · cases e
      · split at e
        · exact h.unheld (fun _ _ ht => ht.performStreaming) e
        · cases e

theorem Canonical.trySillageHoldRelease (h : Canonical s) {a} (e : trySillageHoldRelease a s = some t) : Canonical t := by
  unfold Machine.trySillageHoldRelease at e
  extract_lets at e
  split at e
  · split at e
    · next e2 => exact (h.focus.account.holdRelease e2).ofSome e
    · cases e
  · cases e

theorem Canonical.tryBootStep (h : Canonical s) (e : tryBootStep s = some t) : Canonical t := by
  unfold Machine.tryBootStep at e
  extract_lets _ _ go at e
  have hgo (c : Boot) (e : go c = some t) : Canonical t := Option.some.inj e ▸ h.updatePkg
  split at e
  · split at e
    · split at e
      · cases e
      · exact hgo _ e
    · exact hgo _ e
  · exact hgo _ e
  · exact hgo _ e
  · exact Option.some.inj e ▸ h.updatePkg
  · split at e
    · exact Option.some.inj e ▸ h.updatePkg
    · cases e
  · cases e

theorem Canonical.failFlash (h : Canonical s) {section_ copy} : Canonical (s.failFlash section_ copy) := h.updatePkg

theorem Canonical.dieFails (h : Canonical s) {die} : Canonical (s.dieFails die) := by
  unfold State.dieFails
  split
  · exact h.getD fun _ e => h.tryHostPortDown e
  · exact h.getD fun _ e => h.tryDieOutOfService e

theorem Canonical.tryBootImageAck (h : Canonical s) {die image hash} (e : tryBootImageAck die image hash s = some t) : Canonical t := by
  unfold Machine.tryBootImageAck at e
  extract_lets _ _ put at e
  have hput (x : Boot) : Canonical (put x) := h.withPkg h.pkg.update
  split at e
  · cases e
  · split at e
    · exact (hput _).ofSome e
    · exact (Canonical.ite (hput _) (hput _).dieFails).ofSome e

theorem Canonical.tryGxoLoad (h : Canonical s) {f} (e : tryGxoLoad f s = some t) : Canonical t := by
  unfold Machine.tryGxoLoad at e
  split at e
  · cases e
  · exact (Canonical.ite h.updatePkg h).ofSome e

theorem Canonical.placeBytes (h : Canonical s) {v va l} (e : State.placeBytes v va l s = some t) : Canonical t := by
  induction l generalizing s va with
  | nil =>
    cases e
    exact h
  | cons x rest ih =>
    rw [State.placeBytes] at e
    split at e
    · next e1 =>
      split at e
      · exact ih (h.hwCell e1).store e
      · cases e
    · cases e

theorem Canonical.placeImage (h : Canonical s) {v role} (e : s.placeImage v role = some t) : Canonical t := by
  unfold State.placeImage at e
  extract_lets at e
  split at e
  · cases e
  · obtain ⟨y, ey, rfl⟩ := Option.map_eq_some_iff.mp e
    exact (h.focusJob.foldlBind (fun _ _ _ ht => ht.placeBytes) ey).focusJob

theorem Canonical.portRead (h : Canonical s) {off n} : Canonical (s.portRead off n) := h.updatePkg

theorem Canonical.portWrite (h : Canonical s) {off bytes} : Canonical (s.portWrite off bytes) := h.updatePkg

theorem Canonical.tryMgmtMailboxCommand (h : Canonical s) {c} (e : tryMgmtMailboxCommand c s = some t) : Canonical t := by
  unfold Machine.tryMgmtMailboxCommand at e
  split at e
  · cases e
  · extract_lets at e
    exact (h.withPkg h.pkg.update).ofSome e

theorem Pkg.Ordered.putBits (h : p.Ordered) {pa mask v} : Pkg.Ordered (p.putBits pa mask v) := h.setReg

theorem Canonical.debugWrite (h : Canonical s) {v} : Canonical (s.debugWrite v) :=
  .ite h.release (.ite (.ite h.resumeDebug h) (.ite (.ite h.startStep h) h.askStop))

theorem Canonical.debugIdle (h : Canonical s) {pdie pa who v} : Canonical (s.debugIdle pdie pa who v) :=
  .ite (h.withPkg h.pkg.setBits) (.ite h (h.withPkg h.pkg.setBits.update))

theorem Canonical.writeDbgctl (h : Canonical s) {pdie pa who v} : Canonical (s.writeDbgctl pdie pa who v) :=
  .ite ((h.withPkg h.pkg.putBits.setBits).onOwner (fun _ _ h1 => h1.focus.debugWrite)) (h.withPkg h.pkg.putBits.setBits).debugIdle

theorem Canonical.writeCore (h : Canonical s) {pdie core off v} : Canonical (s.writeCore pdie core off v) :=
  .ite (.ite (h.settleCore.withPkg h.settleCore.pkg.putBits).clearCore (h.settleCore.withPkg h.settleCore.pkg.putBits)) (.ite (h.withPkg
    h.pkg.putBits) (.ite (h.withPkg h.pkg.putBits) (.ite h.writeDbgctl (.ite (h.withPkg h.pkg.putBits) h))))

theorem Canonical.writeSillage (h : Canonical s) {pa off v} : Canonical (s.writeSillage pa off v) := by
  unfold State.writeSillage
  split
  · exact h.withPkg h.pkg.putBits.setBits.update
  · exact h.withPkg h.pkg.putBits
  · exact h.withPkg h.pkg.putBits
  · exact h

theorem Canonical.writeObs (h : Canonical s) {pa v} : Canonical (s.writeObs pa v) := by
  unfold State.writeObs
  exact .ite h.writeCore (.ite h.writeDbgctl (.ite (h.withPkg h.pkg.putBits) (.ite (.ite (h.withPkg h.pkg.putBits) h) (.ite (h.withPkg
      h.pkg.putBits) (.ite h.writeSillage h)))))

theorem Canonical.execRegisterWrite (h : Canonical s) {pa v} : Out.Kept (execRegisterWrite pa v s) := by
  unfold Machine.execRegisterWrite
  change Canonical _
  split
  · exact h
  · split
    · split
      · next e2 => exact h.writeStackReg e2
      · exact h
    · exact .ite h.writeObs (.ite h.requestSnapshot h)

theorem Canonical.loadDevice (h : Canonical s) {pa} : Canonical (s.loadDevice pa) := (Canonical.ite h.settleCore h).updatePkg

theorem Canonical.readStopped (h : Canonical s) {a i} (e : s.readStopped a i = some t) : Canonical t := by
  unfold State.readStopped at e
  obtain ⟨y, -, e⟩ := Option.map_eq_some_iff.mp e
  dsimp only at e
  obtain rfl := e
  exact h.updatePkg

theorem Canonical.writeStopped (h : Canonical s) {a i v} (e : s.writeStopped a i v = some t) : Canonical t := by
  unfold State.writeStopped at e
  extract_lets at e
  obtain ⟨y, -, e⟩ := Option.map_eq_some_iff.mp e
  dsimp only at e
  subst e
  exact h.focus.update.putWords

end Sys2Proof.Machine
end

section
/-! PROOFS. The functions of the vector instructions keep the canonical form. -/

namespace Sys2Proof.Machine

variable {s t : State} {p : Pkg}

theorem Canonical.vresult (h : Canonical s) {d r} : Canonical (s.vresult d r) := h.setV.orFlags.advance

theorem Canonical.vmap3 (h : Canonical s) {y k d a b f} : Canonical (s.vmap3 y k d a b f) := h.vresult

theorem Canonical.vlong (h : Canonical s) {y k d a f} : Canonical (s.vlong y k d a f) := .ite h.vresult h.setWait.advance

theorem Canonical.laneWatch (h : Canonical s) {l x} (e : s.laneWatch l = (x, t)) : Canonical t := by
  unfold State.laneWatch at e
  split at e
  · cases e
    exact h
  · cases e
    exact h.watchpoint rfl

theorem Canonical.laneAccess (h : Canonical s) {f op base k b} : Canonical (s.laneAccess f op base k b) := by
  unfold State.laneAccess
  split
  · exact h.raiseCause
  · extract_lets
    split
    · next e1 => exact (h.laneWatch e1).raise
    · next e1 =>
        split
        · exact (h.laneWatch e1).raise
        · exact (h.laneWatch e1).advance
        · exact .ite (h.laneWatch e1).settle.yieldTurn ((h.laneWatch e1).settle.finish (h.laneWatch e1).settle.effect)

end Sys2Proof.Machine
end

section
/-! PROOFS. The functions of the fetch, the execution of an instruction and the turn it takes keep the canonical form. -/

namespace Sys2Proof.Machine

variable {s t : State} {p : Pkg}

theorem canonical_reset : Canonical State.reset := ⟨rfl, rfl, rfl, rfl⟩

theorem Canonical.exec (h : Canonical s) {i} : Out.Kept (exec i s) := by
  cases i
  case add | sub | and | or | xor | andn | orn | sll | srl | sra | rol | ror | slt | sltu | min | max | minu | maxu | sel | mul |
      mulxs | mulxu | mulxm | clz | ctz | popc | bswap | sextb | sexth | sextw | zextb | zexth | zextw | bfx | bfxu | bfi | addi |
      andi | ori | xori | slti | sltiu | slli | srli | srai | lui | lpc | xget | fkind | vmovg | kpop | kmovFromMask => exact h.result
  case div | divu | rem | remu | fdiv | fsqrt => exact h.longResult
  case xset | xli => exact h.setXe.advance
  case ldb | ldbu | ldh | ldhu | ldw | ldwu | ldd | stb | sth | stw | std | ldfe | ldff | stfe | stff | feclr | feset | fetst | psm |
      amoadd | amoswap | amocas | amomin | amomax | amominu | amomaxu | amoand | amoor | amoxor | amofadd | mwaitEq | mwaitGe |
      mwaitNe | cLdd | cStd => exact h.access
  case ldwNb | lddNb | stwNb | stdNb => exact h.stream
  case waitc => exact h.waitcTurn
  case fence => exact h.fenceTurn
  case sleep => exact .ite h.advance h.setWait
  case beq | bne | blt | bge | bltu | bgeu | cBz | cBnz => exact h.branch
  case jal | cJ => exact h.jumpLink
  case jalr | cJr => exact h.jumpReg
  case spawn => exact h.execSpawn
  case join => exact .ite h.raiseCause h.joinTurn
  case spawnn => exact h.execSpawnn
  case next | cNext => exact .ite h.nextTurn h.raiseCause
  case ps | cPs => exact h.prefixSum
  case psset => exact .ite h.raiseCause (.ite h.update.advance h.psWindows.onSpawn.advance)
  case psget => exact .ite h.raiseCause (.ite h.result h.psWindows.result)
  case cancel => exact .ite h.advance h.advance.cancelSpawn
  case fbsave => exact h.execFbsave
  case fbload => exact h.execFbload
  case fbret => exact h.execFbret
  case cppost => exact .ite h.raiseCause (.ite h.raise h.access)
  case cpprom => exact .ite h.raiseCause h.access
  case cpwait => exact h.execCpwait
  case tkpost =>
    exact .ite h.raiseCause (.ite h.raise (.ite h.raise (.ite h.wakeDie.setWait (.ite h.setWait h.onTile.addRequest.writeStatus.result))))
  case tkstat => exact h.execTkstat
  case mspost => exact h.execMspost
  case colpost => exact h.execColpost
  case fadd | fsub | fmul | fmin | fmax | fma | fcmpeq | fcmplt | fcmple | fcvt => exact h.fpResult
  case vadd | vsub | vmul | vfma | vmin | vmax | vabs | vneg | vand | vor | vxor | vsll | vsrl | vsra | vbcast | vperm => exact h.vmap3
  case vcmp => exact h.setK.orFlags.advance
  case vsel | vpack4 | vunpack4 | vpack6 | vunpack6 | vredsum | vredmax | vins => exact h.vresult
  case vcvt => exact .ite (.ite h.vresult h.setV.setK.advance) (.ite h.vresult h.vresult)
  case vexp2 | vrcp | vrsqrt => exact h.vlong
  case vld | vst => exact .ite h.advance h.access
  case vldx | vstx => exact h.laneAccess
  case kand | kor | kxor | knot | kmovToMask => exact h.setK.advance
  case mfs => exact h.execMfs
  case mts => exact h.execMts
  case sys => exact .ite (.ite h.raiseCause (.ite h.raiseCause (h.drained (fun _ h1 => h1.exitNode)))) h.advance.raise
  case brk => exact h.advance.raise
  case sret => exact h.privileged h.serviceRecord
  case tlbinv => exact h.privileged h.invalidate
  case slspill => exact h.privileged h.spillSlot
  case slload => exact h.privileged h.loadSlot
  case slstop => exact h.privileged h.stopSlot
  case slgo => exact h.privileged h.goSlot
  case halt => exact h.privileged h.tickAll.update.advance.setWait
  case idle => exact h.privileged h.idleTurn
  case cMv | cAdd | cSub | cAnd | cOr | cXor | cAddi | cLi | cSlli | cSrli | cSrai | cNop => exact h.result2
  case illegalEncoding => exact h.raiseCause
  case rotationTurn => exact h.passing fun _ e => h.tryRotationTurn e
  case slotDraw => exact h.passing fun _ e => h.trySlotDraw e
  case spawnBroadcast => exact h.passing fun _ e => h.trySpawnBroadcast e
  case chunkRequest => exact h.passing fun _ e => h.tryChunkRequest e
  case psWindow => exact h.passing fun _ e => h.tryPsWindow e
  case psResult => exact h.passing fun _ e => h.tryPsResult e
  case basinRefill => exact h.passing fun _ e => h.tryBasinRefill e
  case joinRetire => exact h.passing fun _ e => h.tryJoinRetire e
  case nextDrainComplete => exact h.passing fun _ e => h.tryNextDrainComplete e
  case longLatencyResult => exact h.passing fun _ e => h.tryLongLatencyResult e
  case memoryRequestAtHome => exact h.passing fun _ e => h.tryMemoryRequestAtHome e
  case loadReply => exact h.passing fun _ e => h.tryLoadReply e
  case streamingAccessPerform => exact h.passing fun _ e => h.tryStreamingAccessPerform e
  case idleWake => exact h.passing fun _ e => h.tryIdleWake e
  case mwaitPoll => exact h.passing fun _ e => h.tryMwaitPoll e
  case watchLimit => exact h.passing fun _ e => h.tryWatchLimit e
  case sleepWake => exact h.passing fun _ e => h.trySleepWake e
  case waitcComplete => exact h.passing fun _ e => h.tryWaitcComplete e
  case fenceComplete => exact h.passing fun _ e => h.tryFenceComplete e
  case leaseExpiry | linkLaneRecalibrate => exact h
  case trapRecordPost => exact h.passing fun _ e => h.tryTrapRecordPost e
  case deferredSupervisorSave => exact h.passing fun _ e => h.tryDeferredSupervisorSave e
  case conduitTake => exact h.passing fun _ e => h.tryConduitTake e
  case promiseRevision => exact h.passing fun _ e => h.tryPromiseRevision e
  case denseCopy => exact h.passing fun _ e => h.tryDenseCopy e
  case gather => exact h.passing fun _ e => h.tryGather e
  case scatter => exact h.passing fun _ e => h.tryScatter e
  case pooledGather => exact h.passing fun _ e => h.tryPooledGather e
  case rowReplace => exact h.passing fun _ e => h.tryRowReplace e
  case versionWaitWake => exact h.passing fun _ e => h.tryVersionWaitWake e
  case copyResume => exact h.passing fun _ e => h.tryCopyResume e
  case copyCompletion => exact h.passing fun _ e => h.tryCopyCompletion e
  case taskDispatch => exact h.passing fun _ e => h.tryTaskDispatch e
  case aclr => exact h.passing fun _ e => h.tryAclr e
  case mma => exact h.passing fun _ e => h.tryMma e
  case applyBlock => exact h.passing fun _ e => h.tryApplyBlock e
  case exponentMessage => exact h.passing fun _ e => h.tryExponentMessage e
  case rdout => exact h.passing fun _ e => h.tryRdout e
  case asave => exact h.passing fun _ e => h.tryAsave e
  case aload => exact h.passing fun _ e => h.tryAload e
  case afree => exact h.passing fun _ e => h.tryAfree e
  case groupWatchdog => exact h.passing fun _ e => h.tryGroupWatchdog e
  case taskResume => exact h.passing fun _ e => h.tryTaskResume e
  case taskCompletion => exact h.passing fun _ e => h.tryTaskCompletion e
  case msRequestStart => exact h.passing fun _ e => h.tryMsRequestStart e
  case msReduce => exact h.passing fun _ e => h.tryMsReduce e
  case msFill => exact h.passing fun _ e => h.tryMsFill e
  case msCopy => exact h.passing fun _ e => h.tryMsCopy e
  case msFeInit => exact h.passing fun _ e => h.tryMsFeInit e
  case msResume => exact h.passing fun _ e => h.tryMsResume e
  case msCompletion => exact h.passing fun _ e => h.tryMsCompletion e
  case collectiveInstanceStart => exact h.passing fun _ e => h.tryCollectiveInstanceStart e
  case colDenseAllreduce => exact h.passing fun _ e => h.tryColDenseAllreduce e
  case colSparseAllreduce => exact h.passing fun _ e => h.tryColSparseAllreduce e
  case colBroadcast => exact h.passing fun _ e => h.tryColBroadcast e
  case colAllGather => exact h.passing fun _ e => h.tryColAllGather e
  case colResume => exact h.passing fun _ e => h.tryColResume e
  case colCompletion => exact h.passing fun _ e => h.tryColCompletion e
  case colAbort => exact h.passing fun _ e => h.tryColAbort e
  case graphUpload => exact h.passing fun _ e => h.tryGraphUpload e
  case runTrigger => exact h.passing fun _ e => h.tryRunTrigger e
  case runCancel => exact h.passing fun _ e => h.tryRunCancel e
  case runStart => exact h.passing fun _ e => h.tryRunStart e
  case nodeStart => exact h.passing fun _ e => h.tryNodeStart e
  case nodeCompletion => exact h.passing fun _ e => h.tryNodeCompletion e
  case lvlcmdCancel => exact h.passing fun _ e => h.tryLvlcmdCancel e
  case commCreate => exact h.passing fun _ e => h.tryCommCreate e
  case commEnd => exact h.passing fun _ e => h.tryCommEnd e
  case pageWalk => exact h.passing fun _ e => h.tryPageWalk e
  case atsTranslationResponse => exact h.passing fun _ e => h.tryAtsTranslationResponse e
  case priResponse => exact h.passing fun _ e => h.tryPriResponse e
  case priTimeout => exact h.passing fun _ e => h.tryPriTimeout e
  case atsInvalidation => exact h.passing fun _ e => h.tryAtsInvalidation e
  case invalidationCompletion => exact h.passing fun _ e => h.tryInvalidationCompletion e
  case hostReadCompletion => exact h.passing fun _ e => h.tryHostReadCompletion e
  case formatWindowArm => exact h.passing fun _ e => h.tryFormatWindowArm e
  case formatWindowDisarm => exact h.passing fun _ e => h.tryFormatWindowDisarm e
  case dirtyLogEpochFlip => exact h.passing fun _ e => h.tryDirtyLogEpochFlip e
  case jobSuspend => exact h.passing fun _ e => h.tryJobSuspend e
  case virtualDieRemap => exact h.passing fun _ e => h.tryVirtualDieRemap e
  case jobRestore => exact h.passing fun _ e => h.tryJobRestore e
  case patrolScrub => exact h.passing fun _ e => h.tryPatrolScrub e
  case agentStateUe => exact h.passing fun _ e => h.tryAgentStateUe e
  case flitReceive => exact h.passing fun _ e => h.tryFlitReceive e
  case nackReceive => exact h.passing fun _ e => h.tryNackReceive e
  case linkWindowRebuild => exact h.setLink
  case transactionRetry => exact h.passing fun _ e => h.tryTransactionRetry e
  case dedupExpiry => exact h.passing fun _ e => h.tryDedupExpiry e
  case hostPortDown => exact h.passing fun _ e => h.tryHostPortDown e
  case scaleUpPortLaneLoss => exact h.passing fun _ e => h.tryScaleUpPortLaneLoss e
  case memberPackageLost => exact h.passing fun _ e => h.tryMemberPackageLost e
  case segmentDeliveryFailure => exact h.passing fun _ e => h.trySegmentDeliveryFailure e
  case blockRateLimit => exact h.passing fun _ e => h.tryBlockRateLimit e
  case dieGate => exact h.passing fun _ e => h.tryDieGate e
  case dieWake => exact h.passing fun _ e => h.tryDieWake e
  case pseudoChannelRetire => exact h.passing fun _ e => h.tryPseudoChannelRetire e
  case blockFirmwareUpdate => exact .ite h.updatePkg h
  case dieOutOfService => exact h.passing fun _ e => h.tryDieOutOfService e
  case obsCounterClear => exact h.clearCore
  case debugStop => exact h.passing fun _ e => h.tryDebugStop e
  case debugResume => exact h.passing fun _ e => h.tryDebugResume e
  case debugStep => exact h.passing fun _ e => h.tryDebugStep e
  case debugRelease => exact h.passing fun _ e => h.tryDebugRelease e
  case watchPass => exact h.passing fun _ e => h.tryWatchPass e
  case snapshotRequest => exact h.requestSnapshot
  case snapshotLatch => exact h.passing fun _ e => h.trySnapshotLatch e
  case sillageHoldRelease => exact h.passing fun _ e => h.trySillageHoldRelease e
  case packageReset => exact canonical_reset.withPkg canonical_reset.pkg.update
  case bootImageAck => exact h.passing fun _ e => h.tryBootImageAck e
  case gxoLoad => exact h.passing fun _ e => h.tryGxoLoad e
  case i3cDynamicAddress | i3cGetstatus => exact h.updatePkg
  case mgmtMailboxCommand => exact h.passing fun _ e => h.tryMgmtMailboxCommand e
  case registerWrite pa v => exact h.execRegisterWrite (pa := pa) (v := v)
  case cpwaitPromiseReached => exact h.passing fun _ e => h.tryCpwaitPromiseReached e
  case acknowledgementReceive => exact h.passing fun _ e => h.tryAcknowledgementReceive e
  case blockRateRestore => exact h.passing fun _ e => h.tryBlockRateRestore e
  case jobSaveAbandon => exact h.passing fun _ e => h.tryJobSaveAbandon e
  case jobStart => exact h.passing fun _ e => h.tryJobStart e
  case jobEnd => exact h.passing fun _ e => h.tryJobEnd e

theorem Canonical.fetchParcel (h : Canonical s) {va} : Fetched.Kept (s.fetchParcel va) := by
  unfold State.fetchParcel
  split
  · exact h.afterDenied
  · next e =>
      split
      · trivial
      · split
        · exact (h.check e).update
        · exact h.check e
  · next e1 => exact h.check e1

theorem Canonical.fetch (h : Canonical s) : Fetched.Kept s.fetch := by
  unfold State.fetch
  split
  · next e =>
    have ht := h.fetchParcel.of e
    split
    · exact ht
    · have kept := Canonical.fetchParcel ht (va := s.ag.pc + 2#64)
      split
      · next e1 => exact (kept.of e1 :)
      · exact kept
  · exact h.fetchParcel

theorem Canonical.traceIssue (h : Canonical s) {i} : Canonical (s.traceIssue i) := by
  unfold State.traceIssue
  extract_lets _ u
  have hu : Canonical u := by
    unfold u
    split
    · exact h.trace.trace
    · exact h.trace
  split
  · exact hu.trace
  · exact hu

theorem Canonical.issued (h : Canonical s) : Canonical s.issued :=
  .ite (Canonical.ite h (.ite h.countTurns
    h.countTurns.countRotation)).setAccounted.update.update.setTransaction.update.showStops.clearDstop (Canonical.ite h (.ite h.countTurns
    h.countTurns.countRotation)).setAccounted.update.update.setTransaction

theorem Canonical.atTurn (h : Canonical s) : Canonical s.atTurn := h.account.update

theorem Canonical.prepare (h : Canonical s) : Prepared.Kept s.prepare := by
  unfold State.prepare
  split
  · next e => exact (h.atTurn.fetch.of e).issued.raise
  · exact h.atTurn.callDie.loseTurn
  · next e =>
      extract_lets _ u
      have hu : Canonical u := (h.atTurn.fetch.of e).settle
      split
      · exact hu.loseTurn
      · split
        · exact hu.issued.dropFailed.raise
        · exact hu

theorem Canonical.issues (h : Canonical s) {i} : Canonical (s.issues i) := .ite h.issued h.issued.traceIssue

theorem Canonical.takeTurn (h : Canonical s) : Out.Kept s.takeTurn := by
  unfold State.takeTurn
  split
  · next e => exact h.prepare.of e
  · next i t e =>
    have ht : Canonical t := h.prepare.of e
    have kept := Canonical.exec (ht.issues (i := i)) (i := i)
    split
    · next u e1 =>
      have hu : Canonical u := kept.of e1
      split
      · have again := Canonical.exec ht (i := i)
        split
        · next v e2 => exact Canonical.loseTurn (again.of e2)
        · exact again
      · exact hu.dropDrain
    · exact kept

theorem Canonical.postLost (h : Canonical s) (e : s.postLost = some t) : Canonical t := by
  unfold State.postLost at e
  split at e
  · cases e
  · split at e
    · cases e
    · next e2 =>
        split at e
        · cases e
        · extract_lets at e
          split at e
          · cases e
          · exact (h.prepare.of e2).issues.setTransaction.setWait.ofSome e

theorem Canonical.forfeit (h : Canonical s) (e : s.forfeit = some t) : Canonical t := by
  unfold State.forfeit at e
  split at e
  · cases e
  · split at e
    · next e2 =>
        extract_lets at e
        split at e
        · exact (h.atTurn.fetch.of e2).loseTurn.ofSome e
        · split at e
          · exact (h.atTurn.fetch.of e2).update.loseTurn.ofSome e
          · cases e
    · cases e

end Sys2Proof.Machine
end

section
/-! PROOFS. The functions of offers and late steps keep the canonical form. -/

namespace Sys2Proof.Machine

variable {s t : State} {p : Pkg}

theorem Canonical.offer (h : Canonical s) {a} (e : s.offer a = some t) : Canonical t := by
  unfold State.offer at e
  extract_lets at e
  split at e
  · cases e
  · split at e
    · exact h.focus.endTurn.ofSome e
    · split at e
      · exact h.focus.idleTurn.ofSome e
      · split at e
        · exact h.focus.update.ofSome e
        · cases e

theorem Canonical.lateOut (h : Canonical s) {i} (e : s.lateOut i = some t) : Canonical t := by
  unfold State.lateOut at e
  split at e
  · cases e
  · split at e
    · cases e
    · extract_lets at e
      exact (Canonical.ite h.wakeFor h).update.doWrite.ofSome e

theorem Canonical.traceRow (h : Canonical s) {block} (e : State.traceRow block s = some t) : Canonical t := by
  unfold State.traceRow at e
  split at e
  · next e1 => exact (h.traceOut e1).ofSome e
  · cases e

theorem Canonical.owedRow (h : Canonical s) {i} (e : State.owedRow i s = some t) : Canonical t := by
  unfold State.owedRow at e
  split at e
  · next e2 => exact (h.raiseOwed e2).ofSome e
  · cases e

theorem Canonical.atCycle (h : Canonical s) {c} : Canonical (s.atCycle c) := h.updatePkg

end Sys2Proof.Machine
end

section
/-! PROOFS. Every step the machine may come to by itself, of those tried when due and of those that come at a cycle of their own, keeps
the canonical form: a fact about each list of steps, put together from the steps in it. -/

namespace Sys2Proof.Machine

/-- Whatever a step offered in a canonical state leaves is canonical. -/
def Sound (f : State → Option State) : Prop := ∀ s t, Canonical s → f s = some t → Canonical t

/-- Everything in a list has a property. -/
def All {α : Type} (P : α → Prop) (l : List α) : Prop := ∀ x ∈ l, P x

namespace All
variable {α β : Type} {P : β → Prop} {l m : List β}

theorem nil : All P [] := fun _ h => nomatch h

theorem cons {x : β} (hx : P x) (hl : All P l) : All P (x :: l) := List.forall_mem_cons.mpr ⟨hx, hl⟩

theorem append (hl : All P l) (hm : All P m) : All P (l ++ m) := List.forall_mem_append.mpr ⟨hl, hm⟩

theorem map {f : α → β} {l : List α} (h : ∀ a, P (f a)) : All P (l.map f) := List.forall_mem_map.mpr fun a _ => h a

theorem flatMap {f : α → List β} {l : List α} (h : ∀ a, All P (f a)) : All P (l.flatMap f) := fun x hx => by
  obtain ⟨a, -, hx⟩ := List.mem_flatMap.mp hx
  exact h a x hx

theorem filter {q : β → Bool} (hl : All P l) : All P (l.filter q) := fun x hx => hl x (List.mem_filter.mp hx).1

theorem ite {c : Prop} [Decidable c] (hl : All P l) (hm : All P m) : All P (if c then l else m) := by
  split
  · exact hl
  · exact hm

theorem toList {o : Option β} (h : ∀ x, o = some x → P x) : All P o.toList := fun x hx => h x (Option.mem_toList.mp hx)

end All

theorem sound_agentRows (a : Nat) (x : Agent) : All Sound (Agent.rows a x) := by
  unfold Agent.rows
  refine .append (.append (.append (.append ?_ (.map fun _ _ _ h => h.tryStreamingAccessPerform))
    (.ite .nil (.cons (fun _ _ h => h.trySillageHoldRelease) .nil)))
    (.ite (.cons (fun _ _ h => h.tryDeferredSupervisorSave) .nil) .nil)) (.ite (.cons (fun _ _ h => h.tryDebugStep) .nil) .nil)
  cases x.wait with
  | ready | again | page | idle | halt => exact .nil
  | lost => exact .cons (fun _ _ h => h.tryTransactionRetry) .nil
  | request => exact .cons (fun _ _ h => h.tryMemoryRequestAtHome) (.cons (fun _ _ h => h.trySillageHoldRelease) .nil)
  | reply => exact .cons (fun _ _ h => h.tryLoadReply) .nil
  | park =>
    exact .cons (fun _ _ h => h.tryLoadReply) (.cons (fun _ _ h => h.tryIdleWake) (.cons (fun _ _ h => h.trySillageHoldRelease) .nil))
  | watch => exact .cons (fun _ _ h => h.tryLoadReply) (.cons (fun _ _ h => h.tryMwaitPoll) (.cons (fun _ _ h => h.tryWatchLimit) .nil))
  | long => exact .cons (fun _ _ h => h.tryLongLatencyResult) .nil
  | ps => exact .cons (fun _ _ h => h.tryPsResult) (.cons (fun _ _ h => h.tryTransactionRetry) .nil)
  | sleep => exact .cons (fun _ _ h => h.trySleepWake) .nil
  | cpwait => exact .cons (fun _ _ h => h.tryCpwaitPromiseReached) .nil
  | waitc => exact .cons (fun _ _ h => h.tryWaitcComplete) .nil
  | fence | fbsave | sysExit => exact .cons (fun _ _ h => h.tryFenceComplete) .nil
  | join => exact .cons (fun _ _ h => h.tryJoinRetire) .nil
  | next => exact .cons (fun _ _ h => h.tryNextDrainComplete) .nil
  | room => exact .cons (fun _ _ h => h.roomMade) .nil

theorem sound_looseRows (s : State) : All Sound s.looseRows :=
  .flatMap fun _ => .append (.map fun _ _ _ h => h.tryStreamingAccessPerform) (.cons (fun _ _ h => h.trySillageHoldRelease) .nil)

theorem sound_swarmRows (s : State) : All Sound s.swarmRows :=
  .append (.append (.append (.append (.flatMap fun _ => .map fun _ _ _ h => h.trySpawnBroadcast)
    (.flatMap fun _ => .map fun _ _ _ h => h.tryChunkRequest)) (.map fun _ _ _ h => h.tryPsWindow))
    (.map fun _ _ _ h => h.tryBasinRefill)) (.map fun _ _ _ h => h.tryCastRetry)

theorem sound_copyRows (s : State) : All Sound s.copyRows :=
  .flatMap fun _ => .cons (fun _ _ h => h.tryCopyCompletion) (.flatMap fun _ =>
    .cons (fun _ _ h => h.tryCopyResume) (.cons (fun _ _ h => h.tryVersionWaitWake) (.cons (fun _ _ h => h.tryPromiseRevision)
    (.cons (fun _ _ h => h.tryDenseCopy) (.cons (fun _ _ h => h.tryGather) (.cons (fun _ _ h => h.tryScatter)
    (.cons (fun _ _ h => h.tryPooledGather) (.cons (fun _ _ h => h.tryRowReplace) .nil))))))))

theorem sound_tileRows (s : State) : All Sound s.tileRows :=
  .flatMap fun _ => .append (.append (.append
    (.flatMap fun _ => .cons (fun _ _ h => h.tryTaskCompletion) (.cons (fun _ _ h => h.tryAclr) (.cons (fun _ _ h => h.tryAload) .nil)))
    (.flatMap fun _ => .append (.append (.cons (fun _ _ h => h.tryMma) .nil)
      (.flatMap fun _ => .cons (fun _ _ h => h.tryExponentMessage) (.cons (fun _ _ h => h.tryApplyBlock) .nil)))
      (.cons (fun _ _ h => h.tryRdout) (.cons (fun _ _ h => h.tryAsave) (.cons (fun _ _ h => h.tryAfree)
      (.cons (fun _ _ h => h.tryGroupWatchdog) .nil))))))
    (.map fun _ _ _ h => h.tryTaskResume)) (.cons (fun _ _ h => h.tryTaskDispatch) .nil)

theorem sound_memSideRows (s : State) : All Sound s.memSideRows :=
  .flatMap fun _ => .cons (fun _ _ h => h.tryMsCompletion) (.cons (fun _ _ h => h.tryMsResume) (.cons (fun _ _ h => h.tryMsReduce)
    (.cons (fun _ _ h => h.tryMsFill) (.cons (fun _ _ h => h.tryMsCopy) (.cons (fun _ _ h => h.tryMsFeInit)
    (.cons (fun _ _ h => h.tryMsRequestStart) .nil))))))

theorem sound_collectiveRows (s : State) : All Sound s.collectiveRows :=
  .append (.flatMap fun _ => .append (.cons (fun _ _ h => h.tryColCompletion) (.cons (fun _ _ h => h.tryColAbort)
    (.cons (fun _ _ h => h.tryColResume) (.cons (fun _ _ h => h.tryColDenseAllreduce) (.cons (fun _ _ h => h.tryColSparseAllreduce)
    (.cons (fun _ _ h => h.tryColBroadcast) (.cons (fun _ _ h => h.tryColAllGather) .nil)))))))
    (.ite (.cons (fun _ _ h => h.tryCollectiveInstanceStart) .nil) .nil))
    (.flatMap fun _ => .cons (fun _ _ h => h.tryCommCreate) (.cons (fun _ _ h => h.tryCommEnd) .nil))

theorem sound_graphRows (s : State) : All Sound s.graphRows :=
  .append (.flatMap fun _ => .map fun _ _ _ h => h.tryNodeCompletion)
    (.cons (fun _ _ h => h.tryRunStart) (.cons (fun _ _ h => h.tryNodeStart) .nil))

theorem sound_laterRows (s : State) : All Sound s.laterRows :=
  .append (.append (.append (.map fun _ _ _ h => h.lateOut) (.map fun _ _ _ h => h.traceRow)) (.map fun _ _ _ h => h.owedRow))
    (.ite (.cons (fun _ _ h => h.tryUploadResume) .nil) .nil)

/-- Every step that may be due. -/
theorem sound_rows (s : State) : All Sound s.rows := by
  unfold State.rows
  refine .append (.append (.append (.append (.append (.append (.append (.append (.append (.append (.append (.append
    (sound_laterRows s) (sound_looseRows s)) (.flatMap fun x => sound_agentRows x.1 x.2)) ?posts) (sound_copyRows s)) (sound_tileRows s))
    (sound_memSideRows s)) (sound_collectiveRows s)) (sound_swarmRows s)) (sound_graphRows s)) ?suspends) ?wakes) ?boots
  case posts => exact .ite .nil (.cons (fun _ _ h => h.tryTrapRecordPost) .nil)
  case suspends => exact .ite (.cons (fun _ _ h => h.tryJobSuspend) .nil) .nil
  case wakes => exact .map fun _ _ _ h => h.tryDieWake
  case boots => exact .ite (.cons (fun _ _ h => h.tryBootStep) .nil) .nil

/-- A move that comes at a cycle keeps the canonical form. -/
def Timed (x : Nat × (State → Option State)) : Prop := Sound x.2

theorem timed_drawTurns (s : State) (die : Nat) : All Timed (s.drawTurns die) := .map fun _ _ _ h => h.trySlotDraw

theorem timed_agentTurns (s : State) (masters : Bool) : All Timed (s.agentTurns masters) := .map fun _ _ _ h => h.offer

theorem timed_conduitTurns (s : State) : All Timed s.conduitTurns := .map fun _ _ _ h => h.tryConduitTake

theorem timed_waitEnds {s : State} {a : Nat} {w : Wait} {x} (e : s.waitEnds a w = some x) : Timed x := by
  unfold State.waitEnds at e
  split at e
  · exact Option.some.inj e ▸ fun _ _ h => h.tryLongLatencyResult
  · exact Option.some.inj e ▸ fun _ _ h => h.trySleepWake
  · exact Option.some.inj e ▸ fun _ _ h => h.tryCpwaitPromiseReached
  · exact Option.some.inj e ▸ fun _ _ h => h.tryMemoryRequestAtHome
  · exact Option.some.inj e ▸ fun _ _ h => h.tryMemoryRequestAtHome
  · cases e

theorem timed_broadcastTimes (s : State) : All Timed s.broadcastTimes :=
  .ite .nil (.flatMap fun _ => .map fun _ _ _ h => h.trySpawnBroadcast)

theorem timed_agentTimes (s : State) (a : Nat) (x : Agent) : All Timed (s.agentTimes a x) := by
  refine .append (.append (.toList fun _ => timed_waitEnds) (.toList fun y e => ?_)) (.ite (.cons (fun _ _ h => h.tryDebugStop) .nil) .nil)
  obtain ⟨r, -, rfl⟩ := Option.map_eq_some_iff.mp e
  exact fun _ _ h => h.tryTransactionRetry

theorem timed_parkedTime (s : State) (p : Parked) : Timed (s.parkedTime p) := fun _ _ h => h.tryIdleWake

theorem timed_waitTimes (s : State) : All Timed s.waitTimes :=
  .append (.append (.append (.append (.append (.append
    (.flatMap fun x => timed_agentTimes s x.1 x.2) (.map fun _ _ _ h => h.tryPsResult)) (.map (timed_parkedTime s)))
    (.flatMap fun _ => .cons (fun _ _ h => h.tryWatchLimit) (.ite (.cons (fun _ _ h => h.tryMwaitPoll) .nil) .nil)))
    (.flatMap fun _ => .map fun _ _ _ h => h.tryPromiseRevision)) (.flatMap fun _ => .map fun _ _ _ h => h.tryGroupWatchdog))
    (.map fun _ _ _ h => h.tryCastRetry)

theorem timed_packageTimes (s : State) : All Timed s.packageTimes := by
  refine .append (.append (.flatMap fun _ => .map fun _ _ _ h => h.tryPriTimeout) (.map fun _ _ _ h => h.tryDieWake))
    (.toList fun y e => ?_)
  obtain ⟨c, -, rfl⟩ := Option.map_eq_some_iff.mp e
  exact fun _ _ h => h.trySnapshotLatch

theorem timed_jobTimes (s : State) : All Timed s.jobTimes :=
  .append (.append (.append (timed_agentTurns s false) (.flatMap (timed_drawTurns s))) (timed_waitTimes s)) (timed_broadcastTimes s)

theorem timed_times (s : State) : All Timed s.times := by
  refine .append (.append (timed_jobTimes s) (.flatMap fun j x hx => ?_)) (timed_packageTimes s)
  obtain ⟨y, hy, rfl⟩ := List.mem_map.mp hx
  exact fun t u h e => timed_jobTimes (s.focusJob j.1) y hy _ _ h.focusJob e

theorem timed_earlier {x y : Nat × (State → Option State)} (hx : Timed x) (hy : Timed y) : Timed (earlier x y) := by
  unfold earlier
  split
  · exact hy
  · exact hx

theorem timed_earliest {l : List (Nat × (State → Option State))} {x} (h : All Timed l) (e : earliest l = some x) : Timed x := by
  cases l with
  | nil => cases e
  | cons y l =>
    obtain rfl := Option.some.inj e
    obtain ⟨hy, hl⟩ := List.forall_mem_cons.mp h
    exact List.foldlRecOn l earlier (motive := Timed) hy fun _ hz x hx => timed_earlier hz (hl x hx)

theorem timed_must {s : State} {x} (e : s.must = some x) : Timed x := timed_earliest (timed_times s).filter e

theorem sound_choose {s : State} {c f} (e : s.choose = (c, some f)) : Sound f := by
  unfold State.choose at e
  split at e
  · next found =>
    cases e
    exact sound_rows s _ (List.mem_of_find?_eq_some found)
  · have timed {x} := timed_earliest (x := x) (((All.toList fun _ => timed_must (s := s)).append (timed_agentTurns s true)).append
      (timed_conduitTurns s))
    split at e
    · cases e
    · cases e
    · next first =>
      split at e
      · cases e
      · cases e
        exact timed first

end Sys2Proof.Machine
end

section
/-! PROOFS. What enters from outside, the moves the schedule names, and the step. -/

namespace Sys2Proof.Machine

variable {s t : State} {p : Pkg}

theorem Canonical.readEarly (h : Canonical s) {request chunk cell} (e : s.readEarly request chunk cell = some t) : Canonical t := by
  unfold State.readEarly at e
  split at e
  · exact h.update.ofSome e
  · cases e

theorem Canonical.asFirmware (h : Canonical s) {f} (kf : ∀ t, Canonical t → Canonical (f t))
    (e : s.asFirmware f = some t) : Canonical t := by
  unfold State.asFirmware at e
  extract_lets _ _ _ u at e
  have hu : Canonical u := kf _ h.focusJob.focus.update
  split at e
  · cases e
  · exact hu.focus.update.focusJob.ofSome e

theorem Canonical.firmwareLoad (h : Canonical s) {va size} (e : s.firmwareLoad va size = some t) : Canonical t := by
  unfold State.firmwareLoad at e
  extract_lets at e
  split at e
  · cases e
  · split at e
    · cases e
    · next e2 =>
        split at e
        · next e3 => exact ((h.focusJob.check e2).readAt e3).updatePkg.focusJob.ofSome e
        · cases e

theorem Canonical.firmwareStore (h : Canonical s) {va size v} (e : s.firmwareStore va size v = some t) : Canonical t := by
  unfold State.firmwareStore at e
  extract_lets at e
  split at e
  · cases e
  · split at e
    · cases e
    · next e2 =>
        split at e
        · next e3 => exact ((h.focusJob.check e2).writeAt e3).focusJob.ofSome e
        · cases e

theorem Canonical.enter (h : Canonical s) {x} (e : s.enter x = some t) : Canonical t := by
  unfold State.enter at e
  split at e
  · exact h.firmwareWrite.ofSome e
  · exact h.updatePkg.ofSome e
  · exact h.loadDevice.ofSome e
  · exact h.readStopped e
  · exact h.writeStopped e
  · exact h.firmwareLoad e
  · exact h.firmwareStore e
  · exact h.asFirmware (fun _ h1 => h1.spillSlot) e
  · exact h.asFirmware (fun _ h1 => h1.loadSlot) e
  · exact h.asFirmware (fun _ h1 => h1.stopSlot) e
  · exact h.asFirmware (fun _ h1 => h1.goSlot) e
  · exact h.asFirmware (fun _ h1 => h1.invalidate) e
  · exact h.delayPs e
  · exact h.losePs e
  · exact h.castLost e
  · exact h.writeJobPage e
  · exact h.wordError.ofSome e
  · exact h.panelError.ofSome e
  · exact h.rowError.ofSome e
  · exact h.spawnError e
  · split at e
    · exact h.setPoison.ofSome e
    · cases e
  · exact h.focus.streamingLost e
  · exact h.focus.postLost e
  · exact h.requestLost e
  · exact h.failFlash.ofSome e
  · exact h.placeImage e
  · exact h.portRead.ofSome e
  · exact h.portWrite.ofSome e
  · exact h.portWrite.ofSome e
  · obtain ⟨y, ey, e⟩ := Option.bind_eq_some_iff.mp e
    exact h.writerFails e

theorem Canonical.makeOther (h : Canonical s) {m} (e : s.makeOther m = some t) : Canonical t := by
  unfold State.makeOther at e
  split at e
  · cases e
  · cases e
  · exact h.offer e
  · exact h.update.offer e
  · exact h.focus.forfeit e
  · exact h.roomMade e
  · exact h.owedRow e
  · exact h.traceRow e
  · exact h.readEarly e
  · exact h.earlyBag e
  · exact h.lateOut e
  · exact h.tryUploadResume e
  · exact h.tryBootStep e
  · exact h.enter e

theorem Canonical.make (h : Canonical s) {m} : Out.Kept (s.make m) := by
  unfold State.make
  split
  · split
    · exact h.exec
    · trivial
  · split
    · exact h.update.exec
    · trivial
  · exact h.passing (fun _ h1 => h.makeOther h1)

theorem Canonical.scheduled (h : Canonical s) {q rest} : Out.Kept (s.scheduled q rest) := by
  unfold State.scheduled
  split
  · next must =>
    split
    · exact h.atCycle.passing fun t => timed_must must _ t h.atCycle
    · exact h.update.atCycle.focusJob.make
  · exact h.update.atCycle.focusJob.make

theorem Canonical.move (h : Canonical s) : Out.Kept s.move := by
  unfold State.move
  split
  · split
    · exact h.takeTurn
    · exact h.update
  · extract_lets u
    have hu : Canonical u := h.update
    split
    · exact hu.scheduled
    · split
      · next chosen => exact hu.atCycle.passing fun t => sound_choose chosen _ t hu.atCycle
      · exact hu.atCycle

theorem Canonical.step (h : Canonical s) : Out.Kept (step s) := h.move

/-- Settles O60: memory is written only by operations that keep it sorted and without bytes of the unlisted value, the bits, the marks and
the device registers only by operations on rising lists, and every step is made of these. -/
theorem everyStepKeepsMemoryCanonical : Obligations.EveryStepKeepsMemoryCanonical := by
  unfold Obligations.EveryStepKeepsMemoryCanonical
  exact fun _ _ h e => h.step.of e

end Sys2Proof.Machine
end

section
/-! PROOFS. Lanes of a vector register (R116, R117, R184, R186): what stands at a lane of numbers laid side by side, which lanes a mask
makes active, and what a vector result writes. -/

namespace Sys2Proof.Machine

theorem getD_map_of_lt {α β : Type} (f : α → β) {l : List α} {i : Nat} (h : i < l.length) (a : α) (b : β) :
    (l.map f).getD i b = f (l.getD i a) := by
  rw [List.getD_eq_getElem _ _ (by rwa [List.length_map]), List.getElem_map, List.getD_eq_getElem _ _ h]

theorem packBits_lt (w : Nat) (l : List Nat) : packBits w l < 2 ^ (w * l.length) := by
  induction l with
  | nil => simp [packBits]
  | cons x l ih =>
    have low : x % 2 ^ w < 2 ^ w := Nat.mod_lt _ (Nat.two_pow_pos w)
    calc packBits w (x :: l) < 2 ^ w * (packBits w l + 1) := by rw [packBits]; linarith
      _ ≤ 2 ^ w * 2 ^ (w * l.length) := Nat.mul_le_mul_left _ ih
      _ = 2 ^ (w * (x :: l).length) := by rw [← pow_add, List.length_cons]; congr 1; ring

/-- The number that stands at place i of numbers laid side by side. -/
theorem packBits_at (w : Nat) (l : List Nat) (i : Nat) : packBits w l / 2 ^ (w * i) % 2 ^ w = l.getD i 0 % 2 ^ w := by
  induction l generalizing i with
  | nil => simp [packBits]
  | cons x l ih =>
    have above : packBits w (x :: l) / 2 ^ w = packBits w l := by
      rw [packBits, Nat.add_mul_div_left _ _ (Nat.two_pow_pos w), Nat.mod_div_self, Nat.zero_add]
    cases i with
    | zero => simp [packBits]
    | succ i => rw [List.getD_cons_succ, ← ih, ← above, Nat.div_div_eq_div_mul, ← pow_add, Nat.mul_succ, Nat.add_comm w]

theorem laneAt_lt (w : Nat) (x : VWord) (i : Nat) : laneAt w x i < 2 ^ w := Nat.mod_lt _ (Nat.two_pow_pos w)

/-- Bit j of lane i of a register. -/
theorem testBit_laneAt (w : Nat) (x : VWord) (i j : Nat) : (laneAt w x i).testBit j = (decide (j < w) && x.getLsbD (w * i + j)) := by
  rw [laneAt, Nat.testBit_mod_two_pow, Nat.testBit_div_two_pow, BitVec.getLsbD, Nat.add_comm]

/-- A lane of a register that holds a number. -/
theorem laneAt_ofNat {w i : Nat} (h : w * i + w ≤ 512) (n : Nat) : laneAt w (BitVec.ofNat 512 n) i = n / 2 ^ (w * i) % 2 ^ w := by
  refine Nat.eq_of_testBit_eq fun j => ?_
  rw [testBit_laneAt, Nat.testBit_mod_two_pow, Nat.testBit_div_two_pow, BitVec.getLsbD_ofNat, Nat.add_comm j]
  by_cases hj : j < w
  · simp [hj, show w * i + j < 512 by omega]
  · simp [hj]

theorem laneAt_ofLanes {w i : Nat} (h : w * i + w ≤ 512) (l : List Nat) : laneAt w (ofLanes w l) i = l.getD i 0 % 2 ^ w := by
  rw [ofLanes, laneAt_ofNat h, packBits_at]

/-! Signed lanes (R89, R116). -/

/-- Two's complement as the words of Lean have it (R89). -/
theorem sx_eq_toInt {w : Nat} (pos : 0 < w) (n : Nat) : sx n w = (BitVec.ofNat w n).toInt := by
  have half : 2 ^ w = 2 * 2 ^ (w - 1) := by rw [← pow_succ', Nat.sub_add_cancel pos]
  rw [BitVec.toInt_eq_toNat_cond, BitVec.toNat_ofNat, sx]
  have cast : ((2 ^ w : Nat) : Int) = 2 ^ w := by push_cast; rfl
  rw [cast]
  exact if_congr (by omega) rfl rfl

theorem ofNat_low (w : Nat) (v : Int) : BitVec.ofNat w (low v w) = BitVec.ofInt w v := by
  refine BitVec.eq_of_toNat_eq ?_
  have pos : (0 : Int) < 2 ^ w := by positivity
  rw [BitVec.toNat_ofNat, BitVec.toNat_ofInt, low, Nat.cast_pow, Nat.cast_ofNat, Nat.mod_eq_of_lt]
  zify
  rw [Int.toNat_of_nonneg (Int.emod_nonneg _ pos.ne')]
  exact Int.emod_lt_of_pos _ pos

/-- An integer within a lane's range reads back from its low bits. -/
theorem toInt_low {w : Nat} (pos : 0 < w) {v : Int} (low_le : -2 ^ (w - 1) ≤ v) (lt : v < 2 ^ (w - 1)) : (BitVec.ofNat w (low v w)).toInt = v := by
  rw [ofNat_low, BitVec.toInt_ofInt_eq_self pos low_le lt]

theorem low_lt (v : Int) (w : Nat) : low v w < 2 ^ w := by
  have pos : (0 : Int) < 2 ^ w := by positivity
  zify
  rw [low, Int.toNat_of_nonneg (Int.emod_nonneg _ pos.ne')]
  exact Int.emod_lt_of_pos _ pos

theorem laneInt_ofLanes {w i : Nat} (h : w * i + w ≤ 512) (l : List Nat) :
    laneInt w (ofLanes w l) i = (BitVec.ofNat w (l.getD i 0)).toInt := by
  rw [laneInt, laneAt_ofLanes h, ← BitVec.toNat_ofNat, BitVec.ofNat_toNat, BitVec.setWidth_eq]

/-! The lanes of a type, and which of them a mask makes active. -/

theorem width_pos (t : LaneTy) : 0 < t.width := by cases t <;> decide

theorem width_mul_lanes (t : LaneTy) : t.width * t.lanes = 512 := by cases t <;> rfl

/-- Every lane of a type lies within the register. -/
theorem lane_fits (t : LaneTy) {i : Nat} (h : i < t.lanes) : t.width * i + t.width ≤ 512 := by
  rw [← width_mul_lanes t, ← Nat.mul_succ]
  exact Nat.mul_le_mul_left _ h

theorem length_lanesOf (t : LaneTy) (x : VWord) : (lanesOf t x).length = t.lanes := length_unpackBits _ _ _

theorem lane_lanesOf {t : LaneTy} {i : Nat} (h : i < t.lanes) (x : VWord) : lane (lanesOf t x) i = laneAt t.width x i :=
  getD_unpackBits t.width h x.toNat 0

theorem maskBit_eq (m : BitVec 16) (i : Nat) : maskBit m i = m.getLsbD i := by
  rw [maskBit, BitVec.getLsbD, Nat.testBit_eq_decide_div_mod_eq]

/-- The mask bit of a lane is that of the lowest byte lane in it (R117). -/
theorem active_eq (t : LaneTy) (m : BitVec 16) (i : Nat) : active m t.lanes i = laneOn t m i := by
  rw [active, laneOn, maskBit_eq]
  congr 1
  cases t
  case i32 | f32 => exact (Nat.div_one i).trans (Nat.mul_div_cancel i (by decide)).symm
  case i16 | bf16 | f16 => exact (Nat.mul_div_mul_right i 2 (by decide : 0 < 16)).symm
  case i8 => exact (Nat.mul_div_mul_right i 4 (by decide : 0 < 16)).symm

/-- A flag stands in a union of flags just where it stands in one of them. -/
theorem getLsbD_foldl_or {α : Type} (l : List (α × Word)) (a : Word) (j : Nat) :
    (l.foldl (fun f x => f ||| x.2) a).getLsbD j = true ↔ a.getLsbD j = true ∨ ∃ x ∈ l, x.2.getLsbD j = true := by
  induction l generalizing a with
  | nil => simp
  | cons x l ih => rw [List.foldl_cons, ih, BitVec.getLsbD_or, Bool.or_eq_true, or_assoc]; simp

theorem vresult_wrote (s : State) (d : VReg) (r : VWord × Word) : WroteV s d r.1 r.2 (s.vresult d r) :=
  ⟨fun q => v_setV s d q r.1, rfl, rfl, rfl, sameMemory_refl s⟩

section Mask
variable (t : LaneTy) (m : BitVec 16) (old : VWord) (f : Nat → Nat × Word)

/-- What lane i of a result under a mask and its flags are. -/
def maskedLane (i : Nat) : Nat × Word := if laneOn t m i then f i else (laneAt t.width old i, 0#64)

theorem mapLanes_eq : mapLanes t.width t.lanes m old f = (ofLanes t.width ((List.range t.lanes).map (fun i => (maskedLane t m old f i).1)),
    ((List.range t.lanes).map (maskedLane t m old f)).foldl (fun a x => a ||| x.2) 0#64) := by
  have same : (List.range t.lanes).map (fun i => if active m t.lanes i then f i else
      (lane (unpackBits t.width t.lanes old.toNat) i, 0#64)) = (List.range t.lanes).map (maskedLane t m old f) := by
    refine List.map_congr_left fun i hi => ?_
    rw [maskedLane, active_eq, ← lane_lanesOf (List.mem_range.mp hi), lanesOf]
  rw [mapLanes, same, List.map_map]
  rfl

theorem maskedLane_on {i : Nat} (h : laneOn t m i = true) : maskedLane t m old f i = f i := if_pos h

theorem maskedLane_off {i : Nat} (h : ¬ laneOn t m i = true) : maskedLane t m old f i = (laneAt t.width old i, 0#64) := if_neg h

/-- Lanes of a masked result (R184). -/
theorem mapLanes_lane (small : ∀ i, (f i).1 < 2 ^ t.width) {i : Nat} (h : i < t.lanes) :
    laneAt t.width (mapLanes t.width t.lanes m old f).1 i = (maskedLane t m old f i).1 := by
  rw [mapLanes_eq, laneAt_ofLanes (lane_fits t h), List.getD_eq_getElem _ _ (by simpa using h), List.getElem_map, List.getElem_range]
  refine Nat.mod_eq_of_lt ?_
  unfold maskedLane
  split
  · exact small i
  · exact laneAt_lt _ _ _

/-- Flags of a masked result: those of its active lanes together (R186). -/
theorem mapLanes_flags (j : Nat) : (mapLanes t.width t.lanes m old f).2.getLsbD j = true ↔
    ∃ i < t.lanes, (maskedLane t m old f i).2.getLsbD j = true := by
  rw [mapLanes_eq, getLsbD_foldl_or]
  simp

/-- A masked result has what holds of the values and flags its function gives at active lanes. -/
theorem mapLanes_lanes (small : ∀ i, (f i).1 < 2 ^ t.width) {R : Nat → Nat → Word → Prop} (h : ∀ i < t.lanes, R i (f i).1 (f i).2)
    {i : Nat} (hi : i < t.lanes) :
    if laneOn t m i then R i (laneAt t.width (mapLanes t.width t.lanes m old f).1 i) (maskedLane t m old f i).2
      else laneAt t.width (mapLanes t.width t.lanes m old f).1 i = laneAt t.width old i ∧ (maskedLane t m old f i).2 = 0#64 := by
  rw [mapLanes_lane t m old f small hi]
  split
  · next on => rw [maskedLane_on t m old f on]; exact h i hi
  · next off => rw [maskedLane_off t m old f off]; exact ⟨rfl, rfl⟩

end Mask

/-- A masked vector result is lane-wise. -/
theorem vresult_laneWise {s : State} {t : LaneTy} {k d : VReg} {f : Nat → Nat × Word} {R : Nat → Nat → Word → Prop}
    (small : ∀ i, (f i).1 < 2 ^ t.width) (h : ∀ i < t.lanes, R i (f i).1 (f i).2) :
    LaneWise t k d R s (s.vresult d (mapLanes t.width t.lanes (s.k k) (s.v d) f)) :=
  ⟨_, _, _, vresult_wrote s d _, fun _ hi => mapLanes_lanes t (s.k k) (s.v d) f small h hi, mapLanes_flags t (s.k k) (s.v d) f⟩

end Sys2Proof.Machine
end

section
/-! PROOFS. Exact values and their rounding to integers (R12, R89, R90): the real number a value is, the binade it lies in, and that the
model's rounding of a mantissa is the rounding of the real. -/

namespace Sys2Proof.Machine

theorem real_fin (neg : Bool) (m : Nat) (e : Int) : (FVal.fin neg m e).real = (signed neg m : Int) * 2 ^ e := by
  cases neg <;> simp [FVal.real, signed]

theorem abs_real_fin (neg : Bool) (m : Nat) (e : Int) : |(FVal.fin neg m e).real| = m * 2 ^ e := by
  have power : (0 : Rat) ≤ 2 ^ e := by positivity
  rw [real_fin, abs_mul, abs_of_nonneg power]
  cases neg <;> simp [signed]

theorem real_fin_ne_zero {neg : Bool} {m : Nat} {e : Int} (h : m ≠ 0) : (FVal.fin neg m e).real ≠ 0 := by
  have power : (2 : Rat) ^ e ≠ 0 := by positivity
  rw [← abs_ne_zero, abs_real_fin]
  exact mul_ne_zero (Nat.cast_ne_zero.mpr h) power

theorem real_ofInt (v e : Int) (z : Bool) : (FVal.ofInt v e z).real = v * 2 ^ e := by
  unfold FVal.ofInt
  split
  · next h => simp [FVal.real, h]
  · rw [real_fin]
    congr 2
    rcases lt_or_ge v 0 with h | h
    · simp [signed, h, abs_of_neg h]
    · simp [signed, not_lt.mpr h, abs_of_nonneg h]

theorem finite_ofInt (v e : Int) (z : Bool) : (FVal.ofInt v e z).finite = true := by
  unfold FVal.ofInt
  split <;> rfl

theorem ofInt_ne_minus_zero (v e : Int) : FVal.ofInt v e false ≠ .zero true := by
  unfold FVal.ofInt
  split <;> simp

/-- The binade a finite value lies in (R89). -/
theorem expOf_bounds {m : Nat} (h : m ≠ 0) (e : Int) : (2 : Rat) ^ expOf m e ≤ m * 2 ^ e ∧ (m : Rat) * 2 ^ e < 2 ^ (expOf m e + 1) := by
  have power : (0 : Rat) < 2 ^ e := by positivity
  have low : ((2 ^ m.log2 : Nat) : Rat) ≤ m := Nat.cast_le.mpr (Nat.log2_self_le h)
  have high : (m : Rat) < ((2 ^ (m.log2 + 1) : Nat) : Rat) := Nat.cast_lt.mpr Nat.lt_log2_self
  push_cast at low high
  unfold expOf
  constructor
  · rw [zpow_add₀ two_ne_zero, zpow_natCast]
    exact mul_le_mul_of_nonneg_right low power.le
  · rw [show (m.log2 : Int) + e + 1 = ((m.log2 + 1 : Nat) : Int) + e by push_cast; ring, zpow_add₀ two_ne_zero, zpow_natCast]
    exact mul_lt_mul_of_pos_right high power

theorem expOf_eq {m : Nat} (h : m ≠ 0) {e n : Int} (low : (2 : Rat) ^ n ≤ m * 2 ^ e) (high : (m : Rat) * 2 ^ e < 2 ^ (n + 1)) :
    expOf m e = n := by
  obtain ⟨low', high'⟩ := expOf_bounds h e
  have above := (zpow_lt_zpow_iff_right₀ (by norm_num : (1 : Rat) < 2)).mp (low.trans_lt high')
  have below := (zpow_lt_zpow_iff_right₀ (by norm_num : (1 : Rat) < 2)).mp (low'.trans_lt high)
  omega

theorem round_intCast (mode : RMode) (n : Int) : mode.round (n : Rat) = n := by
  cases mode <;> simp [RMode.round]

theorem floor_le_round (mode : RMode) (x : Rat) : ⌊x⌋ ≤ mode.round x := by
  have ceil := Int.floor_le_ceil x
  cases mode
  case rdn => exact le_refl _
  case rup => exact ceil
  all_goals simp only [RMode.round]; split_ifs <;> omega

theorem round_le_ceil (mode : RMode) (x : Rat) : mode.round x ≤ ⌈x⌉ := by
  have ceil := Int.floor_le_ceil x
  have next : ¬ x - ⌊x⌋ < 1 / 2 → ⌊x⌋ + 1 ≤ ⌈x⌉ := fun h => Int.lt_ceil.mpr (by linarith)
  cases mode
  case rdn => exact ceil
  case rup => exact le_refl _
  case rtz => simp only [RMode.round]; split_ifs <;> omega
  case rne =>
    simp only [RMode.round]
    split_ifs with near
    · exact ceil
    · exact next near
    · exact ceil
    · exact next near

/-- A rounding of a number strictly between two integers, by mode. -/
theorem round_between {z : Int} {t : Rat} (pos : 0 < t) (lt : t < 1) :
    RMode.rdn.round (z + t) = z ∧ RMode.rup.round (z + t) = z + 1 ∧ RMode.rtz.round (z + t) = (if z < 0 then z + 1 else z) ∧
      RMode.rne.round (z + t) = if t < 1 / 2 then z else if 1 / 2 < t then z + 1 else if z % 2 = 0 then z else z + 1 := by
  have floor : ⌊(z : Rat) + t⌋ = z := Int.floor_eq_iff.mpr ⟨by linarith, by linarith⟩
  have ceil : ⌈(z : Rat) + t⌉ = z + 1 := Int.ceil_eq_iff.mpr ⟨by push_cast; linarith, by push_cast; linarith⟩
  have sign : (z : Rat) + t < 0 ↔ z < 0 := by
    constructor
    · intro h
      exact_mod_cast (by linarith : (z : Rat) < 0)
    · intro h
      have : (z : Rat) ≤ -1 := by exact_mod_cast (by omega : z ≤ -1)
      linarith
  refine ⟨floor, ceil, ?_, ?_⟩
  · simp only [RMode.round, sign, floor, ceil]
  · simp only [RMode.round, floor, add_sub_cancel_left]

/-- No integer lies strictly between two neighbours. -/
theorem intCast_ne_between {z : Int} {t : Rat} (pos : 0 < t) (lt : t < 1) (n : Int) : (n : Rat) ≠ z + t := by
  intro e
  have low : z < n := by exact_mod_cast (by linarith : (z : Rat) < n)
  have high : n < z + 1 := by exact_mod_cast (by push_cast; linarith : (n : Rat) < (z + 1 : Int))
  omega

section Shift
variable (neg : Bool) (m sh : Nat) (mode : RMode)

/-- A mantissa as the integer below it, at the place of the last bit kept, and the fraction above that. -/
theorem signed_div_two_pow : ((signed neg m : Int) : Rat) / 2 ^ sh = if neg then
      ((-(m / 2 ^ sh : Nat) - 1 : Int) : Rat) + (1 - (m % 2 ^ sh : Nat) / 2 ^ sh)
    else ((m / 2 ^ sh : Nat) : Int) + ((m % 2 ^ sh : Nat) : Rat) / 2 ^ sh := by
  have power : (2 : Rat) ^ sh ≠ 0 := by positivity
  have parts : (m : Rat) = 2 ^ sh * (m / 2 ^ sh : Nat) + (m % 2 ^ sh : Nat) := by exact_mod_cast (Nat.div_add_mod m (2 ^ sh)).symm
  cases neg
  · simp only [signed, Bool.false_eq_true, if_false, Int.cast_natCast]
    rw [parts]; field_simp
  · simp only [signed, if_true, Int.cast_neg, Int.cast_natCast, Int.cast_sub, Int.cast_one]
    rw [parts]; field_simp; ring

/-- Where bits are lost, the nearest even quotient (R89, R90). -/
theorem roundShift_rne (lossy : m % 2 ^ sh ≠ 0) : (roundShift neg m sh .rne).1 = if 2 * (m % 2 ^ sh) < 2 ^ sh then m / 2 ^ sh
    else if 2 ^ sh < 2 * (m % 2 ^ sh) then m / 2 ^ sh + 1 else if m / 2 ^ sh % 2 = 0 then m / 2 ^ sh else m / 2 ^ sh + 1 := by
  rw [roundShift, if_neg lossy]
  rcases lt_trichotomy (2 * (m % 2 ^ sh)) (2 ^ sh) with h | h | h
  · simp [h, h.ne, h.le]
  · rcases Nat.mod_two_eq_zero_or_one (m / 2 ^ sh) with even | odd <;> simp [*]
  · simp [h, h.ne', h.le]

/-- A mantissa shifted right and rounded is the rounding of the real, and nothing was lost just where the real is an integer (R90). -/
theorem roundShift_value : signed neg (roundShift neg m sh mode).1 = mode.round (((signed neg m : Int) : Rat) / 2 ^ sh) ∧
    ((roundShift neg m sh mode).2 = false ↔
      ((mode.round (((signed neg m : Int) : Rat) / 2 ^ sh) : Int) : Rat) = ((signed neg m : Int) : Rat) / 2 ^ sh) := by
  have power : (0 : Rat) < 2 ^ sh := by positivity
  have parts := signed_div_two_pow neg m sh
  by_cases exact : m % 2 ^ sh = 0
  · have integer : ((signed neg m : Int) : Rat) / 2 ^ sh = (signed neg (m / 2 ^ sh) : Int) := by
      rw [parts, exact]
      cases neg <;> simp [signed]
    rw [integer, round_intCast]
    simp [roundShift, exact]
  have rne := roundShift_rne neg m sh exact
  have lossy : (roundShift neg m sh mode).2 = true := by simp [roundShift, exact]
  have up : (roundShift neg m sh .rup).1 = if neg then m / 2 ^ sh else m / 2 ^ sh + 1 := by cases neg <;> simp [roundShift, exact]
  have down : (roundShift neg m sh .rdn).1 = if neg then m / 2 ^ sh + 1 else m / 2 ^ sh := by cases neg <;> simp [roundShift, exact]
  have zero : (roundShift neg m sh .rtz).1 = m / 2 ^ sh := by simp [roundShift, exact]
  rw [lossy]
  generalize m / 2 ^ sh = q at *
  have pos : (0 : Rat) < (m % 2 ^ sh : Nat) / 2 ^ sh := div_pos (Nat.cast_pos.mpr (Nat.pos_of_ne_zero exact)) power
  have lt : ((m % 2 ^ sh : Nat) : Rat) / 2 ^ sh < 1 := by
    rw [div_lt_one power]
    exact_mod_cast Nat.mod_lt m (Nat.two_pow_pos sh)
  have below : ((m % 2 ^ sh : Nat) : Rat) / 2 ^ sh < 1 / 2 ↔ 2 * (m % 2 ^ sh) < 2 ^ sh := by
    rw [div_lt_div_iff₀ power two_pos, one_mul, mul_comm]
    exact_mod_cast Iff.rfl
  have above : 1 / 2 < ((m % 2 ^ sh : Nat) : Rat) / 2 ^ sh ↔ 2 ^ sh < 2 * (m % 2 ^ sh) := by
    rw [div_lt_div_iff₀ two_pos power, one_mul, mul_comm _ (2 : Rat)]
    exact_mod_cast Iff.rfl
  generalize ((m % 2 ^ sh : Nat) : Rat) / 2 ^ sh = t at *
  cases neg
  · simp only [Bool.false_eq_true, if_false] at parts up down
    obtain ⟨rdn', rup', rtz', rne'⟩ := round_between (z := q) pos lt
    rw [parts]
    refine ⟨?_, by simp only [intCast_ne_between pos lt]; simp⟩
    cases mode
    case rdn => rw [rdn', down]; rfl
    case rup => rw [rup', up]; rfl
    case rtz => rw [rtz', zero]; simp [signed]
    case rne =>
      rw [rne', rne]
      simp only [below, above, signed, Bool.false_eq_true, if_false]
      split_ifs <;> omega
  · simp only [if_true] at parts up down
    have pos' : 0 < 1 - t := by linarith
    have lt' : 1 - t < 1 := by linarith
    have below' : 1 - t < 1 / 2 ↔ 1 / 2 < t := by constructor <;> intro <;> linarith
    have above' : 1 / 2 < 1 - t ↔ t < 1 / 2 := by constructor <;> intro <;> linarith
    obtain ⟨rdn', rup', rtz', rne'⟩ := round_between (z := -(q : Int) - 1) pos' lt'
    rw [parts]
    refine ⟨?_, by simp only [intCast_ne_between pos' lt']; simp⟩
    cases mode
    case rdn => rw [rdn', down]; simp [signed]; ring
    case rup => rw [rup', up]; simp [signed]
    case rtz => rw [rtz', zero, if_pos (by omega)]; simp [signed]
    case rne =>
      rw [rne', rne]
      simp only [below', above', below, above, signed, if_true]
      split_ifs <;> omega

/-- A mantissa rounded to a multiple of a power of two is the rounding of the real over that power (R90). -/
theorem roundAt_value (neg : Bool) (m : Nat) (ex quantum : Int) (mode : RMode) :
    signed neg (roundAt neg m ex quantum mode).1 = mode.round ((FVal.fin neg m ex).real / 2 ^ quantum) ∧
      ((roundAt neg m ex quantum mode).2 = false ↔ ((mode.round ((FVal.fin neg m ex).real / 2 ^ quantum) : Int) : Rat) =
        (FVal.fin neg m ex).real / 2 ^ quantum) := by
  rw [real_fin, mul_div_assoc, ← zpow_sub₀ two_ne_zero]
  unfold roundAt
  split
  · next le =>
    have whole : ((signed neg m : Int) : Rat) * 2 ^ (ex - quantum) = (signed neg (m * 2 ^ (ex - quantum).toNat) : Int) := by
      rw [← Int.toNat_of_nonneg (sub_nonneg.mpr le), zpow_natCast, Int.toNat_natCast]
      cases neg <;> simp [signed]
    rw [whole, round_intCast]
    simp
  · next gt =>
    have shift : ((signed neg m : Int) : Rat) * 2 ^ (ex - quantum) = (signed neg m : Int) / 2 ^ (quantum - ex).toNat := by
      rw [← neg_sub, zpow_neg, ← zpow_natCast, Int.toNat_of_nonneg (by omega), div_eq_mul_inv]
    rw [shift]
    exact roundShift_value neg m _ mode

/-- A rounded mantissa is no larger than an integer that bounds what is rounded. -/
theorem roundAt_le {neg : Bool} {m : Nat} {ex quantum : Int} {mode : RMode} {b : Nat} (h : (m : Rat) * 2 ^ ex ≤ b * 2 ^ quantum) :
    (roundAt neg m ex quantum mode).1 ≤ b := by
  have power : (0 : Rat) < 2 ^ quantum := by positivity
  have bound : |(FVal.fin neg m ex).real / 2 ^ quantum| ≤ b := by
    rw [abs_div, abs_real_fin, abs_of_pos power, div_le_iff₀ power]
    exact h
  obtain ⟨low, high⟩ := abs_le.mp bound
  have value := (roundAt_value neg m ex quantum mode).1
  have below := (floor_le_round mode _).trans_eq value.symm
  have above := value.trans_le (round_le_ceil mode _)
  have low' : -(b : Int) ≤ ⌊(FVal.fin neg m ex).real / 2 ^ quantum⌋ := Int.le_floor.mpr (by push_cast; exact low)
  have high' : ⌈(FVal.fin neg m ex).real / 2 ^ quantum⌉ ≤ b := Int.ceil_le.mpr (by push_cast; exact high)
  cases neg
  · simp only [signed, Bool.false_eq_true, if_false] at above
    omega
  · simp only [signed, if_true] at below
    omega

end Shift

end Sys2Proof.Machine
end

section
/-! PROOFS. Formats with infinities and NaNs (R73, R74): the value of an encoding by its fields, and what rounding into a format gives
for a special value and for a power of two (R90). -/

namespace Sys2Proof.Machine

/-- What FP64, FP32, BF16 and FP16 have in common (R73, R74). -/
structure Fmt.Ieee (f : Fmt) : Prop where
  special : f.special = .ieee
  mbits : 0 < f.mbits
  ebits : 1 < f.ebits

theorem fsizeFmt_ieee (p : FSize) : (fsizeFmt p).Ieee := by cases p <;> exact ⟨rfl, by decide, by decide⟩

theorem laneFmt_ieee (t : LaneTy) : (laneFmt t).Ieee := by cases t <;> exact ⟨rfl, by decide, by decide⟩

/-! An encoding from its sign, its exponent field and its mantissa field. -/

section Fields
variable (f : Fmt) (neg : Bool) {E man : Nat}

theorem encoding_mantissa (hm : man < 2 ^ f.mbits) : (f.sign neg + (E * 2 ^ f.mbits + man)) % 2 ^ f.mbits = man := by
  have sign : f.sign neg = neg.toNat * 2 ^ f.ebits * 2 ^ f.mbits := by cases neg <;> simp [Fmt.sign, pow_add]
  rw [sign, ← Nat.add_assoc, ← Nat.add_mul, Nat.add_comm, Nat.add_mul_mod_self_right, Nat.mod_eq_of_lt hm]

theorem encoding_above (hm : man < 2 ^ f.mbits) :
    (f.sign neg + (E * 2 ^ f.mbits + man)) / 2 ^ f.mbits = neg.toNat * 2 ^ f.ebits + E := by
  have sign : f.sign neg = neg.toNat * 2 ^ f.ebits * 2 ^ f.mbits := by cases neg <;> simp [Fmt.sign, pow_add]
  rw [sign, ← Nat.add_assoc, ← Nat.add_mul, Nat.add_comm, Nat.add_mul_div_right _ _ (Nat.two_pow_pos _), Nat.div_eq_of_lt hm,
    Nat.zero_add]

theorem encoding_exponent (hE : E < 2 ^ f.ebits) (hm : man < 2 ^ f.mbits) :
    (f.sign neg + (E * 2 ^ f.mbits + man)) / 2 ^ f.mbits % 2 ^ f.ebits = E := by
  rw [encoding_above f neg hm, Nat.add_comm, Nat.add_mul_mod_self_right, Nat.mod_eq_of_lt hE]

theorem encoding_sign (hE : E < 2 ^ f.ebits) (hm : man < 2 ^ f.mbits) :
    decide ((f.sign neg + (E * 2 ^ f.mbits + man)) / 2 ^ (f.ebits + f.mbits) % 2 = 1) = neg := by
  rw [Nat.add_comm f.ebits, pow_add, ← Nat.div_div_eq_div_mul, encoding_above f neg hm, Nat.add_comm,
    Nat.add_mul_div_right _ _ (Nat.two_pow_pos _), Nat.div_eq_of_lt hE]
  cases neg <;> rfl

end Fields

theorem decode_normal (f : Fmt) (neg : Bool) {E man : Nat} (pos : 0 < E) (top : E < 2 ^ f.ebits - 1) (hm : man < 2 ^ f.mbits) :
    f.decode (f.sign neg + (E * 2 ^ f.mbits + man)) = .fin neg (2 ^ f.mbits + man) ((E : Int) - f.bias - f.mbits) := by
  have hE : E < 2 ^ f.ebits := by omega
  simp only [Fmt.decode, encoding_mantissa f neg hm, encoding_exponent f neg hE hm, encoding_sign f neg hE hm]
  simp [top.ne, pos.ne']

section Decode
variable {f : Fmt} (h : f.Ieee) (neg : Bool)
include h

theorem Fmt.Ieee.exponents : 4 ≤ 2 ^ f.ebits := Nat.pow_le_pow_right two_pos h.ebits

theorem Fmt.Ieee.decode_sign : f.decode (f.sign neg) = .zero neg := by
  have e := h.exponents
  have hE : 0 < 2 ^ f.ebits := by omega
  have hm : 0 < 2 ^ f.mbits := Nat.two_pow_pos _
  rw [show f.sign neg = f.sign neg + (0 * 2 ^ f.mbits + 0) by simp]
  simp only [Fmt.decode, encoding_mantissa f neg hm, encoding_exponent f neg hE hm, encoding_sign f neg hE hm]
  simp [show ¬ 0 = 2 ^ f.ebits - 1 by omega]

theorem Fmt.Ieee.decode_infinity : f.decode (f.infinity neg) = .inf neg := by
  have e := h.exponents
  have hE : 2 ^ f.ebits - 1 < 2 ^ f.ebits := by omega
  have hm : 0 < 2 ^ f.mbits := Nat.two_pow_pos _
  rw [Fmt.infinity, show f.sign neg + (2 ^ f.ebits - 1) * 2 ^ f.mbits = f.sign neg + ((2 ^ f.ebits - 1) * 2 ^ f.mbits + 0) from rfl]
  simp only [Fmt.decode, encoding_mantissa f neg hm, encoding_exponent f neg hE hm, encoding_sign f neg hE hm]
  simp [h.special]

theorem Fmt.Ieee.canonNan_eq : f.canonNan = f.sign false + ((2 ^ f.ebits - 1) * 2 ^ f.mbits + 2 ^ (f.mbits - 1)) := by
  simp [Fmt.canonNan, h.special, Fmt.sign]

theorem Fmt.Ieee.decode_canonNan : f.decode f.canonNan = .nan false := by
  have e := h.exponents
  have hE : 2 ^ f.ebits - 1 < 2 ^ f.ebits := by omega
  have hm : 2 ^ (f.mbits - 1) < 2 ^ f.mbits := Nat.pow_lt_pow_right (by decide) (Nat.sub_lt h.mbits one_pos)
  rw [h.canonNan_eq]
  simp only [Fmt.decode, encoding_mantissa f _ hm, encoding_exponent f _ hE hm, encoding_sign f _ hE hm]
  simp [h.special]

end Decode

/-- The mantissa and the exponent of a finite value that an encoding holds (R73). -/
theorem decode_fin {f : Fmt} {bits : Nat} {neg : Bool} {m : Nat} {e : Int} (h : f.decode bits = .fin neg m e) :
    m ≠ 0 ∧ m < 2 ^ (f.mbits + 1) ∧ f.emin - f.mbits ≤ e := by
  have low : bits % 2 ^ f.mbits < 2 ^ f.mbits := Nat.mod_lt _ (Nat.two_pow_pos _)
  have one : 0 < 2 ^ f.mbits := Nat.two_pow_pos _
  rw [pow_succ]
  unfold Fmt.decode at h
  extract_lets man ex sign at h
  have low : man < 2 ^ f.mbits := low
  split_ifs at h
  · next zero =>
    obtain ⟨rfl, rfl, rfl⟩ := FVal.fin.inj h
    exact ⟨zero, by omega, le_refl _⟩
  · obtain ⟨rfl, rfl, rfl⟩ := FVal.fin.inj h
    refine ⟨by omega, by omega, ?_⟩
    unfold Fmt.emin
    omega

theorem encoding_lt (f : Fmt) (neg : Bool) {n : Nat} (hn : n < 2 ^ (f.ebits + f.mbits)) : f.sign neg + n < 2 ^ f.width := by
  have double : 2 ^ f.width = 2 ^ (f.ebits + f.mbits) + 2 ^ (f.ebits + f.mbits) := by
    rw [Fmt.width, Nat.add_assoc, Nat.add_comm, pow_succ, Nat.mul_two]
  unfold Fmt.sign
  split <;> omega

/-- The bits kept in rounding fit the format's mantissa and one more value (R90). -/
theorem mantissa_fits (m : Nat) (ex : Int) (f : Fmt) :
    (m : Rat) * 2 ^ ex ≤ (2 ^ (f.mbits + 1) : Nat) * 2 ^ (max (expOf m ex) f.emin - f.mbits) := by
  have top : (((2 : Nat) ^ (f.mbits + 1) : Nat) : Rat) * 2 ^ (max (expOf m ex) f.emin - f.mbits) = 2 ^ (max (expOf m ex) f.emin + 1) := by
    push_cast
    rw [← zpow_natCast, ← zpow_add₀ two_ne_zero]
    congr 1
    push_cast
    ring
  rw [top]
  by_cases zero : m = 0
  · rw [zero, Nat.cast_zero, zero_mul]
    positivity
  · refine (expOf_bounds zero ex).2.le.trans (zpow_le_zpow_right₀ (by norm_num) ?_)
    have := le_max_left (expOf m ex) f.emin
    omega

section Round
variable {f : Fmt} (h : f.Ieee) (mode : RMode) (ovf : Ovf) (ftz : Bool)
include h

theorem Fmt.Ieee.round_nan (sig : Bool) : roundToFormat (.nan sig) f mode ovf ftz = (f.canonNan, flagIf sig flagNV) := by
  simp [roundToFormat, h.special]

theorem Fmt.Ieee.round_inf (neg : Bool) : roundToFormat (.inf neg) f mode ovf ftz = (f.infinity neg, 0#64) := by
  simp [roundToFormat, h.special]

theorem Fmt.Ieee.emax_eq : f.emax = f.emin + (2 ^ f.ebits - 3 : Nat) := by
  have e := h.exponents
  have cast : ((2 ^ f.ebits - 3 : Nat) : Int) = 2 ^ f.ebits - 3 := by rw [Nat.cast_sub (by omega)]; push_cast; ring
  simp only [Fmt.emax, h.special, Fmt.emin, cast]
  ring

theorem Fmt.Ieee.magnitude_lt {E n : Nat} (hE : E ≤ 2 ^ f.ebits - 3) (hn : n ≤ 2 ^ (f.mbits + 1)) :
    E * 2 ^ f.mbits + n < 2 ^ (f.ebits + f.mbits) := by
  have e := h.exponents
  have one : 0 < 2 ^ f.mbits := Nat.two_pow_pos _
  calc E * 2 ^ f.mbits + n ≤ (2 ^ f.ebits - 3) * 2 ^ f.mbits + 2 * 2 ^ f.mbits := by
        rw [pow_succ'] at hn
        exact Nat.add_le_add (Nat.mul_le_mul_right _ hE) hn
    _ = (2 ^ f.ebits - 1) * 2 ^ f.mbits := by rw [← Nat.add_mul]; congr 1; omega
    _ < 2 ^ (f.ebits + f.mbits) := by rw [pow_add]; exact Nat.mul_lt_mul_of_pos_right (by omega) one

theorem Fmt.Ieee.infinity_lt (neg : Bool) : f.infinity neg < 2 ^ f.width := by
  have e := h.exponents
  refine encoding_lt f neg ?_
  rw [pow_add]
  exact Nat.mul_lt_mul_of_pos_right (by omega) (Nat.two_pow_pos _)

theorem Fmt.Ieee.canonNan_lt : f.canonNan < 2 ^ f.width := by
  have e := h.exponents
  have half : 2 ^ (f.mbits - 1) < 2 ^ f.mbits := Nat.pow_lt_pow_right (by decide) (Nat.sub_lt h.mbits one_pos)
  rw [h.canonNan_eq]
  refine encoding_lt f false ?_
  calc (2 ^ f.ebits - 1) * 2 ^ f.mbits + 2 ^ (f.mbits - 1) < (2 ^ f.ebits - 1 + 1) * 2 ^ f.mbits := by rw [Nat.add_mul]; omega
    _ = 2 ^ (f.ebits + f.mbits) := by rw [pow_add, Nat.sub_add_cancel (by omega)]

theorem Fmt.Ieee.maxFinite_lt (neg : Bool) : f.maxFinite neg < 2 ^ f.width := by
  have largest : f.nmax ≤ 2 ^ (f.mbits + 1) := by simp [Fmt.nmax, h.special]
  refine encoding_lt f neg (h.magnitude_lt ?_ largest)
  rw [h.emax_eq]
  omega

theorem Fmt.Ieee.overflow_lt (neg : Bool) : overflow f neg mode ovf < 2 ^ f.width := by
  have inf := h.infinity_lt
  have max := h.maxFinite_lt
  simp only [overflow, h.special]
  cases ovf <;> cases mode <;> cases neg <;> simp [inf, max]

/-- An encoding has the format's width. -/
theorem Fmt.Ieee.round_lt (x : FVal) : (roundToFormat x f mode ovf ftz).1 < 2 ^ f.width := by
  cases x with
  | nan sig => rw [h.round_nan]; exact h.canonNan_lt
  | inf neg => rw [h.round_inf]; exact h.infinity_lt neg
  | zero neg => exact encoding_lt f neg (n := 0) (Nat.two_pow_pos _)
  | fin neg m ex =>
    have top := h.emax_eq
    simp only [roundToFormat]
    have small : (roundAt neg m ex (max (expOf m ex) f.emin - f.mbits) mode).1 ≤ 2 ^ (f.mbits + 1) := roundAt_le (mantissa_fits m ex f)
    split_ifs with beyond flush
    · exact h.overflow_lt mode ovf neg
    · exact encoding_lt f neg (n := 0) (Nat.two_pow_pos _)
    · refine encoding_lt f neg (h.magnitude_lt ?_ small)
      simp only [gt_iff_lt, Bool.or_eq_true, decide_eq_true_eq, not_or, not_lt] at beyond
      omega

/-- A power of two within the format's range is exact. -/
theorem Fmt.Ieee.round_two_pow {neg : Bool} {m : Nat} {ex n : Int} (value : (m : Rat) * 2 ^ ex = 2 ^ n) (low : f.emin ≤ n) (high : n ≤ f.emax) :
    (roundToFormat (.fin neg m ex) f mode ovf ftz).2 = 0#64 ∧
      f.decode (roundToFormat (.fin neg m ex) f mode ovf ftz).1 = .fin neg (2 ^ f.mbits) (n - f.mbits) := by
  have e := h.exponents
  have top := h.emax_eq
  have nonzero : m ≠ 0 := by
    rintro rfl
    have : (2 : Rat) ^ n ≠ 0 := by positivity
    simp_all
  have exponent : max (expOf m ex) f.emin = n := by
    rw [expOf_eq nonzero value.ge (value.trans_lt (zpow_lt_zpow_right₀ (by norm_num) (lt_add_one n))), max_eq_left low]
  have quotient : (FVal.fin neg m ex).real / 2 ^ (n - f.mbits : Int) = (signed neg (2 ^ f.mbits) : Int) := by
    have power : (2 : Rat) ^ n ≠ 0 := by positivity
    rw [zpow_sub₀ two_ne_zero, zpow_natCast]
    cases neg <;> simp only [FVal.real, signed, Bool.false_eq_true, if_false, if_true, neg_mul, value] <;> push_cast <;> field_simp
  obtain ⟨mantissa, exact⟩ := roundAt_value neg m ex (n - f.mbits) mode
  rw [quotient, round_intCast] at mantissa exact
  have kept : roundAt neg m ex (n - f.mbits) mode = (2 ^ f.mbits, false) := by
    refine Prod.ext ?_ (exact.mpr rfl)
    cases neg <;> simpa [signed, ← @Nat.cast_inj Int] using mantissa
  have within : 2 ^ f.mbits ≤ f.nmax := by
    simp only [Fmt.nmax, h.special, pow_succ]
    have := Nat.two_pow_pos f.mbits
    omega
  have rounded : roundToFormat (.fin neg m ex) f mode ovf ftz = (f.sign neg + (((n - f.emin).toNat + 1) * 2 ^ f.mbits + 0), 0#64) := by
    simp only [roundToFormat, exponent, kept]
    simp [not_lt.mpr high, not_lt.mpr within, flagIf, Nat.add_mul]
  rw [rounded]
  refine ⟨rfl, ?_⟩
  rw [decode_normal f neg (Nat.succ_pos _) (by omega) (Nat.two_pow_pos _)]
  congr 1
  unfold Fmt.emin at *
  omega

end Round

end Sys2Proof.Machine
end

section
/-! PROOFS. Scalar floating-point arithmetic on NaNs and infinities (O12): what sums, products and fused sums of special values are. -/

namespace Sys2Proof.Machine

/-- A finite value that is no zero has a mantissa, as every value read from an encoding does (R73). -/
def FVal.Proper (x : FVal) : Prop := ∀ neg m e, x = .fin neg m e → m ≠ 0

theorem proper_decode (f : Fmt) (bits : Nat) : (f.decode bits).Proper := fun _ _ _ e => (decode_fin e).1

@[simp] theorem sigNV_neg (x : FVal) : x.neg.sigNV = x.sigNV := by cases x <;> rfl

@[simp] theorem isNan_neg (x : FVal) : x.neg.isNan = x.isNan := by cases x <;> rfl

theorem sigNV_of_finite {x : FVal} (h : x.finite = true) : x.sigNV = 0#64 := by
  cases x with
  | nan => cases h
  | _ => rfl

/-- What an operation on infinite operands gives: an infinity, or the canonical NaN with NV (R86, R148). -/
def specialResult : Option Bool → FVal × Word
  | none => (.nan false, flagNV)
  | some n => (.inf n, 0#64)

section Values
variable {x y z : FVal} {mode : RMode}

theorem add_nan (h : x.isNan = true ∨ y.isNan = true) : x.add y mode = (.nan false, x.sigNV ||| y.sigNV) := by
  rcases h with h | h
  · cases x with
    | nan => rfl
    | _ => cases h
  · cases y with
    | nan => cases x <;> rfl
    | _ => cases h

theorem sub_nan (h : x.isNan = true ∨ y.isNan = true) : x.add y.neg mode = (.nan false, x.sigNV ||| y.sigNV) := by
  rw [add_nan (h.imp_right (isNan_neg y).trans), sigNV_neg]

theorem mul_nan (h : x.isNan = true ∨ y.isNan = true) : x.mul y = (.nan false, x.sigNV ||| y.sigNV) := by
  rcases h with h | h
  · cases x with
    | nan => rfl
    | _ => cases h
  · cases y with
    | nan => cases x <;> rfl
    | _ => cases h

theorem add_special {r : Option Bool} (h : InfSum x y r) : x.add y mode = specialResult r := by
  rcases h with ⟨m, rfl, fin, rfl⟩ | ⟨n, fin, rfl, rfl⟩ | ⟨m, n, rfl, rfl, rfl⟩
  · cases y with
    | nan | inf => cases fin
    | _ => simp [FVal.add, FVal.sigNV, specialResult]
  · cases x with
    | nan | inf => cases fin
    | _ => simp [FVal.add, FVal.sigNV, specialResult]
  · by_cases same : m = n <;> simp [FVal.add, same, specialResult, FVal.sigNV]

theorem mul_special (hx : x.Proper) (hy : y.Proper) {r : Option Bool} (h : InfProd x y r) : x.mul y = specialResult r := by
  rcases h with ⟨m, n, rfl, rfl, rfl⟩ | ⟨m, rfl, fin, rfl⟩ | ⟨n, fin, rfl, rfl⟩
  · simp [FVal.mul, FVal.sigNV, specialResult]
  · cases y with
    | zero n => simp [FVal.real, FVal.mul, specialResult]
    | fin n k e => simp [real_fin_ne_zero (hy _ _ _ rfl), FVal.mul, specialResult, FVal.isNeg, FVal.sigNV]
    | _ => cases fin
  · cases x with
    | zero n => simp [FVal.real, FVal.mul, specialResult]
    | fin n k e => simp [real_fin_ne_zero (hx _ _ _ rfl), FVal.mul, specialResult, FVal.isNeg, FVal.sigNV]
    | _ => cases fin

theorem mul_finite (hx : x.finite = true) (hy : y.finite = true) : (x.mul y).1.finite = true ∧ (x.mul y).2 = 0#64 := by
  cases x with
  | nan | inf => cases hx
  | zero | fin => cases y with
    | nan | inf => cases hy
    | zero | fin => simp [FVal.mul, FVal.finite, FVal.sigNV]

theorem fmaVal_nan (h : x.isNan = true ∨ y.isNan = true) : fmaVal mode x y z = (.nan false, x.sigNV ||| y.sigNV ||| z.sigNV) := by
  rw [fmaVal, mul_nan h, add_nan (.inl rfl)]
  simp [FVal.sigNV]

theorem fmaVal_addend_nan (hx : x.finite = true) (hy : y.finite = true) (h : z.isNan = true) :
    fmaVal mode x y z = (.nan false, z.sigNV) := by
  obtain ⟨fin, noFlag⟩ := mul_finite hx hy
  rw [fmaVal, add_nan (.inr h), noFlag, sigNV_of_finite fin]
  simp

theorem fmaVal_invalid (hx : x.Proper) (hy : y.Proper) (h : InfProd x y none) : fmaVal mode x y z = specialResult none := by
  rw [fmaVal, mul_special hx hy h, specialResult, add_nan (.inl rfl)]
  cases z with
  | nan sig => cases sig <;> simp [FVal.sigNV]
  | _ => simp [FVal.sigNV]

theorem fmaVal_infinity_nan (hx : x.Proper) (hy : y.Proper) {m : Bool} (h : InfProd x y (some m)) (nan : z.isNan = true) :
    fmaVal mode x y z = (.nan false, z.sigNV) := by
  rw [fmaVal, mul_special hx hy h, specialResult, add_nan (.inr nan)]
  simp [FVal.sigNV]

theorem fmaVal_infinity (hx : x.Proper) (hy : y.Proper) {m : Bool} {r : Option Bool} (h : InfProd x y (some m)) (sum : InfSum (.inf m) z r) :
    fmaVal mode x y z = specialResult r := by
  rw [fmaVal, mul_special hx hy h]
  simp only [specialResult, add_special sum]
  simp

theorem fmaVal_addend_inf (hx : x.finite = true) (hy : y.finite = true) (n : Bool) : fmaVal mode x y (.inf n) = specialResult (some n) := by
  obtain ⟨fin, noFlag⟩ := mul_finite hx hy
  rw [fmaVal, add_special (.inr (.inl ⟨n, fin, rfl, rfl⟩)), noFlag]
  simp [specialResult]

end Values

section Results
variable {i : Instr} {s : State} {p : FSize} {d : Reg}

theorem completes_nan {g : Word} (run : exec i s = .next (s.fpResult d (fround p s.ag.rmode (.nan false, g)))) :
    Completes i s (WroteFlags s d (BitVec.ofNat 64 (fsizeFmt p).canonNan) g 4) := by
  have rounded : fround p s.ag.rmode (.nan false, g) = (BitVec.ofNat 64 (fsizeFmt p).canonNan, g) := by
    simp [fround, (fsizeFmt_ieee p).round_nan, flagIf]
  exact ⟨_, run, rounded ▸ fpResult_wrote s d _⟩

theorem completes_inf {n : Bool} (run : exec i s = .next (s.fpResult d (fround p s.ag.rmode (.inf n, 0#64)))) :
    Completes i s (WroteFlags s d (BitVec.ofNat 64 ((fsizeFmt p).infinity n)) 0#64 4) := by
  have rounded : fround p s.ag.rmode (.inf n, 0#64) = (BitVec.ofNat 64 ((fsizeFmt p).infinity n), 0#64) := by
    simp [fround, (fsizeFmt_ieee p).round_inf]
  exact ⟨_, run, rounded ▸ fpResult_wrote s d _⟩

end Results

/-- Settles O12: sums, products and fused sums of special values one by one; each then rounds to itself. -/
theorem floatArithmeticOnSpecials : Obligations.FloatArithmeticOnSpecials := by
  unfold Obligations.FloatArithmeticOnSpecials
  intro p d a b s x y nan z nv special
  have hx : x.Proper := proper_decode _ _
  have hy : y.Proper := proper_decode _ _
  have nanOf {i v g} (run : exec i s = .next (s.fpResult d (fround p s.ag.rmode v))) (h : v = (.nan false, g)) :
      Completes i s (WroteFlags s d nan g 4) := completes_nan (h ▸ run)
  have specialOf {i v r} (run : exec i s = .next (s.fpResult d (fround p s.ag.rmode v))) (h : v = specialResult r) :
      Completes i s (special r) := by
    subst h
    cases r with
    | none => exact completes_nan run
    | some n => exact completes_inf run
  refine ⟨fun h => ⟨nanOf rfl (add_nan h), nanOf rfl (sub_nan h), nanOf rfl (mul_nan h)⟩, fun r h => specialOf rfl (add_special h),
    fun r h => specialOf rfl (add_special h), fun r h => specialOf rfl (mul_special hx hy h), fun h => nanOf rfl (fmaVal_nan h),
    fun fx fy h => nanOf rfl (fmaVal_addend_nan fx fy h), fun h => specialOf rfl (fmaVal_invalid hx hy h),
    fun m h nan => nanOf rfl (fmaVal_infinity_nan hx hy h nan), fun m r h sum => specialOf rfl (fmaVal_infinity hx hy h sum),
    fun n fx fy h => specialOf rfl (h ▸ fmaVal_addend_inf fx fy n)⟩

end Sys2Proof.Machine
end

section
/-! PROOFS. Conversions of scalar floating point (O16): a finite value becomes its rounding, clamped into the range of integers (R91). -/

namespace Sys2Proof.Machine

/-- What a finite value becomes as an integer of a range, and its flags (R91). -/
def clampedRound (mode : RMode) (x : Rat) (lo hi : Int) : Int × Word :=
  (max lo (min (mode.round x) hi),
    if mode.round x < lo ∨ hi < mode.round x then flagNV else if (mode.round x : Rat) = x then 0#64 else flagNX)

theorem toInteger_finite {x : FVal} (fin : x.finite = true) {lo hi : Int} (neg : lo ≤ 0) (pos : 0 ≤ hi) (mode : RMode) :
    toInteger x lo hi mode = clampedRound mode x.real lo hi := by
  cases x with
  | nan | inf => cases fin
  | zero n =>
    have zero : mode.round 0 = 0 := round_intCast mode 0
    simp [toInteger, clampedRound, FVal.real, zero, neg, pos, not_lt.mpr neg, not_lt.mpr pos]
  | fin n m e =>
    obtain ⟨value, lost⟩ := roundAt_value n m e 0 mode
    rw [zpow_zero, div_one] at value lost
    simp only [toInteger, clampedRound, value]
    generalize mode.round (FVal.fin n m e).real = r at lost
    by_cases below : r < lo
    · rw [if_pos below, if_pos (.inl below), max_eq_left ((min_le_left r hi).trans below.le)]
    by_cases above : hi < r
    · rw [if_neg below, if_pos above, if_pos (.inr above), min_eq_right above.le, max_eq_right (neg.trans pos)]
    rw [if_neg below, if_neg above, if_neg (not_or.mpr ⟨below, above⟩), min_eq_left (not_lt.mp above), max_eq_right (not_lt.mp below)]
    by_cases exact : (r : Rat) = (FVal.fin n m e).real
    · rw [if_pos exact, lost.mpr exact]; rfl
    · rw [if_neg exact, eq_true_of_ne_false (mt lost.mp exact)]; rfl

section Results
variable {s : State} {d a : Reg} {c : FCvt}

/-- A conversion to an integer (R91, R152): a finite value rounded and clamped, a NaN 0, an infinity the end of the range. -/
theorem fcvt_toInteger {p : FSize} {lo hi : Int} (run : exec (.fcvt c d a) s = .next (s.fpResult d (fcvtFI p s.ag.rmode (s.g a) lo hi)))
    (neg : lo ≤ 0) (pos : 0 ≤ hi) :
    ((fval p (s.g a)).finite = true → Completes (.fcvt c d a) s (
      let r := clampedRound (rmodeMode s.ag.rmode) (fval p (s.g a)).real lo hi
      WroteFlags s d (BitVec.ofInt 64 r.1) r.2 4)) ∧
    ((fval p (s.g a)).isNan = true → Completes (.fcvt c d a) s (WroteFlags s d 0#64 flagNV 4)) ∧
    (fval p (s.g a) = .inf true → Completes (.fcvt c d a) s (WroteFlags s d (BitVec.ofInt 64 lo) flagNV 4)) ∧
    (fval p (s.g a) = .inf false → Completes (.fcvt c d a) s (WroteFlags s d (BitVec.ofInt 64 hi) flagNV 4)) := by
  have done {r : Int × Word} (h : toInteger (fval p (s.g a)) lo hi (rmodeMode s.ag.rmode) = r) :
      Completes (.fcvt c d a) s (WroteFlags s d (BitVec.ofInt 64 r.1) r.2 4) := by
    subst h
    exact ⟨_, run, fpResult_wrote s d _⟩
  refine ⟨fun fin => done (toInteger_finite fin neg pos _), fun nan => ?_, fun inf => done (r := (lo, flagNV)) (by rw [inf]; rfl),
    fun inf => done (r := (hi, flagNV)) (by rw [inf]; rfl)⟩
  refine done (r := (0, flagNV)) ?_
  cases h : fval p (s.g a) with
  | nan sig => rfl
  | _ => rw [h] at nan; cases nan

/-- A conversion of an integer: one rounding of its exact value (R91, R152). -/
theorem fcvt_ofInteger {p : FSize} {n : Int} (run : exec (.fcvt c d a) s = .next (s.fpResult d (fcvtIF p s.ag.rmode n))) :
    Completes (.fcvt c d a) s (fun t => ∃ v : FVal, v.finite = true ∧ v.real = n ∧ v ≠ .zero true ∧
      let r := roundToFormat v (fsizeFmt p) (rmodeMode s.ag.rmode) .inf false
      WroteFlags s d (BitVec.ofNat 64 r.1) r.2 4 t) := by
  have rounded : fcvtIF p s.ag.rmode n = (BitVec.ofNat 64 (roundToFormat (FVal.int n) (fsizeFmt p) (rmodeMode s.ag.rmode) .inf false).1,
      (roundToFormat (FVal.int n) (fsizeFmt p) (rmodeMode s.ag.rmode) .inf false).2) := by
    simp only [fcvtIF, fround, BitVec.zero_or]
  refine ⟨_, run, FVal.int n, finite_ofInt n 0 false, ?_, ofInt_ne_minus_zero n 0, ?_⟩
  · rw [FVal.int, real_ofInt, zpow_zero, mul_one]
  · rw [rounded]
    exact fpResult_wrote s d _

/-- A conversion between formats: one rounding of the value (R152). -/
theorem fcvt_ofFloat {p q : FSize} (run : exec (.fcvt c d a) s = .next (s.fpResult d (fcvtFF p q s.ag.rmode (s.g a)))) :
    let r := roundToFormat (fval q (s.g a)) (fsizeFmt p) (rmodeMode s.ag.rmode) .inf false
    Completes (.fcvt c d a) s (WroteFlags s d (BitVec.ofNat 64 r.1) r.2 4) := by
  have rounded : fcvtFF p q s.ag.rmode (s.g a) =
      (BitVec.ofNat 64 (roundToFormat (fval q (s.g a)) (fsizeFmt p) (rmodeMode s.ag.rmode) .inf false).1,
        (roundToFormat (fval q (s.g a)) (fsizeFmt p) (rmodeMode s.ag.rmode) .inf false).2) := by
    simp only [fcvtFF, fround, BitVec.zero_or]
  refine ⟨_, run, ?_⟩
  rw [rounded]
  exact fpResult_wrote s d _

end Results

/-- The signed low half of a register (R152). -/
theorem sx_low_half (x : Word) : sx x.toNat 32 = (x.setWidth 32).toInt := by
  rw [sx_eq_toInt (by decide), BitVec.ofNat_toNat]

/-- Settles O16: a conversion to an integer is the clamped rounding, any other one rounding of the exact value. -/
theorem conversionsRoundAndClamp : Obligations.ConversionsRoundAndClamp := by
  unfold Obligations.ConversionsRoundAndClamp
  intro d a s x mode toInt ofInt
  have signedLow : sx x.toNat 32 = (x.setWidth 32).toInt := sx_low_half x
  have low : ((x.toNat % 2 ^ 32 : Nat) : Int) = (x.setWidth 32).toNat := by rw [BitVec.toNat_setWidth]
  have integer (c : FCvt) (p : FSize) (lo hi : Int) (run : fcvtW c s.ag.rmode x = fcvtFI p s.ag.rmode x lo hi) (neg : lo ≤ 0) (pos : 0 ≤ hi) :
      toInt c p lo hi := fcvt_toInteger (congrArg (fun r => Host.Outcome.next (s.fpResult d r)) run) neg pos
  have ofInteger (c : FCvt) (p : FSize) (n : Int) (run : fcvtW c s.ag.rmode x = fcvtIF p s.ag.rmode n) : ofInt c (fsizeFmt p) n :=
    fcvt_ofInteger (congrArg (fun r => Host.Outcome.next (s.fpResult d r)) run)
  refine ⟨?_, ?_, ?_, ?_, ?_, ?_, ?_, ?_, ?_, ?_, ?_, ?_, ?_, ?_, ?_, ?_, ?_, ?_⟩
  · exact integer .ws .s _ _ rfl (by decide) (by decide)
  · exact integer .wus .s _ _ rfl (by decide) (by decide)
  · exact integer .ls .s _ _ rfl (by decide) (by decide)
  · exact integer .lus .s _ _ rfl (by decide) (by decide)
  · exact integer .wd .d _ _ rfl (by decide) (by decide)
  · exact integer .wud .d _ _ rfl (by decide) (by decide)
  · exact integer .ld .d _ _ rfl (by decide) (by decide)
  · exact integer .lud .d _ _ rfl (by decide) (by decide)
  · exact ofInteger .sw .s _ (by rw [← signedLow]; rfl)
  · exact ofInteger .swu .s _ (by rw [← low]; rfl)
  · exact ofInteger .sl .s _ rfl
  · exact ofInteger .slu .s _ rfl
  · exact ofInteger .dw .d _ (by rw [← signedLow]; rfl)
  · exact ofInteger .dwu .d _ (by rw [← low]; rfl)
  · exact ofInteger .dl .d _ rfl
  · exact ofInteger .dlu .d _ rfl
  · exact fcvt_ofFloat (p := .s) (q := .d) rfl
  · exact fcvt_ofFloat (p := .d) (q := .s) rfl

end Sys2Proof.Machine
end

section
/-! PROOFS. Packing of nibbles and 6-bit elements (O23): bits of numbers laid side by side. -/

namespace Sys2Proof.Machine

theorem testBit_packBits {w : Nat} (pos : 0 < w) (l : List Nat) (j : Nat) : (packBits w l).testBit j = (l.getD (j / w) 0).testBit (j % w) := by
  have place := congrArg (Nat.testBit · (j % w)) (packBits_at w l (j / w))
  simpa [Nat.testBit_mod_two_pow, Nat.testBit_div_two_pow, Nat.mod_lt j pos, Nat.mod_add_div] using place

/-- Numbers of w bits taken from the low bits of bytes and laid side by side (R79, R80). -/
theorem testBit_packed {w n j : Nat} (pos : 0 < w) (small : w ≤ 8) (h : j < w * n) (x : Nat) :
    (packBits w (unpackBits 8 n x)).testBit j = x.testBit (8 * (j / w) + j % w) := by
  have bit : j % w < 8 := (Nat.mod_lt j pos).trans_le small
  rw [testBit_packBits pos, getD_unpackBits 8 (Nat.div_lt_of_lt_mul h), Nat.testBit_mod_two_pow, Nat.testBit_div_two_pow, Nat.add_comm]
  simp [bit]

theorem packed_lt (w n x : Nat) : packBits w (unpackBits 8 n x) < 2 ^ (w * n) := by
  have := packBits_lt w (unpackBits 8 n x)
  rwa [length_unpackBits] at this

section Results
variable {i : Instr} {s : State} {d : VReg}

theorem completes_vresult {r : VWord} {P : VWord → Prop} (run : exec i s = .next (s.vresult d (r, 0#64))) (h : P r) :
    Completes i s (fun u => ∃ r, WroteV s d r 0#64 u ∧ P r) :=
  ⟨_, run, r, vresult_wrote s d _, h⟩

end Results

/-- A register with its low part replaced, and one with its high part replaced. -/
theorem getLsbD_replaceLow {k new j : Nat} (h : new < 2 ^ k) (x : VWord) (hj : j < 512) :
    (BitVec.ofNat 512 (new + x.toNat / 2 ^ k * 2 ^ k)).getLsbD j = if j < k then new.testBit j else x.getLsbD j := by
  rw [BitVec.getLsbD_ofNat, Nat.add_comm, Nat.mul_comm, Nat.testBit_two_pow_mul_add _ h, Nat.testBit_div_two_pow, BitVec.getLsbD]
  simp only [hj, decide_true, Bool.true_and]
  split
  · rfl
  · next above => rw [Nat.sub_add_cancel (not_lt.mp above)]

theorem getLsbD_replaceHigh (k new : Nat) (x : VWord) {j : Nat} (hj : j < 512) :
    (BitVec.ofNat 512 (x.toNat % 2 ^ k + new * 2 ^ k)).getLsbD j = if j < k then x.getLsbD j else new.testBit (j - k) := by
  rw [BitVec.getLsbD_ofNat, Nat.add_comm, Nat.mul_comm, Nat.testBit_two_pow_mul_add _ (Nat.mod_lt _ (Nat.two_pow_pos k)),
    Nat.testBit_mod_two_pow, BitVec.getLsbD]
  simp only [hj, decide_true, Bool.true_and]
  split
  · next below => simp [below]
  · rfl

section Instructions
variable (d a p : VReg) (s : State)

/-- R79: the low nibbles of the bytes of `a`, in the half of `d` that `p` names. -/
theorem vpack4_packs (hp : p.toNat < 2) : Completes (.vpack4 d a p) s (fun u => ∃ r, WroteV s d r 0#64 u ∧ ∀ j < 512,
    r.getLsbD j = if 256 * p.toNat ≤ j ∧ j < 256 * p.toNat + 256 then
      (s.v a).getLsbD (8 * ((j - 256 * p.toNat) / 4) + (j - 256 * p.toNat) % 4) else (s.v d).getLsbD j) := by
  refine completes_vresult rfl fun j hj => ?_
  have half {j : Nat} (h : j < 256) : (packBits 4 (unpackBits 8 64 (s.v a).toNat)).testBit j = (s.v a).getLsbD (8 * (j / 4) + j % 4) :=
    testBit_packed (n := 64) (by decide) (by decide) h _
  by_cases zero : p = 0#3
  · subst zero
    rw [if_pos rfl, getLsbD_replaceLow (packed_lt 4 64 _) _ hj]
    by_cases low : j < 256
    · simpa [low] using half low
    · simp [low]
  · have one : p.toNat = 1 := by
      have := mt (BitVec.eq_of_toNat_eq (y := 0#3)) zero
      simp only [BitVec.toNat_ofNat, Nat.zero_mod] at this
      omega
    rw [if_neg zero, getLsbD_replaceHigh _ _ _ hj, one]
    by_cases low : j < 256
    · simp [low, not_le.mpr low]
    · simpa [low, not_lt.mp low, hj] using half (j := j - 256) (by omega)

/-- R80: the low six bits of the bytes of `a`, in the low 48 bytes of `d`. -/
theorem vpack6_packs : Completes (.vpack6 d a) s (fun u => ∃ r, WroteV s d r 0#64 u ∧ ∀ j < 512,
    r.getLsbD j = if j < 384 then (s.v a).getLsbD (8 * (j / 6) + j % 6) else (s.v d).getLsbD j) := by
  refine completes_vresult rfl fun j hj => ?_
  rw [getLsbD_replaceLow (packed_lt 6 64 _) _ hj]
  split
  · next low => exact testBit_packed (n := 64) (by decide) (by decide) low _
  · rfl

theorem nibble_at (i : Nat) (hi : i < 64) : (unpackBits 4 64 ((s.v a).toNat / 2 ^ (256 * p.toNat))).getD i 0 =
    laneAt 4 (s.v a) (64 * p.toNat + i) := by
  rw [getD_unpackBits 4 hi, Nat.div_div_eq_div_mul, ← pow_add, laneAt]
  congr 3
  ring

theorem vunpack4_unsigned : Completes (.vunpack4 false d a p) s (fun u => ∃ r, WroteV s d r 0#64 u ∧ ∀ i < 64,
    laneAt 8 r i = laneAt 4 (s.v a) (64 * p.toNat + i)) := by
  refine completes_vresult rfl fun i hi => ?_
  have small := laneAt_lt 4 (s.v a) (64 * p.toNat + i)
  rw [laneAt_ofLanes (by omega), List.map_id'', nibble_at a p s i hi, Nat.mod_eq_of_lt (by omega)]
  exact fun x => if_neg Bool.false_ne_true

theorem vunpack4_signed : Completes (.vunpack4 true d a p) s (fun u => ∃ r, WroteV s d r 0#64 u ∧ ∀ i < 64,
    laneInt 8 r i = laneInt 4 (s.v a) (64 * p.toNat + i)) := by
  refine completes_vresult rfl fun i hi => ?_
  have low_le := BitVec.le_toInt (BitVec.ofNat 4 (laneAt 4 (s.v a) (64 * p.toNat + i)))
  have lt := BitVec.toInt_lt (x := BitVec.ofNat 4 (laneAt 4 (s.v a) (64 * p.toNat + i)))
  rw [laneInt_ofLanes (by omega), getD_map_of_lt _ (by rwa [length_unpackBits]) 0 0,
    nibble_at a p s i hi, if_pos rfl, sx_eq_toInt (by decide), toInt_low (by decide) (by omega) (by omega), laneInt]

theorem vunpack6_unpacks : Completes (.vunpack6 d a) s (fun u => ∃ r, WroteV s d r 0#64 u ∧ ∀ i < 64,
    laneAt 8 r i = laneAt 6 (s.v a) i) := by
  refine completes_vresult rfl fun i hi => ?_
  have small := laneAt_lt 6 (s.v a) i
  rw [laneAt_ofLanes (by omega), getD_unpackBits 6 hi, ← laneAt, Nat.mod_eq_of_lt (by omega)]

end Instructions

/-- Settles O23: each form bit by bit or lane by lane. -/
theorem vectorPackingMovesBits : Obligations.VectorPackingMovesBits := by
  unfold Obligations.VectorPackingMovesBits
  exact fun d a p s hp => ⟨vpack4_packs d a p s hp, vunpack4_unsigned d a p s, vunpack4_signed d a p s, vpack6_packs d a s,
    vunpack6_unpacks d a s⟩

end Sys2Proof.Machine
end

section
/-! PROOFS. Floating-point lanes (R87, R88): the value a lane reads as, and a result rounded into a lane. -/

namespace Sys2Proof.Machine

theorem width_laneFmt {t : LaneTy} (h : t.isFloat = true) : (laneFmt t).width = t.width := by
  cases t with
  | f32 | bf16 | f16 => rfl
  | i32 | i16 | i8 => cases h

theorem laneRound_bf16 (mode : RMode) (x : FVal × Word) : laneRound .bf16 mode x =
    ((roundToFormat (fp32.decode (roundToFormat x.1 fp32 mode .inf false).1) bf16 .rne .inf true).1,
      x.2 ||| (roundToFormat x.1 fp32 mode .inf false).2 |||
        (roundToFormat (fp32.decode (roundToFormat x.1 fp32 mode .inf false).1) bf16 .rne .inf true).2) := rfl

theorem laneRound_other {t : LaneTy} (h : t ≠ .bf16) (mode : RMode) (x : FVal × Word) : laneRound t mode x =
    ((roundToFormat x.1 (laneFmt t) mode .inf (flushes t)).1, x.2 ||| (roundToFormat x.1 (laneFmt t) mode .inf (flushes t)).2) := by
  cases t with
  | bf16 => exact absurd rfl h
  | _ => rfl

theorem fp32_ieee : fp32.Ieee := laneFmt_ieee .f32

theorem bf16_ieee : bf16.Ieee := laneFmt_ieee .bf16

section Round
variable (t : LaneTy) (mode : RMode) (g : Word)

theorem laneRound_lt (h : t.isFloat = true) (x : FVal × Word) : (laneRound t mode x).1 < 2 ^ t.width := by
  rw [← width_laneFmt h]
  by_cases b : t = .bf16
  · subst b
    exact bf16_ieee.round_lt _ _ _ _
  · rw [laneRound_other b]
    exact (laneFmt_ieee t).round_lt _ _ _ _

theorem laneRound_nan : laneRound t mode (.nan false, g) = ((laneFmt t).canonNan, g) := by
  by_cases b : t = .bf16
  · subst b
    simp [laneRound_bf16, fp32_ieee.round_nan, fp32_ieee.decode_canonNan, bf16_ieee.round_nan, flagIf, laneFmt]
  · simp [laneRound_other b, (laneFmt_ieee t).round_nan, flagIf]

theorem laneRound_inf (n : Bool) : laneRound t mode (.inf n, g) = ((laneFmt t).infinity n, g) := by
  by_cases b : t = .bf16
  · subst b
    simp [laneRound_bf16, fp32_ieee.round_inf, fp32_ieee.decode_infinity, bf16_ieee.round_inf, laneFmt]
  · simp [laneRound_other b, (laneFmt_ieee t).round_inf]

theorem round_zero (n : Bool) (f : Fmt) (ovf : Ovf) (ftz : Bool) : roundToFormat (.zero n) f mode ovf ftz = (f.sign n, 0#64) := rfl

theorem laneRound_zero (n : Bool) : laneRound t mode (.zero n, g) = ((laneFmt t).sign n, g) := by
  by_cases b : t = .bf16
  · subst b
    simp [laneRound_bf16, round_zero, fp32_ieee.decode_sign, laneFmt]
  · simp [laneRound_other b, round_zero]

/-- A power of two within a lane's range is exact, also by way of FP32. -/
theorem laneRound_two_pow {m : Nat} {ex n : Int} (value : (m : Rat) * 2 ^ ex = 2 ^ n) (low : (laneFmt t).emin ≤ n) (high : n ≤ (laneFmt t).emax) :
    ((laneFmt t).decode (laneRound t mode (.fin false m ex, g)).1).real = 2 ^ n ∧ (laneRound t mode (.fin false m ex, g)).2 = g := by
  have exact (f : Fmt) : (FVal.fin false (2 ^ f.mbits) (n - f.mbits)).real = 2 ^ n := by
    rw [real_fin, signed, if_neg Bool.false_ne_true, Int.cast_natCast, Nat.cast_pow, Nat.cast_ofNat, ← zpow_natCast,
      ← zpow_add₀ two_ne_zero, add_sub_cancel]
  by_cases b : t = .bf16
  · subst b
    obtain ⟨noFlag, first⟩ := fp32_ieee.round_two_pow mode .inf false (neg := false) value low high
    have value' : ((2 ^ fp32.mbits : Nat) : Rat) * 2 ^ (n - fp32.mbits : Int) = 2 ^ n := by
      rw [← exact fp32, real_fin, signed, if_neg Bool.false_ne_true, Int.cast_natCast]
    obtain ⟨noFlag', second⟩ := bf16_ieee.round_two_pow .rne .inf true (neg := false) value' low high
    rw [laneRound_bf16, noFlag, first, noFlag']
    refine ⟨?_, by simp⟩
    show (bf16.decode _).real = _
    rw [second, exact]
  · obtain ⟨noFlag, rounded⟩ := (laneFmt_ieee t).round_two_pow mode .inf (flushes t) (neg := false) value low high
    rw [laneRound_other b, noFlag, rounded, exact]
    exact ⟨rfl, by simp⟩

end Round

/-! The value of a lane, its exponent field of zero read as a zero where the type flushes. -/

theorem laneVal_fin {t : LaneTy} {x : Nat} {neg : Bool} {m : Nat} {e : Int} (h : laneVal t x = .fin neg m e) :
    (laneFmt t).decode x = .fin neg m e := by
  unfold laneVal at h
  split at h
  · cases v : (laneFmt t).decode x with
    | fin =>
      rw [v, FVal.flushIn] at h
      split at h
      · cases h
      · exact h
    | _ => rw [v] at h; cases h
  · exact h

theorem proper_laneVal (t : LaneTy) (x : Nat) : (laneVal t x).Proper := fun _ _ _ e => (decode_fin (laneVal_fin e)).1

theorem laneVal_decode {t : LaneTy} {x : Nat} (h : ∀ neg m e, (laneFmt t).decode x ≠ .fin neg m e) : laneVal t x = (laneFmt t).decode x := by
  unfold laneVal
  split
  · cases v : (laneFmt t).decode x with
    | fin => exact absurd v (h _ _ _)
    | _ => rfl
  · rfl

@[simp] theorem laneVal_sign (t : LaneTy) (n : Bool) : laneVal t ((laneFmt t).sign n) = .zero n := by
  have zero := (laneFmt_ieee t).decode_sign n
  rw [laneVal_decode (by simp [zero]), zero]

@[simp] theorem laneVal_canonNan (t : LaneTy) : laneVal t (laneFmt t).canonNan = .nan false := by
  have nan := (laneFmt_ieee t).decode_canonNan
  rw [laneVal_decode (by simp [nan]), nan]

@[simp] theorem isNan_decode (t : LaneTy) (x : Nat) : ((laneFmt t).decode x).isNan = (laneVal t x).isNan := by
  unfold laneVal
  split
  · cases (laneFmt t).decode x with
    | fin neg m e =>
      simp only [FVal.flushIn]
      split <;> rfl
    | _ => rfl
  · rfl

end Sys2Proof.Machine
end

section
/-! PROOFS. The order of exact values (R149, R150): the model's comparison is the order of the extended reals, and the larger of two values,
a NaN passed over. -/

namespace Sys2Proof.Machine

theorem real_plus_pos {m : Nat} (h : m ≠ 0) (e : Int) : 0 < (FVal.fin false m e).real := by
  have power : (0 : Rat) < 2 ^ e := by positivity
  exact mul_pos (Nat.cast_pos.mpr (Nat.pos_of_ne_zero h)) power

theorem real_minus_neg {m : Nat} (h : m ≠ 0) (e : Int) : (FVal.fin true m e).real < 0 := by
  have pos := real_plus_pos h e
  simp only [FVal.real, Bool.false_eq_true, if_false, if_true, neg_mul] at pos ⊢
  exact neg_neg_of_pos pos

/-- Two mantissas brought to the smaller exponent compare as the numbers do. -/
theorem aligned_lt (m n : Nat) (e k : Int) :
    m * 2 ^ (e - min e k).toNat < n * 2 ^ (k - min e k).toNat ↔ (m : Rat) * 2 ^ e < n * 2 ^ k := by
  have unit : (0 : Rat) < 2 ^ min e k := by positivity
  have scaled {j : Int} (h : min e k ≤ j) (i : Nat) : ((i * 2 ^ (j - min e k).toNat : Nat) : Rat) * 2 ^ min e k = i * 2 ^ j := by
    rw [Nat.cast_mul, Nat.cast_pow, Nat.cast_ofNat, ← zpow_natCast, Int.toNat_of_nonneg (sub_nonneg.mpr h), mul_assoc,
      ← zpow_add₀ two_ne_zero, sub_add_cancel]
  rw [← scaled (min_le_left e k), ← scaled (min_le_right e k), mul_lt_mul_iff_left₀ unit, Nat.cast_lt]

/-- A finite value stands in the extended reals as its real. -/
theorem ext_fin (neg : Bool) (m : Nat) (e : Int) :
    (FVal.fin neg m e).ext = (((FVal.fin neg m e).real : WithTop Rat) : WithBot (WithTop Rat)) := rfl

theorem ext_zero (neg : Bool) : (FVal.zero neg).ext = (((0 : Rat) : WithTop Rat) : WithBot (WithTop Rat)) := rfl

theorem ext_plus_inf : (FVal.inf false).ext = ((⊤ : WithTop Rat) : WithBot (WithTop Rat)) := rfl

theorem ext_minus_inf : (FVal.inf true).ext = ⊥ := rfl

theorem finite_lt_top (q : Rat) : ((q : WithTop Rat) : WithBot (WithTop Rat)) < ⊤ := by
  rw [← WithBot.coe_top]
  exact WithBot.coe_lt_coe.mpr (WithTop.coe_lt_top q)

/-- Finite values of one sign compare by their magnitudes. -/
theorem lt_same_sign (neg : Bool) (m n : Nat) (e k : Int) :
    (FVal.fin neg m e).lt (.fin neg n k) = true ↔ (FVal.fin neg m e).real < (FVal.fin neg n k).real := by
  have up := aligned_lt m n e k
  have down := aligned_lt n m k e
  rw [min_comm] at down
  cases neg
  · simp only [FVal.lt, FVal.key, FVal.real, ne_eq, not_true, if_false, if_true, Bool.false_eq_true]
    exact decide_eq_true_iff.trans up
  · simp only [FVal.lt, FVal.key, FVal.real, ne_eq, not_true, if_false, if_true, neg_mul, neg_lt_neg_iff]
    exact decide_eq_true_iff.trans down

/-- The model's comparison is the order of the extended reals (R150). -/
theorem lt_iff_ext {x y : FVal} (hx : x.Proper) (hy : y.Proper) (nx : x.isNan = false) (ny : y.isNan = false) :
    x.lt y = true ↔ x.ext < y.ext := by
  cases x with
  | nan => cases nx
  | inf a => cases y with
    | nan => cases ny
    | inf b => cases a <;> cases b <;> simp [FVal.lt, FVal.key, ext_plus_inf, ext_minus_inf]
    | zero b => cases a <;> simp [FVal.lt, FVal.key, ext_plus_inf, ext_minus_inf, ext_zero]
    | fin b n k => cases a <;> cases b <;> simp [FVal.lt, FVal.key, ext_plus_inf, ext_minus_inf, ext_fin]
  | zero a => cases y with
    | nan => cases ny
    | inf b =>
      have top : (0 : WithBot (WithTop Rat)) < ⊤ := finite_lt_top 0
      cases b <;> simp [FVal.lt, FVal.key, ext_plus_inf, ext_minus_inf, ext_zero, top]
    | zero b => simp [FVal.lt, FVal.key, ext_zero]
    | fin b n k =>
      have pos := real_plus_pos (hy _ _ _ rfl) k
      have neg := real_minus_neg (hy _ _ _ rfl) k
      cases b <;> simp [FVal.lt, FVal.key, ext_zero, ext_fin, pos, neg.le]
  | fin a m e => cases y with
    | nan => cases ny
    | inf b => cases a <;> cases b <;> simp [FVal.lt, FVal.key, ext_plus_inf, ext_minus_inf, ext_fin, finite_lt_top]
    | zero b =>
      have pos := real_plus_pos (hx _ _ _ rfl) e
      have neg := real_minus_neg (hx _ _ _ rfl) e
      cases a <;> simp [FVal.lt, FVal.key, ext_zero, ext_fin, pos.le, neg]
    | fin b n k =>
      have posX := real_plus_pos (hx _ _ _ rfl) e
      have negX := real_minus_neg (hx _ _ _ rfl) e
      have posY := real_plus_pos (hy _ _ _ rfl) k
      have negY := real_minus_neg (hy _ _ _ rfl) k
      rw [ext_fin, ext_fin, WithBot.coe_lt_coe, WithTop.coe_lt_coe]
      cases a <;> cases b
      · exact lt_same_sign false m n e k
      · simp [FVal.lt, FVal.key, (negY.trans posX).le]
      · simp [FVal.lt, FVal.key, negX.trans posY]
      · exact lt_same_sign true m n e k

/-- The larger of two values, NaNs passed over (R149). -/
def FVal.larger (x y : FVal) : FVal :=
  if x.isNan && y.isNan then .nan false else if x.isNan then y else if y.isNan then x else if x.below y then y else x

section Larger
variable {x y : FVal}

theorem larger_isNan : (x.larger y).isNan = (x.isNan && y.isNan) := by
  cases hx : x.isNan <;> cases hy : y.isNan <;>
    simp only [FVal.larger, hx, hy, Bool.and_self, Bool.and_true, Bool.and_false, if_true, if_false, Bool.false_eq_true]
  · split <;> assumption
  · rfl

/-- The larger value lies as high as both. -/
theorem larger_ext (hx : x.Proper) (hy : y.Proper) (nx : x.isNan = false) (ny : y.isNan = false) :
    x.ext ≤ (x.larger y).ext ∧ y.ext ≤ (x.larger y).ext := by
  have less := lt_iff_ext hx hy nx ny
  have more := lt_iff_ext hy hx ny nx
  have pick : x.larger y = if x.below y then y else x := by simp [FVal.larger, nx, ny]
  rw [pick]
  by_cases below : x.below y = true
  · have notMore : ¬ y.lt x = true := by
      intro lt
      have notLess : x.lt y = false := Bool.eq_false_iff.mpr (mt less.mp (more.mp lt).not_gt)
      simp [FVal.below, FVal.eqv, lt, notLess] at below
    rw [if_pos below]
    exact ⟨not_lt.mp (mt more.mpr notMore), le_rfl⟩
  · have notLess : ¬ x.lt y = true := fun lt => below (by simp [FVal.below, lt])
    rw [if_neg below]
    exact ⟨le_rfl, not_lt.mp (mt less.mpr notLess)⟩

theorem larger_pick (h : (x.larger y).isNan = false) : (x.larger y = x ∧ x.isNan = false) ∨ (x.larger y = y ∧ y.isNan = false) := by
  rw [larger_isNan] at h
  cases nx : x.isNan
  · cases ny : y.isNan
    · by_cases below : x.below y = true
      · exact .inr ⟨by simp [FVal.larger, nx, ny, below], rfl⟩
      · exact .inl ⟨by simp [FVal.larger, nx, ny, below], rfl⟩
    · exact .inl ⟨by simp [FVal.larger, nx, ny], rfl⟩
  · have ny : y.isNan = false := by simpa [nx] using h
    exact .inr ⟨by simp [FVal.larger, nx, ny], ny⟩

theorem le_larger_left (hx : x.Proper) (hy : y.Proper) (nx : x.isNan = false) :
    (x.larger y).isNan = false ∧ x.ext ≤ (x.larger y).ext := by
  refine ⟨by simp [larger_isNan, nx], ?_⟩
  cases ny : y.isNan
  · exact (larger_ext hx hy nx ny).1
  · rw [show x.larger y = x by simp [FVal.larger, nx, ny]]

theorem le_larger_right (hx : x.Proper) (hy : y.Proper) (ny : y.isNan = false) :
    (x.larger y).isNan = false ∧ y.ext ≤ (x.larger y).ext := by
  refine ⟨by simp [larger_isNan, ny], ?_⟩
  cases nx : x.isNan
  · exact (larger_ext hx hy nx ny).2
  · rw [show x.larger y = y by simp [FVal.larger, nx, ny]]

end Larger

end Sys2Proof.Machine
end

section
/-! PROOFS. Reductions: the fixed tree of R95 over a list of lanes, and what its root is when every node is a sum or a maximum. -/

namespace Sys2Proof.Machine

section Tree
variable {α β : Type}

theorem length_treeLevel (node : α → α → α) {l : List α} {n : Nat} (h : l.length = 2 * n) : (treeLevel node l).length = n := by
  induction n generalizing l with
  | zero =>
    rw [List.length_eq_zero_iff.mp h]
    rfl
  | succ n ih => match l, h with
    | x :: y :: l, h => simp [treeLevel, ih (l := l) (by simp at h; omega)]

theorem getD_treeLevel (node : α → α → α) (d : α) {l : List α} {i : Nat} (h : 2 * i + 1 < l.length) :
    (treeLevel node l).getD i d = node (l.getD (2 * i) d) (l.getD (2 * i + 1) d) := by
  induction i generalizing l with
  | zero => match l, h with
    | x :: y :: l, h => rfl
  | succ i ih => match l, h with
    | x :: y :: l, h => exact ih (l := l) (by simp at h; omega)

/-- What holds of every leaf below a bound and of a node when of its two parts holds of every subtree over such leaves. -/
theorem treeAt_rel {R : α → β → Prop} {node : α → α → α} {node' : β → β → β} {leaf : Nat → α} {leaf' : Nat → β} {bound : Nat}
    (hl : ∀ i < bound, R (leaf i) (leaf' i)) (hn : ∀ x y x' y', R x x' → R y y' → R (node x y) (node' x' y')) {n i : Nat}
    (h : 2 ^ n * (i + 1) ≤ bound) : R (treeAt node leaf n i) (treeAt node' leaf' n i) := by
  induction n generalizing i with
  | zero => exact hl i (by omega)
  | succ n ih =>
    have first : 2 ^ n * (2 * i + 1) ≤ bound := le_trans (by rw [pow_succ]; nlinarith [Nat.two_pow_pos n]) h
    exact hn _ _ _ _ (ih first) (ih (by rw [pow_succ] at h; linarith))

theorem treeAt_congr {node : α → α → α} {leaf leaf' : Nat → α} {n : Nat} (h : ∀ i < 2 ^ n, leaf i = leaf' i) :
    treeAt node leaf n 0 = treeAt node leaf' n 0 :=
  treeAt_rel (R := Eq) h (fun _ _ _ _ e e' => e ▸ e' ▸ rfl) (by omega)

/-- What a tree's root says of the interval of its leaves, where a leaf says it of itself and a node of two neighbouring intervals. -/
theorem treeAt_range {Q : Nat → Nat → α → Prop} {node : α → α → α} {leaf : Nat → α} {bound : Nat} (hl : ∀ i < bound, Q i (i + 1) (leaf i))
    (hn : ∀ a b c x y, a < b → b < c → Q a b x → Q b c y → Q a c (node x y)) {n i : Nat} (h : 2 ^ n * (i + 1) ≤ bound) :
    Q (2 ^ n * i) (2 ^ n * (i + 1)) (treeAt node leaf n i) := by
  induction n generalizing i with
  | zero =>
    rw [pow_zero, one_mul, one_mul]
    exact hl i (by omega)
  | succ n ih =>
    have pos := Nat.two_pow_pos n
    have first := ih (i := 2 * i) (le_trans (by rw [pow_succ]; nlinarith) h)
    have second := ih (i := 2 * i + 1) (by rw [pow_succ] at h; linarith)
    rw [show 2 ^ (n + 1) * i = 2 ^ n * (2 * i) by ring, show 2 ^ (n + 1) * (i + 1) = 2 ^ n * (2 * i + 1 + 1) by ring]
    exact hn _ _ _ _ _ (by nlinarith) (by nlinarith) first second

/-- One level more, from the leaves' side. -/
theorem treeAt_succ (node : α → α → α) (leaf : Nat → α) (n i : Nat) :
    treeAt node leaf (n + 1) i = treeAt node (fun j => node (leaf (2 * j)) (leaf (2 * j + 1))) n i := by
  induction n generalizing i with
  | zero => rfl
  | succ n ih => rw [treeAt, ih, ih, treeAt]

/-- The model's tree over a list is the tree of R95 over its elements. -/
theorem treeFold_eq (node : α → α → α) (d : α) (n : Nat) {l : List α} (h : l.length = 2 ^ n) :
    (treeFold node n l).headD d = treeAt node (fun i => l.getD i d) n 0 := by
  induction n generalizing l with
  | zero => match l, h with
    | [x], _ => rfl
  | succ n ih =>
    rw [pow_succ, Nat.mul_comm] at h
    rw [treeFold, ih (length_treeLevel node h), treeAt_succ]
    exact treeAt_congr fun i hi => getD_treeLevel node d (by omega)

end Tree

theorem two_pow_treeLevels (t : LaneTy) : 2 ^ treeLevels t = t.lanes := by cases t <;> decide

section Lanes
variable {α : Type} {t : LaneTy} {node : α → α → α} {leaf : Nat → α} {d : α}

/-- A reduction over the lanes of a type. -/
theorem treeFold_lanes : (treeFold node (treeLevels t) ((List.range t.lanes).map leaf)).headD d = treeAt node leaf (Nat.log2 t.lanes) 0 := by
  rw [treeFold_eq node d _ (by rw [List.length_map, List.length_range, two_pow_treeLevels])]
  refine treeAt_congr fun i hi => ?_
  rw [two_pow_treeLevels] at hi
  rw [getD_map_of_lt leaf (by rwa [List.length_range]) 0, List.getD_eq_getElem _ _ (by rwa [List.length_range]), List.getElem_range]

theorem tree_lanes_range {Q : Nat → Nat → α → Prop} (hl : ∀ i < t.lanes, Q i (i + 1) (leaf i))
    (hn : ∀ a b c x y, a < b → b < c → Q a b x → Q b c y → Q a c (node x y)) : Q 0 t.lanes (treeAt node leaf (Nat.log2 t.lanes) 0) := by
  have root := treeAt_range (n := treeLevels t) (i := 0) hl hn (by rw [two_pow_treeLevels, zero_add, mul_one])
  rwa [mul_zero, zero_add, mul_one, two_pow_treeLevels] at root

end Lanes

end Sys2Proof.Machine
end

section
/-! PROOFS. Sums of lanes: integers modulo the lane's width or saturating at each node, floating-point numbers rounded at each node. -/

namespace Sys2Proof.Machine

/-- A reduction's result stands in lane 0, and every other lane is zero (R197). -/
theorem laneAt_lane0 {t : LaneTy} {i : Nat} (h : i < t.lanes) (n : Nat) :
    laneAt t.width (lane0 t.width n) i = if i = 0 then n % 2 ^ t.width else 0 := by
  have small : n % 2 ^ t.width < 2 ^ t.width := Nat.mod_lt _ (Nat.two_pow_pos _)
  rw [lane0, laneAt_ofNat (lane_fits t h)]
  split
  · next zero => rw [zero, Nat.mul_zero, pow_zero, Nat.div_one, Nat.mod_mod]
  · next pos =>
    rw [Nat.div_eq_of_lt, Nat.zero_mod]
    exact small.trans_le (Nat.pow_le_pow_right two_pos (Nat.le_mul_of_pos_right _ (Nat.pos_of_ne_zero pos)))

theorem lanes_pos (t : LaneTy) : 0 < t.lanes := by cases t <;> decide

theorem completes_reduction {i : Instr} {s : State} {t : LaneTy} {d : VReg} {r : Nat × Word}
    (run : exec i s = .next (s.vresult d (lane0 t.width r.1, r.2))) {P : Nat → Word → Prop} (h : P (r.1 % 2 ^ t.width) r.2) :
    Completes i s (fun u => ∃ (x : VWord) (f : Word), WroteV s d x f u ∧ (∀ i < t.lanes, 0 < i → laneAt t.width x i = 0) ∧
      P (laneAt t.width x 0) f) := by
  refine ⟨_, run, _, _, vresult_wrote s d _, fun i hi pos => ?_, ?_⟩
  · rw [laneAt_lane0 hi, if_neg pos.ne']
  · rwa [laneAt_lane0 (lanes_pos t), if_pos rfl]

/-- A lane as a sum takes it: an inactive one as the zero that changes no sum (R197). -/
def sumLeaf (t : LaneTy) (m : BitVec 16) (x : VWord) (i : Nat) : Nat × Word :=
  (if laneOn t m i then laneAt t.width x i else if t.isFloat then (laneFmt t).sign true else 0, 0#64)

/-- The root of a sum. -/
def sumRoot (v : VVar) (t : LaneTy) (m : BitVec 16) (x : VWord) : Nat × Word :=
  treeAt (sumNode t v) (sumLeaf t m x) (Nat.log2 t.lanes) 0

theorem exec_vredsum (v : VVar) (t : LaneTy) (k d a : VReg) (s : State) : exec (.vredsum v t k d a) s =
    .next (s.vresult d (lane0 t.width (sumRoot v t (s.k k) (s.v a)).1, (sumRoot v t (s.k k) (s.v a)).2)) := by
  have leaves : (List.range t.lanes).map (fun i => if active (s.k k) t.lanes i then (lane (lanesOf t (s.v a)) i, 0#64)
      else (if t.isFloat then (laneFmt t).sign true else 0, 0#64)) = (List.range t.lanes).map (sumLeaf t (s.k k) (s.v a)) := by
    refine List.map_congr_left fun i hi => ?_
    rw [active_eq, lane_lanesOf (List.mem_range.mp hi), sumLeaf]
    split <;> rfl
  show execVredsum v t k d a s = _
  rw [execVredsum]
  simp only [leaves, treeFold_lanes]
  rfl

/-! Integers. -/

theorem low_modEq (v : Int) (w : Nat) : (low v w : Int) ≡ v [ZMOD 2 ^ w] := by
  have pos : (0 : Int) < 2 ^ w := by positivity
  rw [low, Int.toNat_of_nonneg (Int.emod_nonneg _ pos.ne')]
  exact Int.mod_modEq v _

theorem sx_modEq (n w : Nat) : sx n w ≡ n [ZMOD 2 ^ w] := by
  have base : ((n % 2 ^ w : Nat) : Int) ≡ n [ZMOD 2 ^ w] := by
    push_cast
    exact Int.mod_modEq _ _
  unfold sx
  extract_lets x
  split
  · exact base
  · exact (Int.modEq_iff_dvd.mpr ⟨1, by ring⟩).trans base

theorem laneInt_eq_sx (t : LaneTy) (x : VWord) (i : Nat) : laneInt t.width x i = sx (laneAt t.width x i) t.width :=
  (sx_eq_toInt (width_pos t) _).symm

/-- A lane's encoding is the low bits of its signed value. -/
theorem low_laneInt (t : LaneTy) (x : VWord) (i : Nat) : low (laneInt t.width x i) t.width = laneAt t.width x i := by
  have same := (low_modEq (laneInt t.width x i) t.width).trans (laneInt_eq_sx t x i ▸ sx_modEq _ _)
  have nat : low (laneInt t.width x i) t.width ≡ laneAt t.width x i [MOD 2 ^ t.width] := by
    rw [← Int.natCast_modEq_iff]
    push_cast
    exact same
  rwa [Nat.ModEq, Nat.mod_eq_of_lt (low_lt _ _), Nat.mod_eq_of_lt (laneAt_lt _ _ _)] at nat

/-- The signed value of an active lane, 0 of an inactive one. -/
def activeInt (t : LaneTy) (m : BitVec 16) (x : VWord) (i : Nat) : Int := if laneOn t m i then laneInt t.width x i else 0

theorem activeInt_range (t : LaneTy) (m : BitVec 16) (x : VWord) (i : Nat) :
    -2 ^ (t.width - 1) ≤ activeInt t m x i ∧ activeInt t m x i < 2 ^ (t.width - 1) := by
  have pos : (0 : Int) < 2 ^ (t.width - 1) := by positivity
  unfold activeInt
  split
  · exact ⟨BitVec.le_toInt _, BitVec.toInt_lt⟩
  · exact ⟨by omega, pos⟩

section Integers
variable {t : LaneTy} (int : t.isFloat = false) (m : BitVec 16) (x : VWord)
include int

theorem sumLeaf_int (i : Nat) : sumLeaf t m x i = (low (activeInt t m x i) t.width, 0#64) := by
  unfold sumLeaf activeInt
  split
  · rw [low_laneInt]
  · simp [int, low]

theorem sumRoot_wrap : (sumRoot .wrap t m x).2 = 0#64 ∧
    ((sumRoot .wrap t m x).1 : Int) ≡ ∑ i ∈ Finset.range t.lanes, activeInt t m x i [ZMOD 2 ^ t.width] := by
  rw [Finset.range_eq_Ico]
  refine tree_lanes_range (Q := fun a b (r : Nat × Word) => r.2 = 0#64 ∧ (r.1 : Int) ≡ ∑ i ∈ Finset.Ico a b, activeInt t m x i [ZMOD 2 ^ t.width])
    (fun i _ => ?_) (fun a b c p q ab bc hp hq => ?_)
  · rw [sumLeaf_int int, Nat.Ico_succ_singleton, Finset.sum_singleton]
    exact ⟨rfl, low_modEq _ _⟩
  · obtain ⟨pFlags, pSum⟩ := hp
    obtain ⟨qFlags, qSum⟩ := hq
    rw [sumNode, ← Finset.sum_Ico_consecutive _ ab.le bc.le, pFlags, qFlags]
    simp only [int, Bool.false_eq_true, if_false, intLane]
    exact ⟨by simp, (low_modEq _ _).trans (Int.ModEq.add ((sx_modEq _ _).trans pSum) ((sx_modEq _ _).trans qSum))⟩

/-- A node of a saturating sum (R187). -/
def satNode (w : Nat) (p q : Int) : Int := max (-2 ^ (w - 1)) (min (p + q) (2 ^ (w - 1) - 1))

theorem sumRoot_sat : sumRoot .sat t m x = (low (treeAt (satNode t.width) (activeInt t m x) (Nat.log2 t.lanes) 0) t.width, 0#64) := by
  have pos : (0 : Int) < 2 ^ (t.width - 1) := by positivity
  have sim := treeAt_rel (R := fun (r : Nat × Word) (v : Int) => r = (low v t.width, 0#64) ∧ -2 ^ (t.width - 1) ≤ v ∧ v < 2 ^ (t.width - 1))
    (node := sumNode t .sat) (node' := satNode t.width) (leaf := sumLeaf t m x) (leaf' := activeInt t m x) (bound := t.lanes)
    (n := treeLevels t) (i := 0) (fun i _ => ⟨sumLeaf_int int m x i, activeInt_range t m x i⟩) (fun p q v u hp hq => ?_)
    (by rw [two_pow_treeLevels, zero_add, mul_one])
  · exact sim.1
  · obtain ⟨rfl, pLow, pHigh⟩ := hp
    obtain ⟨rfl, qLow, qHigh⟩ := hq
    have back {v : Int} (low_le : -2 ^ (t.width - 1) ≤ v) (lt : v < 2 ^ (t.width - 1)) : sx (low v t.width) t.width = v := by
      rw [sx_eq_toInt (width_pos t), toInt_low (width_pos t) low_le lt]
    refine ⟨?_, le_max_left _ _, ?_⟩
    · simp only [sumNode, int, Bool.false_eq_true, if_false, intLane, back pLow pHigh, back qLow qHigh]
      simp [satS, satNode]
    · unfold satNode
      omega

end Integers

/-! Floating-point numbers. -/

section Floats
variable {t : LaneTy} (float : t.isFloat = true) (m : BitVec 16) (x : VWord)
include float

theorem sign_laneFmt : (laneFmt t).sign true = 2 ^ (t.width - 1) := by
  rw [← width_laneFmt float, Fmt.width, Nat.add_assoc, Nat.add_sub_cancel_left]
  rfl

theorem sumLeaf_float (i : Nat) : sumLeaf t m x i = (if laneOn t m i then laneAt t.width x i else 2 ^ (t.width - 1), 0#64) := by
  rw [sumLeaf, if_pos float, sign_laneFmt float]

theorem sumRoot_lt (v : VVar) : (sumRoot v t m x).1 < 2 ^ t.width := by
  refine tree_lanes_range (Q := fun _ _ (r : Nat × Word) => r.1 < 2 ^ t.width) (fun i _ => ?_) (fun _ _ _ p q _ _ _ _ => ?_)
  · rw [sumLeaf_float float]
    split
    · exact laneAt_lt _ _ _
    · exact Nat.pow_lt_pow_right (by decide) (Nat.sub_lt (width_pos t) one_pos)
  · simp only [sumNode, float, if_true]
    exact laneRound_lt t _ float _

/-- A node of a floating-point sum: rounded to nearest, its flags with those of both parts (R95, R197). -/
theorem sumRoot_float (v : VVar) : sumRoot v t m x = treeAt (fun p q : Nat × Word =>
      let r := laneRound t .rne ((laneVal t p.1).add (laneVal t q.1) .rne)
      (r.1, p.2 ||| q.2 ||| r.2))
    (fun i => (if laneOn t m i then laneAt t.width x i else 2 ^ (t.width - 1), 0#64)) (Nat.log2 t.lanes) 0 := by
  rw [sumRoot, ← funext (sumLeaf_float float m x)]
  congr 1
  funext p q
  rw [sumNode, if_pos float]

end Floats

end Sys2Proof.Machine
end

section
/-! PROOFS. Maxima of lanes: the root is an active lane above which no other stands, absent and NaN lanes passed over. -/

namespace Sys2Proof.Machine

/-- A lane as a maximum takes it: an inactive one is absent (R197). -/
def maxLeaf (t : LaneTy) (m : BitVec 16) (x : VWord) (i : Nat) : Option Nat × Word :=
  (if laneOn t m i then some (laneAt t.width x i) else none, 0#64)

/-- The root of a maximum. -/
def maxTree (v : VVar) (t : LaneTy) (m : BitVec 16) (x : VWord) : Option Nat × Word :=
  treeAt (maxNode t v) (maxLeaf t m x) (Nat.log2 t.lanes) 0

theorem exec_vredmax (v : VVar) (t : LaneTy) (k d a : VReg) (s : State) : exec (.vredmax v t k d a) s =
    .next (s.vresult d (lane0 t.width (maxRoot t v (maxTree v t (s.k k) (s.v a)).1), (maxTree v t (s.k k) (s.v a)).2)) := by
  have leaves : (List.range t.lanes).map (fun i => (if active (s.k k) t.lanes i then some (lane (lanesOf t (s.v a)) i) else none, 0#64)) =
      (List.range t.lanes).map (maxLeaf t (s.k k) (s.v a)) := by
    refine List.map_congr_left fun i hi => ?_
    rw [active_eq, lane_lanesOf (List.mem_range.mp hi), maxLeaf]
  show execVredmax v t k d a s = _
  rw [execVredmax]
  simp only [leaves, treeFold_lanes]
  rfl

/-! What the active lanes of an interval say of its maximum. -/

/-- The active lanes from `a` up to `b`. -/
def activeIn (t : LaneTy) (m : BitVec 16) (a b : Nat) : Set Nat := {i | a ≤ i ∧ i < b ∧ laneOn t m i = true}

theorem mem_activeIn {t : LaneTy} {m : BitVec 16} {a b i : Nat} : i ∈ activeIn t m a b ↔ a ≤ i ∧ i < b ∧ laneOn t m i = true := Iff.rfl

theorem activeIn_union (t : LaneTy) (m : BitVec 16) {a b c : Nat} (ab : a < b) (bc : b < c) :
    activeIn t m a c = activeIn t m a b ∪ activeIn t m b c := by
  ext i
  simp only [Set.mem_union, mem_activeIn]
  by_cases h : i < b
  · simp [h, h.trans bc]
  · simp [h, ab.le.trans (not_lt.mp h), not_lt.mp h]

theorem activeIn_one (t : LaneTy) (m : BitVec 16) (i : Nat) : activeIn t m i (i + 1) = if laneOn t m i then {i} else ∅ := by
  ext j
  rw [mem_activeIn]
  split
  · next on =>
    rw [Set.mem_singleton_iff]
    exact ⟨fun h => by omega, by rintro rfl; exact ⟨le_rfl, Nat.lt_succ_self _, on⟩⟩
  · next off => exact iff_of_false (fun ⟨low, high, on⟩ => off ((by omega : j = i) ▸ on)) (Set.notMem_empty j)

/-- None of the lanes is active, or `P` holds of them, the number picked and its flags. -/
def Picks (P : Set Nat → Nat → Word → Prop) (lanes : Set Nat) (r : Option Nat × Word) : Prop :=
  (r = (none, 0#64) ∧ lanes = ∅) ∨ ∃ n, r.1 = some n ∧ P lanes n r.2

/-- The root of a maximum, where `P` holds of a lane alone and of the larger of two numbers. -/
theorem maxTree_picks {t : LaneTy} {m : BitVec 16} {x : VWord} {v : VVar} {P : Set Nat → Nat → Word → Prop}
    (one : ∀ i < t.lanes, P {i} (laneAt t.width x i) 0#64)
    (both : ∀ a b n n' f f', P a n f → P b n' f' → P (a ∪ b) (minmaxLane t v true n n').1 (f ||| f' ||| (minmaxLane t v true n n').2)) :
    Picks P (activeIn t m 0 t.lanes) (maxTree v t m x) := by
  refine tree_lanes_range (Q := fun a b => Picks P (activeIn t m a b)) (fun i hi => ?_) (fun a b c p q ab bc hp hq => ?_)
  · rw [activeIn_one, maxLeaf]
    split
    · exact .inr ⟨_, rfl, one i hi⟩
    · exact .inl ⟨rfl, rfl⟩
  · obtain ⟨o, f⟩ := p
    obtain ⟨o', f'⟩ := q
    rw [activeIn_union t m ab bc]
    rcases hp with ⟨e, off⟩ | ⟨n, rfl, hn⟩ <;> rcases hq with ⟨e', off'⟩ | ⟨n', rfl, hn'⟩
    · cases e
      cases e'
      exact .inl ⟨rfl, by rw [off, off', Set.union_empty]⟩
    · cases e
      exact .inr ⟨n', rfl, by simpa [off, maxNode] using hn'⟩
    · cases e'
      exact .inr ⟨n, rfl, by simpa [off', maxNode] using hn⟩
    · exact .inr ⟨_, rfl, both _ _ n n' f f' hn hn'⟩

/-! Integers. -/

/-- The number as which a variant compares a lane (R187). -/
def laneKey (t : LaneTy) (v : VVar) (n : Nat) : Int := if v = .uns then n else sx n t.width

theorem minmaxLane_int {t : LaneTy} (int : t.isFloat = false) (v : VVar) (n n' : Nat) :
    minmaxLane t v true n n' = (if laneKey t v n < laneKey t v n' then n' else n, 0#64) := by
  unfold minmaxLane laneKey
  rw [if_neg (by simp [int])]
  cases v <;> simp

/-- A lane that no other exceeds. -/
def TopLane (t : LaneTy) (v : VVar) (x : VWord) (lanes : Set Nat) (n : Nat) (f : Word) : Prop :=
  f = 0#64 ∧ (∃ i ∈ lanes, laneAt t.width x i = n) ∧ ∀ i ∈ lanes, laneKey t v (laneAt t.width x i) ≤ laneKey t v n

theorem maxTree_int {t : LaneTy} (int : t.isFloat = false) (m : BitVec 16) (x : VWord) (v : VVar) :
    Picks (TopLane t v x) (activeIn t m 0 t.lanes) (maxTree v t m x) := by
  refine maxTree_picks (fun i _ => ⟨rfl, ⟨i, rfl, rfl⟩, ?_⟩) (fun a b n n' f f' hn hn' => ?_)
  · rintro _ rfl
    exact le_rfl
  · obtain ⟨rfl, ⟨i, hi, at_⟩, top⟩ := hn
    obtain ⟨rfl, ⟨i', hi', at'⟩, top'⟩ := hn'
    rw [minmaxLane_int int]
    split
    · next less =>
      exact ⟨by simp, ⟨i', .inr hi', at'⟩, fun j hj => hj.elim (fun h => (top j h).trans less.le) (top' j)⟩
    · next more =>
      exact ⟨by simp, ⟨i, .inl hi, at_⟩, fun j hj => hj.elim (top j) (fun h => (top' j h).trans (not_lt.mp more))⟩

/-! Floating-point numbers. -/

section Floats
variable {t : LaneTy} (float : t.isFloat = true)
include float

/-- The larger of two lanes: it reads as the larger value, and its flags are those of both operands (R149, R188). -/
theorem fminmaxLane_larger {n n' : Nat} (hn : n < 2 ^ t.width) (hn' : n' < 2 ^ t.width) :
    laneVal t (fminmaxLane t true n n').1 = (laneVal t n).larger (laneVal t n') ∧
      (fminmaxLane t true n n').2 = (laneVal t n).sigNV ||| (laneVal t n').sigNV ∧ (fminmaxLane t true n n').1 < 2 ^ t.width := by
  unfold fminmaxLane FVal.larger
  extract_lets f u v nv bits
  have canonNan_lt := (laneFmt_ieee t).canonNan_lt
  rw [width_laneFmt float] at canonNan_lt
  have sign_lt (z : Bool) : (laneFmt t).sign z < 2 ^ t.width := by
    rw [← width_laneFmt float]
    exact encoding_lt (laneFmt t) z (n := 0) (Nat.two_pow_pos _)
  have pick {raw : Nat} (h : raw < 2 ^ t.width) :
      laneVal t (bits (laneVal t raw) raw) = laneVal t raw ∧ bits (laneVal t raw) raw < 2 ^ t.width := by
    cases value : laneVal t raw with
    | zero z => exact ⟨laneVal_sign t z, sign_lt z⟩
    | _ => exact ⟨value, h⟩
  obtain ⟨first, first_lt⟩ := pick hn
  obtain ⟨second, second_lt⟩ := pick hn'
  rw [if_pos (rfl : true = true)]
  split_ifs
  · exact ⟨laneVal_canonNan t, rfl, canonNan_lt⟩
  · exact ⟨second, rfl, second_lt⟩
  · exact ⟨first, rfl, first_lt⟩
  · exact ⟨second, rfl, second_lt⟩
  · exact ⟨first, rfl, first_lt⟩

end Floats

/-- The largest of floating-point lanes, and its flags: NV at most, and none where no lane holds a signalling NaN. -/
structure FloatTop (t : LaneTy) (x : VWord) (lanes : Set Nat) (n : Nat) (f : Word) : Prop where
  small : n < 2 ^ t.width
  flags : f = 0#64 ∨ f = flagNV
  quiet : (∀ i ∈ lanes, (laneVal t (laneAt t.width x i)).sigNV = 0#64) → f = 0#64 ∧ (laneVal t n).sigNV = 0#64
  active : lanes.Nonempty
  attained : (laneVal t n).isNan = false → ∃ i ∈ lanes, (laneVal t (laneAt t.width x i)).isNan = false ∧
    (laneVal t (laneAt t.width x i)).ext = (laneVal t n).ext
  bound : ∀ i ∈ lanes, (laneVal t (laneAt t.width x i)).isNan = false → (laneVal t n).isNan = false ∧
    (laneVal t (laneAt t.width x i)).ext ≤ (laneVal t n).ext

theorem sigNV_cases (x : FVal) : x.sigNV = 0#64 ∨ x.sigNV = flagNV := by
  cases x with
  | nan sig => cases sig <;> simp [FVal.sigNV]
  | _ => exact .inl rfl

theorem sigNV_larger {x y : FVal} (hx : x.sigNV = 0#64) (hy : y.sigNV = 0#64) : (x.larger y).sigNV = 0#64 := by
  unfold FVal.larger
  split_ifs
  · rfl
  · exact hy
  · exact hx
  · exact hy
  · exact hx

theorem or_flag {f g : Word} (hf : f = 0#64 ∨ f = flagNV) (hg : g = 0#64 ∨ g = flagNV) : f ||| g = 0#64 ∨ f ||| g = flagNV := by
  rcases hf with rfl | rfl <;> rcases hg with rfl | rfl <;> simp

theorem floatTop_one (t : LaneTy) (x : VWord) (i : Nat) : FloatTop t x {i} (laneAt t.width x i) 0#64 where
  small := laneAt_lt _ _ _
  flags := .inl rfl
  quiet h := ⟨rfl, h i rfl⟩
  active := ⟨i, rfl⟩
  attained nan := ⟨i, rfl, nan, rfl⟩
  bound := by
    rintro _ rfl nan
    exact ⟨nan, le_rfl⟩

theorem floatTop_both {t : LaneTy} (float : t.isFloat = true) {x : VWord} {v : VVar} {a b : Set Nat} {n n' : Nat} {f f' : Word}
    (h : FloatTop t x a n f) (h' : FloatTop t x b n' f') :
    FloatTop t x (a ∪ b) (minmaxLane t v true n n').1 (f ||| f' ||| (minmaxLane t v true n n').2) := by
  obtain ⟨value, flag, small⟩ := fminmaxLane_larger float h.small h'.small
  have same : minmaxLane t v true n n' = fminmaxLane t true n n' := if_pos float
  have hp := proper_laneVal t n
  have hp' := proper_laneVal t n'
  rw [same]
  refine ⟨small, ?_, fun quiet => ?_, h.active.mono Set.subset_union_left, fun notNan => ?_, fun i hi notNan => ?_⟩
  · rw [flag]
    exact or_flag (or_flag h.flags h'.flags) (or_flag (sigNV_cases _) (sigNV_cases _))
  · obtain ⟨zero, sig⟩ := h.quiet fun i hi => quiet i (.inl hi)
    obtain ⟨zero', sig'⟩ := h'.quiet fun i hi => quiet i (.inr hi)
    rw [flag, value, zero, zero', sig, sig']
    exact ⟨by simp, sigNV_larger sig sig'⟩
  · rw [value] at notNan ⊢
    rcases larger_pick notNan with ⟨e, notNan⟩ | ⟨e, notNan⟩
    · obtain ⟨i, hi, lane⟩ := h.attained notNan
      exact ⟨i, .inl hi, by rwa [e]⟩
    · obtain ⟨i, hi, lane⟩ := h'.attained notNan
      exact ⟨i, .inr hi, by rwa [e]⟩
  · rw [value]
    rcases hi with hi | hi
    · obtain ⟨nan, le⟩ := h.bound i hi notNan
      exact (le_larger_left hp hp' nan).imp_right le.trans
    · obtain ⟨nan, le⟩ := h'.bound i hi notNan
      exact (le_larger_right hp hp' nan).imp_right le.trans

theorem maxTree_float {t : LaneTy} (float : t.isFloat = true) (m : BitVec 16) (x : VWord) (v : VVar) :
    Picks (FloatTop t x) (activeIn t m 0 t.lanes) (maxTree v t m x) :=
  maxTree_picks (fun i _ => floatTop_one t x i) (fun _ _ _ _ _ _ h h' => floatTop_both float h h')

end Sys2Proof.Machine
end

section
/-! PROOFS. What a reduction writes (O24): the root of its tree, of a maximum as the lane reads. -/

namespace Sys2Proof.Machine

/-- An encoding whose exponent field is zero reads as the zero of its sign where the lane type flushes (R88). -/
theorem laneVal_subnormal {t : LaneTy} (h : flushes t = true) {n : Nat} (zero : n / 2 ^ (laneFmt t).mbits % 2 ^ (laneFmt t).ebits = 0) :
    laneVal t n = .zero (decide (n / 2 ^ ((laneFmt t).ebits + (laneFmt t).mbits) % 2 = 1)) := by
  have e := (laneFmt_ieee t).exponents
  have some_ : ¬ 0 = 2 ^ (laneFmt t).ebits - 1 := by omega
  have low : n % 2 ^ (laneFmt t).mbits < 2 ^ (laneFmt t).mbits := Nat.mod_lt _ (Nat.two_pow_pos _)
  rw [laneVal, if_pos h]
  simp only [Fmt.decode, zero, some_, decide_false, Bool.false_and, Bool.false_eq_true, if_false, if_true]
  split
  · rfl
  · next man =>
    have tiny : expOf (n % 2 ^ (laneFmt t).mbits) ((laneFmt t).emin - (laneFmt t).mbits) < (laneFmt t).emin := by
      have := (Nat.log2_lt man).mpr low
      unfold expOf
      omega
    exact if_pos tiny

theorem laneVal_flushLane {t : LaneTy} (float : t.isFloat = true) {n : Nat} (small : n < 2 ^ t.width) :
    laneVal t (flushLane t n) = laneVal t n ∧ flushLane t n < 2 ^ t.width := by
  unfold flushLane
  split
  · next flush =>
    obtain ⟨h, zero⟩ := Bool.and_eq_true_iff.mp flush
    have width : (laneFmt t).ebits + (laneFmt t).mbits = t.width - 1 := by
      have := width_laneFmt float
      unfold Fmt.width at this
      omega
    have double : 2 ^ t.width = 2 * 2 ^ (t.width - 1) := by rw [← pow_succ', Nat.sub_add_cancel (width_pos t)]
    have bit : n / 2 ^ (t.width - 1) < 2 := Nat.div_lt_of_lt_mul (by omega)
    have sign : n / 2 ^ (t.width - 1) * 2 ^ (t.width - 1) = (laneFmt t).sign (decide (n / 2 ^ (t.width - 1) % 2 = 1)) := by
      rw [Fmt.sign, width, Nat.mod_eq_of_lt bit]
      interval_cases n / 2 ^ (t.width - 1) <;> simp
    refine ⟨?_, (Nat.div_mul_le_self _ _).trans_lt small⟩
    rw [laneVal_subnormal h (decide_eq_true_eq.mp zero), sign, laneVal_sign, width]
  · exact ⟨rfl, small⟩

/-! The root of a maximum as it is written. -/

theorem maxRoot_int {t : LaneTy} (int : t.isFloat = false) (v : VVar) (n : Nat) : maxRoot t v (some n) = n := by
  cases t with
  | i32 | i16 | i8 => rfl
  | f32 | bf16 | f16 => cases int

theorem maxRoot_none_float {t : LaneTy} (float : t.isFloat = true) (v : VVar) : maxRoot t v none = (laneFmt t).infinity true := if_pos float

theorem maxRoot_float {t : LaneTy} (float : t.isFloat = true) (v : VVar) (n : Nat) :
    maxRoot t v (some n) = if (laneVal t n).isNan then (laneFmt t).canonNan else flushLane t n := by
  rw [maxRoot, float, Bool.true_and, isNan_decode]

theorem maxRoot_none_int {t : LaneTy} (int : t.isFloat = false) : maxRoot t .wrap none = 2 ^ (t.width - 1) ∧ maxRoot t .uns none = 0 := by
  cases t with
  | i32 | i16 | i8 => exact ⟨rfl, rfl⟩
  | f32 | bf16 | f16 => cases int

section Integers
variable {t : LaneTy} (int : t.isFloat = false) (m : BitVec 16) (x : VWord)
include int

/-- The signed maximum, modulo the lane's width, and the least number where no lane is active. -/
theorem maxTree_wrap : (maxTree .wrap t m x).2 = 0#64 ∧ ∃ n : Int,
    ((maxRoot t .wrap (maxTree .wrap t m x).1 % 2 ^ t.width : Nat) : Int) = n % 2 ^ t.width ∧
      (∀ i < t.lanes, laneOn t m i = true → laneInt t.width x i ≤ n) ∧
      ((∃ i < t.lanes, laneOn t m i = true ∧ laneInt t.width x i = n) ∨ n = -2 ^ (t.width - 1)) := by
  have key (i : Nat) : laneKey t .wrap (laneAt t.width x i) = laneInt t.width x i := (laneInt_eq_sx t x i).symm
  rcases maxTree_int int m x .wrap with ⟨e, empty⟩ | ⟨n, e, flag, ⟨i, ⟨-, hi, on⟩, rfl⟩, top⟩
  · refine ⟨congrArg Prod.snd e, -2 ^ (t.width - 1), ?_, fun i hi on => ?_, .inr rfl⟩
    · rw [e, (maxRoot_none_int int).1]
      have double : (2 : Int) ^ t.width = 2 * 2 ^ (t.width - 1) := by rw [← pow_succ', Nat.sub_add_cancel (width_pos t)]
      push_cast
      exact Int.modEq_iff_dvd.mpr ⟨-1, by rw [double]; ring⟩
    · exact absurd (show i ∈ activeIn t m 0 t.lanes from ⟨Nat.zero_le i, hi, on⟩) (empty ▸ Set.notMem_empty i)
  · refine ⟨flag, laneInt t.width x i, ?_, fun j hj onj => ?_, .inl ⟨i, hi, on, rfl⟩⟩
    · rw [e, maxRoot_int int, laneInt_eq_sx, sx_modEq]
      push_cast
      rfl
    · rw [← key, ← key]
      exact top j ⟨Nat.zero_le j, hj, onj⟩

/-- The unsigned maximum, and 0 where no lane is active. -/
theorem maxTree_uns : (maxTree .uns t m x).2 = 0#64 ∧
    (∀ i < t.lanes, laneOn t m i = true → laneAt t.width x i ≤ maxRoot t .uns (maxTree .uns t m x).1 % 2 ^ t.width) ∧
    ((∃ i < t.lanes, laneOn t m i = true ∧ laneAt t.width x i = maxRoot t .uns (maxTree .uns t m x).1 % 2 ^ t.width) ∨
      maxRoot t .uns (maxTree .uns t m x).1 % 2 ^ t.width = 0) := by
  rcases maxTree_int int m x .uns with ⟨e, empty⟩ | ⟨n, e, flag, ⟨i, ⟨-, hi, on⟩, rfl⟩, top⟩
  · rw [e, (maxRoot_none_int int).2, Nat.zero_mod]
    exact ⟨rfl, fun i hi on => absurd (show i ∈ activeIn t m 0 t.lanes from ⟨Nat.zero_le i, hi, on⟩) (empty ▸ Set.notMem_empty i), .inr rfl⟩
  · rw [e, maxRoot_int int, Nat.mod_eq_of_lt (laneAt_lt _ _ _)]
    refine ⟨flag, fun j hj onj => ?_, .inl ⟨i, hi, on, rfl⟩⟩
    have le := top j ⟨Nat.zero_le j, hj, onj⟩
    rw [laneKey, laneKey, if_pos rfl, if_pos rfl] at le
    exact_mod_cast le

end Integers

/-- What `vredmax` writes of floating-point lanes, and its flags (R197). -/
theorem maxTree_floats {t : LaneTy} (float : t.isFloat = true) (m : BitVec 16) (x : VWord) :
    let lane (i : Nat) := laneVal t (laneAt t.width x i)
    let f := (maxTree .wrap t m x).2
    let r := maxRoot t .wrap (maxTree .wrap t m x).1 % 2 ^ t.width
    (f = 0#64 ∨ f = flagNV) ∧
      ((∀ i < t.lanes, laneOn t m i = true → (lane i).sigNV = 0#64) → f = 0#64) ∧
      ((∀ i < t.lanes, laneOn t m i = false) → r = (laneFmt t).infinity true) ∧
      ((∃ i < t.lanes, laneOn t m i = true) → (∀ i < t.lanes, laneOn t m i = true → (lane i).isNan = true) → r = (laneFmt t).canonNan) ∧
      ((∃ i < t.lanes, laneOn t m i = true ∧ (lane i).isNan = false) → (laneVal t r).isNan = false ∧
        (∃ i < t.lanes, laneOn t m i = true ∧ (lane i).isNan = false ∧ (lane i).ext = (laneVal t r).ext) ∧
        ∀ i < t.lanes, laneOn t m i = true → (lane i).isNan = false → (lane i).ext ≤ (laneVal t r).ext) := by
  intro lane f r
  rcases maxTree_float float m x .wrap with ⟨e, empty⟩ | ⟨n, e, top⟩
  · have off {i : Nat} (hi : i < t.lanes) : ¬ laneOn t m i = true := fun on =>
      absurd (show i ∈ activeIn t m 0 t.lanes from ⟨Nat.zero_le i, hi, on⟩) (empty ▸ Set.notMem_empty i)
    have noFlag : f = 0#64 := congrArg Prod.snd e
    have root : r = (laneFmt t).infinity true := by
      have small := (laneFmt_ieee t).infinity_lt true
      rw [width_laneFmt float] at small
      rw [← maxRoot_none_float float .wrap] at small ⊢
      exact (congrArg (fun o : Option Nat × Word => maxRoot t .wrap o.1 % 2 ^ t.width) e).trans (Nat.mod_eq_of_lt small)
    exact ⟨.inl noFlag, fun _ => noFlag, fun _ => root, fun ⟨i, hi, on⟩ => absurd on (off hi), fun ⟨i, hi, on, _⟩ => absurd on (off hi)⟩
  · have mem {i : Nat} (hi : i < t.lanes) (on : laneOn t m i = true) : i ∈ activeIn t m 0 t.lanes := ⟨Nat.zero_le i, hi, on⟩
    have root : r = if (laneVal t n).isNan then (laneFmt t).canonNan else flushLane t n := by
      have small := (laneFmt_ieee t).canonNan_lt
      rw [width_laneFmt float] at small
      show maxRoot t .wrap _ % 2 ^ t.width = _
      rw [e, maxRoot_float float]
      refine Nat.mod_eq_of_lt ?_
      split
      · exact small
      · exact (laneVal_flushLane float top.small).2
    have number (h : (laneVal t n).isNan = false) : laneVal t r = laneVal t n := by
      rw [root, h, if_neg Bool.false_ne_true, (laneVal_flushLane float top.small).1]
    refine ⟨top.flags, fun quiet => (top.quiet fun i ⟨_, hi, on⟩ => quiet i hi on).1, fun off => ?_, fun _ nans => ?_, fun ⟨i, hi, on, notNan⟩ => ?_⟩
    · obtain ⟨i, -, hi, on⟩ := top.active
      exact absurd on (by simp [off i hi])
    · have nan : (laneVal t n).isNan = true := by
        by_contra notNan
        obtain ⟨i, ⟨-, hi, on⟩, laneNotNan, -⟩ := top.attained (Bool.eq_false_iff.mpr notNan)
        simp [lane, nans i hi on] at laneNotNan
      rw [root, if_pos nan]
    · have rootNotNan := (top.bound i (mem hi on) notNan).1
      rw [number rootNotNan]
      obtain ⟨j, ⟨-, hj, onj⟩, at_⟩ := top.attained rootNotNan
      exact ⟨rootNotNan, ⟨j, hj, onj, at_⟩, fun j hj onj notNan => (top.bound j (mem hj onj) notNan).2⟩

/-- Settles O24: a reduction writes its tree's root; of sums by the tree's simulation over integers, of maxima by what each node picks. -/
theorem vectorReductionsFollowTheTree : Obligations.VectorReductionsFollowTheTree := by
  unfold Obligations.VectorReductionsFollowTheTree
  intro t k d a s w levels x ux on reduces fv
  have sums {v : VVar} (P : Nat → Word → Prop) (h : P ((sumRoot v t (s.k k) (s.v a)).1 % 2 ^ t.width) (sumRoot v t (s.k k) (s.v a)).2) :
      reduces (.vredsum v t k d a) P := completes_reduction (exec_vredsum v t k d a s) h
  have maxima {v : VVar} (P : Nat → Word → Prop)
      (h : P (maxRoot t v (maxTree v t (s.k k) (s.v a)).1 % 2 ^ t.width) (maxTree v t (s.k k) (s.v a)).2) :
      reduces (.vredmax v t k d a) P :=
    completes_reduction (r := (maxRoot t v (maxTree v t (s.k k) (s.v a)).1, (maxTree v t (s.k k) (s.v a)).2)) (exec_vredmax v t k d a s) h
  clear_value reduces
  refine ⟨fun int => ⟨?_, ?_, ?_, ?_⟩, fun float => ⟨?_, ?_⟩⟩
  · obtain ⟨noFlag, total⟩ := sumRoot_wrap int (s.k k) (s.v a)
    exact sums _ ⟨noFlag, (Int.natCast_mod _ _).trans (by push_cast; exact total)⟩
  · have root := sumRoot_sat int (s.k k) (s.v a)
    refine sums _ ⟨congrArg Prod.snd root, ?_⟩
    rw [root, Int.natCast_mod]
    push_cast
    exact low_modEq _ _
  · exact maxima _ (maxTree_wrap int (s.k k) (s.v a))
  · exact maxima _ (maxTree_uns int (s.k k) (s.v a))
  · refine sums _ ?_
    show ((sumRoot .wrap t (s.k k) (s.v a)).1 % 2 ^ t.width, (sumRoot .wrap t (s.k k) (s.v a)).2) = _
    rw [Nat.mod_eq_of_lt (sumRoot_lt float (s.k k) (s.v a) .wrap)]
    exact sumRoot_float float (s.k k) (s.v a) .wrap
  · exact maxima _ (maxTree_floats float (s.k k) (s.v a))

end Sys2Proof.Machine
end

section
/-! PROOFS. BK blocks (O22): the shared exponent of 32 values, their mantissas, which of them had to be clamped, and the way back. -/

namespace Sys2Proof.Machine

/-- The largest exponent of a list is that of one of its values, and of no other larger (R92). -/
theorem maxExp_spec (l : List FVal) : (maxExp l = none → ∀ neg m e, .fin neg m e ∉ l) ∧
    ∀ top, maxExp l = some top → (∃ neg m e, .fin neg m e ∈ l ∧ expOf m e = top) ∧ ∀ neg m e, .fin neg m e ∈ l → expOf m e ≤ top := by
  induction l with
  | nil => simp [maxExp]
  | cons x l ih =>
    obtain ⟨none_, some_⟩ := ih
    cases x with
    | fin neg m e =>
      cases rest : maxExp l with
      | none =>
        refine ⟨by simp [maxExp, rest], fun top h => ?_⟩
        obtain rfl : expOf m e = top := by simpa [maxExp, rest] using h
        refine ⟨⟨neg, m, e, by simp, rfl⟩, fun neg' m' e' mem => ?_⟩
        rcases List.mem_cons.mp mem with same | later
        · cases same
          exact le_rfl
        · exact absurd later (none_ rest neg' m' e')
      | some r =>
        obtain ⟨⟨n, k, j, mem, at_⟩, bound⟩ := some_ r rest
        refine ⟨by simp [maxExp, rest], fun top h => ?_⟩
        obtain rfl : max (expOf m e) r = top := by simpa [maxExp, rest] using h
        refine ⟨?_, fun neg' m' e' mem' => ?_⟩
        · rcases max_choice (expOf m e) r with first | second
          · exact ⟨neg, m, e, by simp, first.symm⟩
          · exact ⟨n, k, j, by simp [mem], at_.trans second.symm⟩
        · rcases List.mem_cons.mp mem' with same | later
          · cases same
            exact le_max_left _ _
          · exact (bound neg' m' e' later).trans (le_max_right _ _)
    | nan | inf | zero =>
      rw [maxExp]
      simp only [List.mem_cons, reduceCtorEq, false_or]
      exact ⟨none_, some_⟩
      all_goals exact fun _ _ _ => FVal.noConfusion

theorem getD_zeros (l : List FVal) (i : Nat) : (l.map (fun _ => (0 : Int))).getD i 0 = 0 := by
  rw [List.getD_eq_getElem?_getD, List.getElem?_map]
  cases l[i]? <;> rfl

section Block
variable {l : List FVal} {w : Nat}

/-- The largest exponent is the one whose binade the largest value lies in (R89, R92). -/
theorem maxExp_eq (proper : ∀ x ∈ l, x.Proper) {top : Int} {x : FVal} (mem : x ∈ l) (low : (2 : Rat) ^ top ≤ |x.real|)
    (high : ∀ y ∈ l, |y.real| < 2 ^ (top + 1)) : maxExp l = some top := by
  obtain ⟨none_, some_⟩ := maxExp_spec l
  have power : (0 : Rat) < 2 ^ top := by positivity
  obtain ⟨neg, m, e, rfl⟩ : ∃ neg m e, x = .fin neg m e := by
    have nonzero : x.real ≠ 0 := abs_pos.mp (power.trans_le low)
    cases x with
    | fin neg m e => exact ⟨neg, m, e, rfl⟩
    | _ => exact absurd rfl nonzero
  have exponent {neg m e} (mem : FVal.fin neg m e ∈ l) : expOf m e ≤ top := by
    have small := high _ mem
    rw [abs_real_fin] at small
    have := (zpow_lt_zpow_iff_right₀ (by norm_num : (1 : Rat) < 2)).mp ((expOf_bounds (proper _ mem _ _ _ rfl) e).1.trans_lt small)
    omega
  have reached : top ≤ expOf m e := by
    rw [abs_real_fin] at low
    have := (zpow_lt_zpow_iff_right₀ (by norm_num : (1 : Rat) < 2)).mp (low.trans_lt (expOf_bounds (proper _ mem _ _ _ rfl) e).2)
    omega
  cases h : maxExp l with
  | none => exact absurd mem (none_ h neg m e)
  | some r =>
    obtain ⟨⟨neg', m', e', mem', at_⟩, bound⟩ := some_ r h
    have := exponent mem'
    have := bound neg m e mem
    congr 1
    omega

/-- The exponent that a block shares, and an element's mantissa under it, clamped (R92). -/
def blockExp (w : Nat) (top : Int) : Int := max (-127) (min 127 (top - (w - 2)))
def blockMantissa (w : Nat) (e : Int) (x : FVal) : Int := max (-(2 ^ (w - 1) - 1)) (min (RMode.round .rne (x.real / 2 ^ e)) (2 ^ (w - 1) - 1))

/-- A NaN or an infinity gives exponent byte 0xFF (R92). -/
theorem toBK_special (h : ∃ x ∈ l, x.finite = false) : toBK l w = (0xFF, l.map (fun _ => 0), false) := by
  obtain ⟨x, mem, special⟩ := h
  refine if_pos (List.any_eq_true.mpr ⟨x, mem, ?_⟩)
  cases x with
  | zero | fin => cases special
  | nan | inf => rfl

theorem blockMantissa_zero (e : Int) (neg : Bool) : blockMantissa w e (.zero neg) = 0 := by
  have zero : RMode.round .rne ((FVal.zero neg).real / 2 ^ e) = 0 := by
    rw [show (FVal.zero neg).real = 0 from rfl, zero_div]
    exact round_intCast .rne 0
  have pos : (0 : Int) < 2 ^ (w - 1) := by positivity
  rw [blockMantissa, zero, min_eq_left (by omega), max_eq_right (by omega)]

/-- The exponent byte and the mantissas of finite values, by their largest exponent (R92). -/
theorem toBK_finite (fin : ∀ x ∈ l, x.finite = true) : ((toBK l w).1, (toBK l w).2.1) =
    (maxExp l).elim (0, l.map (fun _ => 0)) (fun top => ((blockExp w top + 127).toNat, l.map (blockMantissa w (blockExp w top)))) := by
  unfold toBK
  rw [if_neg]
  · cases maxExp l with
    | none => rfl
    | some top =>
      refine Prod.ext rfl ?_
      simp only [List.map_map, Option.elim]
      refine List.map_congr_left fun x mem => ?_
      cases x with
      | fin neg m e => exact congrArg (fun n => max _ (min n _)) (roundAt_value neg m e _ .rne).1
      | zero neg =>
        rw [blockMantissa_zero]
        have pos : (0 : Int) < 2 ^ (w - 1) := by positivity
        show max (-(2 ^ (w - 1) - 1)) (min 0 (2 ^ (w - 1) - 1)) = (0 : Int)
        omega
      | nan | inf => cases fin _ mem
  · intro any
    obtain ⟨x, mem, special⟩ := List.any_eq_true.mp any
    cases x with
    | zero | fin => cases special
    | nan | inf => cases fin _ mem

theorem toBK_zeros (h : ∀ x ∈ l, ∃ n, x = .zero n) : ((toBK l w).1, (toBK l w).2.1) = (0, l.map (fun _ => 0)) := by
  have fin : ∀ x ∈ l, x.finite = true := fun x mem => by
    obtain ⟨n, rfl⟩ := h x mem
    rfl
  rw [toBK_finite fin]
  cases e : maxExp l with
  | none => rfl
  | some top =>
    obtain ⟨⟨neg, m, k, mem, -⟩, -⟩ := (maxExp_spec l).2 top e
    obtain ⟨n, zero⟩ := h _ mem
    cases zero

theorem length_toBK (l : List FVal) (w : Nat) : (toBK l w).2.1.length = l.length := by
  by_cases fin : ∀ x ∈ l, x.finite = true
  · rw [show (toBK l w).2.1 = _ from congrArg Prod.snd (toBK_finite fin)]
    cases maxExp l <;> simp
  · rw [toBK_special (by simpa using fin), List.length_map]

/-- An exponent byte fits its byte, and a mantissa its width (R77). -/
theorem toBK_range : (toBK l w).1 < 2 ^ 8 ∧ ∀ i : Nat, -(2 ^ (w - 1) - 1) ≤ (toBK l w).2.1.getD i 0 ∧ (toBK l w).2.1.getD i 0 ≤ 2 ^ (w - 1) - 1 := by
  have pos : (0 : Int) < 2 ^ (w - 1) := by positivity
  by_cases fin : ∀ x ∈ l, x.finite = true
  · have e := toBK_finite (w := w) fin
    cases m : maxExp l with
    | none =>
      simp only [m, Option.elim_none, Prod.mk.injEq] at e
      obtain ⟨first, second⟩ := e
      rw [first, second]
      exact ⟨by decide, fun i => by rw [getD_zeros]; omega⟩
    | some top =>
      simp only [m, Option.elim_some, Prod.mk.injEq] at e
      obtain ⟨first, second⟩ := e
      rw [first, second]
      refine ⟨by unfold blockExp; omega, fun i => ?_⟩
      by_cases h : i < l.length
      · rw [getD_map_of_lt _ h (.zero false)]
        unfold blockMantissa
        omega
      · rw [List.getD_eq_default _ _ (by simpa using h)]
        omega
  · rw [toBK_special (by simpa using fin)]
    exact ⟨(by decide : 255 < 2 ^ 8), fun i => by rw [getD_zeros]; omega⟩

/-- An element had to be clamped just where its rounded mantissa is beyond the largest (R195). -/
theorem bkSaturated_iff {i : Nat} (h : i < l.length) : (bkSaturated l w).getD i false = true ↔ (toBK l w).1 ≠ 0xFF ∧
    2 ^ (w - 1) - 1 < |RMode.round .rne ((l.getD i (.zero false)).real / 2 ^ (((toBK l w).1 : Int) - 127))| := by
  have pos : (0 : Int) < 2 ^ (w - 1) := by positivity
  have none_ {x : FVal} (zero : x.real = 0) : ¬ (2 : Int) ^ (w - 1) - 1 < |RMode.round .rne (x.real / 2 ^ (((toBK l w).1 : Int) - 127))| := by
    have round : RMode.round .rne (x.real / 2 ^ (((toBK l w).1 : Int) - 127)) = 0 := by
      rw [zero, zero_div]
      exact round_intCast .rne 0
    rw [round, abs_zero]
    omega
  rw [bkSaturated, getD_map_of_lt _ h (.zero false)]
  cases l.getD i (.zero false) with
  | fin neg m e =>
    have value := (roundAt_value neg m e (((toBK l w).1 : Int) - 127) .rne).1
    have size : |signed neg (roundAt neg m e (((toBK l w).1 : Int) - 127) .rne).1| = (roundAt neg m e (((toBK l w).1 : Int) - 127) .rne).1 := by
      cases neg <;> simp [signed]
    have one : 1 ≤ 2 ^ (w - 1) := Nat.one_le_two_pow
    rw [← value, size]
    simp only [Bool.and_eq_true, decide_eq_true_eq]
    refine and_congr_right fun _ => ?_
    zify [one]
  | zero | nan | inf => exact iff_of_false Bool.false_ne_true fun h => none_ rfl h.2

end Block

/-! The register image of a block (R77, R195). -/

section Image
variable {b : Nat × List Int × Bool} {w : Nat} (elements : b.2.1.length = 32)
include elements

theorem packed_block_lt : packBits w (b.2.1.map (fun q => low q w)) < 2 ^ (32 * w) := by
  have := packBits_lt w (b.2.1.map (fun q => low q w))
  rwa [List.length_map, elements, Nat.mul_comm] at this

theorem laneInt_bkImage (pos : 0 < w) (fits : 32 * w ≤ 512) {i : Nat} (h : i < 32)
    (range : -(2 ^ (w - 1) - 1) ≤ b.2.1.getD i 0 ∧ b.2.1.getD i 0 ≤ 2 ^ (w - 1) - 1) : laneInt w (bkImage b w) i = b.2.1.getD i 0 := by
  have within : w * i + w ≤ 512 := by nlinarith
  have place : b.1 * 2 ^ (32 * w) = b.1 * 2 ^ (w * (31 - i)) * 2 ^ w * 2 ^ (w * i) := by
    rw [Nat.mul_assoc, Nat.mul_assoc, ← pow_add, ← pow_add]
    congr 2
    calc 32 * w = (31 - i + 1 + i) * w := by congr 1; omega
      _ = w * (31 - i) + (w + w * i) := by ring
  rw [laneInt, bkImage, laneAt_ofNat within, place, Nat.add_mul_div_right _ _ (Nat.two_pow_pos _), Nat.add_mul_mod_self_right, packBits_at,
    getD_map_of_lt _ (by rwa [elements]) 0, Nat.mod_eq_of_lt (low_lt _ _)]
  exact toInt_low pos (by omega) (by omega)

theorem laneAt_bkImage_exponent (fits : 32 * w + 8 ≤ 512) (byte : b.1 < 2 ^ 8) : laneAt 8 (bkImage b w) (4 * w) = b.1 := by
  rw [bkImage, laneAt_ofNat (by omega), show 8 * (4 * w) = 32 * w by ring, Nat.add_mul_div_right _ _ (Nat.two_pow_pos _),
    Nat.div_eq_of_lt (packed_block_lt elements), Nat.zero_add, Nat.mod_eq_of_lt byte]

theorem laneAt_bkImage_above (byte : b.1 < 2 ^ 8) {i : Nat} (h : i < 64) (above : 4 * w < i) : laneAt 8 (bkImage b w) i = 0 := by
  have part := packed_block_lt (w := w) elements
  have total : packBits w (b.2.1.map (fun q => low q w)) + b.1 * 2 ^ (32 * w) < 2 ^ (8 * i) := by
    calc _ < (b.1 + 1) * 2 ^ (32 * w) := by rw [Nat.add_mul]; omega
      _ ≤ 2 ^ 8 * 2 ^ (32 * w) := Nat.mul_le_mul_right _ byte
      _ ≤ 2 ^ (8 * i) := by rw [← pow_add]; exact Nat.pow_le_pow_right two_pos (by omega)
  rw [bkImage, laneAt_ofNat (by omega), Nat.div_eq_of_lt total, Nat.zero_mod]

end Image

/-- A mask made of 16 bits (R195). -/
theorem getLsbD_mask (f : Nat → Bool) {l : Nat} (h : l < 16) :
    (BitVec.ofNat 16 (packBits 1 ((List.range 16).map (fun i => if f i then 1 else 0)))).getLsbD l = f l := by
  rw [BitVec.getLsbD_ofNat, testBit_packBits one_pos, Nat.div_one, Nat.mod_one, getD_map_of_lt _ (by simpa using h) 0,
    List.getD_eq_getElem _ _ (by simpa using h), List.getElem_range]
  cases f l <;> simp [h]

/-! The instruction, from lanes to a block. -/

/-- The 32 values that become a block (R195). -/
def blockValues (t : LaneTy) (x y : VWord) : List FVal := (if t = .f32 then lanesOf t x ++ lanesOf t y else lanesOf t x).map (laneVal t)

theorem length_blockValues {t : LaneTy} (float : t.isFloat = true) (x y : VWord) : (blockValues t x y).length = 32 := by
  cases t with
  | f32 | bf16 | f16 => simp [blockValues, length_lanesOf]; rfl
  | i32 | i16 | i8 => cases float

theorem getD_blockValues {t : LaneTy} (float : t.isFloat = true) (x y : VWord) {i : Nat} (h : i < 32) (d : FVal) :
    (blockValues t x y).getD i d = laneVal t (if i < t.lanes then laneAt t.width x i else laneAt t.width y (i - t.lanes)) := by
  have total := length_blockValues float x y
  rw [blockValues, List.length_map] at total
  rw [blockValues, getD_map_of_lt _ (by omega) 0]
  congr 1
  have lanes : if t = .f32 then t.lanes = 16 else t.lanes = 32 := by
    cases t with
    | f32 | bf16 | f16 => rfl
    | i32 | i16 | i8 => cases float
  have value {x : VWord} {j : Nat} (hj : j < t.lanes) : (lanesOf t x).getD j 0 = laneAt t.width x j := lane_lanesOf hj x
  by_cases single : t = .f32
  · rw [if_pos single] at lanes ⊢
    by_cases first : i < t.lanes
    · rw [List.getD_append _ _ _ _ (by rwa [length_lanesOf]), value first, if_pos first]
    · rw [List.getD_append_right _ _ _ _ (by rw [length_lanesOf]; omega), length_lanesOf, value (by omega), if_neg first]
  · rw [if_neg single] at lanes ⊢
    rw [value (by omega), if_pos (by omega)]

/-- The saturation mask of a block of values (R195). -/
def blockMask (l : List FVal) (w : Nat) : BitVec 16 :=
  BitVec.ofNat 16 (packBits 1 ((List.range 16).map (fun i => if (bkSaturated l w).getD (2 * i) false || (bkSaturated l w).getD (2 * i + 1) false
    then 1 else 0)))

theorem exec_toBlock {f : VFmt} (block : f.isBlock = true) (t : LaneTy) (k d a b : VReg) (s : State) : exec (.vcvt false f t k d a b) s =
    .next (((s.setV d (bkImage (toBK (blockValues t (s.v a) (s.v b)) (bkWidth f)) (bkWidth f))).setK k
      (blockMask (blockValues t (s.v a) (s.v b)) (bkWidth f))).advance 4) := by
  show execVcvt false f t k d a b s = _
  simp only [execVcvt, block, if_true, Bool.false_eq_true, if_false]
  rfl

end Sys2Proof.Machine
end

section
/-! PROOFS. `vcvt` into and out of BK blocks (O22). -/

namespace Sys2Proof.Machine

/-- A vector register and a mask register written, the pc past the instruction, and nothing else changed. -/
theorem setV_setK_wrote (s : State) (d k : VReg) (x : VWord) (m : BitVec 16) :
    (∀ r, (((s.setV d x).setK k m).advance 4).v r = if r = d then x else s.v r) ∧
      (∀ r, (((s.setV d x).setK k m).advance 4).k r = if r = k ∧ r ≠ 0#3 then m else s.k r) ∧
      (((s.setV d x).setK k m).advance 4).pc = s.pc + 4#64 ∧
      (let u := ((s.setV d x).setK k m).advance 4
       { u with ag := { u.ag with v := s.ag.v, k := s.ag.k, pc := s.ag.pc } } = s) ∧
      SameMemory s (((s.setV d x).setK k m).advance 4) := by
  refine ⟨fun r => ?_, fun r => ?_, ?_, ?_, sameMemory_of_eq (by simp) (by simp) (by simp)⟩
  · have same : (((s.setV d x).setK k m).advance 4).ag.v = (s.setV d x).ag.v := by simp
    exact (congrArg (fun v : Vector VWord 8 => v[r.toFin]) same).trans (v_setV s d r x)
  · exact k_setK (s.setV d x) k r m
  · unfold State.setK
    split <;> rfl
  · unfold State.setK
    split <;> rfl

theorem blockMask_iff (l : List FVal) (w : Nat) {j : Nat} (h : j < 16) : (blockMask l w).getLsbD j = true ↔
    (bkSaturated l w).getD (2 * j) false = true ∨ (bkSaturated l w).getD (2 * j + 1) false = true := by
  rw [blockMask]
  simp only [← Bool.or_eq_true]
  rw [getLsbD_mask _ h]

theorem blockMask_eq_zero {l : List FVal} {w : Nat} (h : ∀ i < 32, ¬ (bkSaturated l w).getD i false = true) : blockMask l w = 0#16 := by
  refine BitVec.eq_of_getLsbD_eq fun j hj => ?_
  rw [BitVec.getLsbD_zero, Bool.eq_false_iff, ne_eq, blockMask_iff _ _ hj]
  exact not_or.mpr ⟨h _ (by omega), h _ (by omega)⟩

section Values
variable {l : List FVal} {w : Nat} (total : l.length = 32)
include total

theorem forall_element {P : FVal → Prop} (h : ∀ i < 32, P (l.getD i (.zero false))) : ∀ x ∈ l, P x := by
  intro x mem
  obtain ⟨i, hi, rfl⟩ := List.mem_iff_getElem.mp mem
  rw [← List.getD_eq_getElem l (.zero false) hi]
  exact h i (total ▸ hi)

theorem element_mem {i : Nat} (h : i < 32) : l.getD i (.zero false) ∈ l := by
  rw [List.getD_eq_getElem _ _ (total ▸ h)]
  exact List.getElem_mem _

/-- R92: a NaN or an infinity in the block. -/
theorem block_special (h : ∃ i < 32, (l.getD i (.zero false)).finite = false) :
    (toBK l w).1 = 0xFF ∧ (∀ i < 32, (toBK l w).2.1.getD i 0 = 0) ∧ blockMask l w = 0#16 := by
  obtain ⟨i, hi, special⟩ := h
  have e := toBK_special (w := w) ⟨_, element_mem total hi, special⟩
  refine ⟨congrArg Prod.fst e, fun j _ => ?_, blockMask_eq_zero fun j hj sat => ?_⟩
  · rw [e]
    exact getD_zeros l j
  · exact ((bkSaturated_iff (total ▸ hj)).mp sat).1 (congrArg Prod.fst e)

/-- R92: a block of zeros. -/
theorem block_zeros (h : ∀ i < 32, ∃ n, l.getD i (.zero false) = .zero n) :
    (toBK l w).1 = 0 ∧ (∀ i < 32, (toBK l w).2.1.getD i 0 = 0) ∧ blockMask l w = 0#16 := by
  obtain ⟨first, second⟩ := Prod.mk.inj (toBK_zeros (w := w) (forall_element total h))
  refine ⟨first, fun j _ => by rw [second]; exact getD_zeros l j, blockMask_eq_zero fun j hj sat => ?_⟩
  obtain ⟨n, zero⟩ := h j hj
  have large := ((bkSaturated_iff (total ▸ hj)).mp sat).2
  have pos : (0 : Int) < 2 ^ (w - 1) := by positivity
  rw [zero, show (FVal.zero n).real = 0 from rfl, zero_div, show RMode.round .rne 0 = 0 from round_intCast .rne 0, abs_zero] at large
  omega

/-- R92 and R195: finite values, `top` the exponent of the largest. -/
theorem block_finite (proper : ∀ x ∈ l, x.Proper) {top : Int} {j : Nat} (fin : ∀ i < 32, (l.getD i (.zero false)).finite = true) (hj : j < 32)
    (low : (2 : Rat) ^ top ≤ |(l.getD j (.zero false)).real|) (high : ∀ i < 32, |(l.getD i (.zero false)).real| < 2 ^ (top + 1)) :
    ((toBK l w).1 : Int) = blockExp w top + 127 ∧
      (∀ i < 32, (toBK l w).2.1.getD i 0 = blockMantissa w (blockExp w top) (l.getD i (.zero false))) ∧
      ∀ i < 16, (blockMask l w).getLsbD i = true ↔
        2 ^ (w - 1) - 1 < |RMode.round .rne ((l.getD (2 * i) (.zero false)).real / 2 ^ blockExp w top)| ∨
        2 ^ (w - 1) - 1 < |RMode.round .rne ((l.getD (2 * i + 1) (.zero false)).real / 2 ^ blockExp w top)| := by
  have largest := maxExp_eq proper (element_mem total hj) low (forall_element total high)
  have e := toBK_finite (w := w) (forall_element total fin)
  simp only [largest, Option.elim_some, Prod.mk.injEq] at e
  obtain ⟨first, second⟩ := e
  have byte : ((toBK l w).1 : Int) = blockExp w top + 127 := by
    rw [first]
    unfold blockExp
    omega
  have notNan : (toBK l w).1 ≠ 0xFF := by
    unfold blockExp at byte
    omega
  have saturated {i : Nat} (hi : i < 32) : (bkSaturated l w).getD i false = true ↔
      2 ^ (w - 1) - 1 < |RMode.round .rne ((l.getD i (.zero false)).real / 2 ^ blockExp w top)| := by
    rw [bkSaturated_iff (total ▸ hi), byte, add_sub_cancel_right]
    exact and_iff_right notNan
  refine ⟨byte, fun i hi => ?_, fun i hi => ?_⟩
  · rw [second, getD_map_of_lt _ (total ▸ hi)]
  · rw [blockMask_iff _ _ hi, saturated (by omega), saturated (by omega)]

end Values

/-! The way back (R77, R195). -/

theorem fmtPut_lane {t : LaneTy} (float : t.isFloat = true) (mode : RMode) (x : FVal) :
    fmtPut t.fmt mode x = roundToFormat x (laneFmt t) mode .inf (flushes t) := by
  cases t with
  | f32 | bf16 | f16 => rfl
  | i32 | i16 | i8 => cases float

/-- An element of a block as read: its mantissa, the most negative standing for the next, under the shared exponent. -/
theorem bkElem_eq {w : Nat} (pos : 0 < w) (x : VWord) (i : Nat) : bkElem w x i = if laneAt 8 x (4 * w) = 0xFF then .nan false
    else FVal.ofInt (max (-(2 ^ (w - 1) - 1)) (laneInt w x i)) ((laneAt 8 x (4 * w) : Int) - 127) false := by
  have exponent : field x.toNat (32 * w) 8 = laneAt 8 x (4 * w) := by
    rw [laneAt, field]
    congr 3
    ring
  rw [bkElem, bkValue, bkMantissa, exponent, sx_eq_toInt pos]
  rfl

/-- An element's value rounded into a lane (R195). -/
theorem fromBlock_lane {t : LaneTy} (float : t.isFloat = true) {w : Nat} (pos : 0 < w) (mode : RMode) (x : VWord) (i : Nat) :
    let q : Int := max (-(2 ^ (w - 1) - 1)) (laneInt w x i)
    let e := laneAt 8 x (4 * w)
    let r := fmtPut t.fmt mode (bkElem w x i)
    if e = 0xFF then r.1 = (laneFmt t).canonNan ∧ r.2 = 0#64
    else ∃ v : FVal, v.finite = true ∧ v.real = q * 2 ^ ((e : Int) - 127) ∧ v ≠ .zero true ∧
      roundToFormat v (laneFmt t) mode .inf (flushes t) = (r.1, r.2) := by
  intro q e r
  have rounded : r = roundToFormat (bkElem w x i) (laneFmt t) mode .inf (flushes t) := fmtPut_lane float mode _
  rw [rounded, bkElem_eq pos]
  by_cases nan : e = 0xFF
  · rw [if_pos nan, if_pos nan, (laneFmt_ieee t).round_nan]
    exact ⟨rfl, rfl⟩
  · rw [if_neg nan, if_neg nan]
    exact ⟨_, finite_ofInt _ _ _, real_ofInt _ _ _, ofInt_ne_minus_zero _ _, rfl⟩

theorem exec_fromBlock {f : VFmt} (block : f.isBlock = true) (t : LaneTy) (k d a b : VReg) (s : State) : exec (.vcvt true f t k d a b) s =
    .next (s.vresult d (mapLanes t.width t.lanes (s.k k) (s.v d)
      (fun i => fmtPut t.fmt (rmodeMode s.ag.rmode) (bkElem (bkWidth f) (s.v a) (b.toNat * t.lanes + i))))) := by
  show execVcvt true f t k d a b s = _
  simp only [execVcvt, block, if_true]

theorem bkWidth_eq {f : VFmt} (block : f.isBlock = true) : (if f = .bk8 then 8 else 4) = bkWidth f := by
  cases f with
  | bk8 | bk4 => rfl
  | _ => cases block

/-- Settles O22: into a block by the three cases of R92, out of it element by element. -/
theorem vectorBlocksShareAnExponent : Obligations.VectorBlocksShareAnExponent := by
  unfold Obligations.VectorBlocksShareAnExponent
  intro f t k d a b s block float
  rw [bkWidth_eq block]
  intro w v lim
  have widths : 0 < w ∧ w ≤ 8 := by
    show 0 < bkWidth f ∧ bkWidth f ≤ 8
    unfold bkWidth
    split <;> decide
  obtain ⟨pos, most⟩ := widths
  refine ⟨fun _ => ?_, fun _ => ?_⟩
  · have total := length_blockValues float (s.v a) (s.v b)
    have value {i : Nat} (hi : i < 32) : (blockValues t (s.v a) (s.v b)).getD i (.zero false) = v i := getD_blockValues float _ _ hi _
    obtain ⟨exp_lt, range⟩ := toBK_range (l := blockValues t (s.v a) (s.v b)) (w := w)
    have proper : ∀ x ∈ blockValues t (s.v a) (s.v b), x.Proper := by
      intro x mem
      obtain ⟨n, -, rfl⟩ := List.mem_map.mp mem
      exact proper_laneVal t n
    have run := exec_toBlock block t k d a b s
    generalize blockValues t (s.v a) (s.v b) = l at *
    have elements : (toBK l w).2.1.length = 32 := (length_toBK l w).trans total
    obtain ⟨vs, ks, pc, rest, memory⟩ := setV_setK_wrote s d k (bkImage (toBK l w) w) (blockMask l w)
    refine ⟨_, run, _, blockMask l w, (toBK l w).1, fun i => (toBK l w).2.1.getD i 0, vs, ks, pc, rest, memory,
      fun i hi => laneInt_bkImage elements pos (by omega) hi (range i), laneAt_bkImage_exponent elements (by omega) exp_lt,
      fun i hi above => laneAt_bkImage_above elements exp_lt hi above, ?_, ?_, fun top j fin hj low high => ?_⟩
    · rintro ⟨i, hi, special⟩
      exact block_special total ⟨i, hi, by rwa [value hi]⟩
    · exact fun zeros => block_zeros total fun i hi => by rw [value hi]; exact zeros i hi
    · obtain ⟨byte, mantissas, mask⟩ := block_finite (w := w) total proper (fun i hi => by rw [value hi]; exact fin i hi) hj
        (by rwa [value hj]) (fun i hi => by rw [value hi]; exact high i hi)
      intro ex n
      have shared : blockExp w top = ex := by
        show max (-127) (min 127 (top - (w - 2))) = max (-127) (min (top - (w - 2)) 127)
        rw [min_comm]
      rw [shared] at byte mantissas mask
      refine ⟨byte, fun i hi => ?_, fun i hi => ?_⟩
      · exact (mantissas i hi).trans (by rw [blockMantissa, value hi])
      · rw [mask i hi, value (by omega), value (by omega)]
  · refine ⟨_, exec_fromBlock block t k d a b s, vresult_laneWise (fun i => ?_) fun i _ => fromBlock_lane float pos _ _ _⟩
    rw [fmtPut_lane float, ← width_laneFmt float]
    exact (laneFmt_ieee t).round_lt _ _ _ _

end Sys2Proof.Machine
end

section
/-! PROOFS. Reciprocals and inverse roots as exact values with a low bit (R86, R198): that bit makes a value stand for the exact one in
every rounding to 26 bits or fewer. -/

namespace Sys2Proof.Machine

/-- A binary fraction of few bits does not lie strictly between two large neighbouring integers. -/
theorem fraction_apart {n q : Nat} (big : 2 ^ n ≤ q) {k : Int} (few : k.natAbs < 2 ^ n) (j : Int) :
    (k : Rat) * 2 ^ j ≤ q ∨ (q : Rat) + 1 ≤ k * 2 ^ j := by
  rcases le_or_gt 0 j with whole | part
  · have int : (k : Rat) * 2 ^ j = ((k * 2 ^ j.toNat : Int) : Rat) := by
      rw [← Int.toNat_of_nonneg whole, zpow_natCast, Int.toNat_natCast]
      push_cast
      rfl
    rw [int]
    rcases le_or_gt (k * 2 ^ j.toNat) q with below | above
    · exact .inl (by exact_mod_cast below)
    · exact .inr (by exact_mod_cast above)
  · left
    have small : (2 : Rat) ^ j ≤ 1 := zpow_le_one_of_nonpos₀ (by norm_num) part.le
    have power : (0 : Rat) < 2 ^ j := by positivity
    have most : (k : Rat) ≤ q := by exact_mod_cast (by omega : k ≤ q)
    have pos : (0 : Rat) ≤ q := Nat.cast_nonneg q
    nlinarith

section Stands
variable {n q : Nat} {g : Int} {below at_ : Rat → Prop}

theorem real_plus (m : Nat) (e : Int) : (FVal.fin false m e).real = m * 2 ^ e := by simp [FVal.real]

/-- An exact value stands for itself. -/
theorem stands_exact (m : Nat) (e : Int) : Stands n (.fin false m e) (· < (m : Rat) * 2 ^ e) (· = (m : Rat) * 2 ^ e) :=
  ⟨rfl, fun k j _ => by rw [real_plus]; exact ⟨Iff.rfl, eq_comm⟩⟩

/-- A value between two neighbours, the mean of them stands for it: it lies above the lower one and everything below that, and below
the upper one and everything above that. -/
theorem stands_between (big : 2 ^ n ≤ q) (low : ∀ c, c ≤ q * (2 : Rat) ^ g → below c ∧ ¬ at_ c)
    (high : ∀ c, (q + 1 : Rat) * 2 ^ g ≤ c → ¬ below c ∧ ¬ at_ c) : Stands n (.fin false (2 * q + 1) (g - 1)) below at_ := by
  refine ⟨rfl, fun k e few => ?_⟩
  have power : (0 : Rat) < 2 ^ g := by positivity
  have mean : (FVal.fin false (2 * q + 1) (g - 1)).real = (q + 1 / 2) * 2 ^ g := by
    rw [real_plus, zpow_sub_one₀ two_ne_zero]
    push_cast
    ring
  have unit : (k : Rat) * 2 ^ e = k * 2 ^ (e - g) * 2 ^ g := by
    rw [mul_assoc, ← zpow_add₀ two_ne_zero, sub_add_cancel]
  rw [mean]
  rcases fraction_apart big few (e - g) with le | ge
  · obtain ⟨isBelow, notAt⟩ := low (k * 2 ^ e) (unit ▸ mul_le_mul_of_nonneg_right le power.le)
    have less : (k : Rat) * 2 ^ e < (q + 1 / 2) * 2 ^ g := unit ▸ mul_lt_mul_of_pos_right (by linarith) power
    exact ⟨iff_of_true less isBelow, iff_of_false less.ne' notAt⟩
  · obtain ⟨notBelow, notAt⟩ := high (k * 2 ^ e) (unit ▸ mul_le_mul_of_nonneg_right ge power.le)
    have more : (q + 1 / 2 : Rat) * 2 ^ g < k * 2 ^ e := unit ▸ mul_lt_mul_of_pos_right (by linarith) power
    exact ⟨iff_of_false more.not_gt notBelow, iff_of_false more.ne notAt⟩

/-- With both signs changed a value still stands for the exact one. -/
theorem stands_neg {m : Nat} {e : Int} {x : Rat} (h : Stands n (.fin false m e) (· < x) (· = x)) :
    Stands n (.fin true m e) (· < -x) (· = -x) := by
  refine ⟨rfl, fun k j few => ?_⟩
  obtain ⟨less, equal⟩ := h.2 (-k) j (by rwa [Int.natAbs_neg])
  have value : (FVal.fin true m e).real = -(FVal.fin false m e).real := by simp [FVal.real]
  have opposite : ((-k : Int) : Rat) * 2 ^ j = -(k * 2 ^ j) := by push_cast; ring
  rw [opposite] at less equal
  generalize (k : Rat) * 2 ^ j = c at less equal
  change -c < (FVal.fin false m e).real ↔ -c < x at less
  change (FVal.fin false m e).real = -c ↔ -c = x at equal
  rw [value]
  refine ⟨?_, ?_⟩
  · show c < -_ ↔ c < -x
    rw [lt_neg (b := x), lt_neg, ← not_le, ← not_le, le_iff_lt_or_eq, le_iff_lt_or_eq, less, eq_comm (a := -c), equal]
  · show -_ = c ↔ c = -x
    rw [neg_eq_iff_eq_neg, equal, neg_eq_iff_eq_neg]

end Stands

/-! Reciprocals. -/

theorem rcpVal_nan (sig : Bool) : rcpVal (.nan sig) = (.nan false, (FVal.nan sig).sigNV) := by cases sig <;> simp [rcpVal, FVal.div, FVal.sigNV]

theorem rcpVal_zero (m : Bool) : rcpVal (.zero m) = (.inf m, flagDZ) := by simp [rcpVal, FVal.div]

theorem rcpVal_inf (m : Bool) : rcpVal (.inf m) = (.zero m, 0#64) := by simp [rcpVal, FVal.div, FVal.sigNV]

/-- The quotient of a reciprocal, 2 to a power that leaves it more than 72 bits, and whether anything is left over. -/
theorem rcpVal_fin (neg : Bool) (m : Nat) (e : Int) : rcpVal (.fin neg m e) =
    (.fin neg (2 * (2 ^ (m.log2 + 72) / m) + (if 2 ^ (m.log2 + 72) % m = 0 then 0 else 1)) (-e - (m.log2 + 72 : Nat) - 1), 0#64) := by
  have one : Nat.log2 1 = 0 := rfl
  simp [rcpVal, FVal.div, FVal.sigNV, one]

/-- A finite reciprocal stands for the exact one (R86, R198). -/
theorem rcpVal_stands (neg : Bool) {m : Nat} (h : m ≠ 0) (e : Int) :
    Stands 26 (rcpVal (.fin neg m e)).1 (· < 1 / (FVal.fin neg m e).real) (· = 1 / (FVal.fin neg m e).real) := by
  have plus : Stands 26 (.fin false (2 * (2 ^ (m.log2 + 72) / m) + (if 2 ^ (m.log2 + 72) % m = 0 then 0 else 1))
      (-e - (m.log2 + 72 : Nat) - 1)) (· < 1 / (FVal.fin false m e).real) (· = 1 / (FVal.fin false m e).real) := by
    have pos : (0 : Rat) < m := Nat.cast_pos.mpr (Nat.pos_of_ne_zero h)
    have parts : (2 : Rat) ^ (m.log2 + 72) = m * (2 ^ (m.log2 + 72) / m : Nat) + (2 ^ (m.log2 + 72) % m : Nat) := by
      exact_mod_cast (Nat.div_add_mod _ _).symm
    have big : 2 ^ 26 ≤ 2 ^ (m.log2 + 72) / m := by
      rw [Nat.le_div_iff_mul_le (Nat.pos_of_ne_zero h)]
      calc 2 ^ 26 * m ≤ 2 ^ 26 * 2 ^ (m.log2 + 1) := Nat.mul_le_mul_left _ Nat.lt_log2_self.le
        _ ≤ 2 ^ (m.log2 + 72) := by rw [← pow_add]; exact Nat.pow_le_pow_right two_pos (by omega)
    have exact : 1 / (FVal.fin false m e).real = 2 ^ (m.log2 + 72) / m * 2 ^ (-e - (m.log2 + 72 : Nat) : Int) := by
      rw [real_plus, zpow_sub₀ two_ne_zero, zpow_neg, zpow_natCast]
      field_simp
    have left := Nat.mod_lt (2 ^ (m.log2 + 72)) (Nat.pos_of_ne_zero h)
    generalize (-e - (m.log2 + 72 : Nat) : Int) = g at exact ⊢
    have power : (0 : Rat) < 2 ^ g := by positivity
    rw [exact, parts]
    generalize 2 ^ (m.log2 + 72) / m = q at *
    generalize 2 ^ (m.log2 + 72) % m = r at *
    by_cases whole : r = 0
    · have value : (m * (q : Rat) + (r : Nat)) / m * 2 ^ g = (2 * q + 0 : Nat) * 2 ^ (g - 1) := by
        rw [whole, zpow_sub_one₀ two_ne_zero]
        push_cast
        field_simp
        ring
      rw [if_pos whole, value]
      exact stands_exact _ _
    · have value : (m * (q : Rat) + (r : Nat)) / m * 2 ^ g = (q + r / m) * 2 ^ g := by field_simp
      have some_ : (0 : Rat) < r / m := div_pos (Nat.cast_pos.mpr (Nat.pos_of_ne_zero whole)) pos
      have less : (r : Rat) / m < 1 := (div_lt_one pos).mpr (Nat.cast_lt.mpr left)
      rw [if_neg whole, value]
      refine stands_between big (fun c hc => ?_) (fun c hc => ?_)
      · have := hc.trans_lt (mul_lt_mul_of_pos_right (by linarith : (q : Rat) < q + r / m) power)
        exact ⟨this, this.ne⟩
      · have := (mul_lt_mul_of_pos_right (by linarith : (q + r / m : Rat) < q + 1) power).trans_le hc
        exact ⟨this.not_gt, this.ne'⟩
  rw [rcpVal_fin]
  cases neg with
  | false => exact plus
  | true =>
    have minus : 1 / (FVal.fin true m e).real = -(1 / (FVal.fin false m e).real) := by simp [FVal.real]
    rw [minus]
    exact stands_neg plus

/-! Inverse square roots. -/

/-- The integer square root, bit by bit, with what is known of the bits found. -/
theorem isqrt_spec (n fuel : Nat) {acc : Nat} (low : acc * acc ≤ n) (high : n < (acc + 2 ^ fuel) * (acc + 2 ^ fuel)) :
    isqrt n fuel acc * isqrt n fuel acc ≤ n ∧ n < (isqrt n fuel acc + 1) * (isqrt n fuel acc + 1) := by
  induction fuel generalizing acc with
  | zero => exact ⟨low, high⟩
  | succ fuel ih =>
    simp only [isqrt]
    rw [pow_succ, Nat.mul_two, ← Nat.add_assoc] at high
    split
    · next fits => exact ih fits high
    · next beyond => exact ih low (not_le.mp beyond)

/-- The even power of two taken out of a value before its root: its odd part and the half of its exponent. -/
theorem even_exponent (m : Nat) (e : Int) : (m : Rat) * 2 ^ e =
    (m * 2 ^ (if e % 2 = 0 then 0 else 1) : Nat) * 2 ^ (2 * ((e - (if e % 2 = 0 then 0 else 1 : Nat)) / 2)) := by
  have whole : (if e % 2 = 0 then 0 else 1 : Nat) + 2 * ((e - (if e % 2 = 0 then 0 else 1 : Nat)) / 2) = e := by
    split <;> omega
  conv_lhs => rw [← whole]
  rw [zpow_add₀ two_ne_zero, zpow_natCast]
  push_cast
  ring

theorem square_scaled_le {a b x : Rat} (nonneg : 0 ≤ a) (le : a ≤ b) (pos : 0 < x) : a * a * x ≤ b * b * x :=
  mul_le_mul_of_nonneg_right (mul_self_le_mul_self nonneg le) pos.le

/-- An inverse root that is a binary fraction divides the fractions below it from those above. -/
theorem inverse_root_divides {u x : Rat} (upos : 0 < u) (pos : 0 < x) (root : u * u * x = 1) (c : Rat) :
    ((c < 0 ∨ c * c * x < 1) ↔ c < u) ∧ ((0 < c ∧ c * c * x = 1) ↔ c = u) := by
  rcases lt_trichotomy c u with less | rfl | more
  · refine ⟨iff_of_true ?_ less, iff_of_false (fun ⟨cpos, at_⟩ => ?_) less.ne⟩
    · rcases lt_or_ge c 0 with neg | nonneg
      · exact .inl neg
      · exact .inr (root ▸ mul_lt_mul_of_pos_right (mul_self_lt_mul_self nonneg less) pos)
    · exact (mul_lt_mul_of_pos_right (mul_self_lt_mul_self cpos.le less) pos).ne (at_.trans root.symm)
  · exact ⟨iff_of_false (by simp [root, upos.le]) (lt_irrefl c), iff_of_true ⟨upos, root⟩ rfl⟩
  · have above := mul_lt_mul_of_pos_right (mul_self_lt_mul_self upos.le more) pos
    refine ⟨iff_of_false ?_ more.not_gt, iff_of_false (fun h => above.ne' (h.2.trans root.symm)) more.ne'⟩
    rintro (neg | small)
    · exact (upos.trans more).not_gt neg
    · exact (root ▸ above).not_gt small

/-- An inverse root stands for the exact one (R86, R198). -/
theorem rsqrtVal_stands {m : Nat} (h : m ≠ 0) (small : m < 2 ^ 24) (e : Int) : Stands 26 (rsqrtVal (.fin false m e)).1
    (fun c => c < 0 ∨ c * c * (FVal.fin false m e).real < 1) (fun c => 0 < c ∧ c * c * (FVal.fin false m e).real = 1) := by
  rw [real_plus, even_exponent]
  simp only [rsqrtVal]
  generalize hodd : (if e % 2 = 0 then 0 else 1 : Nat) = odd
  have oddLe : odd ≤ 1 := by
    rw [← hodd]
    split <;> omega
  generalize (e - odd) / 2 = half
  have qPos : 0 < m * 2 ^ odd := Nat.mul_pos (Nat.pos_of_ne_zero h) (Nat.two_pow_pos odd)
  have qSmall : m * 2 ^ odd ≤ 2 ^ 25 := by
    calc m * 2 ^ odd ≤ 2 ^ 24 * 2 ^ 1 := Nat.mul_le_mul small.le (Nat.pow_le_pow_right two_pos oddLe)
      _ = 2 ^ 25 := rfl
  generalize m * 2 ^ odd = q at *
  obtain ⟨low, high⟩ := isqrt_spec (2 ^ 240 / q) 121 (acc := 0) (Nat.zero_le _)
    ((Nat.div_le_self _ _).trans_lt (by norm_num))
  generalize isqrt (2 ^ 240 / q) 121 0 = r at *
  rw [Nat.le_div_iff_mul_le qPos] at low
  rw [Nat.div_lt_iff_lt_mul qPos] at high
  have big : 2 ^ 26 ≤ r := by
    by_contra less
    have : (r + 1) * (r + 1) * q ≤ 2 ^ 26 * 2 ^ 26 * 2 ^ 25 := Nat.mul_le_mul (Nat.mul_le_mul (by omega) (by omega)) qSmall
    norm_num at this high
    omega
  have xpos : (0 : Rat) < q * 2 ^ (2 * half) := mul_pos (Nat.cast_pos.mpr qPos) (by positivity)
  have power : (0 : Rat) < 2 ^ (-half - 120) := by positivity
  have scaled (a : Rat) : a * 2 ^ (-half - 120) * (a * 2 ^ (-half - 120)) * (q * 2 ^ (2 * half)) = a * a * q / 2 ^ 240 := by
    have unit : (2 : Rat) ^ (-half - 120) * 2 ^ (-half - 120) * 2 ^ (2 * half) = 1 / 2 ^ 240 := by
      rw [← zpow_add₀ two_ne_zero, ← zpow_add₀ two_ne_zero, show -half - 120 + (-half - 120) + 2 * half = -(240 : Nat) by push_cast; ring,
        zpow_neg, zpow_natCast, one_div]
    linear_combination (a * a * q) * unit
  rw [show -half - 121 = -half - 120 - 1 by ring]
  generalize (-half - 120 : Int) = g at *
  by_cases exact : r * r * q = 2 ^ 240
  · have root : (r : Rat) * 2 ^ g * (r * 2 ^ g) * (q * 2 ^ (2 * half)) = 1 := by
      rw [scaled, div_eq_one_iff_eq (by positivity)]
      exact_mod_cast exact
    have rpos : (0 : Rat) < r * 2 ^ g := mul_pos (Nat.cast_pos.mpr (by omega)) power
    have value : ((2 * r + 0 : Nat) : Rat) * 2 ^ (g - 1) = r * 2 ^ g := by
      rw [zpow_sub_one₀ two_ne_zero]
      push_cast
      ring
    rw [if_pos exact]
    refine ⟨rfl, fun k j _ => ?_⟩
    obtain ⟨less, equal⟩ := inverse_root_divides rpos xpos root (k * 2 ^ j)
    rw [real_plus, value]
    exact ⟨less.symm, eq_comm.trans equal.symm⟩
  · rw [if_neg exact]
    have under : (r : Rat) * 2 ^ g * (r * 2 ^ g) * (q * 2 ^ (2 * half)) < 1 := by
      rw [scaled, div_lt_one (by positivity)]
      exact_mod_cast low.lt_of_ne exact
    have above : 1 < (r + 1 : Rat) * 2 ^ g * ((r + 1) * 2 ^ g) * (q * 2 ^ (2 * half)) := by
      rw [scaled, one_lt_div (by positivity)]
      exact_mod_cast high
    refine stands_between big (fun c hc => ?_) (fun c hc => ?_)
    · have lower (nonneg : 0 ≤ c) : c * c * (q * 2 ^ (2 * half)) < 1 := (square_scaled_le nonneg hc xpos).trans_lt under
      exact ⟨(lt_or_ge c 0).imp_right lower, fun h => (lower h.1.le).ne h.2⟩
    · have nonneg : 0 ≤ (r + 1 : Rat) * 2 ^ g := by positivity
      have upper := above.trans_le (square_scaled_le nonneg hc xpos)
      exact ⟨not_or.mpr ⟨not_lt.mpr (nonneg.trans hc), upper.not_gt⟩, fun h => upper.ne' h.2⟩

end Sys2Proof.Machine
end

section
/-! PROOFS. The transcendentals (O25): where and when their lanes are written, and each lane's value, by the kind of its operand. -/

namespace Sys2Proof.Machine

/-- What holds of every active lane's value and flags of a vector result, the flags gathered (R184, R186). -/
def EachLane (t : LaneTy) (m : BitVec 16) (old : VWord) (R : Nat → Nat → Word → Prop) (r : VWord) (g : Word) : Prop :=
  ∃ fl : Nat → Word, (∀ i < t.lanes, if laneOn t m i then R i (laneAt t.width r i) (fl i)
      else laneAt t.width r i = laneAt t.width old i ∧ fl i = 0#64) ∧
    ∀ j : Nat, g.getLsbD j = true ↔ ∃ i < t.lanes, (fl i).getLsbD j = true

/-- R198 and R199: a transcendental writes its lanes at once on a master, and after 30 cycles on a barrel core. -/
theorem vlong_gives {i : Instr} {s : State} {t : LaneTy} {k d a : VReg} {F : FVal → FVal × Word} {R : Nat → Nat → Word → Prop}
    (float : t.isFloat = true) (run : exec i s = .next (s.vlong t k d a F))
    (h : ∀ i, R i (laneRound t .rne (F (laneVal t (laneAt t.width (s.v a) i)))).1 (laneRound t .rne (F (laneVal t (laneAt t.width (s.v a) i)))).2) :
    (s.ag.role = .master → Completes i s (fun u => ∃ r g, WroteV s d r g u ∧ EachLane t (s.k k) (s.v d) R r g)) ∧
      (s.ag.role ≠ .master → Completes i s (fun u => ∃ r g, IssuedLong s (s.pkg.cycle + 30) (.vec d r g) u ∧
        EachLane t (s.k k) (s.v d) R r g)) := by
  unfold State.vlong at run
  extract_lets x result at run
  have each : EachLane t (s.k k) (s.v d) R result.1 result.2 := by
    refine ⟨_, fun j hj => mapLanes_lanes t (s.k k) (s.v d) _ (fun _ => laneRound_lt t _ float _) (fun i hi => ?_) hj,
      mapLanes_flags t (s.k k) (s.v d) _⟩
    rw [lane_lanesOf hi]
    exact h i
  refine ⟨fun master => ?_, fun slot => ?_⟩
  · rw [if_pos master] at run
    exact ⟨_, run, _, _, vresult_wrote s d result, each⟩
  · rw [if_neg slot] at run
    exact ⟨_, run, _, _, ⟨rfl, rfl, rfl, sameMemory_refl s⟩, each⟩

/-! Values of lanes. -/

/-- The mantissa and exponent of a lane's finite value, of whichever type (R73). -/
theorem laneVal_fin_bounds {t : LaneTy} {x : Nat} {neg : Bool} {m : Nat} {e : Int} (h : laneVal t x = .fin neg m e) :
    m ≠ 0 ∧ m < 2 ^ 24 ∧ -256 ≤ e := by
  obtain ⟨nonzero, small, low⟩ := decode_fin (laneVal_fin h)
  have format : (laneFmt t).mbits ≤ 23 ∧ -256 ≤ (laneFmt t).emin - (laneFmt t).mbits := by cases t <;> decide
  exact ⟨nonzero, small.trans_le (Nat.pow_le_pow_right two_pos (by omega)), by omega⟩

/-- A lane's result of a value that is a power of two within range. -/
theorem laneRound_of_real {t : LaneTy} {v : FVal} {n : Int} (fin : v.finite = true) (value : v.real = 2 ^ n) (low : (laneFmt t).emin ≤ n)
    (high : n ≤ (laneFmt t).emax) : ((laneFmt t).decode (laneRound t .rne (v, 0#64)).1).real = 2 ^ n ∧ (laneRound t .rne (v, 0#64)).2 = 0#64 := by
  have power : (0 : Rat) < 2 ^ n := by positivity
  cases v with
  | nan | inf => cases fin
  | zero neg => exact absurd value.symm power.ne'
  | fin neg m e =>
    cases neg with
    | true =>
      have nonneg : (0 : Rat) ≤ m * 2 ^ e := by positivity
      have minus : (FVal.fin true m e).real = -(m * 2 ^ e) := by simp [FVal.real]
      linarith
    | false => exact laneRound_two_pow t .rne 0#64 (real_plus m e ▸ value) low high

/-- 2 to an integer is exact (R198). -/
theorem exp2Val_int {x : FVal} {n : Int} (proper : ∀ neg m e, x = .fin neg m e → m ≠ 0 ∧ -256 ≤ e) (fin : x.finite = true) (value : x.real = n)
    (small : |n| < 2 ^ 11) : exp2Val x = (.fin false 1 n, 0#64) := by
  cases x with
  | nan | inf => cases fin
  | zero neg =>
    have value' : (0 : Rat) = n := value
    have zero : n = 0 := by exact_mod_cast value'.symm
    rw [zero]
    rfl
  | fin neg m e =>
    obtain ⟨nonzero, low⟩ := proper neg m e rfl
    have exponent : ¬ 11 ≤ expOf m e := by
      intro large
      have size : (m : Rat) * 2 ^ e < 2 ^ (11 : Int) := by
        rw [← abs_real_fin neg, value]
        exact_mod_cast small
      have := (zpow_le_zpow_right₀ (by norm_num : (1 : Rat) ≤ 2) large).trans (expOf_bounds nonzero e).1
      exact size.not_ge this
    have fixed : signed neg (m * 2 ^ (e + 256).toNat) = n * 2 ^ 256 := by
      have cast : ((signed neg (m * 2 ^ (e + 256).toNat) : Int) : Rat) = n * 2 ^ 256 := by
        have scale : (2 : Rat) ^ (e + 256).toNat = 2 ^ e * 2 ^ 256 := by
          rw [← zpow_natCast, Int.toNat_of_nonneg (by omega), zpow_add₀ two_ne_zero]
          rfl
        rw [← value, real_fin, signed, signed]
        cases neg <;> push_cast <;> simp [scale] <;> ring
      exact_mod_cast cast
    have nearest : (n * 2 ^ 256 + 2 ^ 255) / 2 ^ 256 = n := by omega
    simp only [exp2Val, exp2Fin, if_neg exponent, fixed, nearest, sub_self, if_true]

/-! A lane's result, by the kind of its operand. -/

theorem sigNV_of_nan (sig : Bool) : (FVal.nan sig).sigNV = flagIf sig flagNV := by cases sig <;> rfl

section Lanes
variable {t : LaneTy} {F : FVal → FVal × Word} {x : FVal} {g : Word}

theorem lane_nan (h : ∀ sig, F (.nan sig) = (.nan false, (FVal.nan sig).sigNV)) (nan : x.isNan = true) :
    (laneRound t .rne (F x)).1 = (laneFmt t).canonNan ∧ (laneRound t .rne (F x)).2 = x.sigNV := by
  cases x with
  | nan sig =>
    rw [h, laneRound_nan]
    exact ⟨rfl, rfl⟩
  | _ => cases nan

theorem lane_canonNan (h : F x = (.nan false, g)) :
    (laneRound t .rne (F x)).1 = (laneFmt t).canonNan ∧ (laneRound t .rne (F x)).2 = g := by
  rw [h, laneRound_nan]
  exact ⟨rfl, rfl⟩

theorem lane_inf {n : Bool} (h : F x = (.inf n, g)) :
    (laneRound t .rne (F x)).1 = (laneFmt t).infinity n ∧ (laneRound t .rne (F x)).2 = g := by
  rw [h, laneRound_inf]
  exact ⟨rfl, rfl⟩

theorem lane_zero {n : Bool} (h : F x = (.zero n, g)) :
    (laneRound t .rne (F x)).1 = (laneFmt t).sign n ∧ (laneRound t .rne (F x)).2 = g := by
  rw [h, laneRound_zero]
  exact ⟨rfl, rfl⟩

/-- A value that stands for a power of two is that power, and its rounding is exact. -/
theorem lane_power {below at_ : Rat → Prop} (noFlag : (F x).2 = 0#64) (stands : Stands 26 (F x).1 below at_) {n : Int} (power : at_ (2 ^ n))
    (low : (laneFmt t).emin ≤ n) (high : n ≤ (laneFmt t).emax) :
    ((laneFmt t).decode (laneRound t .rne (F x)).1).real = 2 ^ n ∧ (laneRound t .rne (F x)).2 = 0#64 := by
  obtain ⟨fin, sides⟩ := stands
  have value : (F x).1.real = 2 ^ n := by
    have one := (sides 1 n (by decide)).2
    rw [Int.cast_one, one_mul] at one
    exact one.mpr power
  rw [show F x = ((F x).1, 0#64) from Prod.ext rfl noFlag]
  exact laneRound_of_real fin value low high

end Lanes

section Functions
variable {t : LaneTy} {x : FVal} (bounds : ∀ neg m e, x = .fin neg m e → m ≠ 0 ∧ m < 2 ^ 24 ∧ -256 ≤ e)
include bounds

theorem vexp2_lane :
    let f := laneFmt t
    let r := (laneRound t .rne (exp2Val x)).1
    let g := (laneRound t .rne (exp2Val x)).2
    (x.isNan = true → r = f.canonNan ∧ g = x.sigNV) ∧
      (∀ m, x = .zero m → (f.decode r).real = 1 ∧ g = 0#64) ∧
      (x = .inf false → r = f.infinity false ∧ g = 0#64) ∧ (x = .inf true → r = 0 ∧ g = 0#64) ∧
      (x.finite = true → laneRound t .rne ((exp2Val x).1, 0#64) = (r, g)) ∧
      (∀ n : Int, x.finite = true → x.real = n → f.emin ≤ n → n ≤ f.emax → (f.decode r).real = 2 ^ n ∧ g = 0#64) := by
  intro f r g
  have range : f.emin < 0 ∧ 0 < f.emax ∧ -2 ^ 11 < f.emin ∧ f.emax < 2 ^ 11 := by
    show (laneFmt t).emin < 0 ∧ 0 < (laneFmt t).emax ∧ -2 ^ 11 < (laneFmt t).emin ∧ (laneFmt t).emax < 2 ^ 11
    cases t <;> decide
  have proper neg m e (h : x = .fin neg m e) : m ≠ 0 ∧ -256 ≤ e := by
    obtain ⟨nonzero, -, low⟩ := bounds neg m e h
    exact ⟨nonzero, low⟩
  have powers (n : Int) (fin : x.finite = true) (value : x.real = n) (low : f.emin ≤ n) (high : n ≤ f.emax) :
      (f.decode r).real = 2 ^ n ∧ g = 0#64 := by
    have result := exp2Val_int proper fin value (abs_lt.mpr ⟨by omega, by omega⟩)
    have one : ((1 : Nat) : Rat) * 2 ^ n = 2 ^ n := by simp
    have rounded := laneRound_two_pow t .rne 0#64 one low high
    rwa [← result] at rounded
  refine ⟨lane_nan (F := exp2Val) fun sig => ?_, fun m zero => ?_, fun inf => lane_inf (F := exp2Val) (by rw [inf]; rfl),
    fun inf => lane_zero (F := exp2Val) (n := false) (by rw [inf]; rfl),
    fun fin => ?_, powers⟩
  · rw [sigNV_of_nan]
    rfl
  · obtain ⟨below, above, -, -⟩ := range
    have unit := powers 0 (by rw [zero]; rfl) (by rw [zero]; rfl) below.le above.le
    rwa [zpow_zero] at unit
  · have noFlag : (exp2Val x).2 = 0#64 := by
      cases x with
      | nan | inf => cases fin
      | zero | fin => rfl
    rw [← noFlag]

theorem vrcp_lane :
    let f := laneFmt t
    let r := (laneRound t .rne (rcpVal x)).1
    let g := (laneRound t .rne (rcpVal x)).2
    (x.isNan = true → r = f.canonNan ∧ g = x.sigNV) ∧
      (∀ m, x = .zero m → r = f.infinity m ∧ g = flagDZ) ∧
      (∀ m, x = .inf m → r = f.sign m ∧ g = 0#64) ∧
      (x.finite = true → x.real ≠ 0 → ∃ v : FVal, v.isNeg = x.isNeg ∧ Stands 26 v (fun c => c < 1 / x.real) (fun c => c = 1 / x.real) ∧
        laneRound t .rne (v, 0#64) = (r, g)) ∧
      (∀ n : Int, x.finite = true → x.real = 2 ^ n → f.emin ≤ -n → -n ≤ f.emax → (f.decode r).real = 2 ^ (-n) ∧ g = 0#64) := by
  intro f r g
  have finite_ (fin : x.finite = true) (nonzero : x.real ≠ 0) : (rcpVal x).2 = 0#64 ∧ (rcpVal x).1.isNeg = x.isNeg ∧
      Stands 26 (rcpVal x).1 (fun c => c < 1 / x.real) (fun c => c = 1 / x.real) := by
    cases x with
    | nan | inf => cases fin
    | zero => exact absurd rfl nonzero
    | fin neg m e => exact ⟨by rw [rcpVal_fin], by simp only [rcpVal_fin, FVal.isNeg], rcpVal_stands neg (bounds neg m e rfl).1 e⟩
  refine ⟨lane_nan rcpVal_nan, fun m zero => lane_inf (F := rcpVal) (by rw [zero, rcpVal_zero]),
    fun m inf => lane_zero (F := rcpVal) (by rw [inf, rcpVal_inf]), fun fin nonzero => ?_,
    fun n fin value low high => ?_⟩
  · obtain ⟨noFlag, sign, stands⟩ := finite_ fin nonzero
    exact ⟨_, sign, stands, by rw [← noFlag]⟩
  · have power : (0 : Rat) < 2 ^ n := by positivity
    obtain ⟨noFlag, -, stands⟩ := finite_ fin (value ▸ power.ne')
    exact lane_power noFlag stands (by rw [value, zpow_neg, one_div]) low high

theorem vrsqrt_lane :
    let f := laneFmt t
    let r := (laneRound t .rne (rsqrtVal x)).1
    let g := (laneRound t .rne (rsqrtVal x)).2
    (x.isNan = true → r = f.canonNan ∧ g = x.sigNV) ∧
      (∀ m, x = .zero m → r = f.infinity m ∧ g = flagDZ) ∧
      (x = .inf false → r = 0 ∧ g = 0#64) ∧
      (x.finite = true → 0 < x.real → ∃ v : FVal,
        Stands 26 v (fun c => c < 0 ∨ c * c * x.real < 1) (fun c => 0 < c ∧ c * c * x.real = 1) ∧ laneRound t .rne (v, 0#64) = (r, g)) ∧
      (x.isNeg = true → (∀ m, x ≠ .zero m) → x.isNan = false → r = f.canonNan ∧ g = flagNV) ∧
      (∀ n : Int, x.finite = true → x.real = 2 ^ (2 * n) → f.emin ≤ -n → -n ≤ f.emax → (f.decode r).real = 2 ^ (-n) ∧ g = 0#64) := by
  intro f r g
  have positive (fin : x.finite = true) (pos : 0 < x.real) : (rsqrtVal x).2 = 0#64 ∧
      Stands 26 (rsqrtVal x).1 (fun c => c < 0 ∨ c * c * x.real < 1) (fun c => 0 < c ∧ c * c * x.real = 1) := by
    cases x with
    | nan | inf => cases fin
    | zero => exact absurd pos (lt_irrefl 0)
    | fin neg m e =>
      obtain ⟨nonzero, small, -⟩ := bounds neg m e rfl
      cases neg with
      | true => exact absurd pos (real_minus_neg nonzero e).not_gt
      | false => exact ⟨rfl, rsqrtVal_stands nonzero small e⟩
  refine ⟨lane_nan (F := rsqrtVal) fun sig => ?_, fun m zero => lane_inf (F := rsqrtVal) (by rw [zero]; rfl),
    fun inf => lane_zero (F := rsqrtVal) (n := false) (by rw [inf]; rfl),
    fun fin pos => ?_, fun neg nonzero number => ?_, fun n fin value low high => ?_⟩
  · rw [sigNV_of_nan]
    rfl
  · obtain ⟨noFlag, stands⟩ := positive fin pos
    exact ⟨_, stands, by rw [← noFlag]⟩
  · refine lane_canonNan (F := rsqrtVal) ?_
    cases x with
    | nan => cases number
    | zero m => exact absurd rfl (nonzero m)
    | inf n | fin n =>
      obtain rfl : n = true := neg
      rfl
  · have power : (0 : Rat) < 2 ^ n := by positivity
    obtain ⟨noFlag, stands⟩ := positive fin (by rw [value]; positivity)
    refine lane_power noFlag stands ⟨by positivity, ?_⟩ low high
    rw [value, ← zpow_add₀ two_ne_zero, ← zpow_add₀ two_ne_zero, show -n + -n + 2 * n = 0 by ring, zpow_zero]

end Functions

/-- Settles O25: the lanes of each instruction are written at its time, and each lane is as its function's values say. -/
theorem vectorTranscendentalsTakeTheirLatency : Obligations.VectorTranscendentalsTakeTheirLatency := by
  unfold Obligations.VectorTranscendentalsTakeTheirLatency
  intro t k d a s float w x f lanes rounds gives
  have bounds (i : Nat) : ∀ neg m e, x i = .fin neg m e → m ≠ 0 ∧ m < 2 ^ 24 ∧ -256 ≤ e := fun _ _ _ => laneVal_fin_bounds
  have each {i : Instr} {F : FVal → FVal × Word} (R : Nat → Nat → Word → Prop) (run : exec i s = .next (s.vlong t k d a F))
      (h : ∀ j, R j (laneRound t .rne (F (x j))).1 (laneRound t .rne (F (x j))).2) : gives i R := vlong_gives float run h
  clear_value gives
  exact ⟨each (F := exp2Val) _ rfl fun i => vexp2_lane (bounds i), each (F := rcpVal) _ rfl fun i => vrcp_lane (bounds i),
    each (F := rsqrtVal) _ rfl fun i => vrsqrt_lane (bounds i)⟩

end Sys2Proof.Machine
end

section
/-! PROOFS. What the accesses of an engine leave as it was (R64, R306): the tasks, accumulators and panels of the tile engines and the
communicators stand, whatever becomes of memory, its watches and the cached entries. -/

namespace Sys2Proof.Machine

theorem completes_of {i : Instr} {s u : State} {P : State → Prop} (run : exec i s = .next u) (h : P u) : Completes i s P := ⟨u, run, h⟩

theorem OnlyMemory.tiles {s t : State} (h : OnlyMemory s t) : t.job.tiles = s.job.tiles := by
  obtain ⟨_, _, e⟩ := h.job
  rw [e]

/-- The tables of the tile engines and of the communicators stand as they stood. -/
structure WorkStands (s t : State) : Prop where
  tiles : t.job.tiles = s.job.tiles
  comms : t.job.comms = s.job.comms

namespace WorkStands

theorem refl (s : State) : WorkStands s s := ⟨rfl, rfl⟩

variable {s t u : State}

theorem trans (h : WorkStands s t) (k : WorkStands t u) : WorkStands s u := ⟨k.tiles.trans h.tiles, k.comms.trans h.comms⟩

theorem of_memory (h : OnlyMemory s t) : WorkStands s t := ⟨h.tiles, h.comms⟩

theorem of_walk (h : WalkOnly s t) : WorkStands s t := by
  obtain ⟨_, _, _, rfl⟩ := h
  exact ⟨rfl, rfl⟩

theorem of_job (h : t.job = s.job) : WorkStands s t := ⟨by rw [h], by rw [h]⟩

theorem tile (h : WorkStands s t) (die : Nat) : t.job.tile die = s.job.tile die := by rw [Job.tile, h.tiles, Job.tile]

theorem task? (h : WorkStands s t) (die list ticket : Nat) : t.job.task? die list ticket = s.job.task? die list ticket := by
  rw [Job.task?, h.tile, Job.task?]

theorem foldl {α : Type} {f : State → α → State} (each : ∀ v x, WorkStands v (f v x)) (l : List α) (s : State) :
    WorkStands s (l.foldl f s) :=
  List.foldlRecOn _ _ (motive := WorkStands s) (.refl s) (fun v hv x _ => hv.trans (each v x))

end WorkStands

theorem WalkOnly.share {s u : State} (h : WalkOnly s u) : u.share = s.share := by
  obtain ⟨_, _, _, rfl⟩ := h
  rfl

section Accesses
variable {s u : State} {q : Chunk} {va : Word} {n : Nat}

theorem engLoc_walkOnly {l : Loc} (h : s.engLoc q va n = .ok u l) : WalkOnly s u := by
  unfold State.engLoc at h
  split at h
  · cases h
  · next checked =>
    split at h
    · cases h
    split at h
    · obtain ⟨rfl, -⟩ := Eng.ok.inj h
      exact check_walkOnly checked
    · cases h
  · next checked =>
    split at h
    · cases h
    obtain ⟨rfl, -⟩ := Eng.ok.inj h
    exact check_walkOnly checked

theorem engLocs_walkOnly {l : List (Word × Nat)} {ls : List Loc} (h : State.engLocs q l s = .ok u ls) : WalkOnly s u := by
  induction l generalizing s ls with
  | nil =>
    obtain ⟨rfl, -⟩ := Eng.ok.inj h
    exact .refl s
  | cons x l ih =>
    unfold State.engLocs at h
    split at h
    · next first =>
      split at h
      · next others =>
        obtain ⟨rfl, -⟩ := Eng.ok.inj h
        exact (engLoc_walkOnly first).trans (ih others)
      all_goals cases h
    all_goals cases h

theorem engBytes_stands {x : List Nat × List Nat} (h : s.engBytes q va n = .ok u x) : WorkStands s u := by
  unfold State.engBytes at h
  split at h
  iterate 3 cases h
  next located =>
    obtain ⟨rfl, -⟩ := Eng.ok.inj h
    refine (WorkStands.of_walk (engLocs_walkOnly located)).trans (.foldl (fun v l => ?_) _ _)
    cases l with
    | view pa => exact .of_job (fillView_job v pa)
    | _ => exact .refl v

theorem engSpotAs_walkOnly {f : Form} {sp : Spot} (h : s.engSpotAs f q va n = .ok u sp) : WalkOnly s u := by
  unfold State.engSpotAs at h
  split at h
  · cases h
  · next checked =>
    split at h
    · cases h
    obtain ⟨rfl, -⟩ := Eng.ok.inj h
    exact check_walkOnly checked
  · next checked =>
    split at h
    · cases h
    split at h
    · obtain ⟨rfl, -⟩ := Eng.ok.inj h
      exact check_walkOnly checked
    · cases h
  · cases h

theorem engSpots_walkOnly {l : List (Word × Nat)} {ss : List Spot} (h : State.engSpots q l s = .ok u ss) :
    WalkOnly s u ∧ ss.length = l.length := by
  induction l generalizing s ss with
  | nil =>
    obtain ⟨rfl, rfl⟩ := Eng.ok.inj h
    exact ⟨.refl s, rfl⟩
  | cons x l ih =>
    unfold State.engSpots at h
    split at h
    · next first =>
      split at h
      · next others =>
        obtain ⟨rfl, rfl⟩ := Eng.ok.inj h
        obtain ⟨walk, length⟩ := ih others
        exact ⟨(engSpotAs_walkOnly first).trans walk, by rw [List.length_cons, length, List.length_cons]⟩
      all_goals cases h
    all_goals cases h

end Accesses

theorem storeBytes_onlyMemory (s : State) (w : Writer) (a : Nat) (bs : List (Nat × Nat)) (home : Option Nat) :
    OnlyMemory s (s.storeBytes w a bs home) := by
  let t : State := { s with mem := bs.foldl (fun m (b : Nat × Nat) => Memory.write (a + b.1) (BitVec.ofNat 8 b.2) m) s.mem }
  have bytes : OnlyMemory s t := ⟨rfl, ⟨_, _, rfl⟩, Memory.wf_foldl_write, fun _ => rfl⟩
  exact bytes.trans (written_onlyMemory t w a _ home)

/-- The writes that bytes make up are writes of bytes. -/
theorem doWrite_bytes_onlyMemory {x : LateWrite} {bs : List (Nat × Nat)} (h : x.data = .bytes bs) (s : State) :
    OnlyMemory s (s.doWrite x) := by
  unfold State.doWrite
  rw [h]
  dsimp only
  split
  · exact store_onlyMemory s _ _ _ _ _
  · exact storeBytes_onlyMemory s _ _ _ _

theorem putBytes_stands (request : Nat) (w : Writer) (bs : List (Spot × Nat)) (s : State) : WorkStands s (State.putBytes request w bs s) := by
  let l := dwordWrites request w s.pkg.cycle bs
  have stands : WorkStands s (((l.take (s.share.getD l.length)).filter (fun x => !x.behind s.job.late)).foldl State.doWrite s) := by
    refine List.foldlRecOn _ _ (motive := WorkStands s) (.refl s) (fun v hv x mem => hv.trans (.of_memory ?_))
    obtain ⟨dw, -, rfl⟩ := List.mem_map.mp (List.mem_of_mem_take (List.mem_of_mem_filter mem))
    exact doWrite_bytes_onlyMemory rfl v
  exact ⟨stands.tiles, stands.comms⟩

theorem reap_work (s : State) : WorkStands s s.reap ∧ SameMemory s s.reap := by
  unfold State.reap
  refine List.foldlRecOn _ _ (motive := fun t : State => WorkStands s t ∧ SameMemory s t)
    ⟨.refl s, fun _ => rfl, fun _ => rfl, fun _ => rfl⟩ (fun t ht x _ => ?_)
  split
  · exact ht
  · split
    · exact ⟨ht.1.trans ⟨rfl, rfl⟩, ht.2⟩
    · exact ht

/-- A request that leaves its engine touches neither memory nor the tables of the engines (R205, R293). -/
theorem requestGone_work (s : State) (kind handle number : Nat) (p : Poster) :
    WorkStands s (s.requestGone kind handle number p) ∧ SameMemory s (s.requestGone kind handle number p) := by
  unfold State.requestGone
  split
  · exact ⟨⟨rfl, rfl⟩, fun _ => rfl, fun _ => rfl, fun _ => rfl⟩
  · cases p.level with
    | job => exact ⟨⟨rfl, rfl⟩, fun _ => rfl, fun _ => rfl, fun _ => rfl⟩
    | node => exact ⟨⟨rfl, rfl⟩, fun _ => rfl, fun _ => rfl, fun _ => rfl⟩
    | spawn id =>
      obtain ⟨stands, same⟩ := reap_work (s.onSpawn id (fun x => { x with requests := x.requests - 1 }))
      exact ⟨⟨stands.tiles, stands.comms⟩, same⟩

end Sys2Proof.Machine
end

section
/-! PROOFS. The tables of a tile engine (R222 to R230): what is found of tasks and accumulators after one of them has changed, and how an
operation ends. -/

namespace Sys2Proof.Machine

@[simp] theorem tile_onTile (s : State) (die : Nat) (f : Tile → Tile) :
    (s.onTile die f).job.tile die = { f (s.job.tile die) with busyAt := s.pkg.cycle } := by
  simp [Job.tile, State.onTile]

section Tables
variable {s : State} {die h : Nat} {t t0 : Task}

theorem task?_list {j : Job} {list ticket : Nat} (found : j.task? die list ticket = some t) : t.list = list ∧ t.ticket = ticket := by
  simpa using List.find?_some found

/-- A task put in the place of those of its list and ticket is found there. -/
theorem task?_keepTask (found : s.job.task? die t.list t.ticket = some t0) : (s.keepTask die t).job.task? die t.list t.ticket = some t := by
  have same : ((fun x : Task => x.list == t.list && x.ticket == t.ticket) ∘ fun y => if y.list = t.list && y.ticket = t.ticket then t else y) =
      fun x => x.list == t.list && x.ticket == t.ticket := by
    funext y
    by_cases key : y.list = t.list ∧ y.ticket = t.ticket
    · simp [key]
    · simp [key]
  have key := task?_list found
  rw [Job.task?, State.keepTask, tile_onTile, List.find?_map, same]
  rw [Job.task?] at found
  simp [found, key]

theorem setTask_stands (s : State) (die : Nat) (t : Task) : WorkStands (s.keepTask die t) (s.setTask die t) :=
  .of_memory (store_onlyMemory _ _ _ _ _ _)

theorem task?_setTask (found : s.job.task? die t.list t.ticket = some t0) : (s.setTask die t).job.task? die t.list t.ticket = some t := by
  rw [(setTask_stands s die t).task?, task?_keepTask found]

/-- Keeping a task touches the tasks alone. -/
theorem tile_setTask (s : State) (die : Nat) (t : Task) : ((s.setTask die t).job.tile die).accs = (s.job.tile die).accs ∧
    ((s.setTask die t).job.tile die).panels = (s.job.tile die).panels := by
  rw [(setTask_stands s die t).tile, State.keepTask, tile_onTile]
  exact ⟨rfl, rfl⟩

/-- A task in a final state with the cause its completion raises (R227). -/
def Task.final (t : Task) (st : Nat) (trap : Option Trap) : Task :=
  { t with state := st, cause := (trap.map (fun x => x.cause.toNat)).getD t.cause, trap := trap, hold := .going }

theorem task?_taskEnd (found : s.job.task? die t.list t.ticket = some t0) (st : Nat) (trap : Option Trap) :
    (s.taskEnd die t st trap).job.task? die t.list t.ticket = some (t.final st trap) :=
  task?_setTask (t := t.final st trap) found

theorem accs_taskEnd (s : State) (die : Nat) (t : Task) (st : Nat) (trap : Option Trap) :
    ((s.taskEnd die t st trap).job.tile die).accs = (s.job.tile die).accs := (tile_setTask s die _).1

theorem lookup_onAcc (s : State) (die h : Nat) (f : Acc → Acc) :
    lookup h ((s.onAcc die h f).job.tile die).accs = (lookup h (s.job.tile die).accs).map f := by
  rw [State.onAcc, tile_onTile, lookup_modify_self]

theorem task?_onAcc (s : State) (die h : Nat) (f : Acc → Acc) (list ticket : Nat) :
    (s.onAcc die h f).job.task? die list ticket = s.job.task? die list ticket := by
  rw [Job.task?, State.onAcc, tile_onTile, Job.task?]

/-- Counting a group watchdog touches only what it has counted (R105). -/
theorem tick_keeps {a : Acc} (at_ : lookup h (s.job.tile die).accs = some a) :
    (∃ n, lookup h ((s.tick die h).job.tile die).accs = some { a with watchdog := n, counted := s.pkg.cycle }) ∧
      ((s.tick die h).job.tile die).tasks = (s.job.tile die).tasks ∧ ((s.tick die h).job.tile die).panels = (s.job.tile die).panels ∧
      SameButJob s (s.tick die h) := by
  have ticked : s.tick die h = s.onAcc die h (fun b => { b with watchdog := s.watchCount die a, counted := s.pkg.cycle }) := by
    rw [State.tick, at_]
  rw [ticked]
  refine ⟨⟨_, by rw [lookup_onAcc, at_]; rfl⟩, ?_, ?_, rfl⟩ <;> rw [State.onAcc, tile_onTile]

/-- An accumulator that holds no operation has none to go on with (R106). -/
theorem advance1_unheld {a : Acc} (at_ : lookup h (s.job.tile die).accs = some a) (unheld : a.held = []) : s.advance1 die h = s := by
  rw [State.advance1, State.advanceAcc, at_]
  dsimp only
  rw [unheld]
  split <;> rfl

/-- An operation ends: its task is final, and its key's successor is next (R106, R231). -/
theorem opEnd_unheld {a : Acc} (found : s.job.task? die t.list t.ticket = some t0) (at_ : lookup h (s.job.tile die).accs = some a)
    (unheld : a.held = []) (st : Nat) (trap : Option Trap) :
    (∃ n, (s.opEnd die h t st trap).job.task? die t.list t.ticket = some ({ t with blocks := n }.final st trap)) ∧
      lookup h ((s.opEnd die h t st trap).job.tile die).accs = some { a with current := none, nextKey := nextKeyOf (taskKey t.record) } := by
  unfold State.opEnd
  extract_lets blocks
  have ended := lookup_onAcc (s.taskEnd die { t with blocks := blocks } st trap) die h
    (fun a => { a with current := none, nextKey := nextKeyOf (taskKey t.record) })
  rw [accs_taskEnd, at_, Option.map_some] at ended
  rw [advance1_unheld ended unheld]
  refine ⟨⟨blocks, ?_⟩, ended⟩
  rw [task?_onAcc]
  exact task?_taskEnd (t := { t with blocks := blocks }) found st trap

/-- Where no task that is picked waits under its key, none is cancelled (R107). -/
theorem cancelHeld_none {p : Task → Bool} (none_ : ∀ x ∈ (s.job.tile die).tasks, p x = true → x.state ≠ 2) :
    s.cancelHeld die p = s := by
  have empty : (s.job.tile die).tasks.filter (fun t => p t && t.state = 2 && s.posterEnded t.poster) = [] := by
    rw [List.filter_eq_nil_iff]
    intro x mem
    have := none_ x mem
    simp only [Bool.and_eq_true, decide_eq_true_eq]
    tauto
  rw [State.cancelHeld, empty]
  rfl

end Tables

end Sys2Proof.Machine
end

section
/-! PROOFS. Dispatch, allocation, resumption and completion of tile tasks (R109, R112, R224, R229 to R231). -/

namespace Sys2Proof.Machine

theorem exec_taskDispatch (die : Nat) (s : State) : exec (.taskDispatch die) s = passing s (tryTaskDispatch die s) := rfl
theorem exec_aclr (die list : Nat) (s : State) : exec (.aclr die list) s = passing s (tryAclr die list s) := rfl
theorem exec_aload (die list : Nat) (s : State) : exec (.aload die list) s = passing s (tryAload die list s) := rfl
theorem exec_taskResume (die h : Nat) (s : State) : exec (.taskResume die h) s = passing s (tryTaskResume die h s) := rfl
theorem exec_taskCompletion (die list : Nat) (s : State) :
    exec (.taskCompletion die list) s = passing s (tryTaskCompletion die list s) := rfl

section Tasks
variable {s : State} {die list : Nat} {t : Task}

/-- The die as a dispatch takes the task, before its checks (R229). -/
def State.dispatching (s : State) (die list : Nat) (t : Task) : State :=
  s.onTile die (fun x => { x with
    dispatchedAt := some s.pkg.cycle
    lastList := assign (taskPrio t.record) list x.lastList
    tasks := x.tasks.map (fun y => if y.list = t.list && y.ticket = t.ticket then { t with dispatched := true } else y) })

theorem tile_dispatching : (s.dispatching die list t).job.tile die = { s.job.tile die with
    dispatchedAt := some s.pkg.cycle
    lastList := assign (taskPrio t.record) list (s.job.tile die).lastList
    tasks := ((s.keepTask die { t with dispatched := true }).job.tile die).tasks
    busyAt := s.pkg.cycle } := by
  rw [State.dispatching, tile_onTile, State.keepTask, tile_onTile]

theorem taskDispatch_takes (running : s.job.status = .running) (there : die < s.job.dies_n)
    (free : (s.job.tile die).dispatchedAt ≠ some s.pkg.cycle) (next : s.nextList die = some (list, t)) : exec (.taskDispatch die) s = .next (s.dispatch die list t) := by
  rw [exec_taskDispatch, tryTaskDispatch, next]
  simp only [State.working, running, there, free, decide_true, ne_eq, not_false_eq_true, Bool.and_self, if_true]
  rfl

/-- What a dispatch does with a task it has taken (R224, R229). -/
theorem dispatch_eq : s.dispatch die list t =
    if s.job.taskOk die t.record ((lookup (taskHandle t.record) (s.job.tile die).accs).map (fun a => a.gr)) = false then
      (s.dispatching die list t).taskReject die { t with dispatched := true } 0x85#8
    else if taskOp t.record = 0 ∨ taskOp t.record = 4 then (s.dispatching die list t).setTask die { t with dispatched := true, state := 3 }
    else (s.dispatching die list t).meetAcc die { t with dispatched := true } := by
  have accs : ((s.dispatching die list t).job.tile die).accs = (s.job.tile die).accs := by rw [tile_dispatching]
  have ok : (s.dispatching die list t).job.taskOk = s.job.taskOk := rfl
  rw [← accs, ← ok, State.dispatch]
  simp only [Bool.not_eq_true', Bool.or_eq_true, decide_eq_true_eq]
  rfl

section Dispatch
variable (found : s.job.task? die t.list t.ticket = some t)
include found

theorem task?_dispatching : (s.dispatching die list t).job.task? die t.list t.ticket = some { t with dispatched := true } := by
  have kept := task?_keepTask (t := { t with dispatched := true }) found
  rw [Job.task?] at kept ⊢
  rw [tile_dispatching]
  exact kept

theorem dispatching_nobody (nobody : ∀ x ∈ (s.job.tile die).tasks, x.state ≠ 2) :
    ∀ x ∈ ((s.dispatching die list t).job.tile die).tasks, x.state ≠ 2 := by
  intro x mem
  rw [tile_dispatching, State.keepTask, tile_onTile] at mem
  obtain ⟨y, hy, rfl⟩ := List.mem_map.mp mem
  split
  · exact nobody t (List.mem_of_find?_eq_some found)
  · exact nobody y hy

/-- A record that fails its checks ends its task in state 6, and its STATUS says so (R224, R227). -/
theorem dispatch_invalid (bad : s.job.taskOk die t.record ((lookup (taskHandle t.record) (s.job.tile die).accs).map (fun a => a.gr)) = false) :
    (s.dispatch die list t).job.task? die t.list t.ticket = some ({ t with dispatched := true }.final 6 (some { cause := 0x85#8 })) ∧
      (Canonical s → QuietHome s none → (s.dispatch die list t).readWord (t.recAddr + 56) =
        BitVec.ofNat 64 (6 * 2 ^ 60 + 0x85 * 2 ^ 40 + t.blocks * 2 ^ 16)) := by
  rw [dispatch_eq, if_pos bad]
  refine ⟨task?_taskEnd (t := { t with dispatched := true }) (task?_dispatching (t := t) found) _ _, fun canonical quiet => ?_⟩
  refine (readWord_store_quiet (s := (s.dispatching die list t).keepTask die _) canonical.mem quiet _ _ _).trans ?_
  rw [BitVec.ofNat_toNat, BitVec.setWidth_eq]
  simp [packFields]

/-- An allocation is dispatched at once (R229). -/
theorem dispatch_allocation (ok : s.job.taskOk die t.record ((lookup (taskHandle t.record) (s.job.tile die).accs).map (fun a => a.gr)) = true)
    (op : taskOp t.record = 0 ∨ taskOp t.record = 4) :
    (s.dispatch die list t).job.task? die t.list t.ticket = some { t with dispatched := true, state := 3 } := by
  rw [dispatch_eq, if_neg (by simp [ok]), if_pos op]
  exact task?_setTask (t := { t with dispatched := true, state := 3 }) (task?_dispatching found)

section Operation
variable (ok : s.job.taskOk die t.record ((lookup (taskHandle t.record) (s.job.tile die).accs).map (fun a => a.gr)) = true)
  (clear : taskOp t.record ≠ 0) (load : taskOp t.record ≠ 4) (nobody : ∀ x ∈ (s.job.tile die).tasks, x.state ≠ 2)
include ok clear load nobody

/-- An operation on an accumulator meets it (R106). -/
theorem dispatch_meets : s.dispatch die list t = (s.dispatching die list t).meetAcc die { t with dispatched := true } ∧
    ∀ p, (s.dispatching die list t).cancelHeld die p = s.dispatching die list t := by
  refine ⟨?_, fun p => cancelHeld_none fun x mem _ => dispatching_nobody found nobody x mem⟩
  rw [dispatch_eq, if_neg (by simp [ok]), if_neg (by simp [clear, load])]

/-- Without its accumulator it is rejected (R109). -/
theorem dispatch_noAcc (none_ : lookup (taskHandle t.record) (s.job.tile die).accs = none) :
    (s.dispatch die list t).job.task? die t.list t.ticket = some ({ t with dispatched := true }.final 6 (some { cause := 0x88#8 })) := by
  obtain ⟨meets, uncancelled⟩ := dispatch_meets (list := list) found ok clear load nobody
  have accs : lookup (taskHandle t.record) ((s.dispatching die list t).job.tile die).accs = none := by rw [tile_dispatching]; exact none_
  rw [meets, State.meetAcc, uncancelled]
  dsimp only
  rw [accs]
  exact task?_taskEnd (t := { t with dispatched := true }) (task?_dispatching (t := t) found) _ _

/-- The operation whose key is next begins at an idle accumulator (R106). -/
theorem dispatch_begins {a : Acc} (at_ : lookup (taskHandle t.record) (s.job.tile die).accs = some a) (idle : a.current = none)
    (unheld : a.held = []) (unskipped : a.skipped = []) (key : a.nextKey = taskKey t.record) : let u := s.dispatch die list t
    u.job.task? die t.list t.ticket = some { t with dispatched := true, state := 3 } ∧
      lookup (taskHandle t.record) (u.job.tile die).accs = some { a with
        current := some (t.list, t.ticket), watchdog := 0, counted := s.pkg.cycle
        rows := a.rows.map (fun x => { x with block := 0, told := false }) } := by
  obtain ⟨meets, uncancelled⟩ := dispatch_meets (list := list) found ok clear load nobody
  have accs : lookup (taskHandle t.record) ((s.dispatching die list t).job.tile die).accs = some a := by rw [tile_dispatching]; exact at_
  have arrives : a.arrive (taskKey t.record) = a := by
    simp [Acc.arrive, unskipped, closeGap, ← key]
    rw [← unskipped]
  let u := (s.dispatching die list t).onAcc die (taskHandle t.record)
    (fun b => { b.arrive (taskKey t.record) with watchdog := 0, counted := s.pkg.cycle })
  have begins : s.dispatch die list t = u.startOp die (taskHandle t.record) { t with dispatched := true } := by
    rw [meets, State.meetAcc, uncancelled]
    dsimp only
    rw [accs]
    dsimp only
    rw [arrives, idle, unheld, key, Nat.add_sub_cancel_left, Nat.mod_self]
    rfl
  intro v
  have run : v = u.startOp die (taskHandle t.record) { t with dispatched := true } := begins
  rw [run, State.startOp]
  refine ⟨task?_setTask (t := { t with dispatched := true, state := 3 }) (t0 := { t with dispatched := true }) ?_, ?_⟩
  · rw [task?_onAcc, task?_onAcc]
    exact task?_dispatching found
  · rw [(tile_setTask _ die _).1, lookup_onAcc, lookup_onAcc, accs]
    simp [arrives, Acc.unskip, unskipped]

end Operation
end Dispatch

/-! Allocations (R109, R112). -/

section Allocations

/-- A task that makes an accumulator ends well, and the accumulator stands. -/
theorem allocated {t0 : Task} (found : s.job.task? die t.list t.ticket = some t0) (h : Nat) (a : Acc) :
    let u := (s.onTile die (fun x => { x with accs := assign h a x.accs })).taskEnd die t 5 none
    u.job.task? die t.list t.ticket = some (t.final 5 none) ∧ lookup h (u.job.tile die).accs = some a := by
  refine ⟨task?_taskEnd (t0 := t0) ?_ 5 none, ?_⟩
  · rw [Job.task?, tile_onTile]
    exact found
  · rw [accs_taskEnd, tile_onTile, lookup_assign_self]

theorem aclr_clears (works : s.tilesWork die list = true) (next : s.allocating die list 0 = some t)
    (room : lookup (taskHandle t.record) (s.job.tile die).accs ≠ none ∨ taskGr t.record * taskGc t.record ≤ (s.job.tile die).free.length) :
    exec (.aclr die list) s = .next (s.clearAcc die t) := by
  rw [exec_aclr, tryAclr, next]
  dsimp only
  rw [if_pos (by simpa [works, Option.isSome_iff_ne_none] using room)]
  rfl

theorem aload_loads (works : s.tilesWork die list = true) (next : s.allocating die list 4 = some t) {u : State}
    (loads : s.loadAcc die t = some u) : exec (.aload die list) s = .next u := by
  rw [exec_aload, tryAload, next]
  dsimp only
  rw [if_pos works, loads]
  rfl

/-- An image that is read goes on with its dwords. -/
theorem aload_read (works : s.tilesWork die list = true) (next : s.allocating die list 4 = some t)
    {u : State} {bytes bad : List Nat} {off n : Nat} {go : State → List Nat → Option State} (loads : s.loadAcc die t = s.imageRead die t off n go)
    (read : s.engBytes (t.by_ die) (t.record.getD 2 0#64 + BitVec.ofNat 64 off) n = .ok u (bytes, bad)) (clean : bad = []) {v : State}
    (goes : go u (unpackBits 64 (n / 8) (ofByteNats bytes)) = some v) : exec (.aload die list) s = .next v := by
  refine aload_loads works next ?_
  rw [loads, State.imageRead, read]
  exact (if_neg (not_not_intro clean)).trans goes

/-- The tile state of an image that R112 rejects. -/
theorem headerRefused_iff (d1 : Nat) :
    (field d1 34 2 = 0 || field d1 32 2 = 0 || field d1 36 12 ≠ 0 || field d1 5 27 ≠ 0 || field d1 0 1 ≠ 0) = true ↔
      ¬(d1 / 2 ^ 34 % 4 ≠ 0 ∧ d1 / 2 ^ 32 % 4 ≠ 0 ∧ d1 / 2 ^ 36 % 2 ^ 12 = 0 ∧ d1 / 2 ^ 5 % 2 ^ 27 = 0 ∧ d1 % 2 = 0) := by
  simp only [Bool.or_eq_true, decide_eq_true_iff]
  simp only [field, pow_zero, Nat.div_one]
  omega

/-- What the tile state of an image leads to (R112). -/
def State.loadHeader (die : Nat) (t : Task) (u : State) (ws : List Nat) : Option State :=
  let d1 := ws.getD 1 0
  if field d1 34 2 = 0 || field d1 32 2 = 0 || field d1 36 12 ≠ 0 || field d1 5 27 ≠ 0 || field d1 0 1 ≠ 0 then
    some (u.taskReject die t 0x8A#8)
  else some (u.keepTask die { t with header := ws.map (BitVec.ofNat 64) })

/-- What a row of an image leads to (R112): the next one, or the accumulator with all of them. -/
def State.loadRow (s : State) (die : Nat) (t : Task) (u : State) (ws : List Nat) : Option State :=
  match rowOfImage ws with
  | none => some (u.taskReject die t 0x8A#8)
  | some r =>
    if t.row + 1 < 64 * field (dw t.header 1) 34 2 then some (u.keepTask die { t with row := t.row + 1, loaded := t.loaded ++ [r] })
    else
      some ((u.onTile die (fun x => { x with
        accs := assign (taskHandle t.record) (s.accOfImage die (dw t.header 0) (dw t.header 1) (t.loaded ++ [r])) x.accs })).taskEnd die
          { t with loaded := [] } 5 none)

section Rows
variable {u : State} {ws : List Nat} {x : AccRow}

theorem loadRow_refused (row : rowOfImage ws = none) : s.loadRow die t u ws = some (u.taskReject die t 0x8A#8) := by
  rw [State.loadRow, row]

theorem loadRow_more (row : rowOfImage ws = some x) (more : t.row + 1 < 64 * field (dw t.header 1) 34 2) :
    s.loadRow die t u ws = some (u.keepTask die { t with row := t.row + 1, loaded := t.loaded ++ [x] }) := by
  rw [State.loadRow, row]
  exact if_pos more

theorem loadRow_last (row : rowOfImage ws = some x) (last : 64 * field (dw t.header 1) 34 2 ≤ t.row + 1) :
    s.loadRow die t u ws = some ((u.onTile die (fun y => { y with
      accs := assign (taskHandle t.record) (s.accOfImage die (dw t.header 0) (dw t.header 1) (t.loaded ++ [x])) y.accs })).taskEnd die
        { t with loaded := [] } 5 none) := by
  rw [State.loadRow, row]
  exact if_neg (Nat.not_lt.mpr last)

end Rows

section Unused
variable (unused : lookup (taskHandle t.record) (s.job.tile die).accs = none)
include unused

theorem loadAcc_header (first : t.header = []) : s.loadAcc die t = s.imageRead die t 0 16 (State.loadHeader die t) := by
  unfold State.loadAcc
  dsimp only
  rw [unused, first]
  rfl

theorem loadAcc_row (later : t.header ≠ []) (room : field (dw t.header 1) 34 2 * field (dw t.header 1) 32 2 ≤ (s.job.tile die).free.length) :
    s.loadAcc die t = s.imageRead die t (16 + t.row * imageRow (field (dw t.header 1) 32 2)) (imageRow (field (dw t.header 1) 32 2))
      (s.loadRow die t) := by
  unfold State.loadAcc
  dsimp only
  rw [unused, Option.isSome_none]
  rw [if_neg Bool.false_ne_true]
  split
  · exact absurd ‹_› later
  · rw [if_neg (Nat.not_lt.mpr room)]
    rfl

end Unused

variable (found : s.job.task? die t.list t.ticket = some t)
include found

theorem clearAcc_used (used : lookup (taskHandle t.record) (s.job.tile die).accs ≠ none) :
    (s.clearAcc die t).job.task? die t.list t.ticket = some (t.final 6 (some { cause := 0x89#8 })) := by
  rw [State.clearAcc]
  dsimp only
  rw [if_pos (Option.isSome_iff_ne_none.mpr used)]
  exact task?_taskEnd found _ _

/-- The accumulator an `ACLR` makes: empty, on the free engines of lowest number (R98, R109). -/
def State.clearedAcc (s : State) (die : Nat) (t : Task) : Acc :=
  { engines := (s.job.tile die).free.take (taskGr t.record * taskGc t.record), gr := taskGr t.record, gc := taskGc t.record
    aln := taskAln t.record, nextKey := taskKey t.record, incoming := 0, carry := 0, sat := false, rovf := false
    rows := List.replicate (64 * taskGr t.record) (emptyRow (128 * taskGc t.record)), current := none, held := [], skipped := []
    watchdog := 0, counted := s.pkg.cycle }

theorem clearAcc_unused (unused : lookup (taskHandle t.record) (s.job.tile die).accs = none) :
    (s.clearAcc die t).job.task? die t.list t.ticket = some (t.final 5 none) ∧
      lookup (taskHandle t.record) ((s.clearAcc die t).job.tile die).accs = some (s.clearedAcc die t) := by
  have clears : s.clearAcc die t =
      (s.onTile die (fun x => { x with accs := assign (taskHandle t.record) (s.clearedAcc die t) x.accs })).taskEnd die t 5 none := by
    rw [State.clearAcc]
    dsimp only
    rw [unused]
    rfl
  rw [clears]
  exact allocated found _ _

section Loads
variable (works : s.tilesWork die list = true) (next : s.allocating die list 4 = some t)
include works next

theorem aload_used (used : lookup (taskHandle t.record) (s.job.tile die).accs ≠ none) :
    Completes (.aload die list) s (fun u => u.job.task? die t.list t.ticket = some (t.final 6 (some { cause := 0x89#8 }))) := by
  refine completes_of (aload_loads works next ?_) (task?_taskEnd found _ _)
  rw [State.loadAcc]
  dsimp only
  rw [if_pos (Option.isSome_iff_ne_none.mpr used)]
  rfl

variable {u : State} {bytes bad : List Nat} {off n : Nat} {go : State → List Nat → Option State}

/-- A poisoned byte of an image ends the load in state 9 (R231). -/
theorem aload_poisoned (loads : s.loadAcc die t = s.imageRead die t off n go)
    (read : s.engBytes (t.by_ die) (t.record.getD 2 0#64 + BitVec.ofNat 64 off) n = .ok u (bytes, bad)) (poisoned : bad ≠ []) :
    Completes (.aload die list) s (fun v => v.job.task? die t.list t.ticket = some (t.final 9 (some { cause := 0x62#8 }))) := by
  refine completes_of (aload_loads works next (u := u.taskEnd die t 9 (some { cause := 0x62#8 })) ?_) (task?_taskEnd (t0 := t) ?_ _ _)
  · rw [loads, State.imageRead, read]
    exact if_pos poisoned
  · rw [(engBytes_stands read).task?, found]

/-- The tile state of an image out of rule is rejected, another is kept (R112). -/
theorem aload_header (unused : lookup (taskHandle t.record) (s.job.tile die).accs = none) (first : t.header = [])
    (read : s.engBytes (t.by_ die) (t.record.getD 2 0#64 + BitVec.ofNat 64 0) 16 = .ok u (bytes, bad)) (clean : bad = []) :
    let ws := unpackBits 64 2 (ofByteNats bytes)
    let d1 := ws.getD 1 0
    let fits : Prop := d1 / 2 ^ 34 % 4 ≠ 0 ∧ d1 / 2 ^ 32 % 4 ≠ 0 ∧ d1 / 2 ^ 36 % 2 ^ 12 = 0 ∧ d1 / 2 ^ 5 % 2 ^ 27 = 0 ∧ d1 % 2 = 0
    (¬fits → Completes (.aload die list) s (fun v => v.job.task? die t.list t.ticket = some (t.final 6 (some { cause := 0x8A#8 })))) ∧
      (fits → Completes (.aload die list) s (fun v =>
        v.job.task? die t.list t.ticket = some { t with header := ws.map (BitVec.ofNat 64) })) := by
  intro ws d1 fits
  have there : u.job.task? die t.list t.ticket = some t := by rw [(engBytes_stands read).task?, found]
  have run {v : State} (goes : State.loadHeader die t u ws = some v) : exec (.aload die list) s = .next v :=
    aload_read works next (loadAcc_header unused first) read clean goes
  refine ⟨fun no => completes_of (run (if_pos ((headerRefused_iff d1).mpr no))) (task?_taskEnd there _ _), fun yes => ?_⟩
  exact completes_of (run (if_neg (not_imp_not.mpr (headerRefused_iff d1).mp (not_not_intro yes))))
    (task?_keepTask (t := { t with header := ws.map (BitVec.ofNat 64) }) there)

/-- A row of an image out of rule is rejected; another is kept, and the last one makes the accumulator (R112). -/
theorem aload_row (unused : lookup (taskHandle t.record) (s.job.tile die).accs = none) (later : t.header ≠ []) :
    let d0 := dw t.header 0
    let d1 := dw t.header 1
    let gc := field d1 32 2
    let gr := field d1 34 2
    gr * gc ≤ (s.job.tile die).free.length →
      s.engBytes (t.by_ die) (t.record.getD 2 0#64 + BitVec.ofNat 64 (16 + t.row * imageRow gc)) (imageRow gc) = .ok u (bytes, bad) → bad = [] →
      let row := rowOfImage (unpackBits 64 (imageRow gc / 8) (ofByteNats bytes))
      (row = none → Completes (.aload die list) s (fun v =>
        v.job.task? die t.list t.ticket = some (t.final 6 (some { cause := 0x8A#8 })))) ∧
      (∀ x, row = some x → t.row + 1 < 64 * gr → Completes (.aload die list) s (fun v =>
        v.job.task? die t.list t.ticket = some { t with row := t.row + 1, loaded := t.loaded ++ [x] })) ∧
      (∀ x, row = some x → 64 * gr ≤ t.row + 1 → Completes (.aload die list) s (fun v =>
        v.job.task? die t.list t.ticket = some ({ t with loaded := [] }.final 5 none) ∧
          lookup (taskHandle t.record) (v.job.tile die).accs = some (s.accOfImage die d0 d1 (t.loaded ++ [x])))) := by
  intro d0 d1 gc gr room read clean row
  have there : u.job.task? die t.list t.ticket = some t := by rw [(engBytes_stands read).task?, found]
  have run {v : State} (goes : s.loadRow die t u (unpackBits 64 (imageRow gc / 8) (ofByteNats bytes)) = some v) :
      exec (.aload die list) s = .next v := aload_read works next (loadAcc_row unused later room) read clean goes
  refine ⟨fun refused => ?_, fun x good more => ?_, fun x good last => ?_⟩
  · exact completes_of (run (loadRow_refused refused)) (task?_taskEnd there _ _)
  · exact completes_of (run (loadRow_more good more)) (task?_keepTask (t := { t with row := t.row + 1, loaded := t.loaded ++ [x] }) there)
  · exact completes_of (run (loadRow_last good last)) (allocated (t := { t with loaded := [] }) there _ _)

end Loads
end Allocations

/-- A suspended task goes on once its fault is serviced (R231). -/
theorem taskResume_goesOn {h : Nat} (running : s.job.status = .running) (found : s.job.task? die t.list t.ticket = some t)
    (serviced : (s.job.tile die).tasks.find? (fun x => x.state == 4 && x.hold == .serviced && taskHandle x.record == h) = some t) :
    Completes (.taskResume die h) s (fun u => u.job.task? die t.list t.ticket = some { t with state := 3, hold := .going }) := by
  have run : exec (.taskResume die h) s = .next ((s.tick die h).setTask die { t with state := 3, hold := .going }) := by
    rw [exec_taskResume, tryTaskResume, serviced]
    simp only [State.working, running, decide_true, if_true]
    rfl
  refine completes_of run (task?_setTask (t := { t with state := 3, hold := .going }) (t0 := t) ?_)
  unfold State.tick
  split
  · rw [task?_onAcc, found]
  · exact found

/-- A list whose finished tasks have raised their causes, and one whose tasks up to a ticket have left (R230). -/
def Tile.silenced (list : Nat) (x : Tile) : Tile :=
  { x with tasks := x.tasks.map (fun y => if y.list = list && 5 ≤ y.state then { y with trap := none } else y) }
def Tile.upTo (list ticket : Nat) (x : Tile) : Tile :=
  { x with timelines := assign list ticket x.timelines, tasks := x.tasks.filter (fun y => !(y.list == list && y.ticket ≤ ticket)) }

/-- The finished tasks at the front of a list leave it, and its timeline shows the last of them (R230). -/
theorem taskCompletion_completes (works : s.tilesWork die list = true) (last : (s.finished die list).getLast? = some t)
    (nobody : ∀ x ∈ (s.job.tile die).tasks, x.list = list → x.state ≠ 2)
    (silent : ∀ x ∈ (s.job.tile die).tasks, x.list = list → 5 ≤ x.state → x.trap = none) :
    Completes (.taskCompletion die list) s (fun u => lookup list (u.job.tile die).timelines = some t.ticket ∧
      (u.job.tile die).tasks = (s.job.tile die).tasks.filter (fun x => !(x.list == list && x.ticket ≤ t.ticket))) := by
  have some_ : s.finished die list ≠ [] := by
    rintro none_
    rw [none_] at last
    cases last
  have run : exec (.taskCompletion die list) s = .next (s.completeTasks die list) := by
    rw [exec_taskCompletion, tryTaskCompletion, if_pos (by simp [works, some_])]
    rfl
  refine completes_of run ?_
  have uncancelled : s.cancelHeld die (fun x => x.list = list) = s := cancelHeld_none fun x mem key => nobody x mem (of_decide_eq_true key)
  have causes : (s.job.tile die).tasks.filter (fun x => x.list = list && 5 ≤ x.state && x.trap.isSome) = [] := by
    rw [List.filter_eq_nil_iff]
    intro x mem
    simp only [Bool.and_eq_true, decide_eq_true_eq]
    rintro ⟨⟨key, final⟩, owed⟩
    rw [silent x mem key final] at owed
    cases owed
  have tasks : ((s.onTile die (Tile.silenced list)).job.tile die).tasks = (s.job.tile die).tasks := by
    rw [tile_onTile]
    refine (List.map_congr_left fun x mem => ?_).trans (List.map_id _)
    split
    · next final =>
      simp only [Bool.and_eq_true, decide_eq_true_eq] at final
      rw [← silent x mem final.1 final.2]
      rfl
    · rfl
  have done : (s.onTile die (Tile.silenced list)).finished die list = s.finished die list := by
    rw [State.finished, tasks]
    rfl
  have completes : s.completeTasks die list = (s.finished die list).foldl (fun x y => x.requestGone 4 (listHandle die list) y.ticket y.poster)
      (((s.onTile die (Tile.silenced list)).onTile die (Tile.upTo list t.ticket)).writeTimeline (8 * (64 * die + list)) t.ticket) := by
    unfold State.completeTasks
    rw [uncancelled]
    extract_lets s1 fin s2 front ticket s3 s4
    have front_ : front = s.finished die list := done
    have ticket_ : ticket = t.ticket := by simp only [ticket, front_, last, Option.map_some, Option.getD_some]
    have s3_ : s3 = (s2.onTile die (Tile.upTo list ticket)).writeTimeline (8 * (64 * die + list)) ticket :=
      if_neg (by simpa [front_] using some_)
    have s4_ : s4 = s3 := by
      simp only [s4, show fin = [] from causes, List.foldl_nil]
    rw [s4_, s3_, front_, ticket_]
    rfl
  have stands : WorkStands ((s.onTile die (Tile.silenced list)).onTile die (Tile.upTo list t.ticket)) (s.completeTasks die list) := by
    rw [completes]
    exact (WorkStands.of_memory (writeTimeline_onlyMemory _ _ _)).trans (.foldl (fun v y => (requestGone_work v _ _ _ _).1) _ _)
  rw [stands.tile, tile_onTile]
  exact ⟨lookup_assign_self _ _ _, by rw [Tile.upTo, tasks]⟩

end Tasks

end Sys2Proof.Machine
end

section
/-! PROOFS. Bytes that an engine writes at places (R64, R69): each dword's write puts its bytes there, and all of them put each byte at its
place. -/

namespace Sys2Proof.Machine

/-- The bytes of a dword by offset, as a write of them lists them. -/
def offsets (g : Nat → Option Nat) (n : Nat) : List (Nat × Nat) := (List.range n).filterMap (fun i => (g i).map (fun v => (i, v)))

theorem offsets_succ (g : Nat → Option Nat) (n : Nat) : offsets g (n + 1) = offsets g n ++ ((g n).map (fun v => (n, v))).toList := by
  rw [offsets, List.range_succ, List.filterMap_append, offsets]
  cases here : g n <;> simp [here]

theorem read_foldl_offsets (g : Nat → Option Nat) (a n y : Nat) {m : List Host.Cell} (wf : Memory.wf m = true) :
    Memory.read ((offsets g n).foldl (fun m (b : Nat × Nat) => Memory.write (a + b.1) (BitVec.ofNat 8 b.2) m) m) y =
      if a ≤ y ∧ y < a + n then ((g (y - a)).map (BitVec.ofNat 8)).getD (Memory.read m y) else Memory.read m y := by
  induction n with
  | zero => rw [if_neg (by omega)]; rfl
  | succ n ih =>
    rw [offsets_succ, List.foldl_append]
    by_cases here : y = a + n
    · subst here
      rw [if_pos (by omega), Nat.add_sub_cancel_left]
      rw [if_neg (by omega)] at ih
      cases g n with
      | none => exact ih
      | some v =>
        rw [Option.map_some, Option.toList_some, List.foldl_cons, List.foldl_nil, Memory.read_write (Memory.wf_foldl_write wf), if_pos rfl]
        rfl
    · have same : (a ≤ y ∧ y < a + (n + 1)) ↔ (a ≤ y ∧ y < a + n) := by omega
      rw [if_congr same rfl rfl, ← ih]
      cases g n with
      | none => rfl
      | some v =>
        rw [Option.map_some, Option.toList_some, List.foldl_cons, List.foldl_nil, Memory.read_write (Memory.wf_foldl_write wf), if_neg here]

theorem offsets_full {g : Nat → Option Nat} {n : Nat} (full : ∀ i < n, (g i).isSome = true) :
    offsets g n = (List.range n).map (fun i => (i, (g i).getD 0)) := by
  rw [offsets, ← List.filterMap_eq_map]
  refine List.filterMap_congr fun i mem => ?_
  obtain ⟨v, e⟩ := Option.isSome_iff_exists.mp (full i (List.mem_range.mp mem))
  simp [e]

theorem sum_range_eq_packBits {f : Nat → Nat} (w n : Nat) (small : ∀ i < n, f i < 2 ^ w) :
    ((List.range n).map (fun i => f i * 2 ^ (w * i))).sum = packBits w ((List.range n).map f) := by
  induction n generalizing f with
  | zero => rfl
  | succ n ih =>
    have rest := ih (f := fun i => f (i + 1)) (fun i hi => small (i + 1) (Nat.succ_lt_succ hi))
    have shift (i : Nat) : f (i + 1) * 2 ^ (w * (i + 1)) = 2 ^ w * (f (i + 1) * 2 ^ (w * i)) := by rw [Nat.mul_succ, pow_add]; ring
    rw [List.range_succ_eq_map, List.map_cons, List.map_map, List.map_cons, List.map_map, List.sum_cons, packBits,
      Nat.mod_eq_of_lt (small 0 n.succ_pos), Nat.mul_zero, pow_zero, Nat.mul_one]
    simp only [Function.comp_def, Nat.succ_eq_add_one, shift, List.sum_map_mul_left]
    rw [rest]

/-- Bytes that make up a whole dword are its number's bytes. -/
theorem byte_of_sum {f : Nat → Nat} (small : ∀ i < 8, f i < 256) {k : Nat} (hk : k < 8) :
    BitVec.ofNat 8 ((((List.range 8).map (fun i => (i, f i))).map (fun b : Nat × Nat => b.2 * 2 ^ (8 * b.1))).sum / 256 ^ k) =
      BitVec.ofNat 8 (f k) := by
  have at_ := packBits_at 8 ((List.range 8).map f) k
  rw [getD_map_of_lt f (by simpa using hk) 0 0, List.getD_eq_getElem?_getD, List.getElem?_range hk, Option.getD_some,
    ← sum_range_eq_packBits 8 8 small, pow_mul] at at_
  apply BitVec.eq_of_toNat_eq
  rw [List.map_map, BitVec.toNat_ofNat, BitVec.toNat_ofNat]
  exact at_

/-- One dword's write at a quiet home (R64): each byte it lists, and no other. -/
theorem readByte_doWrite {s : State} {x : LateWrite} {g : Nat → Option Nat} (canonical : Memory.wf s.mem = true) (quiet : QuietHome s x.home)
    (bytes : x.data = .bytes (offsets g 8)) (small : ∀ i v, g i = some v → v < 256) (y : Nat) : (s.doWrite x).readByte y =
      if x.cell ≤ y ∧ y < x.cell + 8 then ((g (y - x.cell)).map (BitVec.ofNat 8)).getD (s.readByte y) else s.readByte y := by
  unfold State.doWrite
  rw [bytes]
  dsimp only
  split
  · next all =>
    have full (i : Nat) (hi : i < 8) : (g i).isSome = true := by
      obtain ⟨b, mem, key⟩ := List.any_eq_true.mp (List.all_eq_true.mp all i (List.mem_range.mpr hi))
      obtain ⟨j, -, e⟩ := List.mem_filterMap.mp mem
      obtain ⟨v, found, rfl⟩ := Option.map_eq_some_iff.mp e
      obtain rfl : j = i := by simpa using key
      rw [found, Option.isSome_some]
    have value (i : Nat) (hi : i < 8) : g i = some ((g i).getD 0) := by
      obtain ⟨v, e⟩ := Option.isSome_iff_exists.mp (full i hi)
      rw [e, Option.getD_some]
    rw [State.readByte, store_mem_quiet quiet, read_writeNat _ _ _ _ canonical]
    split
    · next inside =>
      rw [offsets_full full, byte_of_sum (f := fun i => (g i).getD 0) (fun i hi => small i _ (value i hi)) (by omega),
        value (y - x.cell) (by omega)]
      rfl
    · rfl
  · rw [State.storeBytes, written_quiet (by exact quiet), State.readByte, watchWrite_mem]
    exact read_foldl_offsets g x.cell 8 y canonical

/-- The byte that bytes at places put at a cell: where two lie there, the last. -/
def byteAt (bs : List (Spot × Nat)) (y : Nat) : Option Nat := (bs.filter (fun b => b.1.1 = y)).getLast?.map (fun b => b.2)

theorem byteAt_mem {bs : List (Spot × Nat)} {y v : Nat} (h : byteAt bs y = some v) : ∃ b ∈ bs, b.1.1 = y ∧ b.2 = v := by
  obtain ⟨b, last, rfl⟩ := Option.map_eq_some_iff.mp h
  obtain ⟨mem, key⟩ := List.mem_filter.mp (List.mem_of_getLast? last)
  exact ⟨b, mem, of_decide_eq_true key, rfl⟩

theorem dwordWrite_data (request : Nat) (w : Writer) (now : Nat) (bs : List (Spot × Nat)) (dw : Nat) :
    (dwordWrite request w now bs dw).data = .bytes (offsets (fun i => byteAt bs (dw * 8 + i)) 8) := by
  rw [dwordWrite, offsets]
  dsimp only
  congr 1
  refine List.filterMap_congr fun i mem => ?_
  have hi := List.mem_range.mp mem
  have same : (fun b : Spot × Nat => decide (b.1.1 % 8 = i) && decide (b.1.1 / 8 = dw)) = fun b => decide (b.1.1 = dw * 8 + i) := by
    funext b
    rw [← Bool.decide_and]
    exact decide_eq_decide.mpr (by omega)
  rw [List.filter_filter, same, byteAt, Option.map_map]
  rfl

/-- Writes of several dwords, in order. -/
theorem readByte_dwordWrites {s u : State} (kept : OnlyMemory s u) (canonical : Memory.wf s.mem = true) {bs : List (Spot × Nat)}
    (quiet : ∀ b ∈ bs, QuietHome s b.1.2) (small : ∀ b ∈ bs, b.2 < 256) (request : Nat) (w : Writer) (now : Nat) {ds : List Nat}
    (distinct : ds.Nodup) (places : ∀ d ∈ ds, ∃ b ∈ bs, b.1.1 / 8 = d) (y : Nat) :
    ((ds.map (dwordWrite request w now bs)).foldl State.doWrite u).readByte y =
      if y / 8 ∈ ds then ((byteAt bs y).map (BitVec.ofNat 8)).getD (u.readByte y) else u.readByte y := by
  induction ds generalizing u with
  | nil => rfl
  | cons d ds ih =>
    obtain ⟨fresh, distinct⟩ := List.nodup_cons.mp distinct
    have data := dwordWrite_data request w now bs d
    have home : QuietHome u (dwordWrite request w now bs d).home := by
      obtain ⟨b, mem, key⟩ := places d List.mem_cons_self
      have mine : bs.filter (fun b => b.1.1 / 8 = d) ≠ [] := List.ne_nil_of_mem (List.mem_filter.mpr ⟨mem, by simpa using key⟩)
      obtain ⟨c, rest, e⟩ := List.exists_cons_of_ne_nil mine
      have first : c ∈ bs := List.mem_of_mem_filter (e ▸ List.mem_cons_self)
      simp only [dwordWrite, e, List.head?_cons, Option.map_some, Option.getD_some]
      exact kept.quietHome (quiet c first)
    have one := readByte_doWrite (kept.wf canonical) home data (fun i v found => by
      obtain ⟨b, mem, -, rfl⟩ := byteAt_mem found
      exact small b mem) y
    rw [show (dwordWrite request w now bs d).cell = d * 8 from rfl] at one
    rw [List.map_cons, List.foldl_cons,
      ih (kept.trans (doWrite_bytes_onlyMemory data u)) distinct (fun e mem => places e (List.mem_cons_of_mem d mem)), one]
    by_cases here : y / 8 = d
    · rw [if_neg (by rwa [here]), if_pos (by omega), if_pos (by simp [here]), show d * 8 + (y - d * 8) = y by omega]
    · rw [if_neg (show ¬(d * 8 ≤ y ∧ y < d * 8 + 8) by omega)]
      simp [here]

/-- Bytes that all perform at places of their own arrive there, and touch nothing else (R64, R69). -/
theorem putBytes_arrives {u : State} {request : Nat} (w : Writer) {ss : List Spot} {bytes : List Nat} (all : u.share = none)
    (idle : u.job.writing request = false) (canonical : Canonical u) (apart : Apart u ss) (length : ss.length = bytes.length)
    (small : ∀ b ∈ bytes, b < 256) : Arrive u (State.putBytes request w (ss.zip bytes) u) ss bytes := by
  obtain ⟨distinct, quiet⟩ := apart
  let bs := ss.zip bytes
  have none_behind : ∀ x ∈ dwordWrites request w u.pkg.cycle bs, (!x.behind u.job.late) = true := by
    intro x mem
    obtain ⟨dw, -, rfl⟩ := List.mem_map.mp mem
    have free : ∀ y ∈ u.job.late, ¬(y.request == request) = true := by simpa [Job.writing] using idle
    have : ∀ y ∈ u.job.late, y.request == request && y.cell == (dwordWrite request w u.pkg.cycle bs dw).cell → False :=
      fun y hy both => free y hy (Bool.and_eq_true_iff.mp both).1
    rw [Bool.not_eq_true', LateWrite.behind, List.any_eq_false]
    exact this
  have performed (y : Nat) : (State.putBytes request w bs u).readByte y =
      ((dwordWrites request w u.pkg.cycle bs).foldl State.doWrite u).readByte y := by
    rw [State.putBytes, State.doWrites, all, Option.getD_none, List.take_length, List.filter_eq_self.mpr none_behind]
    rfl
  have bytes_ (y : Nat) := readByte_dwordWrites (.refl u) canonical.mem (bs := bs) (fun b mem => quiet _ (List.of_mem_zip mem).1)
    (fun b mem => small _ (List.of_mem_zip mem).2) request w u.pkg.cycle (List.nodup_dedup (bs.map (fun b => b.1.1 / 8)))
    (fun d mem => by simpa using List.mem_dedup.mp mem) y
  refine ⟨fun i hi => ?_, fun y away => ?_⟩
  · have hb : i < bytes.length := length ▸ hi
    have mem : (ss[i], bytes[i]) ∈ bs := List.mem_iff_getElem.mpr ⟨i, by simp [bs, hi, hb], by simp [bs]⟩
    have only (b : Spot × Nat) (hb' : b ∈ bs) (at_ : b.1.1 = ss[i].1) : b.2 = bytes[i] := by
      obtain ⟨j, hj, rfl⟩ := List.mem_iff_getElem.mp hb'
      have hj' : j < ss.length := by simp [bs] at hj; omega
      have same : j = i := by
        refine (List.Nodup.getElem_inj_iff distinct (hi := by simpa using hj') (hj := by simpa using hi)).mp ?_
        simpa [bs] using at_
      subst same
      simp [bs]
    have found : byteAt bs ss[i].1 = some bytes[i] := by
      have some_ : bs.filter (fun b => b.1.1 = ss[i].1) ≠ [] := List.ne_nil_of_mem (List.mem_filter.mpr ⟨mem, by simp⟩)
      have last := List.getLast?_eq_some_getLast some_
      have from_ := List.mem_filter.mp (List.getLast_mem some_)
      rw [byteAt, last, Option.map_some, only _ from_.1 (of_decide_eq_true from_.2)]
    rw [performed, List.getD_eq_getElem _ _ hi, List.getD_eq_getElem _ _ hb]
    refine (bytes_ ss[i].1).trans ?_
    rw [if_pos (List.mem_dedup.mpr (List.mem_map.mpr ⟨_, mem, rfl⟩)), found]
    rfl
  · have absent : byteAt bs y = none := by
      rw [Option.eq_none_iff_forall_ne_some]
      rintro v found
      obtain ⟨b, mem, key, -⟩ := byteAt_mem found
      exact away b.1 (List.of_mem_zip mem).1 key
    rw [performed]
    refine (bytes_ y).trans ?_
    rw [absent]
    split <;> rfl

end Sys2Proof.Machine
end

section
/-! PROOFS. The operation in hand of an accumulator (R97, R101, R104, R105, R110 to R114): its panels, exponent messages, blocks, readouts,
images, and its end. -/

namespace Sys2Proof.Machine

theorem exec_mma (die h : Nat) (s : State) : exec (.mma die h) s = passing s (tryMma die h s) := rfl
theorem exec_exponentMessage (die h row : Nat) (s : State) :
    exec (.exponentMessage die h row) s = passing s (tryExponentMessage die h row s) := rfl
theorem exec_applyBlock (die h row : Nat) (s : State) : exec (.applyBlock die h row) s = passing s (tryApplyBlock die h row s) := rfl
theorem exec_groupWatchdog (die h : Nat) (s : State) : exec (.groupWatchdog die h) s = passing s (tryGroupWatchdog die h s) := rfl
theorem exec_rdout (die h : Nat) (s : State) : exec (.rdout die h) s = passing s (tryRdout die h s) := rfl
theorem exec_asave (die h : Nat) (s : State) : exec (.asave die h) s = passing s (tryAsave die h s) := rfl
theorem exec_afree (die h : Nat) (s : State) : exec (.afree die h) s = passing s (tryAfree die h s) := rfl

/-! Panels (R97, R110, R226). -/

theorem readColumns_stands {q : Chunk} {t : Task} {n j : Nat} {s u : State} {x : List (List PanelBlock) × Bool}
    (h : State.readColumns q t n j s = .ok u x) : WorkStands s u := by
  induction n generalizing j s x with
  | zero =>
    obtain ⟨rfl, -⟩ := Eng.ok.inj h
    exact .refl s
  | succ n ih =>
    unfold State.readColumns at h
    dsimp only at h
    split at h
    iterate 3 cases h
    next row =>
      split at h
      iterate 3 cases h
      next scales =>
        split at h
        · next rest =>
          obtain ⟨rfl, -⟩ := Eng.ok.inj h
          exact ((engBytes_stands row).trans (engBytes_stands scales)).trans (ih rest)
        all_goals cases h

/-- A panel whose tag a task's record describes, whatever its column (R226). -/
def Panel.Tagged (p : Panel) (r : List Word) : Prop := p.addr = r.getD 2 0#64 ∧ p.fmt = taskBfmt r ∧ p.aux = r.getD 3 0#64

theorem tagged_iff {x : Tile} {r : List Word} {e c : Nat} :
    x.tagged r e c = true ↔ ∃ p, lookup e x.panels = some p ∧ p.Tagged r ∧ p.col = c := by
  unfold Tile.tagged Panel.Tagged
  cases lookup e x.panels with
  | none => simp
  | some p =>
    simp only [Option.any_some, Bool.and_eq_true, decide_eq_true_eq, Option.some.injEq, exists_eq_left']
    tauto

/-- What putting panels in place for some engines leaves: the tasks and accumulators, the panels of other engines, and for each of
those engines one that the record describes. -/
structure PanelsPut (die : Nat) (r : List Word) (es : List (Nat × Nat)) (s u : State) : Prop where
  tasks : (u.job.tile die).tasks = (s.job.tile die).tasks
  accs : (u.job.tile die).accs = (s.job.tile die).accs
  others : ∀ e ∉ es.map Prod.fst, lookup e (u.job.tile die).panels = lookup e (s.job.tile die).panels
  stay : ∀ e p, lookup e (s.job.tile die).panels = some p → p.Tagged r → ∃ p', lookup e (u.job.tile die).panels = some p' ∧ p'.Tagged r
  put : ∀ e ∈ es, ∃ p, lookup e.1 (u.job.tile die).panels = some p ∧ p.Tagged r ∧ ((es.map Prod.fst).Nodup → p.col = e.2)

namespace PanelsPut
variable {die : Nat} {r : List Word} {s v u : State} {e c : Nat} {es : List (Nat × Nat)}

/-- One engine's panel is in place, then those of the others. -/
theorem cons (tasks : (v.job.tile die).tasks = (s.job.tile die).tasks) (accs : (v.job.tile die).accs = (s.job.tile die).accs)
    (others : ∀ d ≠ e, lookup d (v.job.tile die).panels = lookup d (s.job.tile die).panels)
    (here : ∃ p, lookup e (v.job.tile die).panels = some p ∧ p.Tagged r ∧ p.col = c) (rest : PanelsPut die r es v u) :
    PanelsPut die r ((e, c) :: es) s u := by
  obtain ⟨p, at_, tagged, col⟩ := here
  refine ⟨rest.tasks.trans tasks, rest.accs.trans accs, fun d hd => ?_, fun d q found tag => ?_, fun x mem => ?_⟩
  · rw [List.map_cons, List.mem_cons, not_or] at hd
    rw [rest.others d hd.2, others d hd.1]
  · by_cases same : d = e
    · exact rest.stay d p (same ▸ at_) tagged
    · exact rest.stay d q ((others d same).trans found) tag
  · rcases List.mem_cons.mp mem with rfl | later
    · obtain ⟨p', at', tagged'⟩ := rest.stay e p at_ tagged
      refine ⟨p', at', tagged', fun distinct => ?_⟩
      rw [List.map_cons, List.nodup_cons] at distinct
      rw [rest.others e distinct.1, at_] at at'
      rw [← Option.some.inj at', col]
    · obtain ⟨p', at', tagged', col'⟩ := rest.put x later
      exact ⟨p', at', tagged', fun distinct => col' (List.nodup_cons.mp (by rwa [List.map_cons] at distinct)).2⟩

end PanelsPut

theorem loadPanels_put {die : Nat} {t : Task} {es : List (Nat × Nat)} {s u : State} (loads : State.loadPanels die t es s = .ok u ()) :
    PanelsPut die t.record es s u := by
  induction es generalizing s with
  | nil =>
    obtain ⟨rfl, -⟩ := Eng.ok.inj loads
    exact ⟨rfl, rfl, fun _ _ => rfl, fun e p found tag => ⟨p, found, tag⟩, fun _ mem => nomatch mem⟩
  | cons x es ih =>
    obtain ⟨e, c⟩ := x
    unfold State.loadPanels at loads
    dsimp only at loads
    split at loads
    · next resident =>
      exact .cons rfl rfl (fun _ _ => rfl) (tagged_iff.mp (Bool.and_eq_true_iff.mp resident).1) (ih loads)
    · split at loads
      iterate 3 cases loads
      next y cs sat read =>
        have stands := readColumns_stands read
        refine .cons (v := _) ?_ ?_ (fun d other => ?_) ⟨{
          col := c, addr := t.record.getD 2 0#64, fmt := taskBfmt t.record, aux := t.record.getD 3 0#64, sat := sat, cols := cs },
            ?_, ⟨rfl, rfl, rfl⟩, rfl⟩ (ih loads)
        · rw [tile_onTile, stands.tile]
        · rw [tile_onTile, stands.tile]
        · rw [tile_onTile, lookup_assign_other other, stands.tile]
        · rw [tile_onTile, lookup_assign_self]

/-- The engines of a column are among those of the group (R96). -/
theorem column_nodup {a : Acc} (distinct : a.engines.Nodup) (r : List Word) : ((a.column r).map Prod.fst).Nodup := by
  have engines : (a.engines.zipIdx.map Prod.fst).Nodup := by rwa [List.zipIdx_map_fst]
  rw [Acc.column, List.Nodup, List.pairwise_map, List.pairwise_filterMap]
  refine (List.pairwise_map.mp engines).imp fun {x y} apart e he f hf => ?_
  split at he <;> split at hf <;> cases he <;> cases hf
  exact apart

section Hand
variable {s : State} {die h op : Nat} {a : Acc} {t : Task}

/-- What the operation in hand is: that of its accumulator, found among the tasks, running (R106). -/
structure InHand (s : State) (die h op : Nat) (a : Acc) (t : Task) : Prop where
  acc : lookup h (s.job.tile die).accs = some a
  task : s.job.task? die t.list t.ticket = some t
  runs : t.state = 3

theorem inHand_some (hand : s.inHand die h op = some (a, t)) : InHand s die h op a t := by
  unfold State.inHand at hand
  split at hand
  · cases hand
  · next acc =>
    split at hand
    · next y current =>
      split at hand
      · next runs =>
        obtain ⟨rfl, rfl⟩ := Prod.mk.inj (Option.some.inj hand)
        obtain ⟨c, -, found⟩ := Option.bind_eq_some_iff.mp current
        obtain ⟨list, ticket⟩ := task?_list found
        simp only [Bool.and_eq_true, decide_eq_true_eq] at runs
        exact ⟨acc, by rw [list, ticket]; exact found, runs.1.2⟩
      · cases hand
    · cases hand

/-- The same after the group watchdog has counted: only what it has counted differs. -/
theorem InHand.ticked (i : InHand s die h op a t) :
    ∃ n, InHand (s.tick die h) die h op { a with watchdog := n, counted := s.pkg.cycle } t := by
  obtain ⟨⟨n, acc⟩, tasks, -⟩ := tick_keeps i.acc
  exact ⟨n, acc, by rw [Job.task?, tasks]; exact i.task, i.runs⟩

/-- An `MMA` begins with its panels in place (R97, R110, R226). -/
theorem mma_begins (hand : s.inHand die h 1 = some (a, t)) (first : t.row = 0) {u : State}
    (loads : State.loadPanels die t (a.column t.record) (s.tick die h) = .ok u ()) : Completes (.mma die h) s (fun v =>
      v.job.task? die t.list t.ticket = some { t with row := 1 } ∧
      ∀ e ∈ a.column t.record, ∃ p, lookup e.1 (v.job.tile die).panels = some p ∧ p.Tagged t.record ∧
        (a.engines.Nodup → p.col = e.2)) := by
  have put := loadPanels_put loads
  obtain ⟨n, i⟩ := (inHand_some hand).ticked
  have run : exec (.mma die h) s = .next ((s.tick die h).beginMma die h a t) := by
    rw [exec_mma, tryMma, hand]
    exact congrArg (passing s) (if_pos first)
  have begins : ∃ sat : Bool, (s.tick die h).beginMma die h a t =
      (u.onAcc die h (fun b => { b with sat := b.sat || sat })).keepTask die { t with row := 1 } := by
    rw [State.beginMma]
    dsimp only
    rw [loads]
    exact ⟨_, rfl⟩
  obtain ⟨sat, begins⟩ := begins
  rw [begins] at run
  refine completes_of run ⟨task?_keepTask (t := { t with row := 1 }) (t0 := t) ?_, fun e mem => ?_⟩
  · rw [task?_onAcc, Job.task?, put.tasks]
    exact i.task
  · obtain ⟨p, at_, tag, col⟩ := put.put e mem
    refine ⟨p, ?_, tag, fun distinct => col (column_nodup distinct t.record)⟩
    rw [State.keepTask, tile_onTile, State.onAcc, tile_onTile]
    exact at_

/-- The engines of a tile row tell each other their exponents (R104). -/
theorem exponentMessage_told (hand : s.inHand die h 1 = some (a, t)) {i : Nat} {x : AccRow} (row : a.rows[i]? = some x)
    (ready : a.rowReady t i = true) (alive : s.watchExpired die a = false) (peers : 1 < a.gc) (untold : x.told = false) :
    Completes (.exponentMessage die h i) s (fun u => SameButJob s u ∧
      (lookup h (u.job.tile die).accs).bind (fun b => b.rows[i]?) = some { x with told := true }) := by
  have run : exec (.exponentMessage die h i) s =
      .next ((s.tick die h).onAcc die h (fun c => { c with rows := updateAt (fun y => { y with told := true }) i c.rows })) := by
    rw [exec_exponentMessage, tryExponentMessage, hand]
    dsimp only
    rw [row]
    exact congrArg (passing s) (if_pos (by simp [ready, alive, peers, untold]))
  obtain ⟨⟨n, acc⟩, -, -, same⟩ := tick_keeps (inHand_some hand).acc
  refine completes_of run ⟨?_, ?_⟩
  · exact same
  · rw [lookup_onAcc, acc, Option.map_some, Option.bind_some, getElem?_updateAt_self, row, Option.map_some]

/-- A group that waits for 2^24 cycles ends its operation in state 8 (R105, R231). -/
theorem groupWatchdog_ends (hand : s.inHand die h 1 = some (a, t)) (unheld : a.held = []) (waits : s.groupWaits die a = true)
    (long : 2 ^ 24 ≤ s.watchCount die a) : Completes (.groupWatchdog die h) s (fun u =>
      (u.job.task? die t.list t.ticket).map (fun y => (y.state, y.cause)) = some (8, 0x8B) ∧
      (lookup h (u.job.tile die).accs).map (fun b => (b.current, b.nextKey)) = some (none, (taskKey t.record + 1) % 2 ^ 16)) := by
  have run : exec (.groupWatchdog die h) s =
      .next ((s.onAcc die h (fun c => { c with watchdog := 0, counted := s.pkg.cycle })).opEnd die h t 8 (some { cause := 0x8B#8 })) := by
    rw [exec_groupWatchdog, tryGroupWatchdog, hand]
    exact congrArg (passing s) (if_pos (by simp only [State.watchExpired, waits, long, decide_true, Bool.and_self]))
  have i := inHand_some hand
  have acc := lookup_onAcc s die h (fun c => { c with watchdog := 0, counted := s.pkg.cycle })
  rw [i.acc] at acc
  obtain ⟨⟨n, task⟩, ended⟩ := opEnd_unheld (t := t) (t0 := t) (by rw [task?_onAcc]; exact i.task) acc unheld 8
    (some { cause := 0x8B#8 })
  exact completes_of run ⟨by rw [task]; rfl, by rw [ended]; rfl⟩

/-! Blocks (R100, R101, R231). -/

/-- The accumulator with a block applied to its row `i`: the row, and whether an incoming and a carry event took place (R99, R101). -/
def Acc.applying (c : Acc) (i block : Nat) (r : AccRow × Bool × Bool) (sat : Bool) (now : Nat) : Acc :=
  { c with
    rows := updateAt (fun _ => { r.1 with block := block + 1, told := false }) i c.rows
    incoming := bump32 c.incoming r.2.1, carry := bump32 c.carry r.2.2, sat := c.sat || sat, watchdog := 0, counted := now }

section Block
variable (hand : s.inHand die h 1 = some (a, t)) {i : Nat} {x : AccRow} (row : a.rows[i]? = some x) (ready : a.rowReady t i = true)
  (alive : s.watchExpired die a = false) (told : a.gc = 1 ∨ x.told = true) (unheld : a.held = [])
include hand row ready alive told

theorem applyBlock_applies : exec (.applyBlock die h i) s = .next (s.applyRow die h a t i x) := by
  rw [exec_applyBlock, tryApplyBlock, hand]
  dsimp only
  rw [row]
  exact congrArg (passing s) (if_pos (by simp [ready, alive, told]))

include unheld

/-- A block of which an operand byte is poisoned ends the operation in state 9 (R231); another is applied to its row (R101). -/
theorem applyBlock_outcome : let A := s.aBlockAt die t (i - taskRow0 t.record) x.block
    let cols := ((a.engines.drop (i / 64 * a.gc)).take a.gc).flatMap (fun e =>
      ((lookup e (s.job.tile die).panels).map (fun p => p.cols)).getD [])
    let blocks := cols.map (fun c => c.getD x.block { x := 0xFF, q := [], bad := true })
    let bad := A.2.2.2 || blocks.any (fun y => y.bad)
    (bad = true → Completes (.applyBlock die h i) s (fun u =>
      (u.job.task? die t.list t.ticket).map (fun y => (y.state, y.cause)) = some (9, 0x62))) ∧
    (bad = false → Completes (.applyBlock die h i) s (fun u =>
      (lookup h (u.job.tile die).accs).bind (fun b => b.rows[i]?) =
        some { (applyBlock a.aln (taskPa t.record) A.1 A.2.1 blocks x).1 with block := x.block + 1, told := false } ∧
      (lookup h (u.job.tile die).accs).map (fun b => b.watchdog) = some 0)) := by
  intro A cols blocks bad
  have hand' := inHand_some hand
  have run := applyBlock_applies hand row ready alive told
  refine ⟨fun poisoned => ?_, fun clean => ?_⟩
  · have stops : s.applyRow die h a t i x = (s.tick die h).opEnd die h t 9 (some { cause := 0x62#8 }) := if_pos poisoned
    obtain ⟨n, ticked⟩ := hand'.ticked
    obtain ⟨⟨_, task⟩, -⟩ := opEnd_unheld ticked.task ticked.acc unheld 9 (some { cause := 0x62#8 })
    exact completes_of (run.trans (congrArg _ stops)) (by rw [task]; rfl)
  · let u := s.onAcc die h (fun c => c.applying i x.block (applyBlock a.aln (taskPa t.record) A.1 A.2.1 blocks x) A.2.2.1 s.pkg.cycle)
    have acc := lookup_onAcc s die h (fun c => c.applying i x.block (applyBlock a.aln (taskPa t.record) A.1 A.2.1 blocks x) A.2.2.1 s.pkg.cycle)
    rw [hand'.acc, Option.map_some] at acc
    have unpoisoned : ¬bad = true := by rw [clean]; exact Bool.false_ne_true
    have applies : s.applyRow die h a t i x = u ∨ s.applyRow die h a t i x = u.opEnd die h t 5 none := by
      have goes : s.applyRow die h a t i x = _ := if_neg unpoisoned
      by_cases done : ((lookup h (u.job.tile die).accs).map (fun c => c.applied t.record)).getD 0 = taskNkb t.record
      · exact .inr (goes.trans (if_pos done))
      · exact .inl (goes.trans (if_neg done))
    rcases applies with more | last
    · refine completes_of (run.trans (congrArg _ more)) ?_
      rw [acc, Option.bind_some, Acc.applying, getElem?_updateAt_self, row]
      exact ⟨rfl, rfl⟩
    · obtain ⟨-, ended⟩ := opEnd_unheld (t := t) (t0 := t) (by rw [task?_onAcc]; exact hand'.task) acc unheld 5 none
      refine completes_of (run.trans (congrArg _ last)) ?_
      rw [ended, Option.bind_some, Acc.applying, getElem?_updateAt_self, row]
      exact ⟨rfl, rfl⟩

end Block

/-! Readouts and images (R112, R114, R231). -/

theorem lt_of_mem_unpackBits {w n x b : Nat} (mem : b ∈ unpackBits w n x) : b < 2 ^ w := by
  induction n generalizing x with
  | zero => cases mem
  | succ n ih =>
    rcases List.mem_cons.mp mem with rfl | later
    · exact Nat.mod_lt _ (Nat.two_pow_pos w)
    · exact ih later

theorem raw_bytes (x : AccRow) : ∀ b ∈ x.raw.flatMap (unpackBits 8 8), b < 256 := by
  intro b mem
  obtain ⟨_, -, mem⟩ := List.mem_flatMap.mp mem
  exact lt_of_mem_unpackBits mem

theorem readout_bytes (x : AccRow) (f : Nat) (nanOvf : Bool) : ∀ b ∈ (x.readout f nanOvf).1, b < 256 := by
  unfold AccRow.readout
  split
  · exact raw_bytes x
  · intro b mem
    obtain ⟨_, -, mem⟩ := List.mem_flatMap.mp mem
    exact lt_of_mem_unpackBits mem

section Rows
variable {va : Word} {bytes : List Nat} {ovf : Bool} {last : Nat} {u : State} {ss : List Spot}

/-- The state in which a row's bytes are written and the row counted out (R112, R114). -/
def State.rowPut (die h : Nat) (t : Task) (ss : List Spot) (bytes : List Nat) (ovf : Bool) (u : State) : State :=
  (State.putBytes (t.by_ die).request t.poster.writer (ss.zip bytes) u).onAcc die h (fun c => { c with rovf := c.rovf || ovf })

section Spots
variable (spots : State.engSpots (t.by_ die) (items va 1 bytes.length) s = .ok u ss)
include spots

theorem rowOut_written : s.rowOut die h t va bytes ovf last =
    if t.row + 1 = last then (State.rowPut die h t ss bytes ovf u).opEnd die h { t with row := t.row + 1 } 5 none
    else (State.rowPut die h t ss bytes ovf u).keepTask die { t with row := t.row + 1 } := by
  rw [State.rowOut, State.engPut, spots]
  rfl

theorem rowPut_stands : WorkStands s (State.putBytes (t.by_ die).request t.poster.writer (ss.zip bytes) u) :=
  (WorkStands.of_walk (engSpots_walkOnly spots).1).trans (putBytes_stands _ _ _ _)

theorem task?_rowPut (list ticket : Nat) : (State.rowPut die h t ss bytes ovf u).job.task? die list ticket = s.job.task? die list ticket := by
  rw [State.rowPut, task?_onAcc, (rowPut_stands spots).task?]

theorem rowPut_arrives (all : s.share = none) (small : ∀ b ∈ bytes, b < 256)
    (idle : u.job.writing (t.by_ die).request = false) (canonical : Canonical u) (apart : Apart u ss) :
    Arrive u (State.rowPut die h t ss bytes ovf u) ss bytes := by
  obtain ⟨walk, length⟩ := engSpots_walkOnly spots
  have length : ss.length = bytes.length := by rw [length, items, List.length_map, List.length_range]
  exact putBytes_arrives t.poster.writer (walk.share.trans all) idle canonical apart length small

end Spots

variable (i : InHand s die h op a t) (spots : State.engSpots (t.by_ die) (items va 1 bytes.length) s = .ok u ss)
include i spots

/-- A row that is not the last: its bytes arrive, and the next row follows. -/
theorem rowOut_more (more : t.row + 1 ≠ last) (all : s.share = none) (small : ∀ b ∈ bytes, b < 256)
    (idle : u.job.writing (t.by_ die).request = false) (canonical : Canonical u) (apart : Apart u ss) :
    Arrive u (s.rowOut die h t va bytes ovf last) ss bytes ∧
      (s.rowOut die h t va bytes ovf last).job.task? die t.list t.ticket = some { t with row := t.row + 1 } := by
  rw [rowOut_written spots, if_neg more]
  have task : (State.rowPut die h t ss bytes ovf u).job.task? die t.list t.ticket = some t := (task?_rowPut spots _ _).trans i.task
  have arrives : Arrive u (State.rowPut die h t ss bytes ovf u) ss bytes := rowPut_arrives spots all small idle canonical apart
  exact ⟨arrives, task?_keepTask (t := { t with row := t.row + 1 }) (t0 := t) task⟩

/-- The last row ends the operation. -/
theorem rowOut_last (final : t.row + 1 = last) (unheld : a.held = []) :
    ((s.rowOut die h t va bytes ovf last).job.task? die t.list t.ticket).map (fun y => y.state) = some 5 := by
  have acc := lookup_onAcc (State.putBytes (t.by_ die).request t.poster.writer (ss.zip bytes) u) die h
    (fun c => { c with rovf := c.rovf || ovf })
  rw [(rowPut_stands spots).tile, i.acc] at acc
  rw [rowOut_written spots, if_pos final]
  have task : (State.rowPut die h t ss bytes ovf u).job.task? die t.list t.ticket = some t := (task?_rowPut spots _ _).trans i.task
  obtain ⟨⟨n, ended⟩, -⟩ := opEnd_unheld (t := { t with row := t.row + 1 }) (t0 := t) task acc unheld 5 none
  rw [ended]
  rfl

end Rows

theorem rdout_writes (hand : s.inHand die h 2 = some (a, t)) {x : AccRow} (row : a.rows[taskRow0 t.record + t.row]? = some x) :
    let out := x.readout (taskRfmt t.record) (taskNanOvf t.record)
    exec (.rdout die h) s = .next (s.rowOut die h t (t.record.getD 2 0#64 + BitVec.ofNat 64 (t.row * (t.record.getD 3 0#64).toNat)) out.1 out.2
      (taskRows t.record)) := by
  rw [exec_rdout, tryRdout, hand]
  dsimp only
  rw [row]
  rfl

theorem asave_writes (hand : s.inHand die h 3 = some (a, t)) {x : AccRow} (row : a.rows[t.row]? = some x) :
    let head := if t.row = 0 then unpackBits 8 8 a.dword0.toNat ++ unpackBits 8 8 a.dword1.toNat else []
    let off := if t.row = 0 then 0 else 16 + t.row * (8 * (1 + 128 * a.gc))
    exec (.asave die h) s = .next (s.rowOut die h t (t.record.getD 2 0#64 + BitVec.ofNat 64 off) (head ++ x.raw.flatMap (unpackBits 8 8)) false
      a.rows.length) := by
  rw [exec_asave, tryAsave, hand]
  dsimp only
  rw [row]
  by_cases first : t.row = 0
  · simp only [first, if_true, BitVec.add_zero]
    rfl
  · simp only [first, if_false, List.nil_append]
    rfl

theorem save_bytes (x : AccRow) (first : Prop) [Decidable first] (d0 d1 : Nat) :
    ∀ b ∈ (if first then unpackBits 8 8 d0 ++ unpackBits 8 8 d1 else []) ++ x.raw.flatMap (unpackBits 8 8), b < 256 := by
  intro b mem
  rcases List.mem_append.mp mem with head | body
  · split at head
    · exact (List.mem_append.mp head).elim lt_of_mem_unpackBits lt_of_mem_unpackBits
    · cases head
  · exact raw_bytes x b body

/-- `AFREE` releases the accumulator (R113). -/
theorem afree_frees (hand : s.inHand die h 5 = some (a, t)) (unheld : a.held = []) (nobody : ∀ x ∈ (s.job.tile die).tasks, x.state ≠ 2) :
    Completes (.afree die h) s (fun u => (u.job.task? die t.list t.ticket).map (fun y => y.state) = some 5 ∧
      (u.job.tile die).accs = remove h (s.job.tile die).accs) := by
  have i := inHand_some hand
  have frees : s.freeAcc die h a t = (s.onTile die (fun x => { x with accs := remove h x.accs })).taskEnd die t 5 none := by
    rw [State.freeAcc, cancelHeld_none fun x mem _ => nobody x mem, unheld]
    rfl
  have run : exec (.afree die h) s = .next ((s.onTile die (fun x => { x with accs := remove h x.accs })).taskEnd die t 5 none) := by
    rw [exec_afree, tryAfree, hand, ← frees]
    rfl
  have task := task?_taskEnd (t := t) (t0 := t) (s := s.onTile die (fun x => { x with accs := remove h x.accs }))
    (by rw [Job.task?, tile_onTile]; exact i.task) 5 none
  exact completes_of run ⟨by rw [task]; rfl, by rw [accs_taskEnd, tile_onTile]⟩

end Hand

end Sys2Proof.Machine
end

section
/-! PROOFS. Blocks that lose no bit (R100, R101): every column's mantissa stands for its value and its partial. -/

namespace Sys2Proof.Machine

theorem signed_natAbs (v : Int) : signed (decide (v < 0)) v.natAbs = v := by
  unfold signed
  by_cases negative : v < 0 <;> simp only [negative, decide_true, decide_false, if_true, Bool.false_eq_true, if_false] <;> omega

theorem accShift_fst (aln : Bool) (v n : Int) : (accShift aln v n).1 = alignShift v n aln := rfl

theorem accShift_left (aln : Bool) (v : Int) (k : Nat) : (accShift aln v k).1 = v * 2 ^ k := by
  rw [accShift_fst, alignShift, if_pos (Int.natCast_nonneg k), Int.toNat_natCast]

/-- A right shift that loses no bit is a division with no remainder. -/
theorem divides_of_accShift {aln : Bool} {v : Int} {k : Nat} (positive : 0 < k) (exact : (accShift aln v (-k)).2 = false) :
    v = v / 2 ^ k * 2 ^ k := by
  simpa [accShift, positive] using exact

/-- A shift that loses no bit multiplies by its power of two (R101). -/
theorem accShift_exact {aln : Bool} {v n : Int} (exact : (accShift aln v n).2 = false) : ((accShift aln v n).1 : Rat) = v * 2 ^ n := by
  by_cases left : 0 ≤ n
  · obtain ⟨k, rfl⟩ := Int.eq_ofNat_of_zero_le left
    rw [accShift_left, Int.cast_mul, Int.cast_pow, zpow_natCast]
    rfl
  obtain ⟨k, rfl⟩ : ∃ k : Nat, n = -(k : Int) := ⟨(-n).toNat, by omega⟩
  have quotient : ((v / 2 ^ k : Int) : Rat) = v * 2 ^ (-(k : Int)) := by
    rw [zpow_neg, zpow_natCast, eq_mul_inv_iff_mul_eq₀ (by positivity)]
    exact_mod_cast (divides_of_accShift (by omega) exact).symm
  rw [accShift_fst, alignShift, if_neg left, neg_neg, Int.toNat_natCast]
  cases aln with
  | false => exact quotient
  | true =>
    have rounded := (roundShift_value (decide (v < 0)) v.natAbs k .rne).1
    rw [signed_natAbs, show (v : Rat) / 2 ^ k = ((v / 2 ^ k : Int) : Rat) by rw [quotient, zpow_neg, zpow_natCast, div_eq_mul_inv],
      round_intCast] at rounded
    exact (congrArg Int.cast rounded).trans quotient

end Sys2Proof.Machine
end

section
/-! PROOFS. A K-block applied to a row (R100, R101): what a row refuses, and the columns of a block that loses no bit. -/

namespace Sys2Proof.Machine

/-- The partials of a block: each column's value and its exponent (R100). -/
def partials (xa : Nat) (qa : List Int) (cols : List PanelBlock) : List (Int × Int) :=
  cols.map (fun c => (partialOf qa c.q, ((xa : Int) - 127) + ((c.x : Int) - 127)))

/-- The mantissas brought to a requested exponent: shifted where the row's own is below it (R101). -/
def AccRow.raised (aln : Bool) (req : Int) (row : AccRow) : List (Int × Bool) :=
  if row.x ≠ -32768 && row.x < req then row.m.map (fun v => accShift aln v (row.x - req)) else row.m.map (fun v => (v, false))

/-- The row's exponent then. -/
def AccRow.raisedX (req : Int) (row : AccRow) : Int :=
  if row.x = -32768 || (row.x ≠ -32768 && row.x < req) then req else row.x

/-- The partials brought to the row's exponent. -/
def addends (aln : Bool) (x : Int) (p : List (Int × Int)) : List (Int × Bool) :=
  p.map (fun y => if y.1 = 0 then ((0 : Int), false) else accShift aln y.1 (y.2 - x))

/-- Whether a mantissa has run over (R101). -/
def carries (m : List Int) : Bool := 2 ^ 46 ≤ maxAbs m

/-- The mantissas after a carry: shifted down by 1 where one has run over (R101). -/
def carried (aln : Bool) (m : List Int) : List (Int × Bool) :=
  if carries m then m.map (fun v => accShift aln v (-1)) else m.map (fun v => (v, false))

/-- A row with partials added at a requested exponent (R101). -/
def AccRow.added (aln : Bool) (req : Int) (p : List (Int × Int)) (row : AccRow) : AccRow × Bool × Bool :=
  let x := row.raisedX req
  let sums := List.zipWith (fun a b => a.1 + b.1) (row.raised aln req) (addends aln x p)
  let x' := if carries sums then x + 1 else x
  let m := (carried aln sums).map (fun v => v.1)
  ({ row with
      x := x', m := m, h := 47 - bitLength (maxAbs m), nan := 32767 < x'
      lost := row.lost || (row.raised aln req).any (fun v => v.2) ||
        (addends aln x p).any (fun v => v.2) || (carried aln sums).any (fun v => v.2) },
    row.x ≠ -32768 && row.x < req, carries sums)

section Apply
variable {aln : Bool} {pa xa : Nat} {qa : List Int} {cols : List PanelBlock} {row : AccRow}

theorem applyBlock_nan (nan : row.nan = true) : applyBlock aln pa xa qa cols row = (row, false, false) := if_pos nan

theorem applyBlock_infinite (number : row.nan = false) (infinite : xa = 255 ∨ ∃ c ∈ cols, c.x = 255) :
    applyBlock aln pa xa qa cols row = ({ row with nan := true }, false, false) := by
  rw [applyBlock, if_neg (by simp [number]), if_pos (by simpa using infinite)]

theorem applyBlock_finite (number : row.nan = false) (finite : ¬(xa = 255 ∨ ∃ c ∈ cols, c.x = 255)) :
    applyBlock aln pa xa qa cols row =
      match ((partials xa qa cols).filter (fun x => x.1 ≠ 0)).map (fun x => x.2) with
      | [] => (row, false, false)
      | e :: es => row.added aln (es.foldl max e + (pa + 12) - 46) (partials xa qa cols) := by
  rw [applyBlock, if_neg (by simp [number]), if_neg (by simpa using finite)]
  dsimp only
  rw [← partials]
  cases ((partials xa qa cols).filter (fun x => x.1 ≠ 0)).map (fun x => x.2) with
  | nil => rfl
  | cons e es => rfl

theorem applyBlock_zero (number : row.nan = false) (finite : ¬(xa = 255 ∨ ∃ c ∈ cols, c.x = 255))
    (zero : ∀ c ∈ cols, partialOf qa c.q = 0) :
    applyBlock aln pa xa qa cols row = (row, false, false) := by
  have none : (partials xa qa cols).filter (fun x => x.1 ≠ 0) = [] := by simpa [partials] using zero
  rw [applyBlock_finite number finite, none]
  rfl

/-- A finite block either has no partial but 0 or adds its partials at some exponent. -/
theorem applyBlock_adds (number : row.nan = false) (finite : ¬(xa = 255 ∨ ∃ c ∈ cols, c.x = 255)) :
    (∀ c ∈ cols, partialOf qa c.q = 0) ∨ ∃ req, applyBlock aln pa xa qa cols row = row.added aln req (partials xa qa cols) := by
  rw [applyBlock_finite number finite]
  cases nonzero : ((partials xa qa cols).filter (fun x => x.1 ≠ 0)).map (fun x => x.2) with
  | nil => exact .inl (by simpa [partials] using nonzero)
  | cons e es => exact .inr ⟨_, rfl⟩

end Apply

section Exact
variable {aln : Bool} {req x v : Int} {row : AccRow} {j : Nat}

theorem accShift_rebased {y : Int} (exact : (accShift aln v (x - y)).2 = false) :
    ((accShift aln v (x - y)).1 : Rat) * 2 ^ y = v * 2 ^ x := by
  rw [accShift_exact exact, mul_assoc, ← zpow_add₀ two_ne_zero, sub_add_cancel]

theorem raised_exact (exact : (row.raised aln req).any (fun y => y.2) = false) (fresh : row.x = -32768 → ∀ v ∈ row.m, v = 0)
    (own : row.m[j]? = some v) :
    ∃ y, (row.raised aln req)[j]? = some y ∧ (y.1 : Rat) * 2 ^ row.raisedX req = v * 2 ^ row.x := by
  unfold AccRow.raised AccRow.raisedX at *
  by_cases unset : row.x = -32768
  · have zero : v = 0 := fresh unset v (List.mem_of_getElem? own)
    refine ⟨(v, false), ?_, by rw [zero, Int.cast_zero, zero_mul, zero_mul]⟩
    simp [unset, own]
  by_cases below : row.x < req
  · simp only [ne_eq, unset, not_false_eq_true, decide_true, below, Bool.and_self, if_true, Bool.or_true] at exact ⊢
    have kept : (accShift aln v (row.x - req)).2 = false := by
      simpa using List.any_eq_false.mp exact _ (List.mem_map_of_mem (List.mem_of_getElem? own))
    exact ⟨_, by rw [List.getElem?_map, own]; rfl, accShift_rebased kept⟩
  · refine ⟨(v, false), ?_, ?_⟩ <;> simp [unset, below, own]

theorem addends_exact {p : List (Int × Int)} {y : Int × Int} (exact : (addends aln x p).any (fun y => y.2) = false) (own : p[j]? = some y) :
    ∃ z, (addends aln x p)[j]? = some z ∧ (z.1 : Rat) * 2 ^ x = y.1 * 2 ^ y.2 := by
  refine ⟨_, by rw [addends, List.getElem?_map, own]; rfl, ?_⟩
  by_cases zero : y.1 = 0
  · simp [zero]
  have kept : (accShift aln y.1 (y.2 - x)).2 = false := by
    have each := List.any_eq_false.mp exact _ (List.mem_map_of_mem (List.mem_of_getElem? own))
    simpa [zero] using each
  exact (congrArg (fun z : Int × Bool => (z.1 : Rat) * 2 ^ x) (if_neg zero)).trans (accShift_rebased kept)

theorem carried_exact {m : List Int} (exact : (carried aln m).any (fun y => y.2) = false) (own : m[j]? = some v) :
    ∃ z, (carried aln m)[j]? = some z ∧ (z.1 : Rat) * 2 ^ (if carries m then x + 1 else x) = v * 2 ^ x := by
  unfold carried at *
  by_cases high : carries m = true
  · simp only [high, if_true] at exact ⊢
    have kept : (accShift aln v (-1)).2 = false := by
      simpa using List.any_eq_false.mp exact _ (List.mem_map_of_mem (List.mem_of_getElem? own))
    refine ⟨_, by rw [List.getElem?_map, own]; rfl, ?_⟩
    rw [accShift_exact kept, mul_assoc, ← zpow_add₀ two_ne_zero, neg_add_cancel_comm_assoc]
  · refine ⟨(v, false), ?_, ?_⟩ <;> simp [high, own]

/-- A block that loses no bit adds to each column exactly its partial (R101). -/
theorem added_exact {p : List (Int × Int)} {y : Int × Int} (exact : (row.added aln req p).1.lost = false)
    (fresh : row.x = -32768 → ∀ v ∈ row.m, v = 0) (own : row.m[j]? = some v) (addend : p[j]? = some y) :
    ((row.added aln req p).1.m.getD j 0 : Rat) * 2 ^ (row.added aln req p).1.x = v * 2 ^ row.x + y.1 * 2 ^ y.2 := by
  simp only [AccRow.added, Bool.or_eq_false_iff] at exact
  obtain ⟨⟨⟨-, first⟩, second⟩, third⟩ := exact
  obtain ⟨a, at_a, value_a⟩ := raised_exact first fresh own
  obtain ⟨b, at_b, value_b⟩ := addends_exact second addend
  have sum : (List.zipWith (fun a b => a.1 + b.1) (row.raised aln req) (addends aln (row.raisedX req) p))[j]? = some (a.1 + b.1) := by
    simp [List.getElem?_zipWith, at_a, at_b]
  obtain ⟨z, at_z, value_z⟩ := carried_exact (x := row.raisedX req) third sum
  simp only [AccRow.added, List.getD_eq_getElem?_getD, List.getElem?_map, at_z, Option.map_some, Option.getD_some]
  rw [value_z, Int.cast_add, add_mul, value_a, value_b]

end Exact

theorem partialOf_sum (qa qb : List Int) : partialOf qa qb = (List.zipWith (fun x y => x * y) qa qb).sum := List.sum_eq_foldl.symm

/-- The value a row's column has after a block that loses no bit (R100, R101). -/
theorem applyBlock_exact {aln : Bool} {pa xa : Nat} {qa : List Int} {cols : List PanelBlock} {row : AccRow}
    (number : (applyBlock aln pa xa qa cols row).1.nan = false) (exact : (applyBlock aln pa xa qa cols row).1.lost = false)
    (length : row.m.length = cols.length) (fresh : row.x = -32768 → ∀ v ∈ row.m, v = 0)
    {j : Nat} {c : PanelBlock} (column : cols[j]? = some c) :
    ((applyBlock aln pa xa qa cols row).1.m.getD j 0 : Rat) * 2 ^ (applyBlock aln pa xa qa cols row).1.x =
      (row.m.getD j 0 : Rat) * 2 ^ row.x + (partialOf qa c.q : Rat) * 2 ^ (((xa : Int) - 127) + ((c.x : Int) - 127)) := by
  have unbroken : row.nan = false := by
    by_contra nan
    rw [Bool.not_eq_false] at nan
    rw [applyBlock_nan nan, nan] at number
    cases number
  have finite : ¬(xa = 255 ∨ ∃ c ∈ cols, c.x = 255) := by
    intro infinite
    rw [applyBlock_infinite unbroken infinite] at number
    cases number
  obtain ⟨v, own⟩ : ∃ v, row.m[j]? = some v :=
    ⟨_, List.getElem?_eq_getElem (length ▸ (List.getElem?_eq_some_iff.mp column).1)⟩
  have value : row.m.getD j 0 = v := by rw [List.getD_eq_getElem?_getD, own]; rfl
  rcases applyBlock_adds (aln := aln) (pa := pa) (qa := qa) unbroken finite with zero | ⟨req, adds⟩
  · rw [applyBlock_zero unbroken finite zero, zero c (List.mem_of_getElem? column), Int.cast_zero, zero_mul, add_zero]
  · rw [adds] at exact ⊢
    rw [value]
    exact added_exact exact fresh own (by rw [partials, List.getElem?_map, column]; rfl)

end Sys2Proof.Machine
end

section
/-! PROOFS. Collectives from their start to their completion (R239, R244 to R248, R297, R353, R354). -/

namespace Sys2Proof.Machine

theorem exec_collectiveInstanceStart (h : Nat) (peers : List PeerPost) (s : State) :
    exec (.collectiveInstanceStart h peers) s = passing s (tryCollectiveInstanceStart h peers s) := rfl
theorem exec_colDenseAllreduce (h : Nat) (s : State) : exec (.colDenseAllreduce h) s = passing s (s.colStep h 0) := rfl
theorem exec_colSparseAllreduce (h : Nat) (s : State) : exec (.colSparseAllreduce h) s = passing s (s.colStep h 1) := rfl
theorem exec_colBroadcast (h : Nat) (s : State) : exec (.colBroadcast h) s = passing s (s.colStep h 2) := rfl
theorem exec_colAllGather (h : Nat) (s : State) : exec (.colAllGather h) s = passing s (s.colStep h 3) := rfl
theorem exec_colResume (h : Nat) (s : State) : exec (.colResume h) s = passing s (tryColResume h s) := rfl
theorem exec_colCompletion (h : Nat) (s : State) : exec (.colCompletion h) s = passing s (tryColCompletion h s) := rfl
theorem exec_segmentDeliveryFailure (h : Nat) (s : State) :
    exec (.segmentDeliveryFailure h) s = passing s (trySegmentDeliveryFailure h s) := rfl
theorem exec_colAbort (h : Nat) (s : State) : exec (.colAbort h) s = passing s (tryColAbort h s) := rfl
theorem exec_memberPackageLost (h rank : Nat) (s : State) :
    exec (.memberPackageLost h rank) s = passing s (tryMemberPackageLost h rank s) := rfl
theorem exec_commCreate (va : Word) (s : State) : exec (.commCreate va) s = passing s (tryCommCreate va s) := rfl
theorem exec_commEnd (va : Word) (s : State) : exec (.commEnd va) s = passing s (tryCommEnd va s) := rfl

theorem SameButJob.refl (s : State) : SameButJob s s := rfl

theorem SameButJob.trans {s t u : State} (h : SameButJob s t) (k : SameButJob t u) : SameButJob s u := by
  have both : ({ u with job := s.job } : State) = { t with job := s.job } := congrArg (fun x : State => { x with job := s.job }) k
  exact both.trans h

section Heads
variable {s t : State} {h : Nat} {c : Comm} {i : Instance}

theorem colHead_some : s.colHead h = some (c, i) ↔ lookup h s.job.comms = some c ∧ c.instances.head? = some i := by
  unfold State.colHead
  cases lookup h s.job.comms with
  | none => simp
  | some d =>
    simp only [Option.map_eq_some_iff, Prod.mk.injEq, Option.some.injEq]
    constructor
    · rintro ⟨_, head, rfl, rfl⟩
      exact ⟨rfl, head⟩
    · rintro ⟨rfl, head⟩
      exact ⟨i, head, rfl, rfl⟩

theorem WorkStands.colHead (stands : WorkStands s t) (h : Nat) : t.colHead h = s.colHead h := by
  rw [State.colHead, stands.comms, State.colHead]

theorem lookup_onInstance (own : lookup h s.job.comms = some c) (n : Nat) (f : Instance → Instance) :
    lookup h (s.onInstance h n f).job.comms = some { c with instances := c.instances.map (fun i => if i.seq = n then f i else i) } :=
  (lookup_modify_self _ _ _).trans (congrArg _ own)

/-- A change of the oldest collective changes it, whatever others have its number. -/
theorem colHead_onInstance (head : s.colHead h = some (c, i)) (f : Instance → Instance) :
    ∃ d, (s.onInstance h i.seq f).colHead h = some (d, f i) := by
  obtain ⟨own, first⟩ := colHead_some.mp head
  refine ⟨_, colHead_some.mpr ⟨lookup_onInstance own _ _, ?_⟩⟩
  rw [List.head?_map, first, Option.map_some, if_pos rfl]

theorem head_onInstance (head : s.colHead h = some (c, i)) (f : Instance → Instance) :
    ((s.onInstance h i.seq f).colHead h).map (fun x => x.2) = some (f i) := by
  obtain ⟨d, after⟩ := colHead_onInstance head f
  rw [after, Option.map_some]

end Heads

theorem colStart_refused {s : State} {h : Nat} {c : Comm} {i : Instance} {peers : List PeerPost}
    (bad : ¬(colRecordOk i.record c.rank c.size &&
      peers.all (fun p => colRecordOk p.record p.rank c.size && colAgree i.record p.record)) = true) :
    s.colStart h c i peers = (s.onInstance h i.seq (fun x => { x with started := true, peers := peers })).colEnd h i.seq
      (if colRecordOk i.record c.rank c.size then 6 else 4) (some { cause := if colRecordOk i.record c.rank c.size then 0x90#8 else 0x8F#8 }) :=
  if_neg bad

section Head
variable {s : State} {h : Nat} {c : Comm} {i : Instance} (head : s.colHead h = some (c, i))
include head

/-- `COLLECTIVE_INSTANCE_START` holds the posts to their rules (R242, R244). -/
theorem collectiveInstanceStart_starts (peers : List PeerPost) (works : s.colWorks h = true) (fresh : i.started = false) (going : i.status = 0)
    (ranks : peers.map (fun p => p.rank) = (List.range c.size).filter (fun r => r ≠ c.rank)) :
    let own := colRecordOk i.record c.rank c.size
    let agree := peers.all (fun p => colRecordOk p.record p.rank c.size && colAgree i.record p.record)
    Completes (.collectiveInstanceStart h peers) s (fun u => SameButJob s u ∧ (u.colHead h).map (fun x => x.2) = some (
      let j := { i with started := true, peers := peers }
      let refused (st : Nat) (cause : Byte) : Instance :=
        { j with status := st, causes := i.causes ++ [{ cause := cause }], result := [], bad := [], words := 0, hold := .going }
      if !own then refused 4 0x8F#8 else if !agree then refused 6 0x90#8 else j)) := by
  intro own agree
  have runs : exec (.collectiveInstanceStart h peers) s = .next (s.colStart h c i peers) := by
    rw [exec_collectiveInstanceStart, tryCollectiveInstanceStart, head]
    exact congrArg (passing s) (if_pos (by simp [works, fresh, going, ranks]))
  obtain ⟨d, started⟩ := colHead_onInstance head (fun x => { x with started := true, peers := peers })
  have refused (st : Nat) (cause : Byte) := head_onInstance started (fun x => { x with
    status := st, causes := x.causes ++ [{ cause := cause }], result := [], bad := [], words := 0, hold := .going })
  refine completes_of runs ?_
  by_cases valid : own = true
  · by_cases agreed : agree = true
    · have stays : s.colStart h c i peers = s.onInstance h i.seq (fun x => { x with started := true, peers := peers }) :=
        if_pos (Bool.and_eq_true_iff.mpr ⟨valid, agreed⟩)
      rw [stays, if_neg (by simp [valid]), if_neg (by simp [agreed])]
      exact ⟨rfl, head_onInstance head (fun x => { x with started := true, peers := peers })⟩
    · have ends := colStart_refused (s := s) (h := h) (c := c) (i := i) (peers := peers) (by simpa [own, agree] using fun _ => agreed)
      rw [ends, if_pos valid, if_pos valid, if_neg (by simp [valid]), if_pos (by simpa using agreed)]
      exact ⟨rfl, refused 6 0x90#8⟩
  · have ends := colStart_refused (s := s) (h := h) (c := c) (i := i) (peers := peers) (by simp [own] at valid; simp [valid])
    rw [ends, if_neg valid, if_neg valid, if_pos (by simpa using valid)]
    exact ⟨rfl, refused 4 0x8F#8⟩

section Run
variable {u : State} {own : PeerPost} (post : s.ownPost h c i = .ok u own)
include post

omit head in
theorem ownPost_stands : WorkStands s u := by
  unfold State.ownPost at post
  dsimp only at post
  split at post
  iterate 3 cases post
  next indices =>
    split at post
    iterate 3 cases post
    next body =>
      obtain ⟨rfl, -⟩ := Eng.ok.inj post
      exact (engBytes_stands indices).trans (engBytes_stands body)

/-- The operation performed once this rank's post is read (R246, R248). -/
theorem colRun_performs :
    let posts := orderPosts c.size (own :: i.peers)
    let x := c.compute i.record posts
    ((∀ p ∈ i.peers, p.refused = false) → ((s.colRun h c i).colHead h).map (fun x => x.2) = some { i with
      status := if posts.any peerPoisoned then 2 else if x.stopped.isSome then 5 else 1
      flags := x.flags, bandnw := x.stopped.getD 0, result := x.bytes, bad := x.bad, words := (x.bytes.length + 7) / 8
      causes := if peerPoisoned own then [{ cause := 0x62#8 }] else [] }) ∧
    ((∃ p ∈ i.peers, p.refused = true) → (((s.colRun h c i).colHead h).map (fun x => x.2)).map (fun j => j.status) = some 3) := by
  intro posts x
  have stood : u.colHead h = some (c, i) := ((ownPost_stands post).colHead h).trans head
  refine ⟨fun taken => ?_, fun refused => ?_⟩
  · have none : ¬(i.peers.any (fun p => p.refused)) = true := by simpa using taken
    rw [State.colRun, post]
    dsimp only
    rw [if_neg none, head_onInstance stood]
    cases peerPoisoned own <;> rfl
  · have found : i.peers.any (fun p => p.refused) = true := by simpa using refused
    rw [State.colRun, post]
    dsimp only
    rw [if_pos found, State.colEnd, head_onInstance stood]
    rfl

end Run

theorem colStep_runs {op : Nat} (works : s.colWorks h = true) (started : i.started = true) (running : i.status = 0) (going : i.hold = .going)
    (performs : colOp i.record = op) : s.colStep h op = some (s.colRun h c i) := by
  rw [State.colStep, head]
  exact if_pos (by simp [works, started, running, going, performs])

theorem colResume_goesOn (working : s.colWorking = true) (serviced : i.hold = .serviced) :
    Completes (.colResume h) s (fun u => (u.colHead h).map (fun x => x.2) = some { i with hold := .going } ∧ SameButJob s u) := by
  have runs : exec (.colResume h) s = .next (s.onInstance h i.seq (fun x => { x with hold := .going })) := by
    rw [exec_colResume, tryColResume, head]
    exact congrArg (passing s) (if_pos (by simp [working, serviced]))
  exact completes_of runs ⟨head_onInstance head _, rfl⟩

/-- A segment that is not delivered ends the oldest collective with STATUS 7 (R354). -/
theorem segmentDeliveryFailure_ends (working : s.colWorking = true) (started : i.started = true) (open_ : i.abortable = true) :
    Completes (.segmentDeliveryFailure h) s (fun u =>
      SameButJob s u ∧ ((u.colHead h).map (fun x => x.2)).map (fun x => (x.status, x.causes)) =
        some (7, i.causes ++ [{ cause := 0x91#8 }])) := by
  have runs : exec (.segmentDeliveryFailure h) s = .next (s.abortInstance h i) := by
    rw [exec_segmentDeliveryFailure, trySegmentDeliveryFailure, head]
    exact congrArg (passing s) (if_pos (by simp [working, started, open_]))
  refine completes_of runs ?_
  unfold State.abortInstance
  by_cases early : i.completed = 0
  · rw [if_pos early]
    obtain ⟨d, ended⟩ := colHead_onInstance head (fun x => { x with
      status := 7, causes := x.causes ++ [{ cause := 0x91#8 }], result := [], bad := [], words := 0, hold := .going })
    have started := head_onInstance ended (fun x => { x with started := true })
    exact ⟨rfl, congrArg (Option.map _) started⟩
  · rw [if_neg early]
    exact ⟨rfl, congrArg (Option.map _) (head_onInstance head _)⟩

end Head

theorem compute_broadcast {c : Comm} {r : List Word} {posts : List PeerPost} {q : PeerPost} (op : colOp r = 2)
    (root : posts.find? (fun q => q.rank == colRoot r) = some q) : (c.compute r posts).bytes = q.bytes.map (fun b => b.toNat) := by
  simp only [Comm.compute, op, root]

theorem compute_allGather {c : Comm} {r : List Word} (posts : List PeerPost) (op : colOp r = 3) :
    (c.compute r posts).bytes = (posts.map (fun q => q.bytes.map (fun b => b.toNat))).flatten := by
  simp only [Comm.compute, op, List.flatMap_def]

/-! Instances aborted (R248, R353). -/

/-- A change of instances that aborts those of some numbers and lets no other become abortable. -/
structure Aborts (ns : List Nat) (g : Instance → Instance) : Prop where
  seq : ∀ x, (g x).seq = x.seq
  ends : ∀ x, x.seq ∈ ns → (g x).abortable = false
  keeps : ∀ x, x.abortable = false → (g x).abortable = false

namespace Aborts

theorem id_nil : Aborts [] id := ⟨fun _ => rfl, fun _ h => (List.not_mem_nil h).elim, fun _ h => h⟩

theorem comp {l m : List Nat} {f g : Instance → Instance} (hf : Aborts l f) (hg : Aborts m g) : Aborts (l ++ m) (g ∘ f) := by
  refine ⟨fun x => (hg.seq _).trans (hf.seq x), fun x mem => ?_, fun x h => hg.keeps _ (hf.keeps x h)⟩
  rcases List.mem_append.mp mem with first | second
  · exact hg.keeps _ (hf.ends x first)
  · exact hg.ends _ (by rwa [hf.seq])

theorem of_status (n : Nat) {f : Instance → Instance} (seq : ∀ x, (f x).seq = x.seq) (status : ∀ x, (f x).status = 7) :
    Aborts [n] (fun x => if x.seq = n then f x else x) := by
  have ended (x : Instance) : (f x).abortable = false := by simp [Instance.abortable, status]
  refine ⟨fun x => ?_, fun x mem => ?_, fun x h => ?_⟩
  · split
    · exact seq x
    · rfl
  · rw [if_pos (List.mem_singleton.mp mem)]
    exact ended x
  · split
    · exact ended x
    · exact h

end Aborts

section Abort
variable {s : State} {h : Nat} {c : Comm}

theorem abortInstance_aborts (own : lookup h s.job.comms = some c) (i : Instance) :
    ∃ g, Aborts [i.seq] g ∧ lookup h (s.abortInstance h i).job.comms = some { c with instances := c.instances.map g } ∧
      SameButJob s (s.abortInstance h i) := by
  unfold State.abortInstance
  by_cases early : i.completed = 0
  · rw [if_pos early]
    have ends := Aborts.of_status i.seq (f := fun x => { x with
      status := 7, causes := x.causes ++ [{ cause := 0x91#8 }], result := [], bad := [], words := 0, hold := .going })
      (fun _ => rfl) (fun _ => rfl)
    have starts : Aborts [] (fun x => if x.seq = i.seq then { x with started := true } else x) :=
      ⟨fun x => by split <;> rfl, fun _ mem => (List.not_mem_nil mem).elim, fun x closed => by split <;> exact closed⟩
    refine ⟨_, ends.comp starts, ?_, rfl⟩
    rw [← List.map_map]
    exact lookup_onInstance (lookup_onInstance own _ _) _ _
  · rw [if_neg early]
    have ends := Aborts.of_status i.seq (f := fun x => { x with status := 7, causes := x.causes ++ [{ cause := 0x91#8 }], hold := .going })
      (fun _ => rfl) (fun _ => rfl)
    exact ⟨_, ends, lookup_onInstance own _ _, rfl⟩

theorem foldl_abortInstance_aborts (own : lookup h s.job.comms = some c) (l : List Instance) :
    ∃ g, Aborts (l.map (fun i => i.seq)) g ∧
      lookup h (l.foldl (fun t i => t.abortInstance h i) s).job.comms = some { c with instances := c.instances.map g } ∧
      SameButJob s (l.foldl (fun t i => t.abortInstance h i) s) := by
  induction l generalizing s c with
  | nil => exact ⟨id, .id_nil, by rw [List.map_id]; exact own, .refl s⟩
  | cons i l ih =>
    obtain ⟨f, abortsF, ownF, sameF⟩ := abortInstance_aborts own i
    obtain ⟨g, abortsG, ownG, sameG⟩ := ih ownF
    exact ⟨g ∘ f, abortsF.comp abortsG, by rw [← List.map_map]; exact ownG, sameF.trans sameG⟩

/-- Every collective of the communicator that could be aborted is (R248). -/
theorem abortInstances_aborts {d : Comm} (own : lookup h s.job.comms = some d) (same : d.instances = c.instances) :
    SameButJob s (s.abortInstances h c) ∧ ∃ e, lookup h (s.abortInstances h c).job.comms = some e ∧ e.lost = d.lost ∧
      e.instances.length = c.instances.length ∧ ∀ i ∈ e.instances, i.abortable = false := by
  obtain ⟨g, aborts, after, frame⟩ := foldl_abortInstance_aborts own (c.instances.filter (fun i => i.abortable))
  refine ⟨frame, _, after, rfl, by rw [List.length_map, same], fun y mem => ?_⟩
  obtain ⟨x, listed, rfl⟩ := List.mem_map.mp mem
  cases open_ : x.abortable with
  | false => exact aborts.keeps x open_
  | true => exact aborts.ends x (List.mem_map_of_mem (List.mem_filter.mpr ⟨same ▸ listed, open_⟩))

theorem colAbort_aborts (own : lookup h s.job.comms = some c) (working : s.colWorking = true) (ends : c.ending = true ∨ c.lost ≠ [])
    (found : ∃ i ∈ c.instances, i.abortable = true) : Completes (.colAbort h) s (fun u => SameButJob s u ∧
      ∃ d, lookup h u.job.comms = some d ∧ d.instances.length = c.instances.length ∧ ∀ i ∈ d.instances, i.abortable = false) := by
  have runs : exec (.colAbort h) s = .next (s.abortInstances h c) := by
    rw [exec_colAbort, tryColAbort, own]
    exact congrArg (passing s) (if_pos (by simpa [working] using ⟨ends, found⟩))
  obtain ⟨frame, d, after, -, aborted⟩ := abortInstances_aborts own rfl
  exact completes_of runs ⟨frame, d, after, aborted⟩

/-- Firmware reports a member lost: its instances are aborted (R248, R353). -/
theorem memberPackageLost_aborts {rank : Nat} (own : lookup h s.job.comms = some c) (small : rank < c.size) (other : rank ≠ c.rank)
    (new : rank ∉ c.lost) : Completes (.memberPackageLost h rank) s (fun u => SameButJob s u ∧ ∃ d, lookup h u.job.comms = some d ∧
      d.lost = rank :: c.lost ∧ d.instances.length = c.instances.length ∧ ∀ i ∈ d.instances, i.abortable = false) := by
  have runs : exec (.memberPackageLost h rank) s =
      .next ((s.onComm h (fun x => { x with lost := rank :: x.lost })).abortInstances h c) := by
    rw [exec_memberPackageLost, tryMemberPackageLost, own]
    exact congrArg (passing s) (if_pos (by simp [small, other, new]))
  have told : lookup h (s.onComm h (fun x => { x with lost := rank :: x.lost })).job.comms = some { c with lost := rank :: c.lost } :=
    (lookup_modify_self _ _ _).trans (congrArg _ own)
  obtain ⟨frame, aborted⟩ := abortInstances_aborts (c := c) told rfl
  exact completes_of runs ⟨SameButJob.trans (t := s.onComm h (fun x => { x with lost := rank :: x.lost })) rfl frame, aborted⟩

end Abort

end Sys2Proof.Machine
end

section
/-! PROOFS. The completion of a collective (R245) and the commands of communicators (R297). -/

namespace Sys2Proof.Machine

@[simp] theorem readWord_onComm (s : State) (h a : Nat) (f : Comm → Comm) : (s.onComm h f).readWord a = s.readWord a := rfl
@[simp] theorem readByte_onComm (s : State) (h a : Nat) (f : Comm → Comm) : (s.onComm h f).readByte a = s.readByte a := rfl
@[simp] theorem feBit_onComm (s : State) (h a : Nat) (f : Comm → Comm) : (s.onComm h f).feBit a = s.feBit a := rfl

@[simp] theorem readWord_onInstance (s : State) (h n a : Nat) (f : Instance → Instance) : (s.onInstance h n f).readWord a = s.readWord a := rfl
@[simp] theorem readByte_onInstance (s : State) (h n a : Nat) (f : Instance → Instance) : (s.onInstance h n f).readByte a = s.readByte a := rfl
@[simp] theorem feBit_onInstance (s : State) (h n a : Nat) (f : Instance → Instance) : (s.onInstance h n f).feBit a = s.feBit a := rfl

section Completion
variable {s u v : State} {h : Nat} {c : Comm} {i : Instance} {a b : Nat} {ha hb : Option Nat}

/-- A full write of a completion at which nobody is parked (R237): the dword, its bit, and every other byte as it was. -/
theorem storeFull_nobody (canonical : Canonical v) (quiet : QuietHome v hb) (nobody : NobodyParked v b) (aligned : b % 8 = 0)
    (w : Writer) (n : Nat) :
    (v.storeFull w b n hb).readWord b = BitVec.ofNat 64 n ∧ (v.storeFull w b n hb).feBit b = true ∧
      ∀ y, y / 8 ≠ b / 8 → (v.storeFull w b n hb).readByte y = v.readByte y := by
  have quiet' : QuietHome (v.setFe b true) hb := quiet
  have still : NobodyParked ((v.setFe b true).store w b 8 n hb) b := by
    obtain ⟨_, _, job⟩ := (store_onlyMemory (v.setFe b true) w b 8 n hb).job
    rw [NobodyParked, job]
    exact nobody
  have stored : v.storeFull w b n hb = (v.setFe b true).store w b 8 n hb := bitChanged_nobody still _
  obtain ⟨holds, bits⟩ := store_holds canonical.setFe quiet' w b 8 n
  rw [stored]
  refine ⟨readWord_store_quiet canonical.setFe.1 quiet' w b n, ?_, fun y outside => ?_⟩
  · rw [bits, feBit_setFe canonical.fe, if_pos rfl]
  · rw [holds y, if_neg (by omega)]
    rfl

/-- A completion write that lands is a step made (R245). -/
theorem colWrite_lands {full : Bool} {step n : Nat} {va : Word} (next : i.completed < step) (takes : colUsable i.record = true)
    (spot : s.engSpotAs (if full then .engFlag else .engWrite) (i.by_ h) va 8 = .ok u (a, ha)) :
    s.colWrite h i step full va n = .on
      ((if full then u.storeFull i.poster.writer a n ha else u.store i.poster.writer a 8 n ha).onInstance h i.seq
      (fun x => { x with completed := step })) := by
  have goes : ¬(step ≤ i.completed || !colUsable i.record) = true := by simp [takes, next]
  have written : s.completionWrite (i.by_ h) i.poster.writer full va n =
      .ok (if full then u.storeFull i.poster.writer a n ha else u.store i.poster.writer a 8 n ha) () := by
    rw [State.completionWrite, spot]
  rw [State.colWrite, if_neg goes, written]

/-- The state in which a completed collective has left its communicator (R245). -/
def State.withoutInstance (s : State) (h n : Nat) : State :=
  s.onComm h (fun c => { c with instances := c.instances.filter (fun x => !(x.seq == n)) })

/-- A collective without a cause leaves its communicator and moves the timeline (R245). -/
theorem colLeaves_leaves (nothing : i.causes = []) : WorkStands (s.withoutInstance h i.seq) (s.colLeaves h i) ∧
    SameMemory ((s.withoutInstance h i.seq).writeTimeline (0x3000 + 8 * h) i.seq) (s.colLeaves h i) := by
  obtain ⟨stands, same⟩ := requestGone_work ((s.withoutInstance h i.seq).writeTimeline (0x3000 + 8 * h) i.seq) 6 h i.seq i.poster
  rw [State.colLeaves, nothing]
  exact ⟨(WorkStands.of_memory (writeTimeline_onlyMemory _ _ _)).trans stands, same⟩

theorem withoutInstance_without {d : Comm} {n : Nat} (left : lookup h (s.withoutInstance h n).job.comms = some d) :
    ∀ y ∈ d.instances, y.seq ≠ n := by
  obtain ⟨e, -, rfl⟩ := Option.map_eq_some_iff.mp ((lookup_modify_self h _ _).symm.trans left)
  intro y mem
  simpa using (List.mem_filter.mp mem).2

/-- The completion record of a collective whose result is written: COLSTAT, then the flag, then the timeline (R245). -/
theorem colCompletion_completes (head : s.colHead h = some (c, i)) (works : s.colWorks h = true)
    (idle : s.job.writing (i.by_ h).request = false) (ended : i.status ≠ 0) (going : i.hold = .going) (received : i.completed = 1)
    (nothing : i.causes = []) (takes : colUsable i.record = true)
    (stat : s.engSpotAs .engWrite (i.by_ h) (i.record.getD 6 0#64) 8 = .ok u (a, ha)) (alignedA : a % 8 = 0) (canonU : Canonical u)
    (quietU : QuietHome u ha) :
    let w := (u.store i.poster.writer a 8 (colstat i) ha).onInstance h i.seq (fun x => { x with completed := 2 })
    w.engSpotAs .engFlag (i.by_ h) (i.record.getD 6 0#64 + 8#64) 8 = .ok v (b, hb) → b % 8 = 0 → Canonical v →
    QuietHome v hb → NobodyParked v b → Completes (.colCompletion h) s (fun t =>
      w.readWord a = BitVec.ofNat 64 (colstat i) ∧ (∀ y, y / 8 ≠ a / 8 → w.readByte y = u.readByte y) ∧
      (∃ x : State, x.readWord b = BitVec.ofNat 64 i.seq ∧ x.feBit b = true ∧
        (∀ y, y / 8 ≠ b / 8 → x.readByte y = v.readByte y) ∧ SameMemory (x.writeTimeline (0x3000 + 8 * h) i.seq) t) ∧
      ∀ d, lookup h t.job.comms = some d → ∀ y ∈ d.instances, y.seq ≠ i.seq) := by
  intro w flag alignedB canonV quietV nobody
  let done := (v.storeFull i.poster.writer b i.seq hb).onInstance h i.seq (fun x => { x with completed := 3 })
  have first : s.colWrite h i 2 false (i.record.getD 6 0#64) (colstat i) = .on w :=
    colWrite_lands (full := false) (by omega) takes stat
  have second : w.colWrite h i 3 true (i.record.getD 6 0#64 + 8#64) i.seq = .on done :=
    colWrite_lands (full := true) (by omega) takes flag
  have arrived : s.colReceive h i = .on s := if_pos (by omega)
  have completes : s.colComplete h i = done.colLeaves h i := by
    rw [State.colComplete, arrived]
    dsimp only
    rw [if_neg (by simp [idle]), first]
    dsimp only
    rw [second]
  have runs : exec (.colCompletion h) s = .next (done.colLeaves h i) := by
    rw [exec_colCompletion, tryColCompletion, head]
    exact (congrArg (passing s) (if_pos (by simp [works, ended, going, idle]))).trans (by rw [completes, passing_some])
  obtain ⟨stands, same⟩ := colLeaves_leaves (s := done) (h := h) nothing
  obtain ⟨holds, -⟩ := store_holds canonU quietU i.poster.writer a 8 (colstat i)
  obtain ⟨word, bit, others⟩ := storeFull_nobody canonV quietV nobody alignedB i.poster.writer i.seq
  refine completes_of runs ⟨?_, fun y outside => ?_, ⟨done.withoutInstance h i.seq, ?_, ?_, fun y outside => ?_, same⟩, fun d left => ?_⟩
  · exact (readWord_onInstance _ _ _ _ _).trans (readWord_store_quiet canonU.1 quietU _ _ _)
  · exact (readByte_onInstance _ _ _ _ _).trans ((holds y).trans (if_neg (by omega)))
  · exact ((readWord_onComm _ _ _ _).trans (readWord_onInstance _ _ _ _ _)).trans word
  · exact ((feBit_onComm _ _ _ _).trans (feBit_onInstance _ _ _ _ _)).trans bit
  · exact ((readByte_onComm _ _ _ _).trans (readByte_onInstance _ _ _ _ _)).trans (others y outside)
  · rw [stands.comms] at left
    exact withoutInstance_without left

end Completion

/-- A state with the list of commands that wait (R297). -/
def State.withCommands (s : State) (l : List Word) : State := { s with job := { s.job with commands := l } }

section Commands
variable {s u v : State} {va : Word} {cell : Nat} {home : Option Nat} {p : Nat → Bool}
  (cells : s.hwCell true va 64 = .ok (u, cell, home)) (clean : ∀ i < 8, u.poisoned (cell + 8 * i) = false)
  (taken : p (commOp (u.getWords cell 8)) = true)
include cells clean taken

omit cells in
theorem command_readable : ¬(!p (commOp (u.getWords cell 8)) || (List.range 8).any (fun i => u.poisoned (cell + 8 * i))) = true := by
  simpa [taken] using clean

/-- A command that is finished writes its CSTAT (R297): the communicators are those it leaves. -/
theorem firmwareComm_finished {stat : Nat} (step : u.commCommand (u.getWords cell 8) = .finished v stat) :
    ∃ w, s.firmwareComm va p = some w ∧ w.job.comms = v.job.comms := by
  rw [State.firmwareComm, cells]
  dsimp only
  rw [if_neg (command_readable clean taken), step]
  dsimp only
  split
  · next written => exact ⟨_, rfl, (hwWrite_onlyMemory written).comms⟩
  · exact ⟨_, rfl, rfl⟩

/-- A command that waits is kept (R297). -/
theorem firmwareComm_waiting (step : u.commCommand (u.getWords cell 8) = .waiting v) :
    s.firmwareComm va p = some (v.withCommands (s.job.commands.filter (fun x => x ≠ va) ++ [va])) := by
  rw [State.firmwareComm, cells]
  dsimp only
  rw [if_neg (command_readable clean taken), step]
  rfl

end Commands

section Firmware
variable {s u v : State} {va : Word} {cell : Nat} {home : Option Nat} (running : s.job.status = .running)
  (cells : s.hwCell true va 64 = .ok (u, cell, home)) (clean : ∀ i < 8, u.poisoned (cell + 8 * i) = false)
include running cells clean

/-- `COMM_CREATE` enters the communicator that the block and its tree describe (R239, R297). -/
theorem commCreate_creates {tree : List Nat} (op : commOp (u.getWords cell 8) = 1) (ok : commCreateOk (u.getWords cell 8) = true)
    (unused : lookup (commHandle (u.getWords cell 8)) u.job.comms = none)
    (reads : State.engReads { request := requestId 7 (commHandle (u.getWords cell 8)) 0, chunk := 0, priv := .user }
      (items ((u.getWords cell 8).getD 2 0#64) 8 (commSize (u.getWords cell 8) + commNodes (u.getWords cell 8))) u = .ok v tree) :
    Completes (.commCreate va) s (fun t => lookup (commHandle (u.getWords cell 8)) t.job.comms = some (newComm (u.getWords cell 8) tree)) := by
  obtain ⟨w, made, comms⟩ := firmwareComm_finished (p := fun op => op = 1) cells clean (by simpa using op)
    (commCommand_create op ok unused reads)
  have runs : exec (.commCreate va) s = .next w := by
    rw [exec_commCreate, tryCommCreate, made]
    exact congrArg (passing s) (if_pos running)
  refine completes_of runs ?_
  rw [comms, (commCreate_onlyMemory v _ tree).comms]
  exact lookup_assign_self _ _ _

section End
variable {c : Comm} (op : commOp (u.getWords cell 8) = 2) (ok : commReservedOk (u.getWords cell 8) = true)
  (used : lookup (commHandle (u.getWords cell 8)) u.job.comms = some c)
include op ok used

/-- `COMM_END` of an idle communicator removes it (R297). -/
theorem commEnd_removes (idle : c.instances = []) :
    Completes (.commEnd va) s (fun t => t.job.comms = remove (commHandle (u.getWords cell 8)) u.job.comms) := by
  obtain ⟨w, made, comms⟩ := firmwareComm_finished (p := fun op => op = 2) cells clean (by simpa using op) (commCommand_end op ok used idle)
  have runs : exec (.commEnd va) s = .next w := by
    rw [exec_commEnd, tryCommEnd, made]
    exact congrArg (passing s) (if_pos running)
  exact completes_of runs comms

/-- `COMM_END` of a busy communicator waits for its instances (R297). -/
theorem commEnd_waits (busy : c.instances ≠ []) : Completes (.commEnd va) s (fun t => va ∈ t.job.commands ∧
    lookup (commHandle (u.getWords cell 8)) t.job.comms = some { c with ending := true }) := by
  have kept := firmwareComm_waiting (p := fun op => op = 2) cells clean (by simpa using op) (commCommand_endWaits op ok used busy)
  have runs : exec (.commEnd va) s = .next ((u.onComm (commHandle (u.getWords cell 8)) (fun x => { x with ending := true })).withCommands
      (s.job.commands.filter (fun x => x ≠ va) ++ [va])) := by
    rw [exec_commEnd, tryCommEnd, kept]
    exact congrArg (passing s) (if_pos running)
  exact completes_of runs ⟨List.mem_append_right _ (List.mem_singleton.mpr rfl), (lookup_modify_self _ _ _).trans (congrArg _ used)⟩

end End

end Firmware

end Sys2Proof.Machine
end

section
/-! PROOFS. O52. -/

namespace Sys2Proof.Machine

theorem Completes.imp {i : Instr} {s : State} {P Q : State → Prop} (h : Completes i s P) (weaker : ∀ u, P u → Q u) : Completes i s Q := by
  obtain ⟨u, run, holds⟩ := h
  exact ⟨u, run, weaker u holds⟩

/-- The outcome of a task that ends with a cause, or without one. -/
theorem final_outcome {o : Option Task} {t : Task} {st : Nat} {c : Byte} (h : o = some (t.final st (some { cause := c }))) :
    o.map (fun x => (x.state, x.cause)) = some (st, c.toNat) := by
  rw [h]
  rfl

theorem final_outcome_none {o : Option Task} {t : Task} {st : Nat} (h : o = some (t.final st none)) :
    o.map (fun x => (x.state, x.cause)) = some (st, t.cause) := by
  rw [h]
  rfl

/-- A flag of an image's tile state is a bit of it. -/
theorem field_one (d i : Nat) : decide (field d i 1 = 1) = d.testBit i := Nat.testBit_eq_decide_div_mod_eq.symm

/-- Settles O52: tile tasks from dispatch to completion, one K-block of a row, and collectives from start to completion. -/
theorem tileTasksAndCollectivesAct : Obligations.TileTasksAndCollectivesAct := by
  unfold Obligations.TileTasksAndCollectivesAct
  intro s all cycle
  refine ⟨?_, ?_, ?_, ?_, ?_, ?_, ?_⟩
  · intro die list t r h tile now acc ended nobody image found
    refine ⟨?_, ?_, ?_, ?_, ?_⟩
    · intro running there free next valid taken
      have runs := taskDispatch_takes running there free next
      refine ⟨fun bad canonical quiet => ?_, fun ok op => ?_, fun ok clear load nobody_ unused => ?_,
        fun a ok clear load nobody_ at_ idle unheld unskipped key => ?_⟩
      · obtain ⟨task, status⟩ := dispatch_invalid (list := list) found bad
        exact completes_of runs ⟨final_outcome task, status canonical quiet⟩
      · exact completes_of runs (dispatch_allocation found ok op)
      · exact completes_of runs (final_outcome (dispatch_noAcc found ok clear load nobody_ unused))
      · exact completes_of runs (dispatch_begins found ok clear load nobody_ at_ idle unheld unskipped key)
    · intro works next
      refine ⟨fun used => ?_, fun unused room => ?_⟩
      · exact completes_of (aclr_clears works next (.inl used)) (final_outcome (clearAcc_used found used))
      · obtain ⟨task, made⟩ := clearAcc_unused found unused
        refine completes_of (aclr_clears works next (.inr room)) ⟨final_outcome_none task, _, made, rfl, rfl, rfl, rfl, rfl, rfl, rfl, rfl, rfl,
          rfl, rfl, List.length_replicate, fun x mem => ?_⟩
        rw [List.eq_of_mem_replicate mem]
        exact ⟨rfl, rfl, rfl, rfl, rfl⟩
    · intro works next
      refine ⟨fun used => (aload_used found works next used).imp fun u h => final_outcome h, ?_, ?_⟩
      · intro u bytes bad unused first read ws d1 fits
        refine ⟨fun poisoned => ?_, fun clean no => ?_, fun clean yes => ?_⟩
        · exact (aload_poisoned found works next (loadAcc_header unused first) read poisoned).imp fun u h => final_outcome h
        · exact ((aload_header found works next unused first read clean).1 no).imp fun u h => final_outcome h
        · exact (aload_header found works next unused first read clean).2 yes
      · intro u bytes bad unused later d0 d1 gc gr size room read row
        refine ⟨fun poisoned => ?_, fun clean refused => ?_, fun x clean good more => ?_, fun x clean good last => ?_⟩
        · exact (aload_poisoned found works next (loadAcc_row unused later room) read poisoned).imp fun u h => final_outcome h
        · exact ((aload_row found works next unused later room read clean).1 refused).imp fun u h => final_outcome h
        · exact (aload_row found works next unused later room read clean).2.1 x good more
        · refine ((aload_row found works next unused later room read clean).2.2 x good last).imp fun u h => ?_
          obtain ⟨task, made⟩ := h
          exact ⟨final_outcome_none (t := { t with loaded := [] }) task, _, made, rfl, rfl, rfl, field_one _ 3, field_one _ 1, field_one _ 2,
            rfl, rfl, rfl, rfl, rfl⟩
    · exact fun running serviced => taskResume_goesOn running found serviced
    · exact fun works last nobody_ silent => taskCompletion_completes works last nobody_ silent
  · intro die h op a t r now acc base hand
    refine ⟨?_, ?_, ?_, ?_, ?_, ?_⟩
    · rintro rfl first u loads
      refine (mma_begins hand first loads).imp fun v ⟨task, put⟩ => ⟨?_, fun e mem => ?_⟩
      · rw [show now v = _ from task]
        exact congrArg (fun n => some (1, n)) (inHand_some hand).runs
      · obtain ⟨p, at_, ⟨addr, fmt, aux⟩, col⟩ := put e mem
        exact ⟨p, at_, addr, fmt, aux, col⟩
    · rintro i x rfl row ready alive
      refine ⟨fun peers untold => exponentMessage_told hand row ready alive peers untold, fun told unheld => ?_⟩
      exact applyBlock_outcome hand row ready alive told unheld
    · rintro rfl unheld waits long
      exact groupWatchdog_ends hand unheld waits long
    · rintro rfl x row bytes u ss spots
      have runs := rdout_writes hand row
      refine ⟨fun more idle canonical apart => ?_, fun final unheld => ?_⟩
      · exact completes_of runs (rowOut_more (inHand_some hand) spots more all (readout_bytes x _ _) idle canonical apart)
      · exact completes_of runs (rowOut_last (inHand_some hand) spots final unheld)
    · rintro rfl x row head bytes off u ss spots
      have runs := asave_writes hand row
      refine ⟨fun more idle canonical apart => ?_, fun final unheld => ?_⟩
      · exact completes_of runs (rowOut_more (inHand_some hand) spots more all (save_bytes x _ _ _) idle canonical apart)
      · exact completes_of runs (rowOut_last (inHand_some hand) spots final unheld)
    · rintro rfl unheld nobody
      exact afree_frees hand unheld nobody
  · intro aln pa xa qa cols row p e out
    refine ⟨applyBlock_nan, applyBlock_infinite, fun number finite zero => ?_, fun number exact_ length fresh j c column => ?_⟩
    · refine applyBlock_zero number ?_ fun c mem => (partialOf_sum qa c.q).trans (zero c mem).2
      rintro (infinite | ⟨c, mem, infinite⟩)
      · exact finite infinite
      · exact (zero c mem).1 infinite
    · have value := applyBlock_exact number exact_ length fresh column
      rwa [partialOf_sum, show (xa : Int) - 127 + ((c.x : Int) - 127) = e c by simp only [e]; omega] at value
  · intro h c i found head
    refine ⟨fun peers works fresh going ranks => collectiveInstanceStart_starts found peers works fresh going ranks, ?_, ?_, ?_, ?_⟩
    · intro u own works started running going post posts x runs
      obtain ⟨taken, refused⟩ := colRun_performs found post
      have performs {op : Nat} {y : Instr} (exec_ : exec y s = passing s (s.colStep h op)) (is : colOp i.record = op) : runs y := by
        have run : exec y s = .next (s.colRun h c i) := by rw [exec_, colStep_runs found works started running going is, passing_some]
        exact ⟨fun all_ => completes_of run (taken all_), fun one => completes_of run (refused one)⟩
      exact ⟨performs (exec_colDenseAllreduce h s), performs (exec_colSparseAllreduce h s),
        fun is => ⟨performs (exec_colBroadcast h s) is, fun q root => compute_broadcast is root⟩,
        fun is => ⟨performs (exec_colAllGather h s) is, compute_allGather posts is⟩⟩
    · exact fun working serviced => colResume_goesOn found working serviced
    · intro u a ha v b hb works idle ended going received nothing takes stat alignedA canonU quietU
      exact colCompletion_completes found works idle ended going received nothing takes stat alignedA canonU quietU
    · exact fun working started open_ => segmentDeliveryFailure_ends found working started open_
  · exact fun h c own working ends found => colAbort_aborts own working ends found
  · exact fun h rank c own small other new => memberPackageLost_aborts own small other new
  · intro va u cell home running cells clean b q
    refine ⟨fun v tree op ok unused reads => ?_, fun c op ok used => ⟨fun idle => ?_, fun busy => ?_⟩⟩
    · exact (commCreate_creates running cells clean op ok unused reads).imp fun t made => ⟨_, made, rfl, rfl, rfl, rfl, rfl, rfl, rfl⟩
    · exact commEnd_removes running cells clean op ok used idle
    · exact commEnd_waits running cells clean op ok used busy

end Sys2Proof.Machine
end
